-- ==== Sys2Proof/Word.lean ====
section
/-! DEFINITION. The word types of the block: the 32-bit packet and register word, and the wider vectors that frames carry. -/

namespace Sys2Proof

/-- A word of a command packet, of a register or of a host buffer: 32 bits (R387, R492). -/
abbrev Word := BitVec 32

/-- A byte of a host buffer or of a link (R394). -/
abbrev Byte := BitVec 8

end Sys2Proof
end

