-- ==== Sys2Proof/Machine/Inputs.lean ====
section
/-! DEFINITION. What arrives from outside with a command of the block: host packets, frames, messages and measurements. The table gives
its rows no fields (98_reader.md), so these are what the rules of each row say is received. -/

namespace Sys2Proof

/-- What starts a PCIe reset (R444). -/
inductive PcieResetKind where
  | perst
  | hotReset
  | linkDown
  deriving DecidableEq, Repr

/-- One host command as the device fetched it (R387): the function and ring it came from, the fields of word 0, `CMD_ID`, the
buffer address, words 4 to 14, word 15, and the content of an inbound buffer with its check word last (R395). -/
structure Req where
  /-- `FN`: 0 to 255 a tenant, 0x100 the management function (R356). -/
  fn : Nat
  /-- Submission ring q, 0 to 15 (R384). -/
  ring : Nat
  /-- `SIZE`, 8 bits. -/
  size : Nat := 0
  /-- Word 0 [23:18], reserved. -/
  resv : Nat := 0
  ordered : Bool := false
  trailer : Bool := false
  cmdId : Word := 0
  /-- `BUF`, 64 bits. -/
  buf : Nat := 0
  /-- Words 4 to 14, word 4 first; a word not listed is 0. -/
  w : List Word := []
  w15 : Word := 0
  /-- The words of the inbound buffer, the check word last. -/
  inb : List Word := []
  /-- False when the read of the buffer ended in an unsupported request, an abort or poisoned data (R395). -/
  inbReadable : Bool := true
  /-- The packet came over the pair channel in a `MIRROR` (R421), not from a ring of this device. In a `MIRROR` itself: it is one that the
  receiver asked for. -/
  twin : Bool := false
  /-- The packet is this device's own and comes back from the primary, which has decided it (R421). -/
  back : Bool := false
  /-- `MSEQ` of the `MIRROR` that brought it. -/
  mseq : Nat := 0
  deriving DecidableEq, Repr

/-- A packet of a submission ring: its opcode (class in [15:8], mnemonic in [7:0]) and the rest (R387). -/
structure Packet where
  op : Nat
  req : Req
  deriving DecidableEq, Repr

/-- A port's overcurrent (R39): the local chain port, and the position delays measured after the wrap, slot by slot (R18). -/
structure PortTrip where
  port : Nat
  delays : List Nat := []
  deriving DecidableEq, Repr

/-- A chain frame as it reaches a port of the device (R40 to R44, R64). In normal mode `blocks` are `BLK[0]` to `BLK[7]` and
`xblks` the two resend positions; in wrap mode `blocks` are the up-phase of one half, nearest tag first. The first transmitted
bit of a field is its most significant bit. -/
structure ChainFrame where
  chain : Nat
  /-- The frame reached port B (always so in normal mode). -/
  portB : Bool := true
  /-- The port's receiver is in lock. -/
  locked : Bool := true
  /-- What stands on the line, as the receiver's pair is wired, at the expected time of `SYNC` (R32, R40). -/
  syncWord : BitVec 32 := 0xF6281D4B
  header : BitVec 128 := 0
  cmds : BitVec 256 := 0
  fcrc : BitVec 32 := 0
  blocks : List (BitVec 544) := []
  xblks : List (BitVec 544) := []
  deriving DecidableEq, Repr

/-- One chain sub-block of an up lane frame: its place c in the frame, its chain header and its stripped tag blocks (R82, R84). -/
structure SubBlock where
  place : Nat
  header : BitVec 64
  blocks : List (BitVec 520)
  deriving DecidableEq, Repr

/-- What the shadow sampler of a lane end shows of the last second (R103): widths in mUI and heights in mV of the three eyes, the pre-FEC bit
error ratio in units of 10^-9 and as binary32. -/
structure LaneFigures where
  eyeW : List Nat := []
  eyeH : List Nat := []
  ber : Nat := 0
  berBits : Word := 0
  deriving DecidableEq, Repr

/-- An up lane frame (R82, R83), also as forwarded or rebuilt over a twin lane (R100). A chain whose sub-block is not listed is absent
(R89). -/
structure UpFrame where
  lane : Nat
  /-- What stands at the expected place of the alignment marker before a frame that begins a span (R78, R79). -/
  marker : Option (BitVec 560) := none
  /-- Codewords corrected, and codewords found uncorrectable, since the previous frame (R95, R103). -/
  corrected : Nat := 0
  uncorrectable : Nat := 0
  /-- The figures of a second that ended since the previous frame (R503). -/
  figures : Option LaneFigures := none
  header : BitVec 256
  subs : List SubBlock := []
  lease : BitVec 128 := 0
  page : BitVec 256 := 0
  /-- Frame bits 256 to 319 of a training frame (R224). -/
  training : BitVec 64 := 0
  entries : List (BitVec 600) := []
  tcrc : BitVec 32 := 0
  deriving DecidableEq, Repr

/-- A down lane frame (R86), also as a twin sends it for relay (R100): the lane it names, its header, the sub-blocks of chains 0 to 255, the
request words, both lease records and `TCRC`; its fill is zero. -/
structure DownFrame where
  lane : Nat
  header : BitVec 256
  subs : List (BitVec 320) := []
  requests : List (BitVec 64) := []
  lease0 : BitVec 128 := 0
  lease1 : BitVec 128 := 0
  tcrc : BitVec 32 := 0
  deriving DecidableEq, Repr

/-- How a lane failed, and what was measured after it (R18, R95): clock-and-data lock was lost; the lane part of the position delays behind
the bridge over the path that is left, 0.1 ns. -/
structure LaneFault where
  lockLost : Bool := false
  delay : Option Nat := none
  deriving DecidableEq, Repr

/-- A lane that may be degraded, with the figures of the latest second where they are new (R95, R103). -/
structure LaneReading where
  lane : Nat
  figures : Option LaneFigures := none
  deriving DecidableEq, Repr

/-- What a lane end measures of itself and its medium (R102, R103, R226). Widths in mUI, heights in mV; the pre-FEC bit error ratio in
units of 10^-9. -/
structure LaneMeasure where
  locked : Bool := true
  peerUid : Nat := 0
  peerModeOk : Bool := true
  /-- The echoes of the identify phase: each round trip in 0.1 ns, with the `TURN` of its header. -/
  echoes : List (Nat × Nat) := []
  /-- Difference between the down and the up delay, 0.1 ns. -/
  skew : Nat := 0
  /-- One-way delay of the bridge's other uplink where the twin has it, 0.1 ns (R80). -/
  otherDelay : Option Nat := none
  figures : LaneFigures := {}
  corrected : Nat := 0
  uncorrectable : Nat := 0
  deriving DecidableEq, Repr

/-- What a device learns over the twin lanes of a twin that forms a pair with it (R417): its variant code, whether it is in service, its
die identity and firmware versions, the `SRC_UID` of the bridge behind each of its bridge lanes, and its lane map. -/
structure PeerView where
  variant : Nat := 1
  inService : Bool := false
  dieUid : Nat := 0
  fwVersion : Nat := 0
  safetyVersion : Nat := 0
  uids : List (Nat × Nat) := []
  /-- Its lane map: own lane and the primary's lane to the same bridge. -/
  laneMap : List (Nat × Nat) := []
  deriving DecidableEq, Repr

/-- A message of the pair channel: its `MSEQ` and body words (R423). -/
structure PairMsg where
  mseq : Nat := 0
  /-- The message was authenticated with the pair key (R467, R468). -/
  authentic : Bool := true
  body : List Word := []
  deriving DecidableEq, Repr

/-- What an uncorrectable HBM error struck (R129, R132, R155, R178, R279). -/
inductive HbmTarget where
  | boltEntry (pos pick : Nat)
  | settledStore (pos m : Nat)
  /-- The primary-path state of a channel: the earlier copy and the settled samples give the same outputs (R121; log 66). -/
  | primaryState (chi : Nat)
  /-- A record, open or committed: a standard one of interval j, the accumulator or the tracker of an entry of a user window's interval, or a
  running tracker. `key` is channel * 8 + position. -/
  | standard (sixty : Bool) (chi j : Nat)
  | window (fn win interval key : Nat) (apsis : Bool)
  | tracker (key : Nat)
  | spectralStage (chi stage : Nat)
  | estimator (chi : Nat)
  deriving DecidableEq, Repr

/-- One daily sample of a wear indicator (R482). -/
structure WearSample where
  wind : Nat
  value : Nat
  uclass : Nat := 0
  unit : Nat := 0
  deriving DecidableEq, Repr

/-- What the cryptography of an image gives (R463): SHA-384 of its `PUBKEY` and of its safety part, word 0 of a digest lowest, and whether `SIG`
verifies; and, under `PAIR.UPDATE`, the status that the twin's own checks gave, 0 when they passed. -/
structure ImageChecks where
  keyDigest : Nat := 0
  sig : Bool := true
  safetyDigest : Nat := 0
  twin : Nat := 0
  deriving DecidableEq, Repr

/-- Identities of the management and command-processor parts of an image, by their content (R465). -/
structure ImageParts where
  mgmt : Nat := 0
  cmd : Nat := 0
  deriving DecidableEq, Repr

/-- A firmware image that a slot holds, as its header says (R462). -/
structure FwImage where
  version : Nat := 0
  safetyVersion : Nat := 0
  secVer : Nat := 0
  /-- `VARIANTS`: bit 0 F, bit 1 M, bit 2 L. -/
  variants : Nat := 7
  /-- Identities of the management and command-processor parts, for R465. -/
  mgmtPart : Nat := 0
  cmdPart : Nat := 0
  deriving DecidableEq, Repr

end Sys2Proof
end

