-- ==== Sys2Proof/Machine/UnitsBase.lean ====
section
/-! DEFINITION. The state of the device's common units: time, OTP, bring-up, tenants and events, command rings, registers and
what the block has sent. Every field's default is its value at power-on reset; State.lean puts the units together. -/

namespace Sys2Proof.Machine

/-- A sparse table: entries in ascending key order, one per key. What an absent key means is said where the table stands. -/
abbrev Tbl (α : Type) := List (Nat × α)

/-- The latest PTM exchange (R22). -/
structure Ptm where
  host : BitVec 64 := 0
  spc : Nat := 0
  frac : BitVec 10 := 0
  deriving DecidableEq, Repr

/-- The time unit in the always-on domain (R12 to R22). The SPC is a 64-bit count that never wraps in service, held as a Nat. -/
structure TimeUnit where
  /-- VDD_AON is applied (R20). -/
  powered : Bool := true
  spc : Nat := 0
  /-- `SPC_FRAC` as last latched. -/
  frac : BitVec 10 := 0
  /-- `SPC_HOLDOVER` (R16). -/
  holdover : Bool := false
  /-- First pick of the running holdover, and the holdovers that ended in the last 10,000 picks, first and last pick; their picks are gaps
  (R16). -/
  holdoverFrom : Nat := 0
  heldOver : List (Nat × Nat) := []
  /-- REFCLK is present and the phase-locked loops are locked. -/
  refclkOk : Bool := true
  /-- Size of the latest forward step at a relock, in REFCLK periods (R16). -/
  relockStep : Nat := 0
  ptm : Option Ptm := none
  deriving DecidableEq, Repr

/-- The variant fused in OTP (R1). -/
inductive Variant where
  | f
  | m
  | l
  deriving DecidableEq, Repr

/-- OTP: variant, stepping, die identity, the minimum security version and what else the factory writes (R466, R497, R542). -/
structure Otp where
  variant : Variant := .f
  stepping : Nat := 0
  dieUid : BitVec 64 := 0
  minSecVer : Nat := 0
  /-- Ratio of bandgap A to bandgap B as trimmed, ppm (R473). -/
  bandgap : Nat := 1000000
  /-- Hash of the signing key (R463, R542). -/
  keyHash : Nat := 0
  deriving DecidableEq, Repr

/-- Where the device stands between the resets and service (R442 to R449). -/
inductive Phase where
  /-- VDD_AON is removed (R20). -/
  | off
  /-- A cold reset is in force: COLD_RST_N is low or a supply monitor holds it (R442). -/
  | coldHeld
  /-- Released: bring-up and service. -/
  | running
  /-- Thermal shutdown has been decided (R478). -/
  | shutdown
  deriving DecidableEq, Repr

/-- `USTATE` of a unit (R454). -/
inductive UState where
  | absent
  | testing
  | ready
  | spare
  | fenced
  | failed
  deriving DecidableEq, Repr

/-- What is held of one unit (R453, R454). -/
structure UnitRec where
  ustate : UState := .testing
  /-- `FENCE_SRC`: 0 none, 1 BIST failure, 2 service fault, 3 record in force at boot. -/
  fenceSrc : Nat := 0
  /-- `RESULT` of the latest test. -/
  result : Nat := 0
  /-- `COLD_RUN` of the latest test. -/
  run : Nat := 0
  /-- SPC at the end of the latest test. -/
  spc : Nat := 0
  deriving DecidableEq, Repr

/-- A command that completed with ST_ACCEPTED and has not finished, or that waits to be completed: who issued it (R391). -/
structure CmdRef where
  fn : Nat
  ring : Nat
  cmdId : Word
  /-- The command was issued on the twin and applied here through the pair channel (R421): no ring of this device waits for it. -/
  twin : Bool := false
  deriving DecidableEq, Repr

/-- Bring-up, readiness, reset and alert state (R444 to R470, R498 to R501). -/
structure Boot where
  phase : Phase := .coldHeld
  /-- COLD_RST_N has been released without REFCLK: the device stays in reset (R470). -/
  releaseWaits : Bool := false
  /-- SPC of the release of the latest cold reset. -/
  releasedAt : Nat := 0
  /-- Every unit of the variant by class * 256 + unit (R451). A unit not listed reads `ABSENT`. -/
  units : Tbl UnitRec := []
  fnReady : BitVec 16 := 0
  /-- `FN_READY_CHG`. -/
  readyChg : BitVec 16 := 0
  /-- `ALERT_STAT`, and the bits of it that the device set in pick `alertAt`, which a host's write in that pick does not clear (R518). -/
  alertStat : BitVec 9 := 0
  alertNew : BitVec 9 := 0
  alertAt : Nat := 0
  /-- `ALERT_EN` over bits 8 to 2, with the fixed enables of bits 1 and 0. -/
  alertEn : BitVec 9 := 0x1FF
  /-- `RST_CAUSE`: bit 0 is the power-on. -/
  rstCause : BitVec 9 := 1
  scratch : Word := 0
  /-- The conditions of R449 that rows report. -/
  imageVerified : Bool := false
  romOnly : Bool := false
  linkUp : Bool := false
  nvmLoaded : Bool := false
  hkRound : Bool := false
  /-- AON_RUN has been incremented since VDD_AON was applied (R448). -/
  aonCounted : Bool := false
  /-- Running slot: false A, true B (R464). -/
  slotB : Bool := false
  fallback : Bool := false
  /-- The running image is on trial, and the SPC at which its trial began. -/
  trial : Option Nat := none
  /-- The 30 s judgement of the trial has passed (R464). -/
  trialJudged : Bool := false
  fwVersion : Nat := 0
  safetyVersion : Nat := 0
  /-- Command-processor part activated by `HK.FW` form 2, with the slot it came from. -/
  cpPart : Nat := 0
  mgmtPart : Nat := 0
  /-- A warm reset is requested and awaits its pick boundary (R501), and the bit of `RST_CAUSE` it sets. -/
  warmReq : Option Nat := none
  /-- A cold reset held after a thermal shutdown (R479). -/
  heldCold : Bool := false
  /-- `HK.FW` staging in progress: slot and command (R463). -/
  staging : Option (Bool × CmdRef) := none
  /-- Header of the image being staged (R462). -/
  stageHead : List Word := []
  /-- `HK.BIST` runs in progress, oldest first: class, unit, whether it was a spare, and command (R453). -/
  bistRuns : List (Nat × Nat × Bool × CmdRef) := []
  /-- A command-processor activation in progress (`HK.FW` form 2). -/
  activating : Option (Bool × CmdRef) := none
  /-- A scan instruction is in force until the next cold reset (R467). -/
  scan : Bool := false
  /-- Zeroisation has started and is not complete, with the opcode. -/
  zeroising : Option Nat := none
  /-- Zeroisation is complete; a second scan instruction writes no second record (R470). -/
  zeroised : Bool := false
  /-- The tenant session keys, with which each tenant's records in HBM are encrypted, are held (R467). -/
  sessionKeys : Bool := true
  /-- WAKE_N latch (R75): an edge that came before the parked chains were read from NVM, and the chains parked at an edge. -/
  wakeLatch : Bool := false
  wakeSet : List Nat := []
  /-- VLINE is within 10.8 to 13.5 V (R529). -/
  vlineOk : Bool := true
  /-- NVR window of the I²C view (R517): request, state, length in words, records held, window words. -/
  nvrReq : Word := 0
  nvrState : Nat := 0
  nvrLen : Nat := 0
  nvrHeld : Nat := 0
  nvrWin : List Word := []
  deriving DecidableEq, Repr

/-- A tenant's state (R357). A tenant not listed is `ABSENT`. -/
inductive TState where
  | active
  | resetting
  | detached
  deriving DecidableEq, Repr

/-- The reservations of the pooled resources, in the order of R362. -/
structure Pools where
  windows : Nat := 0
  entries : Nat := 0
  focus : Nat := 0
  profiles : Nat := 0
  programs : Nat := 0
  windowSets : Nat := 0
  deriving DecidableEq, Repr

/-- The four QoS weights of a function (R378). -/
structure Weights where
  spectral : Nat := 100
  dma : Nat := 100
  cpu : Nat := 100
  event : Nat := 100
  deriving DecidableEq, Repr

/-- A tenant reset in progress (R381): its boundary r, its cause, whether its effect has been taken, the count of aborted
commands, and the `TEN.RESET` commands that complete with it. -/
structure TenReset where
  r : Nat
  cause : Nat
  done : Bool := false
  aborted : Nat := 0
  cmd : Option CmdRef := none
  waiting : List CmdRef := []
  deriving DecidableEq, Repr

/-- A tenant (R357, R362). -/
structure Tenant where
  state : TState := .active
  pools : Pools := {}
  reset : Option TenReset := none
  deriving DecidableEq, Repr

/-- An event record before `PHASE` and `LOST` are set (R368). -/
structure EvRec where
  source : Nat
  kind : Nat
  arg : Nat := 0
  spc : Nat
  deriving DecidableEq, Repr

/-- A function's event queue registers and pending store (R374, R375, R508). -/
structure EvQueue where
  base : BitVec 64 := 0
  evqErr : Bool := false
  cfgErr : Bool := false
  log2 : Nat := 6
  enable : Bool := false
  prod : Nat := 0
  cons : Nat := 0
  lost : Nat := 0
  /-- The next record written carries `LOST`. -/
  lostFlag : Bool := false
  /-- Pending store, oldest first. -/
  store : List EvRec := []
  deriving DecidableEq, Repr

/-- One MSI-X vector with its moderation register (R377, R509). -/
structure Vec where
  addr : BitVec 64 := 0
  data : Word := 0
  masked : Bool := true
  pend : Bool := false
  /-- `MOD`, in units of 8 picks. -/
  mdr : Nat := 0
  /-- End of the running moderation interval. -/
  quietUntil : Nat := 0
  /-- Something was written for the vector within the interval. -/
  want : Bool := false
  deriving DecidableEq, Repr

/-- A mailbox (R373, R512): the message readable in the receiver's register, `MBX_BUSY` with the message on its way, and
`MBX_DROP`. -/
structure Mailbox where
  value : Word := 0
  busy : Bool := false
  drop : Bool := false
  deriving DecidableEq, Repr

/-- A change of owner in progress (R360): the new owner, boundary g and the command. -/
structure Grant where
  owner : Nat
  g : Nat
  cmd : Option CmdRef := none
  deriving DecidableEq, Repr

/-- Tenants, events and interrupts (R356 to R383). Functions are 0 to 255 for tenants and 256 for the management function. -/
structure TenUnit where
  vfEnable : Bool := false
  numVfs : Nat := 0
  tenants : Tbl Tenant := []
  weights : Tbl Weights := []
  /-- Owner of each granted chain; a chain not listed belongs to the management function. -/
  owner : Tbl Nat := []
  grants : Tbl Grant := []
  /-- Changes of owner of each chain: boundary and new owner, newest first. -/
  ownerHist : Tbl (List (Nat × Nat)) := []
  queues : Tbl EvQueue := []
  /-- Vectors by fn * 256 + v. -/
  vecs : Tbl Vec := []
  /-- Mailboxes by t * 8 + k. -/
  mbx : Tbl Mailbox := []
  /-- Source table of R510 where it differs from its reset value: `SRC_VEC`, `MIRROR`, `SRC_EN`. -/
  srcTab : Tbl Word := []
  /-- Class table of R511 by t * 16 + c where it differs from its reset value. -/
  clsTab : Tbl Word := []
  /-- Functions whose pending records the event writer still writes in its round, in order (R376). -/
  plan : List Nat := []
  /-- Credit of each tenant for the command processors, in hundredths of a pick (R379), and the ring each tenant is served from next. -/
  credit : Tbl Int := []
  nextRing : Tbl Nat := []
  deriving DecidableEq, Repr

/-- A packet fetched and not started: its submission index. -/
structure Waiting where
  index : Nat
  packet : Packet
  deriving DecidableEq, Repr

/-- A ring pair (R384 to R386, R506). -/
structure Ring where
  sqBase : BitVec 64 := 0
  cqBase : BitVec 64 := 0
  ringErr : Bool := false
  cfgErr : Bool := false
  vector : Nat := 0
  log2 : Nat := 4
  enable : Bool := false
  /-- Completion producer index P. -/
  prod : Nat := 0
  /-- Index of the next packet to fetch. -/
  fetch : Nat := 0
  /-- The device's copies of T and C. -/
  tail : Nat := 0
  head : Nat := 0
  /-- Packets fetched and not started, in ring order. -/
  waiting : List Waiting := []
  /-- Started commands without a completion: submission index and `CMD_ID`, oldest first. -/
  started : List (Nat × Word) := []
  deriving DecidableEq, Repr

/-- Why a started command's completion is still to be written. -/
inductive DeferKind where
  /-- `CHAIN.POWER` off, at the boundary at which the carrier stops (R401). -/
  | powerOff (chain : Nat)
  /-- `TEN.RESET` of a tenant already `RESETTING` (R383). -/
  | tenReset (t : Nat)
  /-- `SAFE.ACK` in the lockout form, after the start test (R346). -/
  | lockoutAck
  /-- `EST.RESTORE`, at its step (R282). -/
  | restore
  /-- A pair-sequenced command, until the companion has acknowledged it (R421). -/
  | mirror (mseq : Nat)
  deriving DecidableEq, Repr

/-- A started command whose completion is deferred. -/
structure Deferred where
  kind : DeferKind
  ref : CmdRef
  accept : Nat
  results : List Word := []
  status : Nat := 0
  deriving DecidableEq, Repr

/-- What a long-running command is about, for its finish (R391). -/
structure Unfinished where
  ref : CmdRef
  /-- Opcode of the command. -/
  op : Nat
  /-- The object it works on: a chain, a position, a window, a slot. -/
  obj : Nat
  deriving DecidableEq, Repr

/-- The checks of one transfer class of a function (R395, R414). -/
structure Chk where
  kind : Nat := 0
  bound : Bool := false
  appended : Nat := 0
  checked : Nat := 0
  mismatches : Nat := 0
  deriving DecidableEq, Repr

/-- A harvest continuation (R164): the selection, the section to go on with, and the records of it already written. -/
structure Cont where
  sel : List Nat
  sec : Nat
  skip : Nat
  deriving DecidableEq, Repr

/-- Command transport (R384 to R399). -/
structure CmdUnit where
  /-- Ring pairs by fn * 16 + q. -/
  rings : Tbl Ring := []
  deferred : List Deferred := []
  unfinished : List Unfinished := []
  /-- Check bindings and counts by fn * 8 + class. -/
  chk : Tbl Chk := []
  /-- Harvest continuations by function, magic and class. -/
  conts : Tbl Cont := []
  deriving DecidableEq, Repr

/-- Read latches of register pairs (R494), by fn * 2^24 + offset of the low register. -/
structure RegUnit where
  latch : Tbl Word := []
  /-- The island's copy of its state at the latest pick boundary: words 0 to 8 of the safety status mirror (R505). -/
  mirror : List Word := []
  /-- The value the latest register read returned. -/
  read : Word := 0
  deriving DecidableEq, Repr

/-- A completion as written (R390). -/
structure Completion where
  fn : Nat
  ring : Nat
  /-- Producer index P. -/
  index : Nat
  phase : Bool
  cmdId : Word
  status : Nat
  spc : Nat
  results : List Word := []
  deriving DecidableEq, Repr

/-- An event record as written to a queue (R374). -/
structure EvOut where
  fn : Nat
  index : Nat
  phase : Bool
  lost : Bool
  record : EvRec
  deriving DecidableEq, Repr

/-- A buffer written to the host: its words, the check word last (R164, R399). -/
structure OutBuf where
  fn : Nat
  cmdId : Word
  addr : Nat
  words : List Word
  deriving DecidableEq, Repr

/-- The pair-channel message kinds (R423). -/
inductive PairKind where
  | heartbeat
  | mirror
  | mirrorAck
  | seqState
  | safeState
  | demand
  | yield
  | handover
  | resync
  | image
  | localFault
  deriving DecidableEq, Repr

/-- A pair message as sent (R423). -/
structure PairOut where
  kind : PairKind
  mseq : Nat := 0
  body : List Nat := []
  deriving DecidableEq, Repr

/-- A twin control frame (R100): its twin lane, header, forwarding-control words 0 to 7, pair-channel messages and `TCRC`. -/
structure ControlFrame where
  tl : Nat
  header : BitVec 256
  words : List (BitVec 64)
  msgs : List PairOut
  tcrc : BitVec 32
  deriving DecidableEq, Repr

/-- A training frame (R102, R224): the lane, its header and the training words; the rest is zero up to `TCRC`. -/
structure TrainingFrame where
  lane : Nat
  header : BitVec 256
  word : BitVec 64
  tcrc : BitVec 32
  deriving DecidableEq, Repr

/-- What the block has sent outward, newest first: the model's own record. -/
structure Outbox where
  completions : List Completion := []
  events : List EvOut := []
  /-- MSI-X messages: function, vector, address, data. -/
  msix : List (Nat × Nat × BitVec 64 × Word) := []
  buffers : List OutBuf := []
  pair : List PairOut := []
  /-- Down frames relayed onto an own uplink (R99); forward and backfill frames sent, with their twin lane; control frames sent (R100). -/
  relayed : List DownFrame := []
  forwarded : List (Nat × UpFrame) := []
  control : List ControlFrame := []
  training : List TrainingFrame := []
  /-- Pulses and drives of pins that no register shows: line, level. -/
  pins : List (Nat × Bool) := []
  deriving DecidableEq, Repr

end Sys2Proof.Machine
end

