-- ==== Sys2Proof/Machine/UnitsLine.lean ====
section
/-! DEFINITION. The state of chains, positions, lanes and the Loom. -/

namespace Sys2Proof.Machine

/-- Mode of a chain (R401). -/
inductive CMode where
  | normal
  | wrap
  | parked
  | unpowered
  deriving DecidableEq, Repr

/-- A chain procedure in progress (R401): its opcode (0 for WAKE_N), its p0, the last of its enumeration picks, when they were
counted, and the command that waits for its finish. -/
structure ChainProc where
  op : Nat
  p0 : Nat
  enumEnd : Nat
  /-- Pick in which the enumeration was counted. -/
  counted : Option Nat := none
  /-- C: the first pick at or after the enumeration whose number is a multiple of 512 (R53). -/
  c : Nat := 0
  /-- The open-ring procedure runs (R55, R76): the pick at which port B starts its carrier. -/
  openAt : Option Nat := none
  cmd : Option CmdRef := none
  deriving DecidableEq, Repr

/-- What the frame of a chain carries beside its command words, as assembled at the latest boundary (R41, R86): the pick of the frame,
`EPOCH_LO`, `FLAGS` without `DIR`, `CCMD` of the down sub-block, and the blocks requested from each port as frame pick and slot. -/
structure ChainTx where
  frame : Nat := 0
  epoch : Nat := 0
  flags : Nat := 0
  ccmd : Nat := 0
  rsndA : List (Nat × Nat) := []
  rsndB : List (Nat × Nat) := []
  deriving DecidableEq, Repr

/-- A chain: local ring or bridged (R37 to R76). -/
structure Chain where
  mode : CMode := .unpowered
  /-- SPC of the last change of mode. -/
  since : Nat := 0
  /-- Powered at least once since the latest reset (R446). -/
  started : Bool := false
  proc : Option ChainProc := none
  /-- N, the tags counted. -/
  tags : Nat := 0
  /-- Slots that hold a tag, ascending. -/
  occ : List Nat := []
  split : Nat := 0
  /-- Broken hop. -/
  brk : Option Nat := none
  hopFault : Bool := false
  /-- Consecutive frames with `SYNC` and a wrong `HOP` (R56). -/
  hopMiss : Nat := 0
  /-- Consecutive frames without `SYNC` (R67). -/
  syncMiss : Nat := 0
  /-- The frame under way found the receiver out of lock. -/
  lockLost : Bool := false
  /-- Port B has found `SYNC` since the chain was powered. -/
  synced : Bool := false
  /-- The receiver of port A, and of port B, inverts what it receives (R32). -/
  invA : Bool := false
  invB : Bool := false
  /-- Blocks that the up-phases of a wrap pick brought to port A and to port B, while the broken hop is sought (R67). -/
  countA : Option Nat := none
  countB : Option Nat := none
  /-- Boundary from which wrap frames are sent again after an unwrap that failed (R69). -/
  wrapAt : Option Nat := none
  /-- Repetitions of the enumeration picks (R52). -/
  enumTry : Nat := 0
  carrierA : Bool := false
  carrierB : Bool := false
  /-- Port turned off under R39. -/
  offA : Bool := false
  offB : Bool := false
  pwrA : Nat := 0
  pwrB : Nat := 0
  fcrcErr : Nat := 0
  rsndReq : Nat := 0
  /-- Boundary p + 16 of a park and its command (R73). -/
  parkAt : Option (Nat × CmdRef) := none
  /-- Boundary u of an unwrap and its command (R69). -/
  unwrapAt : Option (Nat × CmdRef) := none
  /-- Boundary at which `CHAIN.POWER` off stops the carrier (R74). -/
  offAt : Option Nat := none
  /-- Missing blocks: frame pick and slot, oldest frame first and in slot order (R62). -/
  missing : List (Nat × Nat) := []
  /-- Requests of the next frame at port A's half, and at port B's half in wrap mode. -/
  asked : List (Nat × Nat) := []
  askedB : List (Nat × Nat) := []
  /-- `RING_CHG` (R504). -/
  chg : BitVec 4 := 0
  /-- `CCMD` to be carried in the next down frame of a bridged chain (R86), 0 none, and the one last carried with its frame (R104). -/
  ccmd : Nat := 0
  ccmdSent : Option (Nat × Nat) := none
  /-- `SPO_ALL` as last assembled (R41). -/
  spoAll : Bool := false
  tx : ChainTx := {}
  deriving DecidableEq, Repr

/-- State of a position (R401). -/
inductive PState where
  | released
  | bringingUp
  | lost
  | parked
  | hopFault
  | unpowered
  deriving DecidableEq, Repr

/-- Tag type (R57). -/
inductive TagKind where
  | none
  | ct12
  | dt1
  deriving DecidableEq, Repr

/-- A selvedge message held for `CHAIN.SELV_READ`: the message, the SPC at which it was accepted, and whether it was read across a
break of the stream (R24, R59). -/
structure HeldMsg where
  msg : BitVec 512
  spc : Nat
  gap : Bool := false
  deriving DecidableEq, Repr

/-- A configuration message sent and not yet reported (R58, R61, R186). -/
structure CfgFlight where
  cfgId : Nat
  /-- Body bits 8 to 479. -/
  body : BitVec 472
  /-- `SEQ` it was sent with, none until it is sent. -/
  seq : Option Nat := none
  sentAt : Nat := 0
  tries : Nat := 0
  lastResult : Nat := 0xFF
  /-- A kept message sent again (R61), or a new one with its command. -/
  again : Bool := false
  cmd : Option CmdRef := none
  deriving DecidableEq, Repr

/-- What the writing units have posted for a tag (R10, R47). -/
structure Posted where
  bleed : Nat := 0
  testWire : Nat := 15
  refSel : Bool := false
  thm : Nat := 0
  hk : Nat := 0
  outEn : Bool := false
  ditherEn : Bool := false
  iSet : Int := 0
  /-- A power configuration waiting to be sent: `FEED` B, `RELAY_OFF`. -/
  power : Option (Bool × Bool) := none
  /-- A reset word waiting to be sent. -/
  reset : Bool := false
  /-- The word last assembled and its chain frame's pick. -/
  word : Word := 0xC0000000
  wordPick : Nat := 0
  /-- The latest normal word assembled: the state the tag holds. -/
  normal : Word := 0x0003C000
  /-- Pick of the latest frame that carried `OUT_EN` = 1 (R73), and the latest runs of such frames, first and last, newest first (R210). -/
  outPick : Option Nat := none
  outRuns : List (Nat × Nat) := []
  deriving DecidableEq, Repr

/-- An up selvedge message as its bits arrive (R57): the period, which is the pick of its first frame over 512; the bits; those that have come;
and that the message has been taken. -/
structure UpMsg where
  period : Nat := 0
  bits : BitVec 512 := 0
  have_ : BitVec 512 := 0
  taken : Bool := false
  deriving DecidableEq, Repr

/-- A tag position (R57 to R72, R401). -/
structure Posn where
  kind : TagKind := .none
  serial : Nat := 0
  hwRev : Nat := 0
  incarnation : Nat := 0
  romVer : Nat := 0
  coefParts : Nat := 0
  coefCrc : Nat := 0
  /-- The identity of the present incarnation is known. -/
  known : Bool := false
  state : PState := .unpowered
  /-- Coefficient bodies received, by part. -/
  parts : Tbl (BitVec 480) := []
  /-- Complete and consistent with `COEF_CRC`. -/
  coefOk : Bool := false
  /-- Times the parts were found inconsistent; at 3 the position is not released (R59). -/
  coefBad : Nat := 0
  feedB : Bool := false
  relayOff : Bool := false
  /-- Changes of the position delay: SPC and new delay, newest first. -/
  delayWas : List (Nat × Nat) := []
  /-- Position delay, 0.1 ns (R18), and of a bridged tag its chain part, in 1/16 chain bit times (R93). -/
  delay : Nat := 0
  part : Nat := 0
  incLo : Nat := 0
  /-- Consecutive frames without a valid `LIVE` block (R70). -/
  noLive : Nat := 0
  livePicks : Nat := 0
  filledPicks : Nat := 0
  gapPicks : Nat := 0
  rsndServed : Nat := 0
  /-- First data pick of the present incarnation, as its `INC_LO` showed it (R72). -/
  incFrom : Nat := 0
  /-- The up message of the latest period of which a `USELV` bit has come, and of a period before it (R57). -/
  up : UpMsg := {}
  upLast : UpMsg := {}
  /-- Latest accepted upstream `SEQ` and its SPC (R59). -/
  upSeq : Option (Nat × Nat) := none
  /-- Held messages by type * 256 + part. -/
  msgs : Tbl HeldMsg := []
  faultBits : Nat := 0
  /-- The blocks' `FAULT`, `PWR_LOW` and `CMD_ERR` as last received. -/
  fault : Bool := false
  pwrLow : Bool := false
  cmdErr : Bool := false
  /-- Configuration last reported applied, per `CFG_ID` (R61). -/
  kept : Tbl (BitVec 472) := []
  /-- Configuration messages to send, oldest first; the first may be in flight. -/
  cfg : List CfgFlight := []
  /-- Repeat requests to send: type and part. -/
  repeats : List (Nat × Nat) := []
  /-- Commands waiting for a refreshed message: type, part (R401). -/
  refresh : List (Nat × Nat × CmdRef) := []
  downSeq : Nat := 0
  /-- The down message of the running period. -/
  downMsg : BitVec 512 := 0
  /-- `AUX_RANGE` the tag has reported applied. -/
  aux : Nat := 0
  /-- First pick of the gap interval of R72 or R132, while it lasts. -/
  gapFrom : Option Nat := none
  /-- A reset word is sent and a new incarnation awaited (R71). -/
  awaitNew : Bool := false
  /-- A changed incarnation has been seen, and its return is reported with its identity (R72). -/
  awaitBack : Bool := false
  posted : Posted := {}
  deriving DecidableEq, Repr

/-- Line state: chains and positions. -/
structure LineUnit where
  chains : Tbl Chain := []
  posns : Tbl Posn := []
  deriving DecidableEq, Repr

/-- State of a lane (R402). -/
inductive LState where
  | down
  | lock
  | adapt
  | identify
  | run
  | failed
  deriving DecidableEq, Repr

/-- A block requested from a bridge (R87, R94): chain of the device's numbering, slot or the whole sub-block, frame pick. -/
structure LaneReq where
  chain : Nat
  slot : Option Nat
  pick : Nat
  deriving DecidableEq, Repr

/-- Transmit FIR taps c-2 to c+2 and receiver settings of a lane end (R222): peaking, gain, DFE taps 1 to 16. -/
structure LaneSet where
  taps : List Int := [0, 0, 32, 0, 0]
  ctle : Nat := 0
  vga : Nat := 0
  dfe : List Int := []
  deriving DecidableEq, Repr

/-- The adapt phase of a lane (R224): what the next training frame says, `INIT`, `RX_DONE`, `TAP_REQ` and the answers to the other end's latest
requests, tap by tap, and what the other end has said last. -/
structure Training where
  init : Bool := true
  done : Bool := false
  req : List Nat := []
  sts : List Nat := []
  peerDone : Bool := false
  peerBand : Nat := 0
  peerSts : List Nat := []
  deriving DecidableEq, Repr

/-- A lane: bridge lanes 0 to 127, twin lanes 0x100 + k (R77 to R103, R503). -/
structure Lane where
  lstate : LState := .down
  mode : Nat := 0
  band : Nat := 0
  degraded : Bool := false
  delay : Nat := 0
  eyeW : List Nat := []
  eyeH : List Nat := []
  ber : Nat := 0
  berBits : Word := 0
  corrected : Nat := 0
  uncorrected : Nat := 0
  lhcrcErr : Nat := 0
  sbcrcErr : Nat := 0
  reqSent : Nat := 0
  cdr : Bool := false
  /-- Marker lock, with the consecutive markers that checked and that failed; whether the marker of the running span checked, and its
  `SPAN_PICK` (R79). -/
  marker : Bool := false
  marks : Nat := 0
  markBad : Nat := 0
  spanOk : Bool := false
  spanPick : Option Nat := none
  /-- Consecutive frames that failed `LHCRC` with no sub-block passing (R95). -/
  badFrames : Nat := 0
  lastPick : Nat := 0
  /-- Pick of the latest frame of which something was accepted, and the SPC of its reception (R99). -/
  heldPick : Nat := 0
  heldAt : Nat := 0
  /-- Picks of the uncorrectable codewords of the last 1,000 picks, newest first, with their counts (R95). -/
  uncs : List (Nat × Nat) := []
  /-- Codewords corrected and uncorrectable in the running second, and its first pick (R103). -/
  secCorr : Nat := 0
  secUnc : Nat := 0
  secFrom : Nat := 0
  peerUid : Nat := 0
  chg : BitVec 5 := 0
  set : LaneSet := {}
  target : LaneSet := {}
  train : Training := {}
  /-- Offsets of the taps from the band preset (R223). -/
  offsets : List Int := []
  /-- Receiver settings step back to the target after a rejected lane run (R226). -/
  back : Bool := false
  /-- Pick of the latest change of a setting (R225). -/
  adaptAt : Nat := 0
  /-- Commands of the running bring-up and of a lane calibration run. -/
  cmd : Option CmdRef := none
  /-- Status pages by number (R93). -/
  pages : Tbl (BitVec 256) := []
  /-- Latest up lease record and the epoch the bridge accepted. -/
  lease : BitVec 128 := 0
  epoch : Nat := 0
  stale : Bool := false
  uplink : Nat := 0
  /-- The latest up header's `TIMING`, `LANE_REF`, `ECHO` and `TURN` (R83). -/
  timing : Bool := false
  laneRef : Nat := 0
  echo : Nat := 0
  turn : Nat := 0
  deriving DecidableEq, Repr

/-- The bridge behind a lane field, as its uplinks together show it: its timing uplink and the lane part of the delays behind it (R18, R88);
the blocks requested and outstanding, the requests that wait, and the request words of the frame as last assembled (R87, R94); in a lane
pair the partner's copies of the latest frames, failed ones empty, and the sub-blocks that failed on their home lane and wait for the
partner's copy, each by frame pick and chain (R98). -/
structure Bridge where
  timing : Option Nat := none
  base : Nat := 0
  asked : List LaneReq := []
  waiting : List LaneReq := []
  reqTx : List LaneReq := []
  copies : List (Nat × Nat × Option SubBlock) := []
  absent_ : List (Nat × Nat) := []
  deriving DecidableEq, Repr

/-- What a twin lane is used for (R100, R101): up frames of an own lane to the twin, or the twin's down frames onto an own lane. -/
inductive TwinUse where
  | forward (lane : Nat)
  | relay (lane : Nat)
  deriving DecidableEq, Repr

/-- Backfill that the twin has asked for: twin lane, own lane, chain frame of the next frame, frames left (R100). -/
structure Backfill where
  tl : Nat
  lane : Nat
  pick : Nat
  left : Nat
  deriving DecidableEq, Repr

/-- Lanes and their deployment. -/
structure LaneUnit where
  lanes : Tbl Lane := []
  /-- Bridges by lane field. -/
  bridges : Tbl Bridge := []
  /-- Lane pairs enabled by `LANE.PAIR` (R96). -/
  pairs : List Nat := []
  /-- Pair lane number of an own lane in a binary pair (R96, R417). -/
  pairMap : Tbl Nat := []
  /-- The twin's lane to the bridge of an own lane (R100). -/
  twinMap : Tbl Nat := []
  /-- Twin lane uses by twin lane * 4 + `OP`, as the twin has asked of this device. -/
  uses : Tbl TwinUse := []
  /-- Backfill the twin has asked for, oldest request first. -/
  backfills : List Backfill := []
  /-- Forwarding this device has asked of its twin, by own lane: the twin lane it uses. -/
  forwarded : Tbl Nat := []
  /-- Forwarding-control words to be sent, oldest first, eight to a control frame. -/
  words : List (BitVec 64) := []
  deriving DecidableEq, Repr

/-- `BSTATE` of a bolt entry (R124). -/
inductive BState where
  | live
  | pending
  | gap
  deriving DecidableEq, Repr

/-- A bolt entry with its state byte (R124). `mute` says that the pick is a gap under R132 although bits are held; `raw`, that the position
was being brought up with its identity known, and its comparators take the bits (R54, log 10). -/
structure BoltEntry where
  pick : Nat
  payload : BitVec 512 := 0
  bstate : BState := .live
  filled : Bool := false
  ovr : Bool := false
  pwrLow : Bool := false
  fault : Bool := false
  incChg : Bool := false
  mute : Bool := false
  raw : Bool := false
  deriving DecidableEq, Repr

/-- Flags of a sample (R111, R118, R120, R152). `slew` is no flag of the spec's: the sample, or an input of it, was released while its
channel slewed (R217). -/
structure Flags where
  gap : Bool := false
  edge : Bool := false
  ovr : Bool := false
  trans : Bool := false
  uncal : Bool := false
  rpl : Bool := false
  wide : Bool := false
  subst : Bool := false
  slew : Bool := false
  deriving DecidableEq, Repr

/-- A decimated sample: its number, its value in the channel's value LSB, its flags. -/
structure Sample where
  m : Nat := 0
  value : Int := 0
  flags : Flags := {}
  deriving DecidableEq, Repr

/-- Which of its two channels a merged current follows (R114). -/
structure Merge where
  wide : Bool := false
  /-- Consecutive samples that would allow a return to ch0. -/
  run : Nat := 0
  latest : Option Sample := none
  deriving DecidableEq, Repr

/-- The switch state of a tag from a boundary on (R48, R112, R237, R239): bleed mask, wire under test, reference B and the
multiplexer positions. -/
structure Disturb where
  at_ : Nat := 0
  bleed : Nat := 0
  wire : Option Nat := none
  ref : Bool := false
  /-- Multiplexer positions (R48, R251). -/
  thm : Nat := 0
  hk : Nat := 0
  deriving DecidableEq, Repr

/-- A correction of a delta replay still to be done (R128). -/
structure Replay where
  pos : Nat
  pick : Nat
  m : Nat
  /-- Channels that a full replay recomputes; none: the correction of a filled pick, on every channel. -/
  chans : List Nat := []
  deriving DecidableEq, Repr

/-- Replay work done in the latest pick that saw any: its SPC, channel-picks by tile, and bytes read from the bolt device-wide (R130). -/
structure ReplaySpent where
  spc : Nat := 0
  tiles : Tbl Nat := []
  bytes : Nat := 0
  deriving DecidableEq, Repr

/-- A tile fault being repaired (R131). -/
structure TileRepair where
  f : Nat
  spare : Nat
  deriving DecidableEq, Repr

/-- A trip re-analysis waiting or running, with its record (R134, R136). -/
structure Reanalysis where
  fn : Nat
  trip : Nat
  chi : Nat
  t : Nat
  pre : Nat
  post : Nat
  wset : Nat
  gen : Nat := 0
  running : Bool := false
  /-- As of boundary t, for each tag covered: the temperature of R196 and whether its values are uncalibrated. -/
  asOf : Tbl (Int × Bool) := []
  deriving DecidableEq, Repr

/-- A trip section of the result store: its entries, or a notice with its status (R161, R162). -/
structure TripSection where
  fn : Nat
  trip : Nat
  chi : Nat
  t : Nat
  pre : Nat
  post : Nat
  wset : Nat
  gen : Nat
  status : Nat := 0
  entries : List (List Word) := []
  /-- Entries already harvested. -/
  taken : Nat := 0
  deriving DecidableEq, Repr

/-- Values of ch0 to ch12 of a CT12 before drop compensation at a settled sample, which the diagnostics read (R242, R255). -/
structure RawSample where
  m : Nat
  values : List Int
  gap : Bool
  ovr : List Bool
  deriving DecidableEq, Repr

/-- The Loom (R105 to R138). -/
structure LoomUnit where
  /-- Logical tile on a physical tile other than its own (R107). -/
  tileMap : Tbl Nat := []
  /-- Logical tiles fenced. -/
  fenced : List Nat := []
  /-- Repairs in progress, by logical tile. -/
  repair : Tbl TileRepair := []
  /-- Picks f of repaired faults, by logical tile, whose samples carry `RPL` and are not all released. -/
  rplFrom : Tbl (List Nat) := []
  depth : Nat := 800
  /-- Bolt entries of each position, newest first. -/
  bolt : Tbl (List BoltEntry) := []
  disturb : Tbl (List Disturb) := []
  /-- Latest live sample of each channel. -/
  live : Tbl Sample := []
  /-- Latest live sample of each multiplexer position, by channel * 8 + position (R113). -/
  liveMux : Tbl Sample := []
  /-- Settled samples of each channel, newest first, as far back as the primary filter reaches. -/
  settled : Tbl (List Sample) := []
  /-- The latest uncompensated values of each CT12, newest first. -/
  raw : Tbl (List RawSample) := []
  /-- Merged currents by drive-tag position, live and settled; the settled samples are kept as a channel's are. -/
  mergeLive : Tbl Merge := []
  mergeSettled : Tbl Merge := []
  mergedStore : Tbl (List Sample) := []
  /-- Latest primary samples (the merged current as channel 6), and dwell values by channel * 8 + position. -/
  primary : Tbl Sample := []
  dwell : Tbl Sample := []
  /-- Replay work by tile, oldest first. -/
  replay : Tbl (List Replay) := []
  spent : ReplaySpent := {}
  /-- Samples that a full replay recomputes, so that they carry `RPL`: channel, first and last sample (R129). -/
  full : List (Nat × Nat × Nat) := []
  /-- Pick of the latest SRAM error of a channel. -/
  sramAt : Tbl Nat := []
  /-- Fills discarded, by tile (R127). -/
  discarded : Tbl Nat := []
  reanalyses : List Reanalysis := []
  trips : List TripSection := []
  notices : List TripSection := []
  /-- `TRIP_LOST` by function. -/
  tripLost : Tbl Nat := []
  deriving DecidableEq, Repr

end Sys2Proof.Machine
end

