-- ==== Sys2Proof/Machine/UnitsCal.lean ====
section
/-! DEFINITION. The state of calibration, of the channel map, and of balancing and diagnostics (chapters 07, 08, R403). -/

namespace Sys2Proof.Machine

/-- A coefficient entry (R196): `K` with 2^30 = 1, `O` in value LSB, `KT` in 2^-30 per kelvin, `OT` in 1/64 value LSB per kelvin.
The default is the nominal entry of R54. -/
structure Entry where
  k : Int := 1073741824
  o : Int := 0
  kt : Int := 0
  ot : Int := 0
  /-- Change of the channel's reference from its factory value that `K` includes, as a factor (R204). -/
  ref : Rat := 1
  deriving DecidableEq, Repr

/-- A channel moving from one entry to another in 256 steps from the flip at b (R216). -/
structure Slew where
  k0 : Int
  o0 : Int
  k1 : Int
  o1 : Int
  b : Nat
  /-- Step in force, 1 to 256. -/
  i : Nat := 1
  deriving DecidableEq, Repr

/-- Calibration state of a position (R196 to R199). -/
structure TagCal where
  /-- Factory entries by channel, held once the coefficients are complete. -/
  factory : Tbl Entry := []
  /-- Entries in force that differ from the factory entry. -/
  entries : Tbl Entry := []
  slews : Tbl Slew := []
  /-- The slew before, of a channel that has had another. -/
  before : Tbl Slew := []
  refA : Nat := 0
  refB : Nat := 0
  tolGain : Nat := 0
  tolOffset : Nat := 0
  /-- Procedures committed for the tag (codes of R406), with the serial number and `COEF_CRC` they hold for. -/
  procs : List Nat := []
  serial : Nat := 0
  crc : Nat := 0
  /-- Latest die temperature, m°C, in this incarnation (R197). -/
  dieT : Option Int := none
  /-- The SPC of the latest change of `dieT` with the value before it, and of `procs` with the list before it (R135). -/
  dieWas : Option (Nat × Option Int) := none
  procsWas : Option (Nat × List Nat) := none
  deriving DecidableEq, Repr

/-- One retained generation of a chain (R214): commit count, flip, and the entries of each tag. -/
structure GenRec where
  commit : Nat
  flip : Nat
  entries : Tbl (Tbl Entry)
  /-- Residuals of the tags committed: channel, under the entries before, under these. -/
  residuals : Tbl (List (Nat × Nat × Nat)) := []
  deriving DecidableEq, Repr

/-- A commit decided and not yet flipped (R213, R215): targets by channel, its flip once no channel of it slews. -/
structure Commit where
  targets : Tbl Entry
  flip : Option Nat := none
  /-- Procedure committed, and the positions it covers; a revert names 0, a factory revert 0xFF. -/
  proc : Nat := 0
  posns : List Nat := []
  /-- Run slot (fn * 4 + slot) that waits for the flip, and the command that finishes then. -/
  slot : Option Nat := none
  cmd : Option CmdRef := none
  status : Nat := 0
  residuals : Tbl (List (Nat × Nat × Nat)) := []
  deriving DecidableEq, Repr

/-- Calibration of a chain (R212 to R215). -/
structure ChainCal where
  /-- Commit count; the generation is its low 16 bits. -/
  commits : Nat := 0
  lastFlip : Nat := 0
  /-- Commit count when the chain was granted to its owner (R214). -/
  granted : Nat := 0
  history : List GenRec := []
  queue : List Commit := []
  /-- Limits of R212: gain in 0.001 %, offset in permille of the table. -/
  gainLim : Nat := 200
  offLim : Nat := 1000
  deriving DecidableEq, Repr

/-- A candidate coefficient (R203). -/
structure Candidate where
  chi : Nat
  k : Int
  o : Int
  ref : Rat := 1
  deriving DecidableEq, Repr

/-- The outcome of one tag of a run (R202, R406). -/
structure TagOutcome where
  pos : Nat
  status : Nat
  cause : Nat := 0
  rho : Int := 0
  /-- Channel, residual in force, residual under the candidate. -/
  residuals : List (Nat × Nat × Nat) := []
  deriving DecidableEq, Repr

/-- What a run has gathered of one tag (R204 to R210). Sums are matrices of products of the admitted vectors, each begun with a 1. -/
structure CalStat where
  /-- Dwell values of housekeeping position 0, and of position 4. -/
  rho : List (List Int) := []
  short : List (List Int) := []
  /-- Primary samples: ch0 to ch12 for the gain, ch0 and ch1 in the overlap for the current, the sum of ch12 and ch2 for the drive voltage. -/
  main : List (List Int) := []
  /-- Lowest and highest ch0 of the overlap. -/
  lo : Int := 0
  hi : Int := 0
  /-- ch0 and ch1 in zero-current windows; first period and samples of the 200 ms in progress. -/
  zero : List (List Int) := []
  blockFrom : Nat := 0
  block : List (List Int) := []
  /-- Injections: the densities of ch0 to ch12 under reference A and under reference B. -/
  injections : List (List (Rat × Rat)) := []
  deriving DecidableEq, Repr

/-- A calibration run slot (R200 to R203). -/
structure CalRun where
  proc : Nat
  chain : Nat
  posns : List Nat
  hold : Bool := false
  window : Nat := 0
  deadline : Nat := 0
  start : Nat
  cmd : Option CmdRef := none
  /-- Tags that have failed their precondition, with the cause: a reboot, a confirmed break, a string not bound at the start. -/
  failed : Tbl Nat := []
  /-- What has been gathered, by position. -/
  stats : Tbl CalStat := []
  finished : Option Nat := none
  outcome : Nat := 0
  tags : List TagOutcome := []
  /-- Candidates held for `CAL.APPLY`, until 60 s after the finish. -/
  held : List Candidate := []
  generation : Nat := 0
  flip : Nat := 0
  /-- The slot is in use: running, or holding candidates, or waiting for its flip. -/
  busy : Bool := true
  deriving DecidableEq, Repr

/-- A lane calibration run (R226). -/
structure LaneRun where
  cmd : Option CmdRef := none
  eyeW : List Nat := []
  eyeH : List Nat := []
  ber : Nat := 0
  berBits : Word := 0
  set : LaneSet := {}
  finished : Bool := false
  outcome : Nat := 0
  eyeW1 : List Nat := []
  eyeH1 : List Nat := []
  berBits1 : Word := 0
  deriving DecidableEq, Repr

/-- Calibration unit. -/
structure CalUnit where
  tags : Tbl TagCal := []
  chains : Tbl ChainCal := []
  /-- Runs by fn * 4 + slot. -/
  runs : Tbl CalRun := []
  laneRuns : Tbl LaneRun := []
  deriving DecidableEq, Repr

/-- A shunt binding (R403). -/
structure Shunt where
  rsh : Nat
  lsh : Nat := 0
  inverted : Bool := false
  deriving DecidableEq, Repr

/-- A staged binding record (R403): who staged it, its type, its target word and its body words 2 to 14. -/
structure Staged where
  fn : Nat
  btype : Nat
  target : Word
  body : List Word
  deriving DecidableEq, Repr

/-- The bindings in force. -/
structure Bindings where
  /-- CT12 position to DT1 position. -/
  drive : Tbl Nat := []
  shunt : Tbl Shunt := []
  /-- Resistance at 25 °C in Ω and B in K, by position * 4 + thermistor position. -/
  therm : Tbl (Nat × Nat) := []
  /-- Standard position of a multiplexed channel where it differs from the default (R141). -/
  std : Tbl Nat := []
  rbal : Tbl (List Nat) := []
  rwire : Tbl (List Nat) := []
  deriving DecidableEq, Repr

/-- A map build (R219): the command, what it takes, its depth, and its flip once built. -/
structure Build where
  cmd : CmdRef
  staged : List Staged
  depth : Option Nat := none
  flip : Option Nat := none
  deriving DecidableEq, Repr

/-- The channel map. -/
structure MapUnit where
  bind : Bindings := {}
  staged : List Staged := []
  build : Option Build := none
  /-- Standard positions that were in force until a flip, newest first: an interval keeps the position that was in force when it
  began (R168): channel, position, flip. -/
  stdWas : List (Nat × Nat × Nat) := []
  /-- Latest map flip. -/
  lastFlip : Nat := 0
  deriving DecidableEq, Repr

/-- Mode of a cell (R234). -/
inductive BalMode where
  | off
  | manual
  | auto_
  deriving DecidableEq, Repr

/-- Balancing state of a cell (R231 to R236). -/
structure BalCell where
  mode : BalMode := .off
  /-- Duty given by the host in `MANUAL`. -/
  host : Nat := 0
  ttlEnd : Nat := 0
  /-- Duty decided for the next frame, and the duty in force with its frame. -/
  next : Nat := 0
  duty : Nat := 0
  /-- Cause of a forced 0 or of the limit to 8 (R407). -/
  cause : Nat := 0
  /-- Charge bled since release, in nC so that fractions of a millicoulomb add up. -/
  bled : Nat := 0
  /-- The same at the latest starts of seconds, newest first, with their boundaries (R262). -/
  marks : List (Nat × Nat) := []
  /-- Steps measured against the expected step, in 1/1000: the 16 transitions of the latest 8 frames, newest first (R255). -/
  steps : List Nat := []
  deriving DecidableEq, Repr

/-- Balancing parameters of a chain (R233, R235, R240). -/
structure BalChain where
  vFloor : Nat := 2500
  db : Nat := 2000
  th : Nat := 3600
  scan : Nat := 4
  deriving DecidableEq, Repr

/-- Why an open-wire test runs (R240, R242). -/
inductive TestWhy where
  | confirm
  | clear
  | asked
  | routine
  deriving DecidableEq, Repr

/-- What a quiet window carries (R240): a test with `TEST_WIRE`, the wire it is about, whether it is an odd-numbered test of that wire, and
why it runs; or a calibration injection. -/
inductive QuietUse where
  | test (wire target : Nat) (odd : Bool) (why : TestWhy)
  | injection
  /-- An injection that an off word has discarded: its window keeps its multiplexer positions (R10, R48, R227). -/
  | dropped
  deriving DecidableEq, Repr

/-- Settled samples of a CT12 released in 10,000 picks (R244): the picks' number over 10,000; the samples of which every channel may be used, as
sums of ch0 to ch12; and the sums of products of the first differences of ch(w-1) and ch(w), for w = 1 to 11. -/
structure PassiveBlock where
  at_ : Nat
  all : List (List Int) := []
  pairs : List (List (List Int)) := []
  deriving DecidableEq, Repr

/-- Diagnostics of a tag (R240 to R255). -/
structure TagDiag where
  /-- Use of the quiet window of the frame in force, with the frame's first pick W. -/
  quiet : Option (Nat × QuietUse) := none
  /-- Next routine wire, and a routine test displaced and still due (R240). -/
  nextWire : Nat := 0
  owed : Bool := false
  /-- Tests of each wire so far, for the place of the on-dwell (R241). -/
  tested : Tbl Nat := []
  /-- Test in progress was asked by `DIAG.OPENWIRE`: wires asked, with their commands, oldest first. -/
  asked : List (Nat × CmdRef) := []
  /-- Suspect wires with consecutive `OPEN` results; confirmed wires with consecutive `PASS` results. -/
  suspect : Tbl Nat := []
  broken : Tbl Nat := []
  /-- Suspicions that arose from R244 alone. -/
  passive : List Nat := []
  /-- Breaks whose confirmation, or clearing, takes effect at a boundary: wire, boundary, true to confirm. -/
  due : List (Nat × Nat × Bool) := []
  /-- The next test of a wire pairs it the other way (R242). -/
  unresolved : List Nat := []
  /-- Estimates of each wire's resistance, µΩ, newest first, at most 64 (R243). -/
  estimates : Tbl (List Int) := []
  learned : List Nat := []
  /-- Faults set, bit i in the order of R252. -/
  faults : Nat := 0
  /-- Consecutive failing and passing checks, by fault (R252). -/
  failing : Tbl Nat := []
  passing : Tbl Nat := []
  /-- Cells whose bleed switch does not respond (R255). -/
  noresp : List Nat := []
  invalidRun : Nat := 0
  run : Nat := 0
  passed : Nat := 0
  opened : Nat := 0
  invalid : Nat := 0
  ended : Nat := 0
  /-- The tag is too hot to bleed until it falls below 100 °C (R233). -/
  hot : Bool := false
  /-- Test current, µA: 10 mA until the test's own dwell value is final (R237). -/
  current : Nat := 10000
  /-- |ch12 - sum of the cells| of the latest ten passive evaluations, newest first, in 100 nV (R244). -/
  stack : List Int := []
  /-- Boundaries since which no cell, and not the bound current, has failed the conditions of a detected rest (R209). -/
  calmCell : Nat := 0
  calmCur : Nat := 0
  /-- The rest ended during the injection window of the frame in force, or an off word fell into its test (R227, R256). -/
  spoilt : Bool := false
  /-- Settled samples of the latest 100,000 picks, newest block first, and the means of ch0 to ch12 at the previous evaluation (R244). -/
  blocks : List PassiveBlock := []
  means : List Rat := []
  deriving DecidableEq, Repr

/-- Balancing and diagnostics. -/
structure BalUnit where
  cells : Tbl BalCell := []
  chains : Tbl BalChain := []
  tags : Tbl TagDiag := []
  /-- Next balance frame to decide. -/
  frame : Nat := 1
  /-- The latest 100 primary samples of each cell channel, newest first (R209). -/
  recent : Tbl (List Int) := []
  deriving DecidableEq, Repr

end Sys2Proof.Machine
end

