-- ==== Sys2Proof/Machine/UnitsAcc.lean ====
section
/-! DEFINITION. The state of accumulators, apsis trackers and user windows (chapter 05). -/

namespace Sys2Proof.Machine

/-- An open or committed accumulator (R152 to R157). `flags` are the bits of the record's `FLAGS`; `gen` the generation of the last
admitted sample, `genFirst` of the first. -/
structure Acc where
  count : Nat := 0
  sum : Int := 0
  sumsq : Nat := 0
  nGap : Nat := 0
  nExcl : Nat := 0
  flags : Nat := 0
  gen : Option Nat := none
  genFirst : Option Nat := none
  deriving DecidableEq, Repr

/-- An apsis tracker (R158, R159): its reset point and the extremes with the centres of their samples. -/
structure Apsis where
  point : Nat := 0
  count : Nat := 0
  min : Int := 0x7FFFFFFF
  max : Int := -0x80000000
  minSpc : Nat := 0
  maxSpc : Nat := 0
  flags : Nat := 0
  gen : Option Nat := none
  deriving DecidableEq, Repr

/-- The record of one standard interval of an entry: its number, whether it is committed, and the function that owned the chain
throughout it once committed (none: it changed) (R142 to R146). -/
structure StdRec where
  j : Nat
  acc : Acc := {}
  committed : Bool := false
  owner : Option Nat := none
  /-- Generation in force at the end of the interval. -/
  endGen : Nat := 0
  /-- Samples that an open record held when an error cleared it (R155). -/
  cleared : Nat := 0
  deriving DecidableEq, Repr

/-- An entry of a user window as its word names it (R147, R151). -/
structure WinEntry where
  chi : Nat
  pos : Nat := 0
  all : Bool := false
  deriving DecidableEq, Repr

/-- One interval of a user window: number, its accumulators and trackers by channel * 8 + position. -/
structure WinInterval where
  n : Nat
  accs : Tbl Acc := []
  aps : Tbl Apsis := []
  deriving DecidableEq, Repr

/-- A committed interval in a window's queue (R148): its bounds, its dropped count and the records already written. -/
structure WinQueued where
  n : Nat
  start : Nat
  stop : Nat
  dropped : Nat := 0
  gen : Nat := 0
  records : List (List Word) := []
  taken : Nat := 0
  deriving DecidableEq, Repr

/-- A user window (R147 to R151). -/
structure Window where
  start : Nat
  length : Nat
  repeats : Bool := false
  apsis : Bool := false
  event : Bool := false
  /-- Exclusion mask: `OVR`, `TRANS`, `UNCAL`, `RPL`, `WIDE`. -/
  mask : Nat := 0
  entries : List WinEntry := []
  /-- Intervals that have admitted or counted a sample and are not committed, oldest first. -/
  open_ : List WinInterval := []
  /-- Number of the next interval to commit. -/
  next : Nat := 0
  queue : List WinQueued := []
  /-- Intervals not stored since the last stored one. -/
  dropped : Nat := 0
  /-- End E of a close, with its command. -/
  close : Option Nat := none
  cmd : Option CmdRef := none
  /-- Every interval has been committed; the window waits for its queue to empty. -/
  draining : Bool := false
  /-- Chains that left the function, with the boundary of the revocation (R167). -/
  left : Tbl Nat := []
  /-- Chains that left and whose cut-short interval has been committed. -/
  leftDone : List Nat := []
  deriving DecidableEq, Repr

/-- Accumulators and apsis trackers. -/
structure AccUnit where
  /-- Standard 1 s and 60 s records by channel * 8 + position, newest first. -/
  one : Tbl (List StdRec) := []
  sixty : Tbl (List StdRec) := []
  /-- Running apsis trackers by channel * 8 + position. -/
  apsis : Tbl Apsis := []
  /-- The pick of the latest `ACC.APSIS_RESET` of a tracker with the tracker as it stood before (R168). -/
  apsisWas : Tbl (Nat × Apsis) := []
  /-- Fast-path trackers of safety windows. -/
  fast : Tbl Apsis := []
  /-- User windows by fn * 65536 + identifier. -/
  windows : Tbl Window := []
  /-- Picks at which a position (key 2^28 + position) changed incarnation or tag, an entry (channel * 8 + position) a binding, or a channel
  (key 2^29 + channel) its standard position, with the record flag they set. -/
  marks : Tbl (List (Nat × Nat)) := []
  /-- Intervals committed so far, for `MISSED`: the next interval number of each length. -/
  doneOne : Nat := 0
  doneSixty : Nat := 0
  deriving DecidableEq, Repr

end Sys2Proof.Machine
end

