-- ==== Sys2Proof/Machine/UnitsSafe.lean ====
section
/-! DEFINITION. The state of the safety island (chapter 11). -/

namespace Sys2Proof.Machine

/-- State of the island (R321). -/
inductive Island where
  | start
  | run
  | lockout
  deriving DecidableEq, Repr

/-- A window set record (R323), its fields in the units of their words. -/
structure WSet where
  num : Nat
  vHi : Int
  vLo : Int
  tHi : Int
  tLo : Int
  iChg : Nat
  iDis : Nat
  /-- Bit 0: discharge forbidden (charge only); bit 1: charge forbidden (discharge only). -/
  dir : Nat := 0
  dirTol : Nat := 1
  nV : Nat := 4
  nT : Nat := 4
  outMask : Nat := 0
  scopeW : Nat := 0
  scopeC : Nat := 0
  parkOk : Bool := false
  tBlind : Nat := 13
  tripPre : Nat := 400
  tripPost : Nat := 200
  /-- Words 0 to 7 as written, for the change log. -/
  head : List Word := []
  deriving DecidableEq, Repr

/-- A derived set (R354): its number, its values, and who created it last tightened it. -/
structure Derived where
  num : Nat
  set : WSet
  deriving DecidableEq, Repr

/-- Configuration of a safety input (R339). -/
structure InCfg where
  scope : Nat := 0
  mask : Nat := 0
  latch : Bool := true
  chains : List Nat := []
  deriving DecidableEq, Repr

/-- A configuration change accepted and not yet flipped (R352). -/
inductive CfgChange where
  | writeSet (w : WSet)
  /-- Assign positions to a base set, or to none. -/
  | assign (wset : Option Nat) (posns : List Nat)
  | io (en : Nat) (inputs : List InCfg)
  /-- Release derived sets of a base set on one chain or every chain. -/
  | release (base : Nat) (chain : Option Nat)
  | delete (wset : Nat)
  | settings (startLocked : Bool)
  | arm (wset : Nat) (on : Bool)
  | tighten (base chain : Nat) (d : Derived)
  deriving DecidableEq, Repr

/-- A change waiting for its flip, with the command that finishes then. -/
structure CfgPending where
  change : CfgChange
  flip : Nat
  cmd : CmdRef
  deriving DecidableEq, Repr

/-- An entry of the change log (R350): its sixteen words and whether it has been archived. -/
structure LogEntry where
  seq : Nat
  words : List Word
  archived : Bool := false
  /-- The entry failed its check at a start: the chain is broken here (R461). -/
  broken : Bool := false
  deriving DecidableEq, Repr

/-- What a trip turns off (R331). -/
inductive Scope where
  | drives (posns : List Nat)
  | all
  deriving DecidableEq, Repr

/-- A latched trip (R332, R333). -/
structure Trip where
  id : Nat
  /-- Owner of the tripping channel's chain at the trip. -/
  fn : Nat
  cause : Nat
  wset : Nat
  chi : Nat
  mux : Nat := 0
  limit : Int := 0
  value : Int := 0
  /-- Centre of the tripping sample, a boundary: its `SPC_FRAC` is 0 (R20). -/
  spc : Nat
  frac : BitVec 10 := 0
  /-- First boundary at which the demand is in force. -/
  since : Nat
  code : Nat
  scope : Scope
  mask : Nat
  /-- CT12 whose bleed switches it opens. -/
  bleed : Option Nat := none
  /-- Latest pick in which the condition was present. -/
  lastBad : Nat
  deriving DecidableEq, Repr

/-- A latched stop of a chain (R334). -/
structure Stop where
  spc : Nat
  deriving DecidableEq, Repr

/-- What a comparator counts for one limit pair: the run of violations of the upper and of the lower limit (R327, R328). -/
structure Count where
  hi : Nat := 0
  lo : Nat := 0
  deriving DecidableEq, Repr

/-- What a comparator has seen of a channel (R337): boundary of its latest live sample, and since when its samples carry `SUBST`. -/
structure Seen where
  last : Nat
  subst : Option Nat := none
  deriving DecidableEq, Repr

/-- The safety island. -/
structure SafeUnit where
  island : Island := .start
  /-- Lockout causes recorded, the first that led to the lockout first. -/
  causes : List Nat := []
  kill : Bool := true
  startLocked : Bool := true
  /-- Causes with which the island leaves `START` in lockout, whatever `START_LOCKED` is (R461, R465, R468). -/
  startCauses : List Nat := []
  /-- Password as established: the device holds its hash (R347, R349). -/
  password : Option (List Nat) := none
  pwFails : Nat := 0
  /-- End of the suspension of password checks. -/
  pwUntil : Option Nat := none
  sets : Tbl WSet := []
  armed : List Nat := []
  /-- Derived sets by chain * 4096 + base set. -/
  derived : Tbl Derived := []
  /-- Base set of each assigned position. -/
  assign : Tbl Nat := []
  ioEn : Nat := 0
  inputs : List InCfg := [{}, {}, {}, {}]
  pendingCfg : List CfgPending := []
  /-- Change log, newest first. -/
  log : List LogEntry := []
  logSeq : Nat := 0
  logLost : Nat := 0
  /-- The event of 3,584 unarchived entries has been raised and the count has not fallen since. -/
  logWarned : Bool := false
  trips : List Trip := []
  /-- Last trip identifier of each function (R366). -/
  lastId : Tbl Nat := []
  stops : Tbl Stop := []
  /-- Input lines, demands recognised and demands latched, bit k for input k. -/
  inA : Nat := 15
  inB : Nat := 15
  demand : Nat := 0
  latched : Nat := 0
  /-- Levels that lines of outputs read back against their drive, as last reported, by 2 k + line (R338); the others follow their drive. -/
  readback : Tbl Bool := []
  /-- Comparator counts by channel * 8 + position, with bit 26 set for pair sums and bit 27 for SLD. -/
  counts : Tbl Count := []
  seen : Tbl Seen := []
  /-- First boundary at which a position was covered, for its blind time. -/
  coveredFrom : Tbl Nat := []
  /-- Unmeasured positions and cells that have tripped already, by channel. -/
  unmeasured : List Nat := []
  /-- Boundary at which the trackers of channels are reset (R335): chains and boundary. -/
  apsisReset : List (Nat × List Nat) := []
  /-- End of the acknowledgement window of R346. -/
  ackUntil : Option Nat := none
  /-- Records of island SRAM that have failed their check: a window set by number, 4,096 the I/O record, 4,097 + position an
  assignment. -/
  bad : List Nat := []
  /-- The start test runs for a lockout acknowledgement. -/
  testing : Bool := false
  deriving DecidableEq, Repr

end Sys2Proof.Machine
end

