-- ==== Sys2Proof/Machine/UnitsChg.lean ====
section
/-! DEFINITION. The state of the charge sequencer and of supply groups (chapter 10). -/

namespace Sys2Proof.Machine

/-- A termination of a phase (R291, R292). -/
structure Term where
  kind : Nat := 0
  action : Nat := 0
  target : Nat := 0
  /-- In units of 10 ms. -/
  hold : Nat := 0
  thresh : Nat := 0
  deriving DecidableEq, Repr

/-- A phase record (R291), its fields in the units of their words. -/
structure PhaseRec where
  typ : Nat := 0
  anchor : Bool := false
  refStr : Bool := false
  offOpen : Bool := false
  i : Nat := 0
  iEnd : Nat := 0
  vCell : Nat := 0
  vStr : Nat := 0
  /-- `ZV[z]`, `ZI[z]`. -/
  zones : List (Nat × Nat) := []
  tOn : Nat := 0
  tOff : Nat := 0
  pulses : Nat := 0
  trainRest : Nat := 0
  tRamp : Nat := 0
  terms : List Term := []
  deriving DecidableEq, Repr

/-- A charge program (R291). -/
structure Program where
  chem : Nat := 0
  tz : List Int := []
  hyst : Nat := 1
  stopHi : Int := 0
  stopLo : Int := 0
  maxTime : Nat := 1
  maxCharge : Nat := 1
  upd : Nat := 100
  rampDn : Nat := 0
  slewUp : Nat := 0
  inrushPicks : Nat := 0
  trackTol : Nat := 1
  inrushI2t : Nat := 0
  kp : Nat := 0
  ki : Nat := 0
  dvHoldoff : Nat := 0
  phases : List PhaseRec := []
  deriving DecidableEq, Repr

/-- State of a program (R306). -/
inductive PrgState where
  | loaded
  | running
  | hold
  | stopping
  | done
  | fault
  | aborted
  deriving DecidableEq, Repr

/-- An inrush window (R312): its picks, its budget in A²·ms, and the sum so far in µA² samples. -/
structure Inrush where
  start : Nat
  stop : Nat
  budget : Nat
  sum : Nat := 0
  deriving DecidableEq, Repr

/-- A ramp to zero (R309, R311): decided at boundary s with i0 and `OUT_EN` in force, over `dn` picks; the state and cause a program ends
with. -/
structure Ramp where
  s : Nat
  i0 : Int
  on : Bool
  dn : Nat
  ending : PrgState
  cause : Nat
  deriving DecidableEq, Repr

/-- A host setpoint (R311). -/
structure Setpoint where
  current : Int
  outEn : Bool
  /-- End of its time to live. -/
  ttl : Nat
  inrushPicks : Nat
  inrushBudget : Nat
  deriving DecidableEq, Repr

/-- One channel's part of a relaxation set (R300): flags, generation, pre sum and count, sixteen sub-windows. -/
structure RelaxRec where
  chi : Nat
  flags : Nat := 0
  gen : Nat := 0
  preSum : Int := 0
  preCount : Nat := 0
  /-- Count, gap samples and sum of each sub-window. -/
  subs : List (Nat × Nat × Int) := []
  deriving DecidableEq, Repr

/-- A relaxation set being built or stored (R300). -/
structure RelaxSet where
  e : Nat
  phase : Nat
  seq : Nat
  /-- First pick after the rest, once it has ended. -/
  stop : Option Nat := none
  dropped : Nat := 0
  recs : List RelaxRec := []
  /-- Records already harvested. -/
  taken : Nat := 0
  deriving DecidableEq, Repr

/-- What the sequencer holds of one drive tag. -/
structure Drive where
  /-- The loaded program, and the function it counts for (R294). -/
  prog : Option Program := none
  fn : Nat := 256
  pst : PrgState := .loaded
  cause : Nat := 0
  /-- Start boundary of a start accepted and not yet taken (R306). -/
  startAt : Option Nat := none
  phase : Nat := 0
  /-- Zone of the hottest and of the coldest thermistor (R296). -/
  zoneHi : Nat := 0
  zoneLo : Nat := 0
  /-- SPC at which the program started, at which the phase was entered, and loop ticks of the phase outside `HOLD`. -/
  began : Nat := 0
  entered : Nat := 0
  ticks : Nat := 0
  /-- Coulomb integrator at `CHG.START` and at phase entry. -/
  qProg : Int := 0
  qPhase : Int := 0
  /-- Charges of the latest ended run, 0.01 mAh. -/
  lastPhaseQ : Int := 0
  lastProgQ : Int := 0
  /-- Limiter state, previous error, command (R297), request and share (R315), µA. -/
  q : Int := 0
  ePrev : Int := 0
  cmd : Int := 0
  request : Int := 0
  share : Option Int := none
  grpLim : Bool := false
  /-- Ceiling of the phase at the latest tick, µA (R188, R295). -/
  ceil : Int := 0
  /-- The output is off in a pulse off-time or train rest (R312). -/
  pulseOff : Bool := false
  /-- What is in force at the tag: boundary, current in µA, `OUT_EN`, newest first. -/
  force : List (Nat × Int × Bool) := []
  /-- Since when each termination's condition has held. -/
  holds : List (Option Nat) := []
  /-- Consecutive ticks above and below the tolerance (R313). -/
  trackHi : Nat := 0
  trackLo : Nat := 0
  inrush : Option Inrush := none
  /-- Budget used by the latest window, A²·ms. -/
  inrushUsed : Nat := 0
  ramp : Option Ramp := none
  setp : Option Setpoint := none
  /-- Relaxation set of the rest in progress, sets whose rest has ended and whose samples are still to come, oldest first; sets stored; sets
  not stored since; rests of the run so far (R300). -/
  rest : Option RelaxSet := none
  closing : List RelaxSet := []
  sets : List RelaxSet := []
  notStored : Nat := 0
  rests : Nat := 0
  /-- Peak of R303, µV. -/
  peak : Option Int := none
  /-- End of the latest run, whose times are held. -/
  ended : Nat := 0
  /-- Boundary from which the `OUT_EN` = 0 of an ended program is in force, while stop commands wait for it (R309). -/
  offAt : Option Nat := none
  /-- The program is unloaded once it has ended. -/
  unload : Bool := false
  deriving DecidableEq, Repr

/-- State of an allowance search (R316). -/
inductive GState where
  | hold
  | ramp
  | rampWait
  deriving DecidableEq, Repr

/-- A supply group (R314 to R317). -/
structure Group where
  members : List Nat
  sense : Nat
  sag : Nat
  aMax : Nat
  aInit : Nat
  a : Nat
  state : GState := .hold
  changed : Bool := true
  /-- mV. -/
  vref : Int := 0
  tEnd : Nat := 0
  demand : Nat := 0
  srcLim : Option Nat := none
  deriving DecidableEq, Repr

/-- The charge sequencer. -/
structure ChgUnit where
  /-- Drive tags by position. -/
  drives : Tbl Drive := []
  groups : Tbl Group := []
  /-- Sums and counts by second, offset by 1,600 picks, newest first: primary samples of a cell channel (R303), dwell values of a
  thermistor (R304), by channel * 8 + position. -/
  blocks : Tbl (List (Nat × Int × Nat)) := []
  /-- Latest valid dwell value of each thermistor with the boundary at which it became final (R296). -/
  latest : Tbl (Nat × Int) := []
  /-- Primary samples of each drive tag's ch3 by number, newest first (R316). -/
  bus : Tbl (List (Nat × Int)) := []
  deriving DecidableEq, Repr

end Sys2Proof.Machine
end

