-- ==== Sys2Proof/Machine/UnitsEst.lean ====
section
/-! DEFINITION. The state of the estimator (chapter 09). -/

namespace Sys2Proof.Machine

/-- A chemistry profile (R258), its fields in the units of their words. -/
structure Profile where
  cRated : Nat := 1
  vFull : Nat := 0
  vEmpty : Nat := 0
  iEmpty : Nat := 0
  uOcv : Nat := 0
  tauRel : Nat := 60
  rTc : Int := 0
  tLearnLo : Int := 0
  tLearnHi : Int := 0
  rBin : Nat := 32
  uFull : Nat := 0
  uEmpty : Nat := 0
  socFull : Nat := 1000000
  tRow : List Int := []
  /-- Four rows of 101 entries. -/
  ocv : List (List Nat) := []
  deriving DecidableEq, Repr

/-- The coulomb counts of a drive tag at the start of a second (R262): boundary, integrator, charge and gap bias in mC, gap samples and
runs longer than 1 s so far. -/
structure Snap where
  at_ : Nat
  integ : Int
  chg : Rat
  bias : Rat
  gaps : Nat
  runs : Nat
  deriving DecidableEq, Repr

/-- What a step writes into a string context: the end of its interval, the counts there, R_STR as measured, nΩ, and its flags (R280). -/
structure StrStep where
  stepSpc : Nat := 0
  counts : Snap := { at_ := 0, integ := 0, chg := 0, bias := 0, gaps := 0, runs := 0 }
  rStr : Nat := 0
  uncal : Bool := false
  gapq : Bool := false
  nores : Bool := true
  deriving DecidableEq, Repr

/-- What the estimator holds of a drive tag: settings (R259), the coulomb integrator (R260, R261) and the string context. -/
structure Str where
  /-- `I_NOM`, none for the default. -/
  iNom : Option Nat := none
  tRest : Nat := 20
  rateRest : Nat := 1000
  autoHib : Bool := true
  /-- The 96-bit coulomb integrator, in nV × 80 µs, and the SPC of its latest clearing. -/
  integ : Int := 0
  clearedAt : Nat := 0
  /-- Charge that has gone through, mC, converted at each sample's release (R286). -/
  chg : Rat := 0
  /-- Latest valid sample, the gap run in progress, and gap samples integrated since release. -/
  lastValid : Option Int := none
  gapRun : Nat := 0
  nGapq : Nat := 0
  /-- Bias grown by gap runs, mC, and runs longer than 1 s, in total. -/
  gapBias : Rat := 0
  longRuns : Nat := 0
  /-- Counts at the starts of seconds, newest first. -/
  snaps : List Snap := []
  /-- The latest step, and the one before it in the other half of the double buffer (R279). -/
  now : StrStep := {}
  half : StrStep := {}
  /-- Rest in progress since a boundary; the latest rest that ended, its start and end. -/
  restFrom : Option Nat := none
  restEnded : Option (Nat × Nat) := none
  /-- The string's R_REF, nΩ. -/
  rRef : Nat := 0
  /-- A gap run has been integrated since the latest rest (R261). -/
  gapq : Bool := false
  idchg : Bool := false
  error : Bool := false
  deriving DecidableEq, Repr

/-- An open learning interval (R273): the opening anchor's boundary, value and uncertainty, whether it was a full anchor, and what
has gone through since, in mC. -/
structure Learn where
  spc : Nat
  a : Int
  u : Nat
  full : Bool
  net : Int := 0
  abs : Nat := 0
  pos : Nat := 0
  neg : Nat := 0
  bled : Nat := 0
  /-- Random variance, ppm², and bias, ppm, that the charge of the interval has added. -/
  r2 : Nat := 0
  bias : Nat := 0
  gaps : Nat := 0
  samples : Nat := 0
  /-- Disqualifiers met so far, bit i for row i + 1 of the table of R273. -/
  dq : Nat := 0
  deriving DecidableEq, Repr

/-- An entry of the learning log (R274, R408). -/
structure LearnLog where
  code : Nat
  c : Nat
  u : Nat
  opened : Nat
  closed : Nat
  deriving DecidableEq, Repr

/-- A cell context (R263 to R273, R283). -/
structure Cell where
  est : Int := 0
  rep : Int := 0
  ur2 : Nat := 0
  ub : Nat := 0
  cap : Nat := 1
  uCap : Nat := 0
  /-- The first step after a start sets `EST` and `REP` from the cell's voltage (R283). -/
  fresh : Bool := true
  rRef : Nat := 0
  aRel : Nat := 0
  rRel : Nat := 0
  aType : Nat := 6
  anchorSpc : Nat := 0
  /-- SPC of the later of the context's start and its last rest or empty anchor, and of the last synthesis (R268). -/
  realAt : Nat := 0
  synthAt : Option Nat := none
  valid : Bool := false
  noAnchor : Bool := false
  synth : Bool := false
  learned : Bool := false
  uncal : Bool := false
  gapq : Bool := false
  idchg : Bool := false
  restored : Bool := false
  swapSusp : Bool := false
  nores : Bool := true
  error : Bool := false
  /-- R_OHM and R_LF as measured, nΩ, with the standard uncertainty of R_LF, and both at 25 °C. -/
  rOhm : Nat := 0
  rLf : Nat := 0
  uR : Nat := 0
  rOhm25 : Nat := 0
  rLf25 : Nat := 0
  /-- U_REP of the latest step (R269). -/
  uRep : Nat := 0
  stepSpc : Nat := 0
  /-- Counts of the string at the end of the latest step's interval, none before the first; charge bled so far then, nC. -/
  countAt : Option Snap := none
  bledAt : Nat := 0
  /-- Estimation is suspended for a confirmed break, as of the latest step (R248, R286). -/
  susp : Bool := false
  /-- The last loaded 60 s record before the rest in progress: voltage, 100 nV, and current, mA (R265). -/
  load : Option (Int × Int) := none
  /-- Start of the rest whose anchor has been formed (R264). -/
  restDone : Option Nat := none
  /-- The empty voltage has been reached in the discharge in progress (R266). -/
  emptied : Bool := false
  /-- A full anchor asked for by a taper end or by `EST.LEARN` (R266). -/
  fullDue : Bool := false
  fullAsked : Bool := false
  learnOff : Bool := false
  learn : Option Learn := none
  log : List LearnLog := []
  /-- Last valid 1 s mean, 100 nV, and whether an outage has followed it (R284). -/
  lastV : Option Int := none
  outage : Bool := false
  deriving DecidableEq, Repr

/-- What is held of a function's estimator (R275 to R277). -/
structure FnEst where
  hiber : Bool := false
  since : Nat := 0
  /-- SPC of the latest `EST` command, and since when the currents have been low. -/
  lastCmd : Nat := 0
  lastBusy : Nat := 0
  /-- `EST.HIBERNATE` has asked for hibernation at the next step boundary. -/
  asked : Bool := false
  deriving DecidableEq, Repr

/-- An image waiting to be restored (R282): the words of its records, each followed by its section's end, two words, and `TAG16`. -/
structure RestoreJob where
  fn : Nat
  uRestore : Nat
  /-- The image is the device's own: same `DIE_UID` and `AON_RUN`. -/
  own : Bool
  cells : List (List Word)
  strings : List (List Word)
  ref : CmdRef
  deriving DecidableEq, Repr

/-- The estimator. -/
structure EstUnit where
  /-- Profiles by fn * 256 + number. -/
  profiles : Tbl Profile := []
  /-- Profile bound to a CT12 position, as fn * 256 + number. -/
  bound : Tbl Nat := []
  /-- Thermistor positions of a tag's cells where they differ from the default (R259). -/
  therm : Tbl (List Nat) := []
  strs : Tbl Str := []
  /-- Cell contexts by channel, and the other half of each double buffer (R279). -/
  cells : Tbl Cell := []
  half : Tbl Cell := []
  fns : Tbl FnEst := []
  restores : List RestoreJob := []
  /-- Functions for which a synthesis has been reported (R268). -/
  noAnchorFns : List Nat := []
  /-- Estimator cores that are power-gated (R275). -/
  gated : Bool := false
  /-- Consecutive gap samples of each CT12 position (R284). -/
  gapRuns : Tbl Nat := []
  deriving DecidableEq, Repr

end Sys2Proof.Machine
end

