-- ==== Sys2Proof/Machine/UnitsSpec.lean ====
section
/-! DEFINITION. The state of the spectral engine and of dither (chapter 06). -/

namespace Sys2Proof.Machine

/-- A complex number. -/
structure Cx where
  re : Rat := 0
  im : Rat := 0
  deriving DecidableEq, Repr

/-- What a stage record holds of a cascade (R172, R193): the number of its newest sample, its samples, newest first, and the fast-path sample
since which its history is whole. -/
structure Stage where
  newest : Nat := 0
  hist : List Cx := []
  since : Nat := 0
  deriving DecidableEq, Repr

/-- The cascade of a voltage channel or of a merged current: its input with a run of gap samples not yet passed on (R177), its 16 stages once a
sample has come, and the runs of samples, first and last, that carried `GAP`, `OVR` or `UNCAL` or were disturbed, newest first. -/
structure Cascade where
  next : Nat := 0
  last : Option Int := none
  run : Nat := 0
  stages : List Stage := []
  gaps : List (Nat × Nat) := []
  ovr : List (Nat × Nat) := []
  uncal : List (Nat × Nat) := []
  disturbed : List (Nat × Nat) := []
  deriving DecidableEq, Repr

/-- One bin of a context or of a focus session (R175, R176): the averages of V conj(I), |I|² and |V|² as exact fractions. -/
structure SpecBin where
  n : Nat := 0
  p : Rat := 0
  q : Rat := 0
  svRe : Rat := 0
  svIm : Rat := 0
  sii : Rat := 0
  svv : Rat := 0
  restart : Bool := false
  /-- SPC of the latest restart. -/
  since : Nat := 0
  /-- The latest calibration flip seen at an admission, and the segments admitted since it. -/
  flip : Nat := 0
  sinceFlip : Nat := 0
  uncal : Bool := false
  interp : Bool := false
  /-- Release boundary of the latest admitted segment's last sample. -/
  lastSpc : Nat := 0
  deriving DecidableEq, Repr

/-- A cell or string context by voltage channel (R169, R180). -/
structure SpecCtx where
  bins : Tbl SpecBin := []
  gen : Nat := 0
  lastSpc : Nat := 0
  skipped : Nat := 0
  rejected : Nat := 0
  error : Bool := false
  /-- The next segment of each bin. -/
  nexts : Tbl Nat := []
  /-- No segment that began before this SPC counts: the binding or an owner changed then (R195). -/
  cut : Nat := 0
  deriving DecidableEq, Repr

/-- The current context of a drive tag (R169): the band averages of its merged current, and the latest transforms of each bin by segment, in
volts across the shunt. -/
structure CurCtx where
  bins : Tbl SpecBin := []
  segs : Tbl (List (Nat × Cx)) := []
  deriving DecidableEq, Repr

/-- Spectral settings of a chain (R176, R180). -/
structure SpecChain where
  tMem : Nat := 60
  /-- `I_MIN` in mA, `COH_MIN` in 2^-16. -/
  iMin : Nat := 10
  cohMin : Nat := 32768
  stopped : Bool := false
  deriving DecidableEq, Repr

/-- A focus session (R183 to R185) with the stages of its voltage and of its current. -/
structure Focus where
  chi : Nat
  /-- Centre frequency, mHz. -/
  fc : Nat
  zoom : Nat
  running : Bool
  n : Nat
  start : Nat
  ctx : SpecCtx := {}
  admitted : Nat := 0
  complete : Bool := false
  v : List Stage := []
  i : List Stage := []
  deriving DecidableEq, Repr

/-- One piece of a round's work (R190): a segment of a baseline context, or what a focus session of function `fn` does in the round, with the
segment that has ended. -/
structure SegmentWork where
  focus : Bool := false
  fn : Nat := 0
  /-- `CHI` of the voltage channel, or the session identifier. -/
  id : Nat
  bin : Nat := 0
  seg : Option Nat := none
  deriving DecidableEq, Repr

/-- A segment being worked in a round on a tile (R190, R192): whether it is admitted, the transforms of its voltage, turned by the skew, and of
its current, one for each bin, and what its bins note of it. -/
structure InWork where
  work : SegmentWork
  tile : Nat
  at_ : Nat
  good : Bool
  v : List Cx := []
  i : List Cx := []
  lastSpc : Nat := 0
  uncal : Bool := false
  interp : Bool := false
  deriving DecidableEq, Repr

/-- Dither of a drive tag (R186 to R188). -/
structure Dither where
  ampl : Nat := 0
  seed : Nat := 0
  order : Nat := 23
  chip : Nat := 1
  /-- Asked on by `SPEC.DITHER`, and the tag has reported the configuration applied. -/
  on : Bool := false
  applied : Bool := false
  deriving DecidableEq, Repr

/-- The spectral engine. -/
structure SpecUnit where
  /-- Cascades by channel, those of merged currents under channel 6. -/
  casc : Tbl Cascade := []
  /-- Cell and string contexts by voltage channel, and current contexts by drive tag. -/
  ctxs : Tbl SpecCtx := []
  cur : Tbl CurCtx := []
  chains : Tbl SpecChain := []
  /-- Focus sessions by fn * 65536 + identifier. -/
  focus : Tbl Focus := []
  /-- Segments in work in the running round, and the number of the next round. -/
  work : List InWork := []
  round : Nat := 0
  dither : Tbl Dither := []
  deriving DecidableEq, Repr

end Sys2Proof.Machine
end

