-- ==== Sys2Proof/Machine/UnitsTherm.lean ====
section
/-! DEFINITION. The state of housekeeping, thermal management, wear and trace (chapter 16), and of the non-volatile records
(chapters 15, 16). -/

namespace Sys2Proof.Machine

/-- One check of a housekeeping position (R473): consecutive failing and passing rounds, and the alarm. -/
structure HkCheck where
  failing : Nat := 0
  passing : Nat := 0
  alarm : Bool := false
  deriving DecidableEq, Repr

/-- The value of a position with its round and `OVR` (R472). -/
structure HkValue where
  round : Nat
  value : Int
  ovr : Bool := false
  deriving DecidableEq, Repr

/-- Thermal state (R475). -/
inductive TempState where
  | normal
  | warning
  | throttle
  deriving DecidableEq, Repr

/-- Housekeeping and thermal management (R471 to R481). -/
structure ThermUnit where
  /-- Latest value of each position. -/
  values : Tbl HkValue := []
  /-- Checks by position * 4 + code. -/
  checks : Tbl HkCheck := []
  /-- Latest reading, m°C; none while unknown. Before the first decision it is unknown. -/
  reading : Option Int := none
  /-- A decision has been taken, and its round. -/
  decided : Option Nat := none
  unk : Nat := 0
  steps : Nat := 0
  last : Nat := 0
  /-- Shed steps of the twin's latest heartbeat, and those in force: the larger of both (R477). -/
  twin : Nat := 0
  force : Nat := 0
  tstate : TempState := .normal
  band : Nat := 0
  /-- HBM refresh interval of the band, ns: a stack refreshes at the shorter of it and what its own temperature readout asks for (R481). -/
  refresh : Nat := 3900
  /-- Boundary of the latest daily sample of the wear indicators (R482). -/
  sampledAt : Option Nat := none
  /-- Data component of the local ports, mV (R481, R534). -/
  amp : Nat := 2000
  /-- Why the reading is unknown: 0 `OVR`, 1 out of range, 2 `HK_REF`. -/
  why : Nat := 0
  peak : Option Int := none
  thrSpc : Nat := 0
  warnSpc : Nat := 0
  /-- Readings of the latest 16 rounds, newest first. -/
  hist : List (Option Int) := []
  /-- Decision boundary of a thermal shutdown, with its cause, and `FN_READY` just before it. -/
  shutAt : Option (Nat × Nat) := none
  shutReady : BitVec 16 := 0
  deriving DecidableEq, Repr

/-- One indicator of wear (R482, R484). -/
structure WearInd where
  /-- Daily samples, newest first, at most 90. -/
  samples : List Nat := []
  uclass : Nat := 0
  unit : Nat := 0
  restarted : Bool := false
  deriving DecidableEq, Repr

/-- Wear (R482 to R484). -/
structure WearUnit where
  inds : Tbl WearInd := []
  /-- Picks spent in each band. -/
  bands : List Nat := [0, 0, 0, 0]
  /-- Smallest eye widths of the day, second by second: how often each was seen, and the lane it was last seen on. -/
  eyes : Tbl (Nat × Nat) := []
  /-- Turning points of the round readings that no rainflow cycle has closed, newest first, and the sum of the squares of the swings of the
  cycles closed, of 20 K and more, in (m°C)². -/
  turns : List Int := []
  swings : Nat := 0
  /-- Thresholds of the prediction already crossed: 365, 90, 0 days as bits 0 to 2. -/
  crossed : Nat := 0
  /-- Boundary of the latest write to NVM. -/
  written : Nat := 0
  deriving DecidableEq, Repr

/-- A trace record (R485): its class, code, unit, stamp and payload. -/
structure TraceRec where
  cls : Nat
  code : Nat
  uclass : Nat := 0
  unit : Nat := 0
  late : Bool := false
  frac : BitVec 10 := 0
  spc : Nat
  words : List Word := []
  deriving DecidableEq, Repr

/-- The trace unit (R485 to R489). -/
structure TraceUnit where
  /-- Records held, newest first. -/
  recs : List TraceRec := []
  /-- Write number of the next record. -/
  next : Nat := 0
  /-- Filter mask by class, and spill limit in MiB. -/
  mask : Nat := 0xFFFF
  spill : Nat := 64
  lost : Nat := 0
  /-- Records lost since the previous lost marker, and since the previous event. -/
  sinceMark : Nat := 0
  sinceEvent : Nat := 0
  /-- The event of 90 %, and the event of a loss, has been raised since the latest dump. -/
  warned : Bool := false
  lostWarned : Bool := false
  /-- Gated units by class * 256 + unit: entry stamp and records not taken (R488). -/
  gated : Tbl (Nat × Nat) := []
  /-- Gating transitions that wait their turn, in order: class * 256 + unit, and whether it gates; and the first boundary at which the next may
  come (R528). -/
  gating : List (Nat × Bool) := []
  gateFrom : Nat := 0
  deriving DecidableEq, Repr

/-- What the configuration partition of NVM holds (R447). -/
structure Kept where
  bind : Bindings := {}
  depth : Nat := 800
  lanePairs : List Nat := []
  groups : Tbl Group := []
  pid : Nat := 0
  laneMap : List (Nat × Nat) := []
  parked : List Nat := []
  traceMask : Nat := 0xFFFF
  traceSpill : Nat := 64
  srcTab : Tbl Word := []
  deriving DecidableEq, Repr

/-- What the safety partition and the change log hold (R325, R350, R459), and the password (R347). -/
structure KeptSafety where
  sets : Tbl WSet := []
  armed : List Nat := []
  assign : Tbl Nat := []
  ioEn : Nat := 0
  inputs : List InCfg := [{}, {}, {}, {}]
  startLocked : Bool := true
  password : Option (List Nat) := none
  log : List LogEntry := []
  logSeq : Nat := 0
  logLost : Nat := 0
  /-- Some `SAFE.CONFIG` has written the partition (R542). -/
  written : Bool := false
  deriving DecidableEq, Repr

/-- One copy of a partition (R460): its generation, its content and whether its CRC-32C matches. The manual gives the content of a partition and
not the layout of its bytes, so the check is held as its outcome (log 18). -/
structure NvmCopy (α : Type) where
  gen : BitVec 32
  value : α
  good : Bool
  deriving DecidableEq, Repr

/-- The two copies of a partition, none while one has never been written, and the copy being written with the boundary at which it has been
verified (R460). -/
structure Copies (α : Type) where
  a : Option (NvmCopy α) := none
  b : Option (NvmCopy α) := none
  writing : Option (Bool × Nat) := none
  deriving DecidableEq, Repr

/-- The partitions kept in two copies (R459). A device leaves the factory with a boot selector and wear counters, and with no configuration,
safety or password partition (R542). -/
structure NvmCopies where
  /-- Preferred slot, trial flag, trial result (R464). -/
  selector : Copies (Bool × Bool × Bool) := { a := some { gen := 0, value := (false, false, false), good := true } }
  config : Copies Kept := {}
  safety : Copies KeptSafety := {}
  password : Copies (Option (List Nat)) := {}
  wear : Copies WearUnit := { a := some { gen := 0, value := {}, good := true } }
  deriving DecidableEq, Repr

/-- Non-volatile memory (R447, R459 to R461, R480). Every record is its words. The fields `prefB` to `wear` are what the device works with;
`copies` is what the die holds of them. -/
structure NvmUnit where
  aonRun : Nat := 0
  coldRun : Nat := 0
  /-- Records by kind: 1 thermal shutdown, 2 BIST fence, 5 zeroisation; oldest first. -/
  thermal : List (List Word) := []
  fences : List (List Word) := []
  zero : List (List Word) := []
  /-- Record numbers given so far, and records replaced. -/
  tseq : Nat := 0
  bseq : Nat := 0
  zseq : Nat := 0
  overwritten : Nat := 0
  /-- Firmware slots A and B: the image held, none while the slot is empty or invalid (R463). The factory image stands in A (R542). -/
  slotA : Option FwImage := some {}
  slotB : Option FwImage := none
  /-- Preferred slot, and the trial flag of a slot just selected. -/
  prefB : Bool := false
  trialFlag : Bool := false
  /-- The trial result: the latest trial failed (R464). -/
  trialFailed : Bool := false
  kept : Kept := {}
  safety : KeptSafety := {}
  /-- Wear counters as last written (R483). -/
  wear : WearUnit := {}
  /-- Version of the safety part that ran last (R465). -/
  safetyRun : Nat := 0
  /-- The device holds a pair key (R467, R468). -/
  pairKey : Bool := true
  /-- A zeroisation that no cold reset has followed (R468). -/
  zeroPending : Bool := false
  copies : NvmCopies := {}
  deriving DecidableEq, Repr

end Sys2Proof.Machine
end

