-- ==== Sys2Proof/Machine/UnitsPair.lean ====
section
/-! DEFINITION. The state of the binary pair (chapter 14) and the blocks of resynchronisation. -/

namespace Sys2Proof.Machine

/-- Role of a device (R438). -/
inductive PRole where
  | single
  | primary
  | companion
  deriving DecidableEq, Repr

/-- A block of tables or state of a resynchronisation (R435). The first nine are the tables of its first part. -/
inductive ResyncBlock where
  | tenants (tenants : Tbl Tenant) (weights : Tbl Weights) (owner : Tbl Nat) (grants : Tbl Grant)
  | map (bind : Bindings) (staged : List Staged)
  | coefficients (tags : Tbl TagCal) (chains : Tbl ChainCal)
  | windows (w : Tbl Window)
  | windowSets (sets : Tbl WSet) (assign : Tbl Nat) (derived : Tbl Derived)
  | profiles (p : Tbl Profile) (bound : Tbl Nat) (therm : Tbl (List Nat))
  | programs (d : Tbl Drive) (g : Tbl Group)
  | balancing (cells : Tbl BalCell) (chains : Tbl BalChain)
  | armed (l : List Nat) (password : Option (List Nat))
  | records (one sixty : Tbl (List StdRec)) (apsis : Tbl Apsis)
  | safety (counts : Tbl Count) (trips : List Trip) (stops : Tbl Stop)
  | estimator (strs : Tbl Str) (cells half : Tbl Cell) (fns : Tbl FnEst)
  | spectral (ctxs : Tbl SpecCtx) (casc : Tbl Cascade) (cur : Tbl CurCtx) (chains : Tbl SpecChain) (dither : Tbl Dither)
  | results (trips : List TripSection) (focus : Tbl Focus) (sets : Tbl (List RelaxSet))
  deriving DecidableEq, Repr

/-- A formation in progress (R417): the form of the command, its identifier and lane map, its deadline and the command. -/
structure Forming where
  join : Bool
  pid : Nat
  laneMap : List (Nat × Nat)
  deadline : Nat
  cmd : CmdRef
  deriving DecidableEq, Repr

/-- A planned handover (R429, R433): its pick X, the epoch from X on, whether this device takes the leases or gives them, and the
command on the old primary. -/
structure Handing where
  x : Nat
  epoch : Nat
  take : Bool
  cmd : Option CmdRef := none
  deriving DecidableEq, Repr

/-- The twin as its latest heartbeat shows it (R423). -/
structure Twin where
  role : Nat := 0
  sub : Nat := 0
  lockout : Bool := false
  throttle : Bool := false
  pid : Nat := 0
  epoch : Nat := 0
  spc : Nat := 0
  ready : Nat := 0
  leases : Nat := 0
  uid : Nat := 0
  fwVersion : Nat := 0
  safetyVersion : Nat := 0
  deriving DecidableEq, Repr

/-- A message sent and not yet acknowledged (R423): its content and the pick in which it was sent last. -/
structure Unacked where
  msg : PairOut
  sent : Nat
  deriving DecidableEq, Repr

/-- The pair unit. -/
structure PairUnit where
  role : PRole := .single
  /-- Own pair identifier and lane map: own lane, pair lane number (R417); kept in NVM (R447). -/
  pid : Nat := 0
  laneMap : List (Nat × Nat) := []
  forming : Option Forming := none
  /-- The device holds a pair key (R467, R468), as NVM says. -/
  key : Bool := true
  twin : Twin := {}
  /-- The twin link is up; consecutive picks with a heartbeat and the pick of the latest; when it was lost. -/
  link : Bool := false
  beats : Nat := 0
  lastBeat : Nat := 0
  lostAt : Nat := 0
  /-- REFCLK offset from the twin, 0.001 ppm, and whether it is out of limit (R432). -/
  offset : Int := 0
  offsetOut : Bool := false
  /-- Own epoch, the proposed epoch while claiming, and the greatest epoch received in an up lane header (R424). -/
  epoch : Nat := 0
  proposed : Option Nat := none
  heard : Nat := 0
  /-- Bridges claimed, and bridges to which release now is sent; lanes. -/
  claims : List Nat := []
  releasing : List Nat := []
  /-- Why leases are claimed: the cause of the role change that the first grant makes (R439). -/
  claimCause : Nat := 3
  handing : Option Handing := none
  /-- The own epoch has been found stale: the boundary of the demotion (R434). -/
  stale : Option Nat := none
  /-- Resynchronisation is incomplete, and its progress in permille. -/
  resync : Bool := false
  progress : Nat := 0
  roleSpc : Nat := 0
  epochSpc : Nat := 0
  /-- Sequence numbers of the pair channel: next to send, and last accepted. -/
  nextSeq : Nat := 1
  lastSeq : Nat := 0
  unacked : List Unacked := []
  /-- `PAIR.UPDATE` in progress, with its command on the primary, and the step reached (R436, R438). -/
  updating : Option (Option CmdRef) := none
  step : Nat := 0
  /-- Words of an image received so far, and its header (R462). -/
  imageWords : Nat := 0
  imageHead : List Word := []
  /-- What the twin has reported with `LOCAL_FAULT`, newest first: the words of each report. -/
  twinFaults : List (List Word) := []
  /-- Safety state as last sent: counts, trips by function and identifier, stops (R423). -/
  sentCounts : Tbl Count := []
  sentTrips : List (Nat × Nat) := []
  sentStops : List Nat := []
  /-- The blocks of the twin's resynchronisation have been sent. -/
  resyncSent : Bool := false
  /-- Status of the latest command applied for the twin. -/
  outcome : Nat := 0
  /-- Pair-sequenced commands that wait for the tables of a resynchronisation (R435). -/
  held : List Packet := []
  /-- Blocks of the running resynchronisation taken so far. -/
  taken : List Nat := []
  /-- Down lease records as last assembled, by lane (R425). -/
  leaseTx : Tbl (BitVec 128) := []
  deriving DecidableEq, Repr

end Sys2Proof.Machine
end

