-- ==== Sys2Proof/Syntax.lean ====
section
/-! DEFINITION. The commands of the block: Instr, one constructor per row of the operations table. The table gives the rows no bits and
no fields (98_reader.md), so an operand is what the row's rule says arrives from outside, or the object the row is about
(Machine/Inputs.lean). -/

namespace Sys2Proof

/-- The operations and events of the table, in its order: one constructor per row. -/
inductive Instr where
  /-- VDD_AON_APPLIED (R20): Applying VDD_AON is a power-on reset: everything is cleared, the SPC starts at 0 and the I2C target answers from 10 ms. -/
  | vddAonApplied
  /-- COLD_RESET (R442): COLD_RST_N is recognised after 10 consecutive low samples; the cold domain is cleared, the kill line is asserted, frames stop and the island enters START. -/
  | coldReset
  /-- SUPPLY_MONITOR_TRIP (R442): A supply monitor finds a rail out of range for 10 us and raises an internal cold reset. -/
  | supplyMonitorTrip (rail : Nat)
  /-- COLD_RST_RELEASE (R449): Release of cold reset starts BIST and bring-up, and AON_RUN and COLD_RUN are incremented. -/
  | coldRstRelease
  /-- BIST_UNIT_DONE (R451): A unit finishes its start-up BIST; it is marked READY or SPARE, or it is fenced and recorded. -/
  | bistUnitDone (cls unit result : Nat)
  /-- TRIAL_BOOT_DEADLINE (R464): At 30 s after a trial boot the readiness bits are judged, and a failed trial makes the other slot preferred and forces a warm reset. -/
  | trialBootDeadline
  /-- TRIAL_BOOT_PASSED (R464): 600 s pass without a firmware watchdog; the trial passes, the trial flag clears and the OTP minimum security version may be raised. -/
  | trialBootPassed
  /-- MGMT_CORE_WATCHDOG (R444): The firmware watchdog of the management core expires and starts a warm reset. -/
  | mgmtCoreWatchdog
  /-- WARM_RESET_RECOGNISED (R444): A requested warm reset is recognised at the first pick boundary after the wear counters are written and YIELD is sent. -/
  | warmResetRecognised
  /-- PCIE_RESET (R444): PERST_N, a hot reset or link-down resets the PCIe controller, the management rings and every tenant with cause 2. -/
  | pcieReset (kind : PcieResetKind)
  /-- FUNCTION_LEVEL_RESET (R381): A Function Level Reset of a VF starts a tenant reset of cause 1. -/
  | functionLevelReset (vf : Nat)
  /-- VF_ENABLE_CLEARED (R381): Clearing VF Enable, or lowering NumVFs, resets the affected tenants with cause 2. -/
  | vfEnableCleared (enable : Bool) (numVfs : Nat)
  /-- WAKE_N_FALL (R75): A falling edge on WAKE_N held 10 us is latched and wakes every parked chain once the chain's function is ready. -/
  | wakeNFall
  /-- SAFE_RST_N_PULSE (R346): Release of SAFE_RST_N after 100 to 1,000 ms low opens the 10 s window for the lockout acknowledgement; a low outside those limits is ignored with an event. -/
  | safeRstNPulse (lowMs : Nat)
  /-- ACK_WINDOW_EXPIRY (R346): The 10 s window after a valid SAFE_RST_N pulse closes. -/
  | ackWindowExpiry
  /-- SAFE_IN_DEMAND (R339): A safety input line is low for 20 consecutive samples; SPO of the input's scope is demanded and its outputs drop. -/
  | safeInDemand (k : Nat) (a b : Bool)
  /-- SAFE_IN_RELEASE (R339): Both lines of a non-latching safety input return high and its demand ends. -/
  | safeInRelease (k : Nat)
  /-- SAFE_IN_DISCREPANCY (R339): The A and B lines of a safety input differ for more than 50 ms and the device enters lockout with cause IN_DISC. -/
  | safeInDiscrepancy (k : Nat)
  /-- SAFE_OUT_TEST_PULSE (R338): Once a second each on-line of an output is pulsed low for 200 us and read back. -/
  | safeOutTestPulse (k : Nat) (lineB readback : Bool)
  /-- OUT_FB (R338): A SAFE_OUT readback disagrees with its driven state for more than 50 us and the device enters lockout. -/
  | outFb (k : Nat) (lineB readback : Bool)
  /-- REFCLK_LOSS (R16): Loss of REFCLK is detected within 2 us; the SPC enters holdover, lines and lanes stop and the device enters lockout. -/
  | refclkLoss
  /-- REFCLK_RELOCK (R16): REFCLK returns and the PLLs relock; the next pick boundary is placed without stepping the SPC backward. -/
  | refclkRelock (step : Nat)
  /-- CLOCK_MONITOR_FAULT (R15): The island's clock monitor finds a ratio error of more than 3 % or 2 missing pick strobes, and declares a safety-core internal fault. -/
  | clockMonitorFault
  /-- SAFETY_CORE_FAULT (R342): A lockstep mismatch, monitor disagreement or island SRAM error drives the outputs off and enters lockout with cause CORE. -/
  | safetyCoreFault
  /-- ISLAND_WATCHDOG_EXPIRY (R342): The island watchdog is not serviced within 50 us and the device enters lockout with cause WDOG. -/
  | islandWatchdogExpiry
  /-- ISLAND_SUPPLY_FAULT (R345): The island's own supply monitor goes out of range and the device enters lockout with cause SUPPLY. -/
  | islandSupplyFault
  /-- SCAN_INSTRUCTION (R467): Update-IR of a JTAG scan instruction stops the plant, enters lockout with cause SCAN and starts zeroisation. -/
  | scanInstruction (opcode : Nat)
  /-- ZEROISATION_DONE (R467): Within 200 us the keys and the cached password hash are zeroised, and the zeroisation record and log entry are written. -/
  | zeroisationDone
  /-- TEST_LOGIC_RESET (R445): A JTAG test-logic reset through TRST_N or TMS acts on the test access port alone. -/
  | testLogicReset
  /-- VLINE_OUT_OF_RANGE (R529): VLINE is out of 10.8 to 13.5 V for 50 us; every local port turns off and the rings are treated as broken at both ports. -/
  | vlineOutOfRange
  /-- PORT_OVERCURRENT (R39): A port delivers more than 1.32 W for 50 us, turns off its carrier and driver, and its ring is treated as broken at that port. -/
  | portOvercurrent (port : PortTrip)
  /-- PICK_BOUNDARY (R10): At each pick boundary the down command word of every tag is assembled from the posted values, with the safety off word taking precedence. -/
  | pickBoundary
  /-- CHAIN_FRAME_RX (R42): Port B receives a chain frame, checks FCRC and HOP, files the blocks and resend blocks, and requests missing blocks. -/
  | chainFrameRx (f : ChainFrame)
  /-- RESEND_AGE_EXPIRY (R63): A missing block passes age 31, or is answered NOT_HELD, and its data pick becomes a gap. -/
  | resendAgeExpiry (pos pick : Nat) (notHeld : Bool)
  /-- RING_BREAK_DECLARED (R67): Port B is out of lock or two consecutive frames lack SYNC; both ports send wrap frames and the split hop moves to the broken hop. -/
  | ringBreakDeclared (chain : Nat) (outOfLock : Bool) (delays : List Nat)
  /-- HOP_FAULT (R56): Port B sees a wrong HOP in 2 consecutive frames; drive tags are turned off and data release for the chain stops. -/
  | hopFault (chain : Nat) (hops : List Nat)
  /-- POSITION_LOST (R70): A position delivers no valid LIVE block in 64 consecutive frames and is declared lost. -/
  | positionLost (pos : Nat)
  /-- IDENTITY_RX (R60): An upstream identity message is accepted; a new tag or a reboot is recognised, and the kept configurations are re-sent. -/
  | identityRx (pos : Nat) (msg : BitVec 512)
  /-- COEF_RX (R59): A factory-coefficient part is accepted; the parts are checked against COEF_CRC and are requested again on mismatch. -/
  | coefRx (pos : Nat) (msg : BitVec 512)
  /-- TAG_STATUS_RX (R58): A tag status message is accepted; the outcomes of configuration messages and the tag's faults are taken from it. -/
  | tagStatusRx (pos : Nat) (msg : BitVec 512)
  /-- SELVEDGE_DOWN_PERIOD (R57): At each 512-pick message period the next down message of each tag is sent: configuration, repeat request or idle. -/
  | selvedgeDownPeriod
  /-- CHAIN_ENUM_PICKS (R52): After the four enumeration picks the HOP counts at port B are compared; they are repeated or the chain is put in HOP fault. -/
  | chainEnumPicks (chain : Nat) (hops : List (Option Nat)) (delays : List Nat)
  /-- OPEN_RING_DETECTED (R55): No carrier reaches port B by p0+200; port B starts its carrier and the ring is enumerated in wrap mode. -/
  | openRingDetected (chain : Nat) (countsA countsB : List (Option Nat)) (delays : List Nat)
  /-- POSITION_RELEASED (R54): A position is released once its identity and its complete factory coefficients are received and its configurations are applied. -/
  | positionReleased (pos : Nat)
  /-- PARK_CARRIER_OFF (R73): At boundary p+16 of a park, frames and carriers stop and the positions are marked parked. -/
  | parkCarrierOff (chain : Nat)
  /-- UNWRAP_BOUNDARY (R69): At boundary u the tags return to normal mode and the split hop is restored, or the ring falls back to wrap mode. -/
  | unwrapBoundary (chain : Nat) (valid : Bool) (delays : List Nat)
  /-- UP_LANE_FRAME_RX (R94): An up lane frame is received; sub-blocks, resend entries, the lease record and the status page are filed and requests are issued. -/
  | upLaneFrameRx (f : UpFrame)
  /-- PICK_FINAL_GAP (R115): At boundary p+64 every entry still PENDING becomes GAP. -/
  | pickFinalGap (pick : Nat)
  /-- LANE_FAILED (R95): Loss of lock or marker lock, or 2 bad headers, fails a lane; failover under the deployment follows. -/
  | laneFailed (lane : Nat) (e : LaneFault)
  /-- LANE_DEGRADED (R95): More than one uncorrectable codeword in 1,000 picks, or a poor eye, raises a degraded event. -/
  | laneDegraded (r : LaneReading)
  /-- LANE_PHASE_COMPLETE (R102): A lane bring-up phase (lock, adapt, identify) ends in success or ST_PRECONDITION. -/
  | lanePhaseComplete (lane : Nat) (m : LaneMeasure)
  /-- LANE_ADAPT_STEP (R225): Every 100 picks a lane end changes at most one setting by one increment. -/
  | laneAdaptStep (lane rx : Nat) (up : Bool)
  /-- TWIN_FORWARD_FRAME_RX (R100): A bridge up frame forwarded by the twin is received and filed. -/
  | twinForwardFrameRx (tl : Nat) (f : UpFrame)
  /-- TWIN_BACKFILL_FRAME_RX (R100): A backfill frame rebuilt from the twin's bolt is received and fills the missing picks. -/
  | twinBackfillFrameRx (tl : Nat) (f : UpFrame)
  /-- RELAY_DOWN_FRAME_RX (R99): A down frame of the twin is received for relay and sent onto this device's uplink with RELAYED set. -/
  | relayDownFrameRx (tl : Nat) (f : DownFrame)
  /-- FORWARDING_CONTROL_WORD (R100): A forwarding-control word starts or stops forwarding, relay or backfill on a twin lane. -/
  | forwardingControlWord (w : BitVec 64)
  /-- HEARTBEAT (R423): A pair-channel heartbeat gives the twin's role, epoch, acknowledgement, readiness and shed steps. -/
  | heartbeat (h : PairMsg) (peer : Option PeerView)
  /-- MIRROR (R421): The companion receives a pair-sequenced command and applies it at the boundaries given. -/
  | mirror (m : PairMsg) (accept : Nat) (op : Nat) (r : Req)
  /-- MIRROR_ACK (R421): The primary receives the acknowledgement, and the command's completion is written. -/
  | mirrorAck (m : PairMsg)
  /-- SEQ_STATE (R310): The companion adopts the primary's sequencer state of a loop tick. -/
  | seqState (m : PairMsg) (drives : Machine.Tbl Machine.Drive) (groups : Machine.Tbl Machine.Group)
  /-- SAFE_STATE (R355): The companion adopts the comparator counts, latches and acknowledgements changed in the pick. -/
  | safeState (m : PairMsg) (counts : Machine.Tbl Machine.Count) (latched : List Machine.Trip) (acked : List (Nat × Nat)) (stops : List (Nat × Bool))
  /-- DEMAND (R343): The leaseholder receives a safety demand found by its twin and acts on it. -/
  | demand (m : PairMsg) (t : Machine.Trip)
  /-- YIELD (R428): The companion receives YIELD and claims every bridge until it is granted. -/
  | yield (m : PairMsg)
  /-- HANDOVER (R429): The companion receives the handover pick X and the new epoch and sends handover claims before X. -/
  | handover (m : PairMsg)
  /-- RESYNC (R435): A block of tables or state from the primary is applied during resynchronisation. -/
  | resync (m : PairMsg) (b : Machine.ResyncBlock)
  /-- IMAGE (R436): A block of a firmware image under PAIR.UPDATE is received and stored. -/
  | image (m : PairMsg)
  /-- LOCAL_FAULT (R423): The twin reports a fence, uncorrectable error or unfilled gap local to it. -/
  | localFault (m : PairMsg)
  /-- PAIR_MESSAGE_RESEND (R423): A pair message not acknowledged within 4 picks is sent again, from the first unacknowledged one. -/
  | pairMessageResend
  /-- TWIN_LINK_LOST (R423): No valid heartbeat arrives for 2 picks, or every twin lane fails; mirroring stops and the rules for a lost twin link apply. -/
  | twinLinkLost
  /-- TWIN_LINK_RESTORED (R433): Heartbeats arrive in 8 consecutive picks and the devices merge. -/
  | twinLinkRestored
  /-- LEASE_ASSESSMENT (R431): While the twin link is lost, the lease map is assessed at each multiple of 200 to decide the minority or a split. -/
  | leaseAssessment
  /-- DEMOTION_BOUNDARY (R434): At the first multiple of 200 at least 200 picks after the stale finding, the device becomes companion. -/
  | demotionBoundary
  /-- HANDOVER_PICK (R429): At pick X committed bridges switch holder, and the old primary becomes companion. -/
  | handoverPick
  /-- REFCLK_OFFSET_OUT (R432): The REFCLK offset to the twin leaves 0.2 ppm; mirroring stops and the pair runs as two devices. -/
  | refclkOffsetOut (offset : Int)
  /-- REFCLK_OFFSET_BACK (R432): The REFCLK offset returns within the limit and the devices merge. -/
  | refclkOffsetBack (offset : Int)
  /-- PAIR_FORMATION_TIMEOUT (R417): The two PAIR.CONFIG commands do not meet within 10 s and each finishes with ST_PRECONDITION. -/
  | pairFormationTimeout
  /-- RESYNC_COMPLETE (R435): The companion has taken every table and running state; an event is raised. -/
  | resyncComplete
  /-- PAIR_UPDATE_STEP_DONE (R436): A step of the pair update completes and the next step starts, or the update finishes. -/
  | pairUpdateStepDone (checks : ImageChecks) (parts : ImageParts)
  /-- LIVE_SAMPLE_ISSUE (R110): At boundary 8m+20+T a live fast-path sample is issued, with substitutes for missing picks, and goes to the safety comparators and the loops. -/
  | liveSampleIssue (pos m : Nat)
  /-- BLIND_TIMEOUT (R337): A covered channel stays blind for T_BLIND and trips with cause BLIND. -/
  | blindTimeout (chi : Nat)
  /-- SETTLED_SAMPLE_RELEASE (R116): At boundary 8m+92 the settled fast-path sample is corrected and released to its consumers, never to change again. -/
  | settledSampleRelease (pos m : Nat)
  /-- DELTA_REPLAY (R128): Replay work corrects the samples whose spans contain a filled pick, oldest first, within the reserved capacity. -/
  | deltaReplay (tile budget : Nat)
  /-- DWELL_VALUE_FINAL (R113): A dwell value of a multiplexed channel becomes final at 200k+272. -/
  | dwellValueFinal (chi k : Nat)
  /-- PRIMARY_SAMPLE_FINAL (R119): A primary sample becomes final at 200k+1,600. -/
  | primarySampleFinal (chi k : Nat)
  /-- SRAM_ECC_ERROR (R129): An uncorrectable error in a channel's fast-path state starts a full replay from the bolt. -/
  | sramEccError (chi : Nat)
  /-- HBM_ECC_ERROR (R155): An uncorrectable HBM error strikes a bolt entry, record or context and is marked, reverted or restarted. -/
  | hbmEccError (t : HbmTarget)
  /-- TILE_FAULT (R131): A tile fault is detected and its logical tile moves to a spare, or is fenced when none remains. -/
  | tileFault (phys : Nat)
  /-- SPARE_REBUILD_DONE (R131): The spare has rebuilt the fast path from the bolt and issues live samples again. -/
  | spareRebuildDone (tile : Nat)
  /-- TRIP_REANALYSIS_START (R134): At t+TRIP_POST+64 the trip re-analysis reads the bolt around the trip. -/
  | tripReanalysisStart (fn trip : Nat)
  /-- TRIP_REANALYSIS_DONE (R136): A trip re-analysis completes, its section is stored and an event is raised. -/
  | tripReanalysisDone (fn trip : Nat)
  /-- STANDARD_INTERVAL_COMMIT (R143): The records of a standard 1 s or 60 s interval are committed at E+1,600, and the oldest retained record drops out. -/
  | standardIntervalCommit (sixty : Bool) (j : Nat)
  /-- USER_INTERVAL_COMMIT (R148): A user-window interval is committed into the window's queue, or counted as dropped when the queue is full. -/
  | userIntervalCommit (fn win : Nat)
  /-- HK_SLOT_VALUE_FINAL (R472): A housekeeping position's value of the round becomes final. -/
  | hkSlotValueFinal (h : Nat) (value : Int) (ovr : Bool)
  /-- HK_ROUND_DECISION (R475): At each decision boundary the die temperature sets the thermal state, the shed steps and the band. -/
  | hkRoundDecision
  /-- SHUTDOWN_POWER_GATE (R478): By d+10,000 every domain but the always-on domain and housekeeping is power-gated, and the records have been written. -/
  | shutdownPowerGate
  /-- HELD_COLD_RESET_PROCEEDS (R479): A cold reset held after shutdown proceeds at the first decision boundary with a known reading below 108 C. -/
  | heldColdResetProceeds
  /-- WEAR_DAILY_SAMPLE (R482): Once a day the wear indicators are sampled and the prediction is updated. -/
  | wearDailySample (samples : List WearSample)
  /-- WEAR_COUNTER_WRITE (R483): Every 6 h the wear counters and samples are written to NVM. -/
  | wearCounterWrite
  /-- ESTIMATOR_STEP (R262): A context consumes a committed 1 s interval and advances EST, uncertainty, REP and capacity learning. -/
  | estimatorStep (chi j : Nat)
  /-- SYNTH_ANCHOR_DUE (R268): After 72 h without a real anchor, and every 24 h after, an anchor is synthesised. -/
  | synthAnchorDue (chi : Nat)
  /-- HIBERNATE_ENTRY (R275): After 60 s of low current and no EST command, a function's estimator hibernates and its idle cores power-gate. -/
  | hibernateEntry (fn : Nat)
  /-- ANCHOR_PASS (R276): While hibernating, the contexts are brought up to date and anchored at rest milestones. -/
  | anchorPass (fn : Nat)
  /-- SPECTRAL_ROUND (R190): Each 200-pick round divides spectral capacity by weight and works segments; unworked ones are skipped. -/
  | spectralRound (round : Nat)
  /-- LOOP_TICK (R297): Each 1 ms tick runs the limiter and zone selection of every program and checks its limits and terminations. -/
  | loopTick
  /-- INRUSH_WINDOW_END (R312): An inrush window ends, tracking begins and the group may unfreeze. -/
  | inrushWindowEnd (pos : Nat)
  /-- SETPOINT_TTL_EXPIRY (R311): A host setpoint's time to live expires and it ramps to 0 over 100 picks. -/
  | setpointTtlExpiry (pos : Nat)
  /-- GROUP_SEARCH (R316): Every 50 ms each supply group's allowance search advances, backs off or holds. -/
  | groupSearch
  /-- RELAXATION_SET_COMPLETE (R300): A relaxation set of a rest is completed and stored, or counted as not stored. -/
  | relaxationSetComplete (pos : Nat)
  /-- BALANCE_FRAME_BOUNDARY (R232): At each 32 ms frame the duty of each cell is decided, and the quiet window holds a test or an injection. -/
  | balanceFrameBoundary
  /-- BALANCE_TTL_EXPIRY (R234): A MANUAL cell's time to live expires and it returns to OFF. -/
  | balanceTtlExpiry (pos cell : Nat)
  /-- OPEN_WIRE_RESULT (R242): An open-wire test result becomes final at W+500 and is judged; breaks are confirmed or cleared. -/
  | openWireResult (pos start : Nat)
  /-- PASSIVE_CLASSIFICATION (R244): Every 100 ms each CT12's samples are classified for suspected breaks or stack disagreement. -/
  | passiveClassification (pos k : Nat)
  /-- CAL_RUN_FINISH (R202): A calibration run judges each tag and commits or holds the accepted candidates. -/
  | calRunFinish (fn slot start : Nat)
  /-- CAL_FLIP (R213): A calibration commit flips at boundary b and its slew starts. -/
  | calFlip (chain : Nat)
  /-- CAL_SLEW_STEP (R216): Each primary period the slewing coefficients take their next step. -/
  | calSlewStep (chi : Nat)
  /-- CAL_CANDIDATE_EXPIRY (R203): Held candidates are discarded 60 s after the run finished. -/
  | calCandidateExpiry (fn slot : Nat)
  /-- CAL_LANE_RUN_FINISH (R226): A lane calibration run measures the eye and keeps or steps back its settings. -/
  | calLaneRunFinish (lane : Nat) (m : LaneMeasure)
  /-- MAP_BUILD_COMPLETE (R219): A map build completes, and the flip falls at the next multiple of 200. -/
  | mapBuildComplete
  /-- MAP_FLIP (R219): The new map and coefficient table take effect and MAP_FLIP is raised. -/
  | mapFlip
  /-- SAFETY_CONFIG_FLIP (R352): An accepted safety configuration change flips in island SRAM at a multiple of 200. -/
  | safetyConfigFlip
  /-- SAFE_START_TEST_DONE (R346): The island's start test ends; the island enters RUN or stays in lockout. -/
  | safeStartTestDone (pass : Bool)
  /-- PASSWORD_SUSPENSION_END (R347): 60 s after 5 failures, password checks resume. -/
  | passwordSuspensionEnd
  /-- OWNER_CHANGE (R361): At boundary g a chain changes owner and the leaving owner's resources end. -/
  | ownerChange (chain : Nat)
  /-- TENANT_RESET_EFFECT (R382): At boundary r a tenant reset aborts commands, ramps programs and clears the tenant's rings and windows. -/
  | tenantResetEffect (t : Nat)
  /-- TENANT_RESET_COMPLETE (R381): At r+500 the tenant becomes ACTIVE, DETACHED or ABSENT, and RESET_DONE is queued. -/
  | tenantResetComplete (t : Nat)
  /-- EVENT_WRITER_ROUND (R376): Each 100-pick round writes pending event records to the queues by weight. -/
  | eventWriterRound
  /-- MODERATION_EXPIRY (R377): A vector's moderation interval ends and one message is sent if anything was written. -/
  | moderationExpiry (fn vector : Nat)
  /-- COMMAND_DISPATCH_ROUND (R379): Each 100-pick round starts tenants' pending commands on the firmware cores by weight. -/
  | commandDispatchRound (costs : List Nat)
  /-- LONG_COMMAND_FINISH (R391): A command that completed with ST_ACCEPTED finishes, and its finish event is raised. -/
  | longCommandFinish (fn ring : Nat) (cmdId : Word) (status : Nat)
  /-- FW_STAGING_DONE (R463): Staging of an image into a slot ends, checked valid or failed. -/
  | fwStagingDone (checks : ImageChecks) (parts : ImageParts)
  /-- BIST_RUN_DONE (R453): A BIST run on a fenced unit or spare ends, and a pass marks its fence cleared. -/
  | bistRunDone (result : Nat)
  /-- NVR_READ_DONE (R517): The requested NVM record is in NVR_WIN and NVR_STAT shows done. -/
  | nvrReadDone
  /-- DEV_INFO (R400): Returns the variant, stepping, firmware versions and image slot. -/
  | devInfo (r : Req)
  /-- DEV_READY (R400): Returns FN_READY and SPC_HOLDOVER. -/
  | devReady (r : Req)
  /-- DEV_CAPS (R400): Writes the capability record. -/
  | devCaps (r : Req)
  /-- DEV_TIME (R22): Returns the latched SPC with the latest PTM host time. -/
  | devTime (r : Req)
  /-- DEV_NOP (R392): Does nothing; with ORDERED it fences its ring. -/
  | devNop (r : Req)
  /-- CHAIN_POWER (R401): Powers a chain up and brings it up, or turns it off at the next boundary. -/
  | chainPower (r : Req)
  /-- CHAIN_ENUM (R401): Enumerates a powered chain again and releases its positions. -/
  | chainEnum (r : Req)
  /-- CHAIN_STATUS (R401): Writes the ring record and the position records of a chain. -/
  | chainStatus (r : Req)
  /-- CHAIN_PARK (R73): Parks a chain after a 16-pick notice. -/
  | chainPark (r : Req)
  /-- CHAIN_WAKE (R75): Brings a parked chain up again. -/
  | chainWake (r : Req)
  /-- CHAIN_SELV_READ (R401): Returns a held selvedge message, or requests a fresh one. -/
  | chainSelvRead (r : Req)
  /-- CHAIN_SELV_WRITE (R401): Sends an auxiliary-input configuration message to a CT12. -/
  | chainSelvWrite (r : Req)
  /-- CHAIN_RESET (R401): Reboots every tag of a chain and re-enumerates it, or unwraps a wrapped ring. -/
  | chainReset (r : Req)
  /-- LANE_UP (R102): Brings a lane up through lock, adapt and identify in the mode named. -/
  | laneUp (r : Req)
  /-- LANE_STATUS (R402): Returns a lane's state, delay, codewords and smallest eye. -/
  | laneStatus (r : Req)
  /-- LANE_PAIR (R402): Enables or disables the lane-pair deployment of lanes 2k and 2k+1. -/
  | lanePair (r : Req)
  /-- LANE_EYE (R103): Writes the eye record of a lane. -/
  | laneEye (r : Req)
  /-- LANE_DOWN (R102): Takes a lane down, with force where it is the only live path. -/
  | laneDown (r : Req)
  /-- BRIDGE_STATUS (R93): Writes the latest bridge status pages. -/
  | bridgeStatus (r : Req)
  /-- MAP_BIND (R403): Stages binding records for the next map commit. -/
  | mapBind (r : Req)
  /-- MAP_COMMIT (R219): Builds the new map in the background and flips it. -/
  | mapCommit (r : Req)
  /-- MAP_READ (R403): Writes the bindings in force and staged for a position. -/
  | mapRead (r : Req)
  /-- MAP_RANGE (R403): Writes owner, generation and last flip of each chain in a lane range. -/
  | mapRange (r : Req)
  /-- ACC_OPEN (R147): Opens a user window over a set of entries. -/
  | accOpen (r : Req)
  /-- ACC_CLOSE (R149): Closes a user window at end E, or discards it. -/
  | accClose (r : Req)
  /-- ACC_HARVEST (R163): Writes accumulator, apsis or trip records of a class to a host buffer. -/
  | accHarvest (r : Req)
  /-- ACC_APSIS_RESET (R158): Resets the running apsis trackers of a range. -/
  | accApsisReset (r : Req)
  /-- ACC_STATUS (R404): Returns a window's state or the function's totals. -/
  | accStatus (r : Req)
  /-- SPEC_CONFIG (R405): Sets T_MEM, I_MIN and COH_MIN of a chain, with optional restart. -/
  | specConfig (r : Req)
  /-- SPEC_FOCUS (R183): Opens a focus session. -/
  | specFocus (r : Req)
  /-- SPEC_HARVEST (R181): Writes spectral records or focus sessions. -/
  | specHarvest (r : Req)
  /-- SPEC_DITHER (R186): Configures and starts a drive tag's dither, or switches it off. -/
  | specDither (r : Req)
  /-- SPEC_STOP (R405): Stops a session, or stops or resumes a chain's baseline. -/
  | specStop (r : Req)
  /-- CAL_RUN (R200): Starts a calibration run on a chain's tags, or on a lane. -/
  | calRun (r : Req)
  /-- CAL_STATUS (R406): Returns a run's outcome and its tag or lane records. -/
  | calStatus (r : Req)
  /-- CAL_APPLY (R203): Commits or discards held candidates. -/
  | calApply (r : Req)
  /-- CAL_REVERT (R214): Commits a retained or factory generation again. -/
  | calRevert (r : Req)
  /-- CAL_READ (R214): Writes the coefficients of a retained generation. -/
  | calRead (r : Req)
  /-- CAL_LIMITS (R212): Sets or returns tighter plausibility limits. -/
  | calLimits (r : Req)
  /-- BAL_SET (R234): Sets cell balancing modes or a chain's balancing parameters. -/
  | balSet (r : Req)
  /-- BAL_STATUS (R236): Writes the bleed state of every cell of a chain. -/
  | balStatus (r : Req)
  /-- DIAG_OPENWIRE (R240): Requests an open-wire test or sets a chain's scan interval. -/
  | diagOpenwire (r : Req)
  /-- DIAG_TAG (R254): Writes a tag's faults, wire states and learned resistances. -/
  | diagTag (r : Req)
  /-- DIAG_REPORT (R254): Writes each tag's summary for a chain. -/
  | diagReport (r : Req)
  /-- EST_CONFIG (R408): Loads, deletes or binds profiles, and sets drive-tag, thermistor, R_REF or keep settings. -/
  | estConfig (r : Req)
  /-- EST_READ (R280): Writes the latest cell and string estimates. -/
  | estRead (r : Req)
  /-- EST_SAVE (R281): Writes a save image of the named chains' contexts. -/
  | estSave (r : Req)
  /-- EST_RESTORE (R282): Applies a save image at the next step. -/
  | estRestore (r : Req)
  /-- EST_LEARN (R274): Reads the learning log, forms full anchors, disables or enables learning, or sets CAP. -/
  | estLearn (r : Req)
  /-- EST_RESET (R283): Restarts cell contexts, optionally with a host SOC. -/
  | estReset (r : Req)
  /-- EST_HIBERNATE (R275): Enters hibernation at once, or reads the hibernation state. -/
  | estHibernate (r : Req)
  /-- CHG_LOAD (R291): Loads a charge program onto a drive tag. -/
  | chgLoad (r : Req)
  /-- CHG_START (R306): Starts a loaded program at a boundary. -/
  | chgStart (r : Req)
  /-- CHG_STOP (R309): Stops a program by ramp, optionally unloading it. -/
  | chgStop (r : Req)
  /-- CHG_STATUS (R409): Reports a drive tag or group, or harvests relaxation sets. -/
  | chgStatus (r : Req)
  /-- CHG_GROUP (R314): Creates, deletes or limits a supply group. -/
  | chgGroup (r : Req)
  /-- CHG_SETPOINT (R311): Sets a drive tag's current directly with a time to live. -/
  | chgSetpoint (r : Req)
  /-- SAFE_CONFIG (R348): Applies a password-protected safety configuration operation. -/
  | safeConfig (r : Req)
  /-- SAFE_ARM (R325): Arms a base set, or disarms it with the password. -/
  | safeArm (r : Req)
  /-- SAFE_STATUS (R410): Reports island state and latched trips, or harvests or resets fast-path apsis trackers. -/
  | safeStatus (r : Req)
  /-- SAFE_ACK (R332): Acknowledges a trip, stop or input demand, or leaves lockout after a valid pulse. -/
  | safeAck (r : Req)
  /-- SAFE_LOG (R350): Reads change-log entries, or marks them archived. -/
  | safeLog (r : Req)
  /-- SAFE_TIGHTEN (R353): Tightens a derived set on a chain, or demands a stop. -/
  | safeTighten (r : Req)
  /-- SAFE_PASSWD (R349): Sets the configuration password. -/
  | safePasswd (r : Req)
  /-- TEN_CREATE (R357): Creates a tenant. -/
  | tenCreate (r : Req)
  /-- TEN_DESTROY (R358): Destroys a tenant through a reset of cause 3. -/
  | tenDestroy (r : Req)
  /-- TEN_GRANT (R360): Grants a chain to a tenant, or sets its reservations. -/
  | tenGrant (r : Req)
  /-- TEN_REVOKE (R360): Returns a chain to the management function. -/
  | tenRevoke (r : Req)
  /-- TEN_QOS (R378): Sets a function's four QoS weights. -/
  | tenQos (r : Req)
  /-- TEN_RESET (R381): Starts a tenant reset of cause 0. -/
  | tenReset (r : Req)
  /-- TEN_STATUS (R411): Returns a tenant's state and counts. -/
  | tenStatus (r : Req)
  /-- PAIR_CONFIG (R417): Forms, joins or leaves a binary pair. -/
  | pairConfig (r : Req)
  /-- PAIR_STATUS (R438): Writes the pair status record. -/
  | pairStatus (r : Req)
  /-- PAIR_HANDOVER (R429): Starts a planned handover at pick X. -/
  | pairHandover (r : Req)
  /-- PAIR_UPDATE (R436): Updates both devices' firmware without a stop. -/
  | pairUpdate (r : Req)
  /-- PAIR_LEASE (R438): Writes a lease record per bridge lane. -/
  | pairLease (r : Req)
  /-- HK_THERMAL (R413): Returns the die temperature, band, state and shed steps. -/
  | hkThermal (r : Req)
  /-- HK_WEAR (R484): Returns the wear prediction and writes indicator records. -/
  | hkWear (r : Req)
  /-- HK_TRACE (R487): Configures trace, dumps records or returns trace status. -/
  | hkTrace (r : Req)
  /-- HK_RECORDS (R413): Writes non-volatile records of a kind. -/
  | hkRecords (r : Req)
  /-- HK_FW (R463): Stages, selects or activates firmware, or reports its status. -/
  | hkFw (r : Req)
  /-- HK_BIST (R453): Reads unit records, or runs BIST on a fenced or spare unit. -/
  | hkBist (r : Req)
  /-- CHK_BIND (R395): Binds a check polynomial to a transfer class. -/
  | chkBind (r : Req)
  /-- CHK_STATUS (R414): Returns a transfer class's check counts. -/
  | chkStatus (r : Req)
  /-- SQ_TAIL_DOORBELL (R385): A write of the submission tail makes new commands available, or disables the ring pair on a rule breach. -/
  | sqTailDoorbell (fn q tail : Nat) (packets : List Packet)
  /-- CQ_HEAD_DOORBELL (R385): A write of the completion head frees completion slots, or disables the ring pair on a breach. -/
  | cqHeadDoorbell (fn q head : Nat)
  /-- RING_ENABLE (R507): Setting ENABLE validates the ring configuration and resets the indices, or sets CFG_ERR. -/
  | ringEnable (fn q : Nat)
  /-- RING_DISABLE (R507): Clearing ENABLE discards unstarted packets and lets started commands complete. -/
  | ringDisable (fn q : Nat)
  /-- EQ_ENABLE (R508): Setting EQ_ENABLE validates the queue and resets P and C, or sets CFG_ERR. -/
  | eqEnable (fn : Nat)
  /-- EQ_DISABLE (R508): Clearing EQ_ENABLE holds records in the pending store. -/
  | eqDisable (fn : Nat)
  /-- EQ_CONS_WRITE (R374): A consumer index write frees queue room, or beyond P disables the queue with EVQ_ERR. -/
  | eqConsWrite (fn cons : Nat)
  /-- WARM_REQ_WRITE (R501): WARM_REQ with the key requests a warm reset after the wear counters are written. -/
  | warmReqWrite (value : Word)
  /-- MGMT_MAILBOX_WRITE (R512): The management function writes a tenant's mailbox 0 to 3 and a MAILBOX record is raised, or dropped. -/
  | mgmtMailboxWrite (t k : Nat) (value : Word)
  /-- TENANT_MAILBOX_WRITE (R373): A tenant writes mailbox 4 to 7 and a MAILBOX record is raised for the management function, unless busy. -/
  | tenantMailboxWrite (t k : Nat) (value : Word)
  /-- ALERT_STAT_CLEAR (R499): A write of 1 clears ALERT_STAT bits and MGMT_ALERT_N is released when nothing enabled remains. -/
  | alertStatClear (value : Word)
  /-- NVR_REQ_WRITE (R517): An I2C write names an NVM record to be read into the window. -/
  | nvrReqWrite (value : Word)
  /-- REG_PAIR_LOW_READ (R494): A read of the low register of a pair captures the whole value for the following high read. -/
  | regPairLowRead (fn off : Nat)
  /-- REGISTER_WRITE (R492): A write to any other register updates its RW, RW1C and RWS fields and ignores the rest. -/
  | registerWrite (fn off : Nat) (value : Word)
  /-- PTM_RESPONSE (R22): A PTM response from the host arrives and the device latches the host time with the SPC and SPC_FRAC of the exchange. -/
  | ptmResponse (host : BitVec 64)
  /-- VDD_AON_REMOVED (R20): Removal of VDD_AON ends the SPC and every state of the device. -/
  | vddAonRemoved
  /-- VLINE_BACK_IN_RANGE (R544): VLINE returns into range; untested local ports run BIST and chain commands on local rings are accepted again. -/
  | vlineBackInRange
  /-- SELVEDGE_MESSAGE_SCRC_FAIL (R59): An upstream selvedge message completes with a failing SCRC, and a repeat request is scheduled for a lost identity or coefficient message. -/
  | selvedgeMessageScrcFail (pos : Nat) (msgType part : Nat)
  /-- CHARGE_SEQUENCER_SRAM_ERROR (R307): An uncorrectable error in charge sequencer SRAM stops the affected program with cause ECC and ramps it to zero. -/
  | chargeSequencerSramError (pos : Nat)
  /-- SAFETY_RECORD_CHECK_FAIL (R345): A window set, assignment or I/O record fails its check in the island SRAM scrub, and the device enters lockout with cause CFG. -/
  | safetyRecordCheckFail (record : Nat)
  /-- PERST_N_RELEASE (R450): Release of PERST_N starts PCIe link training and configuration, after which HOST is set again. -/
  | perstNRelease
  /-- NVM_PARTITIONS_LOADED (R461): Reading of every NVM partition at start completes, fallbacks are applied and the configuration of R447 is restored, setting NVM. -/
  | nvmPartitionsLoaded (bad : List Nat)
  /-- BOOT_IMAGE_VERIFIED (R464): The boot ROM finishes choosing and verifying an image and runs it, or stays in ROM-only service. -/
  | bootImageVerified (validA validB : Bool)
  deriving DecidableEq, Repr

end Sys2Proof
end

