-- ==== Sys2Proof/Decode.lean ====
section
/-! DEFINITION. The command that a word spells. The operations table gives no row any bits (98_reader.md), so no word spells one. -/

namespace Sys2Proof

/-- The command of a table word: none, since no row has an encoding. -/
def decodeTableWord (_nbits _w : Nat) : Option Instr := none

end Sys2Proof
end

