-- ==== Sys2Proof/Config.lean ====
section
/-! DEFINITION. What the spec leaves open: the free values. Each is a constant with no body, applied to plain data, so no proof
can see what it is and a claim holds whatever it is. The log entry of each is named beside it. -/

namespace Sys2Proof.Config

/-- `SPC_FRAC` at the moment something inside a pick is latched (log 5): the model's time advances by whole picks. -/
opaque subPick : Nat → BitVec 10

/-- `KIND` of the pair event that R101 asks for when uplinks exceed the forwarding pool (log 6). -/
opaque excessKind : Nat

/-- The 351 coefficients of the primary filter, which the spec says are fixed and does not list (R119; log 7). The filter is linear
phase, so coefficient i and coefficient 350 - i are one; they stand over `primaryScale` + 1. -/
opaque primaryTap : Nat → Int
opaque primaryScale : Nat

/-- The coefficients of the half-band filter at odd distances 2i + 1 from its middle, over `halfBandScale` + 1: the manual gives the response
and not the taps (R172; log 11). -/
opaque halfBand (i : Nat) : Int
opaque halfBandScale : Nat

/-- `TCODE` and payload word i (4 to 7) of the trace record of a happening that is no marker, by the event kind it is raised with and
its argument, or 0x100 and up for the start and finish of a command: the spec lists the classes and the markers alone (R485; log 13). -/
opaque traceCode (kind : Nat) : BitVec 8
opaque traceWord (kind arg i : Nat) : BitVec 32

/-- `ECHO` of a down lane header, by chain frame: the spec calls it the echo sequence and gives no values (R83; log 19). -/
opaque echoSeq : Nat → BitVec 16

/-- Days to the limit, their standard uncertainty and the change per 1,000 days of a wear indicator, by indicator and daily samples, where
the spec does not give the fit (R484; log 15). -/
opaque wearFit : Nat → List Nat → Nat × Nat × Int

/-- Lifetime counters that arise outside the block: sector erase counts, repair rows, ring oscillators (R484; log 15). -/
opaque lifeCount : Nat → BitVec 32

/-- `e_prev` of the first tick of a limiter that did not run at the tick before, µV (R297; log 59). -/
opaque firstError : Nat → Int

/-- vb of R316, mV, where not one bus sample of the 50 ms has been released: a mean of nothing (log 59). -/
opaque busVolts : Nat → Int

/-- `O` of the stack channel that an offset run gives, by position and the SPC of its finish: ch12 runs from reference B in both dwells of an
injection, so the equations of R207 leave it open (R205, R207; log 58). -/
opaque stackOffset (pos spc : Nat) : Int

/-- What is delivered for a sample whose partial sum an uncorrectable error has destroyed and whose recomputation is not done: the spec gives
its flags and no value (R129, R138; log 64). -/
opaque lostSample (chi m : Nat) : BitVec 32

/-- Picks that the writing and verifying of a whole copy of an NVM partition takes beyond one: the manual gives no time (R460; log 18). -/
opaque nvmWrite : Nat → Nat

/-- Word i of a change-log entry that fails its check at a start, by entry number: what the die reads back (R461; log 18). -/
opaque logWord (seq i : Nat) : BitVec 32

/-- The code under which a parked position reports `PARKED` in `SAFE.STATUS`: R337 has it report so, and R410 numbers no such cause (log 41). -/
opaque parkedCause : BitVec 8

end Sys2Proof.Config
end

