-- ==== Sys2Proof/Machine/State.lean ====
section
/-! DEFINITION. The whole state of the block, its reset value, and the two ways a step can stop. -/

namespace Sys2Proof.Machine

/-- Why a step stops with a fault. -/
inductive Fault where
  /-- Raised by a row about a physical object (a port, a position, a pin) that no variant of the device has: the event cannot
  happen on the hardware. Safe: the model stops where the hardware has no behaviour. -/
  | noSuchObject
  deriving DecidableEq, Repr

/-- Why a step is refused. -/
inductive Refusal where
  /-- Raised by an arm of exec that has no meaning yet, with the row's mnemonic. Safe. -/
  | notModelled (mnemonic : String)
  deriving DecidableEq, Repr

/-- The state of the block: one record per unit of the device, what it has sent, the queue of waiting commands and the counter of
free values. -/
structure State where
  time : TimeUnit := {}
  otp : Otp := {}
  boot : Boot := {}
  line : LineUnit := {}
  lane : LaneUnit := {}
  loom : LoomUnit := {}
  cal : CalUnit := {}
  map : MapUnit := {}
  bal : BalUnit := {}
  acc : AccUnit := {}
  safe : SafeUnit := {}
  chg : ChgUnit := {}
  est : EstUnit := {}
  spec : SpecUnit := {}
  therm : ThermUnit := {}
  wear : WearUnit := {}
  trace : TraceUnit := {}
  nvm : NvmUnit := {}
  pair : PairUnit := {}
  ten : TenUnit := {}
  cmd : CmdUnit := {}
  regs : RegUnit := {}
  out : Outbox := {}
  /-- Commands waiting, first in, first out: the model's own field. -/
  pending : List Instr := []
  /-- The counter that free values are applied to: the model's own field. -/
  fresh : Nat := 0
  deriving DecidableEq, Repr

/-- The machine right after VDD_AON is applied (R20, R442, R493, R542): every field at its default, with COLD_RST_N low. -/
def State.reset : State := {}

end Sys2Proof.Machine
end

