-- ==== Sys2Proof/Machine/Ops.lean ====
section
/-! DEFINITION. The shared operations: tables, bit fields, check values, events and interrupts, completions and finishes, the
order in which a command is checked, and the buffers written to the host. -/

namespace Sys2Proof.Machine

/-! ### Tables -/

/-- The entry of key `k`. -/
def tget {α : Type} : Tbl α → Nat → Option α
  | [], _ => none
  | (k', v) :: r, k => if k' = k then some v else tget r k

/-- The entry of key `k`, or `d`. -/
def tgetD {α : Type} (t : Tbl α) (k : Nat) (d : α) : α := (tget t k).getD d

/-- Store `v` at `k`, keeping the keys ascending. -/
def tset {α : Type} : Tbl α → Nat → α → Tbl α
  | [], k, v => [(k, v)]
  | (k', v') :: r, k, v =>
    if k < k' then (k, v) :: (k', v') :: r
    else if k = k' then (k, v) :: r
    else (k', v') :: tset r k v

/-- Remove the entry of `k`. -/
def tdel {α : Type} (t : Tbl α) (k : Nat) : Tbl α := t.filter (fun p => p.1 != k)

/-- Remove every entry whose key satisfies `p`. -/
def tdrop {α : Type} (t : Tbl α) (p : Nat → Bool) : Tbl α := t.filter (fun e => !p e.1)

/-- Change the entry of `k`, which stands for `d` when absent. -/
def tmod {α : Type} (t : Tbl α) (k : Nat) (d : α) (f : α → α) : Tbl α := tset t k (f (tgetD t k d))

/-- Change the entry of `k` if there is one. -/
def tupd {α : Type} (t : Tbl α) (k : Nat) (f : α → α) : Tbl α :=
  match tget t k with
  | some v => tset t k (f v)
  | none => t

/-- Change every entry, its key at hand. -/
def tmap {α : Type} (t : Tbl α) (f : Nat → α → α) : Tbl α := t.map (fun p => (p.1, f p.1 p.2))

/-- Is there an entry of `k`? -/
def thas {α : Type} (t : Tbl α) (k : Nat) : Bool := (tget t k).isSome

/-- The keys whose entries satisfy `p`, ascending. -/
def tkeys {α : Type} (t : Tbl α) (p : Nat → α → Bool) : List Nat := (t.filter (fun e => p e.1 e.2)).map (·.1)

/-- Apply `f` to the state for each element in turn. -/
def forEach {α σ : Type} (l : List α) (s : σ) (f : α → σ → σ) : σ := l.foldl (fun s a => f a s) s

/-! ### Keys -/

/-- A chain is `lane * 256 + chain`, with lane 0xFF for a local ring (R398). -/
def chainKey (lane chain : Nat) : Nat := lane * 256 + chain

/-- Chain of a position, position of a channel, channel index `CHI` (R140: CHI = lane [22:15], chain [14:7], slot [6:4], ch [3:0]). -/
def chainOfPos (p : Nat) : Nat := p / 8
def slotOf (p : Nat) : Nat := p % 8
def posOfChi (c : Nat) : Nat := c / 16
def chanOf (c : Nat) : Nat := c % 16
def chainOfChi (c : Nat) : Nat := c / 128
def laneOfChain (c : Nat) : Nat := c / 256
def ringOfChain (c : Nat) : Nat := c % 256
def isLocal (c : Nat) : Bool := laneOfChain c == 0xFF

/-- The management function's code (R356). -/
def mgmt : Nat := 256

/-! ### Bit fields -/

/-- Bits [hi:lo] of a word, as registers number them. -/
def bits (w : Word) (hi lo : Nat) : Nat := (w.toNat >>> lo) % 2 ^ (hi + 1 - lo)

/-- `len` bits from bit `off` of a frame field, bit 0 being the first transmitted and the most significant (R40). -/
def fieldOf {n : Nat} (x : BitVec n) (off len : Nat) : Nat := (x.toNat >>> (n - off - len)) % 2 ^ len

/-- Bit `off` of a frame field, counted as `fieldOf` does. -/
def flagOf {n : Nat} (x : BitVec n) (off : Nat) : Bool := fieldOf x off 1 == 1

/-- The signed value of an `n`-bit two's-complement field. -/
def toSigned (n x : Nat) : Int := if x < 2 ^ (n - 1) then (x : Int) else (x : Int) - (2 ^ n : Nat)

/-- The two's-complement field of `n` bits that holds `x`. -/
def ofSigned (n : Nat) (x : Int) : Nat := (x % (2 ^ n : Nat)).toNat

/-- A word from a natural number, modulo 2^32. -/
def wd (n : Nat) : Word := BitVec.ofNat 32 n

/-- A signed value as a word. -/
def wdI (x : Int) : Word := BitVec.ofNat 32 (ofSigned 32 x)

/-- A 64-bit value as two words, least significant first (R398). -/
def wd64 (n : Nat) : List Word := [wd n, wd (n / 2 ^ 32)]

/-- Two words as a 64-bit value, least significant first. -/
def of64 (lo hi : Word) : Nat := lo.toNat + hi.toNat * 2 ^ 32

/-- A count that stops at its largest 32-bit value. -/
def sat32 (n : Nat) : Nat := min n 0xFFFFFFFF

/-- Clamp an integer between two bounds. -/
def clampI (lo hi x : Int) : Int := max lo (min hi x)

/-- Division rounding toward zero. -/
def tdivI (a b : Int) : Int := a.tdiv b

/-- Integer square root, one bit at a time from bit k - 1 down. -/
def isqrtFrom : Nat → Nat → Nat → Nat
  | 0, _, r => r
  | k + 1, x, r => if (r + 2 ^ k) * (r + 2 ^ k) ≤ x then isqrtFrom k x (r + 2 ^ k) else isqrtFrom k x r

/-- The largest integer whose square is at most x. -/
def isqrt (x : Nat) : Nat := isqrtFrom (Nat.log2 x / 2 + 1) x 0

/-- 0 or 1. -/
def b2n (b : Bool) : Nat := if b then 1 else 0

/-! ### Check values (R394) -/

/-- The bits of `x`, most significant first, `n` of them. -/
def bitsMsb : Nat → Nat → List Bool
  | 0, _ => []
  | n + 1, x => (x / 2 ^ n % 2 == 1) :: bitsMsb n x

/-- One bit through a CRC register of `w` bits. -/
def crcStep (w poly reg : Nat) (b : Bool) : Nat :=
  let top := reg / 2 ^ (w - 1) % 2 == 1
  let sh := reg * 2 % 2 ^ w
  if top != b then Nat.xor sh poly else sh

/-- The value of a bit list, most significant first. -/
def ofBits (l : List Bool) : Nat := l.foldl (fun a b => a * 2 + b2n b) 0

/-- The register after a list of bits, the first bit entering first. -/
def crcBits (w poly init : Nat) (l : List Bool) : Nat := l.foldl (crcStep w poly) init

/-- `w` bits of `x` in reverse order. -/
def reflect (w x : Nat) : Nat := ofBits (bitsMsb w x).reverse

/-- CRC-32C over bytes: reflected in and out. -/
def crc32c (bytes : List Nat) : Nat :=
  Nat.xor (reflect 32 (crcBits 32 0x1EDC6F41 0xFFFFFFFF (bytes.flatMap fun b => (bitsMsb 8 b).reverse))) 0xFFFFFFFF

/-- CRC-32 (IEEE 802.3) over bytes. -/
def crc32 (bytes : List Nat) : Nat :=
  Nat.xor (reflect 32 (crcBits 32 0x04C11DB7 0xFFFFFFFF (bytes.flatMap fun b => (bitsMsb 8 b).reverse))) 0xFFFFFFFF

/-- CRC-16/CCITT over bytes, not reflected. -/
def crc16 (bytes : List Nat) : Nat := crcBits 16 0x1021 0xFFFF (bytes.flatMap fun b => bitsMsb 8 b)

/-- CRC-8 over bytes, not reflected. -/
def crc8 (bytes : List Nat) : Nat := crcBits 8 0x07 0 (bytes.flatMap fun b => bitsMsb 8 b)

/-- The bytes of words, little-endian (R387). -/
def bytesOf (ws : List Word) : List Nat :=
  ws.flatMap fun w => [w.toNat % 256, w.toNat / 2 ^ 8 % 256, w.toNat / 2 ^ 16 % 256, w.toNat / 2 ^ 24]

/-- The check value of bytes for a `CHK_KIND` (R394). -/
def checkBytes (kind : Nat) (bs : List Nat) : Word :=
  wd (match kind with
    | 0 => crc32c bs
    | 1 => crc32 bs
    | 2 => crc16 bs
    | _ => crc8 bs)

/-- The check word of a buffer for a `CHK_KIND`. -/
def checkWord (kind : Nat) (ws : List Word) : Word := checkBytes kind (bytesOf ws)

/-! ### Serial numbers (R23 to R25) -/

/-- How `b` stands to `a` in serial arithmetic of `n` bits. -/
inductive Serial where
  | equal
  /-- `b` follows `a`. -/
  | follows (d : Nat)
  /-- `b` precedes `a`. -/
  | precedes (d : Nat)
  /-- The distance is half the range: too great to compare. -/
  | tooFar
  deriving DecidableEq, Repr

/-- Serial comparison of two n-bit values (R23). -/
def serialCmp (n a b : Nat) : Serial :=
  let d := (b + 2 ^ n - a % 2 ^ n) % 2 ^ n
  if d = 0 then .equal
  else if d < 2 ^ (n - 1) then .follows d
  else if d = 2 ^ (n - 1) then .tooFar
  else .precedes (2 ^ n - d)

/-- Extend a 32-bit pick number against a reference SPC (R25); none stands for ST_GAP. A result before SPC 0 is none too. -/
def extend (pn ref : Nat) : Option Nat :=
  let d := (pn + 2 ^ 32 - ref % 2 ^ 32) % 2 ^ 32
  if d = 0x80000000 then none
  else if d < 0x80000000 then some (ref + d)
  else if 2 ^ 32 - d ≤ ref then some (ref - (2 ^ 32 - d)) else none

/-! ### Boundaries -/

/-- The current SPC. -/
def State.spc (s : State) : Nat := s.time.spc

/-- The first multiple of `n` at or after `p`. -/
def nextMult (n p : Nat) : Nat := (p + n - 1) / n * n

/-- Commits and changes fall on the first multiple of 200 at least 400 picks ahead (R213, R219, R360). -/
def flipAfter (p : Nat) : Nat := nextMult 200 (p + 400)

/-- Take a fresh sub-pick value (log 5). -/
def State.takeFrac (s : State) : State :=
  { s with time := { s.time with frac := Config.subPick s.fresh }, fresh := s.fresh + 1 }

/-- In service: released from cold reset and not shut down. -/
def State.up (s : State) : Bool := s.boot.phase == .running

/-! ### Ownership (R360, R365) -/

/-- The function that owns a chain. -/
def ownerOf (s : State) (chain : Nat) : Nat := tgetD s.ten.owner chain mgmt

/-- Does `fn` own the chain? -/
def owns (s : State) (fn chain : Nat) : Bool := ownerOf s chain == fn

/-- State of a function: the management function always serves. -/
def fnActive (s : State) (fn : Nat) : Bool :=
  fn == mgmt || ((tget s.ten.tenants fn).map (fun t => t.state == .active)).getD false

/-! ### Interrupts (R377) -/

/-- Vectors of a function: 64 for a tenant, 256 for the management function (R506). -/
def vecCount (fn : Nat) : Nat := if fn = mgmt then 256 else 64

/-- Send one MSI-X message and start the vector's moderation interval. -/
def sendMsix (fn v : Nat) (s : State) : State :=
  let x := tgetD s.ten.vecs (fn * 256 + v) {}
  { s with
    out := { s.out with msix := (fn, v, x.addr, x.data) :: s.out.msix }
    ten := { s.ten with
      vecs := tset s.ten.vecs (fn * 256 + v) { x with pend := false, want := false, quietUntil := s.spc + 8 * x.mdr } } }

/-- Something was written for a vector: a masked vector sets its pending bit, a vector in its moderation interval notes it, any
other sends its message. -/
def signal (fn v : Nat) (s : State) : State :=
  let x := tgetD s.ten.vecs (fn * 256 + v) {}
  if x.masked then
    { s with ten := { s.ten with vecs := tset s.ten.vecs (fn * 256 + v) { x with pend := true } } }
  else if s.spc < x.quietUntil then
    { s with ten := { s.ten with vecs := tset s.ten.vecs (fn * 256 + v) { x with want := true } } }
  else sendMsix fn v s

/-! ### Trace (R485 to R488) -/

/-- Records that storage holds: 131,072 on the die and 32,768 for each MiB of the spill region (R487). -/
def traceRoom (t : TraceUnit) : Nat := 131072 + 32768 * t.spill

/-- Order of two records: `SPC`, `SPC_FRAC`, `UCLASS`, `UNIT` (R486). -/
def traceBefore (a b : TraceRec) : Bool :=
  decide (a.spc < b.spc) || (a.spc == b.spc && (decide (a.frac.toNat < b.frac.toNat) || (a.frac == b.frac &&
    (decide (a.uclass < b.uclass) || (a.uclass == b.uclass && decide (a.unit < b.unit))))))

/-- Put a record among those held, newest first; one taken late is written when taken. -/
def traceInsert (e : TraceRec) : List TraceRec → List TraceRec
  | [] => [e]
  | x :: r => if e.late || !traceBefore e x then e :: x :: r else x :: traceInsert e r

/-- Write a record, or count it lost: one slot stays free for a lost marker (R487). -/
def traceWrite (e : TraceRec) (t : TraceUnit) : TraceUnit :=
  if t.recs.length + 1 < traceRoom t then { t with recs := traceInsert e t.recs, next := t.next + 1 }
  else { t with lost := sat32 (t.lost + 1), sinceMark := sat32 (t.sinceMark + 1), sinceEvent := t.sinceEvent + 1 }

/-- What the trace unit does with a record: a class that the mask clears is dropped, and what a gated unit raises is counted (R487,
R488). -/
def traceAdd (e : TraceRec) (t : TraceUnit) : TraceUnit :=
  let u := e.uclass * 256 + e.unit
  if e.cls != 0 && !t.mask.testBit e.cls then t
  else match tget t.gated u with
    | some g => if e.cls = 0 then traceWrite e t else { t with gated := tset t.gated u (g.1, sat32 (g.2 + 1)) }
    | none => traceWrite e t

/-- Take a record while the device runs: only the trace unit changes. -/
def traceTake (e : TraceRec) (s : State) : State :=
  { s with trace := if s.boot.phase != .running then s.trace else traceAdd e s.trace }

/-- A marker (R485), stamped now. -/
def traceMarker (code uclass unit : Nat) (words : List Word) (s : State) : State :=
  traceTake { cls := 0, code := code, uclass := uclass, unit := unit, spc := s.spc, words := words } s

/-- The trace class that covers an event kind; none for what no class covers (R485). -/
def traceClass (kind : Nat) : Option Nat :=
  match kind / 16 with
  | 0x0 => some 0xA
  | 0x1 => some 4
  | 0x2 => some 4
  | 0x3 => some 3
  | 0x4 => some 0xA
  | 0x5 => some 5
  | 0x6 => some 6
  | 0x7 => some 6
  | 0x8 => some 7
  | 0x9 => some 8
  | 0xA => some 9
  | 0xB => some 0xB
  | 0xC => if kind < 0xC8 then some 0xC else some 0xD
  | 0xD => some 6
  | _ => none

/-- The unit that an event source names, as class and number (R369, R451). -/
def traceUnit (src : Nat) : Nat × Nat :=
  if src < 0x80 then (4, src)
  else if src < 0x90 then (8, 2 * (src - 0x80))
  else if src < 0xD4 then (1, src - 0x90)
  else if 0xE0 ≤ src ∧ src < 0xF0 then (2, src - 0xE0)
  else if 0x200 ≤ src ∧ src < 0x300 then (0xB, 0)
  else if 0x500 ≤ src ∧ src < 0x520 then (3, src - 0x500)
  else if 0x600 ≤ src ∧ src < 0x608 then (5, src - 0x600)
  else (0xC, 0)

/-- The trace record of a happening that is no marker. Its code, payload and sub-pick fraction are free values (logs 5, 13). -/
def traceNote (cls kind arg spc : Nat) (u : Nat × Nat) (s : State) : State :=
  let e : TraceRec :=
    { cls := cls, code := (Config.traceCode kind).toNat, uclass := u.1, unit := u.2, late := decide (spc + 64 < s.time.spc)
      frac := Config.subPick s.fresh, spc := spc, words := (List.range 4).map fun i => Config.traceWord kind arg (i + 4) }
  traceTake e { s with fresh := s.fresh + 1 }

/-- A unit power-gates, or ungates: its entry marker comes before its port is isolated, its exit marker first after it (R488). The
transition time is a free value. -/
def gateUnit (cls u : Nat) (on : Bool) (s : State) : State :=
  let k := cls * 256 + u
  match tget s.trace.gated k with
  | none =>
    if on then
      let s1 := traceMarker 1 cls u [wd k, Config.traceWord 0x101 k 5] s
      { s1 with trace := { s1.trace with gated := tset s1.trace.gated k (s1.time.spc, 0) } }
    else s
  | some g =>
    if on then s
    else traceMarker 2 cls u ([wd k, wd g.2] ++ wd64 g.1) { s with trace := { s.trace with gated := tdel s.trace.gated k } }

/-- A unit is to be gated, or ungated: the transition takes its turn, and one that waits for the same unit gives way to it (R528). -/
def wantGate (cls u : Nat) (on : Bool) (s : State) : State :=
  let k := cls * 256 + u
  let rest := s.trace.gating.filter (fun e => e.1 != k)
  { s with trace := { s.trace with gating := if (tget s.trace.gated k).isSome = on then rest else rest ++ [(k, on)] } }

/-- At a boundary, the next transition: those of different units are at least 20 µs, two picks, apart (R528). -/
def nextGate (s : State) : State :=
  match s.trace.gating with
  | e :: rest =>
    if s.time.spc < s.trace.gateFrom then s
    else gateUnit (e.1 / 256) (e.1 % 256) e.2 { s with trace := { s.trace with gating := rest, gateFrom := s.time.spc + 2 } }
  | [] => s

/-! ### Events (R368 to R375) -/

/-- A pending store keeps the order raised; records of one SPC stand in ascending source, then kind (R371). -/
def insertEv (e : EvRec) : List EvRec → List EvRec
  | [] => [e]
  | x :: r =>
    if x.spc = e.spc ∧ (e.source < x.source ∨ (e.source = x.source ∧ e.kind < x.kind)) then e :: x :: r
    else x :: insertEv e r

/-- Put a record into a function's pending store, or count it lost (R375). -/
def pushEv (fn : Nat) (e : EvRec) (s : State) : State :=
  let q := tgetD s.ten.queues fn {}
  let q' := if q.store.length < 1024 then { q with store := insertEv e q.store }
    else { q with lost := sat32 (q.lost + 1), lostFlag := true }
  { s with ten := { s.ten with queues := tset s.ten.queues fn q' } }

/-- The function a source delivers to (R369). -/
def sourceFn (src : Nat) : Nat :=
  if 0x100 ≤ src ∧ src ≤ 0x1FF then src - 0x100
  else if 0x800 ≤ src ∧ (src - 0x800) % 8 < 4 then (src - 0x800) / 8
  else mgmt

/-- Raise an event on a source: the receiver's tables filter it, a tenant that is not `ACTIVE` discards it (R383), a mirrored
summary is copied to the management function (R369, R510, R511). -/
def raise (src kind arg : Nat) (spc : Nat) (s0 : State) : State :=
  let e : EvRec := { source := src, kind := kind, arg := arg, spc := spc }
  let s := (traceClass kind).elim s0 (fun c => traceNote c kind arg spc (traceUnit src) s0)
  let fn := sourceFn src
  if fn = mgmt then
    if bits (tgetD s.ten.srcTab src 1) 0 0 = 1 then pushEv mgmt e s else s
  else
    let s1 := if fnActive s fn && bits (tgetD s.ten.clsTab (fn * 16 + kind / 16) 1) 0 0 = 1 then pushEv fn e s else s
    if src < 0x200 && bits (tgetD s.ten.srcTab src 0) 1 1 = 1 then pushEv mgmt e s1 else s1

/-- Raise an event now. -/
def raiseNow (src kind arg : Nat) (s : State) : State := raise src kind arg s.spc s

/-- The source of an event about a chain (R369): the owner's summary, or the source its chapter names. -/
def chainSource (s : State) (chain named : Nat) : Nat :=
  let o := ownerOf s chain
  if o = mgmt then named else 0x100 + o

/-- An event about a channel of a chain, in the standard `ARG` layout (R370). -/
def raiseChi (chi named kind detail : Nat) (s : State) : State :=
  raiseNow (chainSource s (chainOfChi chi) named) kind (chi * 2 ^ 19 + detail % 2 ^ 19) s

/-- An event about a position, carrying channel 0. -/
def raisePos (pos named kind detail : Nat) (s : State) : State := raiseChi (pos * 16) named kind detail s

/-- An event about a chain, carrying its slot 0. -/
def raiseChain (chain named kind detail : Nat) (s : State) : State := raiseChi (chain * 128) named kind detail s

/-- The source of a ring or lane event about a chain: local ring 0x080 + r, bridge lane 0x000 + k (R369). -/
def lineSource (chain : Nat) : Nat := if isLocal chain then 0x080 + ringOfChain chain else laneOfChain chain

/-- The management summary. -/
def srcMgmt : Nat := 0x0F0

/-- A function's summary source. -/
def summaryOf (fn : Nat) : Nat := if fn = mgmt then srcMgmt else 0x100 + fn

/-! ### Status codes (R415) -/

def ST_OK : Nat := 0x0000
def ST_ACCEPTED : Nat := 0x0001
def ST_BAD_OPCODE : Nat := 0x0100
def ST_BAD_PARAM : Nat := 0x0101
def ST_BAD_LENGTH : Nat := 0x0102
def ST_CHECK_FAIL : Nat := 0x0103
def ST_NOT_OWNER : Nat := 0x0200
def ST_PRIVILEGED : Nat := 0x0201
def ST_AUTH : Nat := 0x0202
def ST_NOT_READY : Nat := 0x0300
def ST_FENCED : Nat := 0x0301
def ST_TABLE_FULL : Nat := 0x0400
def ST_QUOTA : Nat := 0x0401
def ST_PRECONDITION : Nat := 0x0500
def ST_CAL_REJECTED : Nat := 0x0501
def ST_GAP : Nat := 0x0502
def ST_SAFETY_LOCKOUT : Nat := 0x0600
def ST_SAFETY_DENIED : Nat := 0x0601
def ST_STALE_EPOCH : Nat := 0x0700
def ST_NOT_PRIMARY : Nat := 0x0701
def ST_THERMAL : Nat := 0x0800
def ST_INTERNAL : Nat := 0x0900
def ST_ABORTED : Nat := 0x0901

/-! ### Completions and finishes (R386, R390, R391) -/

/-- Who issued a packet. -/
def reqRef (r : Req) : CmdRef := { fn := r.fn, ring := r.ring, cmdId := r.cmdId, twin := r.twin }

/-- Packet word i, 4 to 14. -/
def reqWord (r : Req) (i : Nat) : Word := r.w.getD (i - 4) 0

/-- Trace record of the start (0x200) or finish (0x201) of a command: function, ring, `CMD_ID` and status (R485). -/
def traceCommand (kind : Nat) (ref : CmdRef) (status : Nat) (s : State) : State :=
  traceNote (if ref.fn = mgmt then 1 else 2) kind (((ref.fn * 16 + ref.ring) * 2 ^ 32 + ref.cmdId.toNat) * 2 ^ 16 + status) s.spc
    (if ref.fn = mgmt then (0xC, 0) else (7, 0)) s

/-- Write a completion with its acceptance SPC at the producer index, advance the index and signal the ring's vector. -/
def writeCompletion (ref : CmdRef) (status : Nat) (results : List Word) (accept : Nat) (s : State) : State :=
  let g := tgetD s.cmd.rings (ref.fn * 16 + ref.ring) {}
  let res := if status = ST_OK ∨ status = ST_ACCEPTED ∨ status = ST_INTERNAL then results else []
  let c : Completion :=
    { fn := ref.fn, ring := ref.ring, index := g.prod, phase := g.prod / 2 ^ g.log2 % 2 == 0,
      cmdId := ref.cmdId, status := status, spc := accept, results := res }
  traceCommand 0x201 ref status <| signal ref.fn g.vector { s with
    out := { s.out with completions := c :: s.out.completions }
    cmd := { s.cmd with
      rings := tset s.cmd.rings (ref.fn * 16 + ref.ring)
        { g with prod := (g.prod + 1) % 2 ^ (g.log2 + 1), started := g.started.eraseP (fun e => e.2 == ref.cmdId) } } }

/-- Complete a command: on its ring, or for the twin by noting the outcome that `MIRROR_ACK` carries (R421). -/
def completeAt (ref : CmdRef) (status : Nat) (results : List Word) (accept : Nat) (s : State) : State :=
  if ref.twin then { s with pair := { s.pair with outcome := status } } else writeCompletion ref status results accept s

/-- A completion written in the current pick. -/
def complete (ref : CmdRef) (status : Nat) (results : List Word) (s : State) : State := completeAt ref status results s.spc s

/-- `ARG` of a finish event (R370). -/
def finishArg (ref : CmdRef) (status : Nat) : Nat :=
  ref.ring % 16 * 2 ^ 38 + status / 256 % 16 * 2 ^ 34 + status % 4 * 2 ^ 32 + ref.cmdId.toNat

/-- Finish a long-running command on a source: it leaves the store of R391 and its finish event is raised with the given SPC. A command
that has finished already does not finish again. -/
def finishOn (src : Nat) (ref : CmdRef) (status spc : Nat) (s : State) : State :=
  let s1 := { s with cmd := { s.cmd with unfinished := s.cmd.unfinished.filter (fun u => u.ref != ref) } }
  if ref.twin || !s.cmd.unfinished.any (fun u => u.ref == ref) then s1 else raise src 0xE0 (finishArg ref status) spc s1

/-- Finish on the issuing function's summary source (R391). -/
def finish (ref : CmdRef) (status : Nat) (s : State) : State := finishOn (summaryOf ref.fn) ref status s.spc s

/-- Finish every unfinished command of opcode `op` about `obj`. -/
def finishObj (op obj status : Nat) (s : State) : State :=
  forEach (s.cmd.unfinished.filter (fun u => u.op == op && u.obj == obj)) s (fun u s => finish u.ref status s)

/-- Note a long-running command. -/
def holdUnfinished (ref : CmdRef) (op obj : Nat) (s : State) : State :=
  { s with cmd := { s.cmd with unfinished := s.cmd.unfinished ++ [{ ref := ref, op := op, obj := obj }] } }

/-- Unfinished commands of a function. -/
def unfinishedCount (s : State) (fn : Nat) : Nat := (s.cmd.unfinished.filter (fun u => u.ref.fn == fn)).length

/-- Write the completions of deferred commands of one kind (R401, R346, R282, R383). -/
def completeDeferred (kind : DeferKind) (status : Nat) (results : List Word) (s : State) : State :=
  let mine := s.cmd.deferred.filter (fun d => d.kind == kind)
  forEach mine { s with cmd := { s.cmd with deferred := s.cmd.deferred.filter (fun d => d.kind != kind) } }
    (fun d s => completeAt d.ref status results d.accept s)

/-! ### Check bindings (R395, R414) -/

/-- The check record of a function's transfer class. -/
def chkOf (s : State) (fn cls : Nat) : Chk := tgetD s.cmd.chk (fn * 8 + cls) {}

/-- Count a value appended. -/
def countAppended (fn cls : Nat) (s : State) : State :=
  { s with cmd := { s.cmd with chk := tmod s.cmd.chk (fn * 8 + cls) {} fun c => { c with appended := sat32 (c.appended + 1) } } }

/-- Count a value checked. -/
def countChecked (fn cls : Nat) (bad : Bool) (s : State) : State :=
  { s with cmd := { s.cmd with chk := tmod s.cmd.chk (fn * 8 + cls) {} fun c =>
      { c with checked := sat32 (c.checked + 1), mismatches := sat32 (c.mismatches + b2n bad) } } }

/-! ### The order of checks (R397) -/

/-- What buffer an opcode takes (R388). `inb` gives its transfer class and its length in bytes, check word included; `outb` the
largest record it can write, in bytes. -/
inductive BufUse where
  | none
  | inb (cls bytes : Nat)
  | outb (record : Nat)
  deriving DecidableEq, Repr

/-- The checks of one command, step by step as R397 orders them; the common ones (trailer, `SIZE`, `BUF`, reserved words,
readiness) are made from these fields. -/
structure Checks where
  /-- Opcode, class in [15:8]. -/
  op : Nat
  /-- Step 3: the form is permitted to the function. -/
  permitted : Bool := true
  buf : BufUse := .none
  /-- Step 5: every field within its encodable range, reserved bits 0, units in the variant. -/
  params : Bool := true
  /-- Step 6. -/
  owned : Bool := true
  /-- Step 7: the `FN_READY` bit that serves the command, then the statuses of lockout, pair role and epoch. -/
  ready : Nat
  role : Option Nat := Option.none
  /-- Step 8: the unit named is fenced or coming up. -/
  unit : Option Nat := Option.none
  /-- Step 9: the buffer's fields are within range. -/
  fields : Bool := true
  /-- Step 10. -/
  auth : Bool := true
  /-- Step 11: quotas and tables; a long-running command also needs room in the store of R391. -/
  long : Bool := false
  quota : Option Nat := Option.none
  /-- Step 12. -/
  pre : Option Nat := Option.none
  deriving DecidableEq, Repr

/-- The packet's 15 words before the trailer (R387). -/
def packetWords (op : Nat) (r : Req) : List Word :=
  [wd (r.size * 2 ^ 24 + r.resv * 2 ^ 18 + b2n r.ordered * 2 ^ 17 + b2n r.trailer * 2 ^ 16 + op), r.cmdId]
    ++ wd64 r.buf ++ (List.range 11).map (fun i => r.w.getD i 0)

/-- Step 1: the trailer (R396). -/
def trailerOk (op : Nat) (r : Req) : Bool := !r.trailer || r.w15 == wd (crc32c (bytesOf (packetWords op r)))

/-- Bytes of the smallest outbound buffer: header, one section header, one record, check word (R164). -/
def outMin (record : Nat) : Nat := 64 + 32 + record + 4

/-- Step 4: `SIZE` (R388). -/
def sizeOk (b : BufUse) (r : Req) : Bool :=
  match b with
  | .none => r.size == 0
  | .inb _ n => decide (6 ≤ r.size) && decide (r.size ≤ 40) && decide (n ≤ 2 ^ r.size)
  | .outb n => decide (6 ≤ r.size) && decide (r.size ≤ 40) && decide (outMin n ≤ 2 ^ r.size)

/-- Step 5, the part common to every packet: `BUF` aligned and 0 without a buffer, reserved bits 0, word 15 0 without a trailer. -/
def commonParams (r : Req) : Bool :=
  r.buf % 64 == 0 && (r.size != 0 || r.buf == 0) && r.resv == 0 && (r.trailer || r.w15 == 0)

/-- Step 9: the check value of an inbound buffer of n bytes, which stands directly after the last byte it covers (R394, R395). -/
def inbOk (s : State) (b : BufUse) (r : Req) : Bool :=
  match b with
  | .inb cls n => r.inbReadable && r.inb.length == (n + 3) / 4 &&
      (if n % 4 = 0 then r.inb.getLastD 0 == checkWord (chkOf s r.fn cls).kind r.inb.dropLast
      else
        let bs := bytesOf r.inb
        ((bs.drop (n - 4)).take 4) == bytesOf [checkBytes (chkOf s r.fn cls).kind (bs.take (n - 4))])
  | _ => true

/-- Commands the boot ROM serves when no image is valid (R464): `DEV.INFO`, `DEV.READY`, `HK.FW` forms 0, 1 and 3, `HK.RECORDS`. -/
def romServes (op : Nat) (r : Req) : Bool :=
  op == 0x0100 || op == 0x0101 || op == 0x0E03 || (op == 0x0E04 && bits (reqWord r 4) 1 0 != 2)

/-- The status of the first failing check among steps 1 to 6, which the receiving device makes (R421). -/
def earlyFail (k : Checks) (r : Req) : Option Nat :=
  if !trailerOk k.op r then some ST_CHECK_FAIL
  else if !k.permitted then some ST_PRIVILEGED
  else if !sizeOk k.buf r then some ST_BAD_LENGTH
  else if !(commonParams r && k.params) then some ST_BAD_PARAM
  else if !k.owned then some ST_NOT_OWNER
  else none

/-- The status of the first failing check from step 7 on. -/
def lateFail (k : Checks) (r : Req) (s : State) : Option Nat :=
  if s.boot.phase == .shutdown then some ST_THERMAL
  else if s.boot.romOnly && !romServes k.op r then some ST_NOT_READY
  else if !(s.boot.fnReady.getLsbD 0 && s.boot.fnReady.getLsbD k.ready) then some ST_NOT_READY
  else if k.role.isSome then k.role
  else if k.unit.isSome then k.unit
  else if !inbOk s k.buf r then some ST_CHECK_FAIL
  else if !k.fields then some ST_BAD_PARAM
  else if !k.auth then some ST_AUTH
  else if k.long && decide (256 ≤ unfinishedCount s r.fn) then some ST_QUOTA
  else if k.quota.isSome then k.quota
  else k.pre

/-- The status of the first failing check, none when the command is accepted (R397). -/
def firstFail (k : Checks) (r : Req) (s : State) : Option Nat := (earlyFail k r).orElse fun _ => lateFail k r s

/-- The status of the first failing check up to the check value of the buffer. -/
def checkReached (k : Checks) (r : Req) (s : State) : Option Nat :=
  firstFail { k with fields := true, auth := true, long := false, quota := none, pre := none } r s

/-- Count the check value that the command's inbound buffer was held against, when the checks reached it (R414). -/
def noteInbound (k : Checks) (r : Req) (s : State) : State :=
  match k.buf with
  | .inb cls _ =>
    match checkReached k r s with
    | none => countChecked r.fn cls false s
    | some e => if e = ST_CHECK_FAIL ∧ trailerOk k.op r then countChecked r.fn cls true s else s
  | _ => s

/-- What an accepted command answers. -/
inductive Reply where
  /-- Completes now. -/
  | now (status : Nat) (results : List Word) (s : State)
  /-- Completes with ST_ACCEPTED and works on: the object it is about. -/
  | long (obj : Nat) (results : List Word) (s : State)
  /-- Completes with ST_ACCEPTED and finishes in the same pick. -/
  | longNow (status : Nat) (results : List Word) (s : State)
  /-- Its completion is written later. -/
  | later (kind : DeferKind) (s : State)

/-- The function code of a packet is one the device serves: the management function, or an `ACTIVE` tenant (R357). -/
def served (r : Req) (s : State) : Bool := (s.up || s.boot.phase == .shutdown) && fnActive s r.fn && decide (r.ring < 16)

/-! ### Commands in a pair (R416 to R423) -/

/-- First device housekeeping channel index. -/
def hkChi : Nat := 0x7FFF00

/-- The channel index of a device housekeeping position. -/
def isHk (chi : Nat) : Bool := decide (hkChi ≤ chi) && decide (chi < hkChi + 24)

/-- Send a pair message other than a heartbeat (R423). -/
def sendPair (kind : PairKind) (body : List Nat) (s : State) : State :=
  let m : PairOut := { kind := kind, mseq := s.pair.nextSeq, body := body }
  { s with
    out := { s.out with pair := m :: s.out.pair }
    pair := { s.pair with nextSeq := (s.pair.nextSeq + 1) % 2 ^ 32, unacked := s.pair.unacked ++ [{ msg := m, sent := s.spc }] } }

/-- Forms that the receiving device serves from its own state (R420). -/
def localForm (op : Nat) (r : Req) : Bool :=
  let f := bits (reqWord r 4) 1 0
  match op with
  | 0x0202 => true
  | 0x0205 => bits (reqWord r 5) 16 16 == 0
  | 0x0402 => true
  | 0x0403 => true
  | 0x0502 => [1, 2, 4].contains (bits (reqWord r 4) 7 0)
  | 0x0504 => true
  | 0x0602 => bits (reqWord r 4) 7 0 == 0x11
  | 0x0701 => true
  | 0x0704 => true
  | 0x0801 => true
  | 0x0803 => true
  | 0x0804 => true
  | 0x0901 => true
  | 0x0902 => true
  | 0x0906 => bits (reqWord r 4) 0 0 == 1
  | 0x0A03 => f == 0 || f == 2
  | 0x0B02 => f == 0 || f == 1
  | 0x0B03 => f == 2 || f == 3
  | 0x0B04 => bits (reqWord r 4) 0 0 == 0
  | 0x0B00 => bits (r.inb.getD 0 0) 31 24 == 3
  | 0x0C06 => true
  | _ => [0x01, 0x03, 0x0D, 0x0E, 0x0F].contains (op / 256)

/-- Opcodes that command the plant (R397). -/
def plantOp (op : Nat) : Bool :=
  [0x0200, 0x0203, 0x0204, 0x0206, 0x0207, 0x0603, 0x0800, 0x0802, 0x0A00, 0x0A01, 0x0A02, 0x0A04, 0x0A05].contains op

/-- The sections of an image: tag, end, records. -/
def readSections : Nat → List Word → List (Nat × Nat × List (List Word))
  | 0, _ => []
  | n + 1, ws =>
    match ws with
    | [] => []
    | w :: _ =>
      let count := (ws.getD 1 0).toNat
      let r := readRecords count (ws.drop 8)
      (bits w 15 0, of64 (ws.getD 4 0) (ws.getD 5 0), r.1) :: readSections n r.2
where
  readRecords : Nat → List Word → List (List Word) × List Word
    | 0, ws => ([], ws)
    | n + 1, ws =>
      let len := if bits (ws.headD 0) 3 0 = 10 then 32 else 16
      let r := readRecords n (ws.drop len)
      (ws.take len :: r.1, r.2)

/-- Sections of the image in a request's buffer. -/
def imageSections (r : Req) : List (Nat × Nat × List (List Word)) :=
  readSections ((r.inb.getD 3 0).toNat) (r.inb.dropLast.drop 16)

/-- Chains of the records of a `MAP.BIND` buffer (R403): that of the target, and that of the drive tag a record binds. -/
def bindChains (ws : List Word) : List Nat :=
  (List.range (ws.length / 16)).flatMap fun i =>
    let w (k : Nat) : Word := ws.getD (16 * i + k) 0
    chainOfPos (bits (w 1) 31 13) :: (if bits (w 0) 31 24 = 1 ∧ w 2 ≠ 0 then [chainOfPos (bits (w 2) 31 13)] else [])

/-- Chains of the entries of a window; device housekeeping has none. -/
def entryChains (w : Window) : List Nat := (w.entries.filter (fun e => !isHk e.chi)).map (fun e => chainOfChi e.chi)
def windowChains (s : State) (key : Nat) : List Nat := (tget s.acc.windows key).elim [] entryChains

/-- A window about local rings alone, which stays the device's own (R416). -/
def ownWindow (w : Window) : Bool := !(entryChains w).isEmpty && (entryChains w).all isLocal
def localWindow (s : State) (key : Nat) : Bool := (tget s.acc.windows key).elim false ownWindow

/-- The chains that a command names: as a chain word, a position or channel word, a range, in its buffer, or as those of the window, session,
run or trip that it names. -/
def chainsNamed (op : Nat) (r : Req) (s : State) : List Nat :=
  let chain (i : Nat) : List Nat := [(reqWord r i).toNat]
  let chi (i : Nat) : List Nat := [chainOfChi (bits (reqWord r i) 31 9)]
  let session (i : Nat) : List Nat := ((tget s.spec.focus (r.fn * 65536 + bits (reqWord r i) 15 0)).map (fun f => chainOfChi f.chi)).toList
  let words := r.inb.dropLast
  match op with
  | 0x0201 => chain 4
  | 0x0205 => chi 4
  | 0x0400 => bindChains words
  | 0x0500 => (words.map (fun w => bits w 31 9)).filterMap fun x => if isHk x then none else some (chainOfChi x)
  | 0x0501 => windowChains s (r.fn * 65536 + bits (reqWord r 4) 15 0)
  | 0x0502 => if bits (reqWord r 5) 16 16 = 1 then [] else windowChains s (r.fn * 65536 + bits (reqWord r 5) 15 0)
  | 0x0503 => chi 4
  | 0x0600 => chain 4
  | 0x0601 => chi 4
  | 0x0602 => session 5
  | 0x0604 => if bits (reqWord r 4) 1 0 = 0 then session 5 else chain 5
  | 0x0700 => if bits (reqWord r 4) 7 0 = 0x10 then [] else chain 5
  | 0x0702 => ((tget s.cal.runs (r.fn * 4 + (reqWord r 4).toNat)).map (·.chain)).toList
  | 0x0703 => chain 4
  | 0x0705 => chain 4
  | 0x0900 => if bits (reqWord r 4) 3 0 < 2 then [] else chi 5
  | 0x0903 => (imageSections r).map (·.1)
  | 0x0904 => chi 5
  | 0x0905 => chi 4
  | 0x0A03 => chi 5
  | 0x0B00 => if bits (r.inb.getD 0 0) 31 24 = 2 then (words.drop 19).map (fun w => chainOfChi (bits w 31 9)) else []
  | 0x0B02 => if reqWord r 5 = 0xFFFFFFFF then [] else chain 5
  | 0x0B03 =>
    if bits (reqWord r 4) 1 0 = 1 then chain 5
    else ((s.safe.trips.find? (fun t => t.fn == r.fn && t.id == (reqWord r 5).toNat)).map (fun t => chainOfChi t.chi)).toList
  | 0x0B05 => chain 6
  | 0x0C02 => if bits (reqWord r 5) 0 0 = 0 then chain 6 else []
  | 0x0C03 => chain 4
  | _ => []

/-- A command about local rings alone (R416, R420). -/
def localNamed (op : Nat) (r : Req) (s : State) : Bool := !(chainsNamed op r s).isEmpty && (chainsNamed op r s).all isLocal

/-- What a command says of a chain concerns this device: of local rings, what its own host has asked for (R416). -/
def concerns (r : Req) (c : Nat) : Bool := !(r.twin && isLocal c)

/-- Step 6 for one chain: it is the function's, or it does not concern this device. -/
def ownsHere (s : State) (r : Req) (c : Nat) : Bool := owns s r.fn c || !concerns r c

/-- The lowest identifier below n that is free; for something about local rings the highest, so that the identifiers the primary allocates are
free on both devices (R421; DESIGN CHOICE, log 77). -/
def freeId (here : Bool) (n : Nat) (free : Nat → Bool) : Option Nat :=
  if here then (List.range n).reverse.find? free else (List.range n).find? free

/-- Pair-sequenced: decided by the primary, applied by both (R420). -/
def pairSequenced (op : Nat) (r : Req) (s : State) : Bool := !localForm op r && !plantOp op && !localNamed op r s

/-- Commands and state are mirrored over the twin link (R431, R432). -/
def mirrors (s : State) : Bool := s.pair.link && !s.pair.offsetOut

/-- Report a fence (1, class, unit), an uncorrectable error (2, position, pick) or an unfilled gap (3, position, pick) to the twin (R423; log 14). -/
def reportLocal (body : List Nat) (s : State) : State :=
  if s.pair.role != .single && mirrors s then sendPair .localFault body s else s

/-- The tables of a resynchronisation are on their way: pair-sequenced commands wait (R435). -/
def tablesMoving (s : State) : Bool :=
  mirrors s && if s.pair.role = .companion then s.pair.resync && decide (s.pair.progress < 500)
  else s.pair.role == .primary && s.pair.unacked.any (fun m => m.msg.kind == .resync && decide (m.msg.body.headD 9 < 9))

/-- What a device of a pair does with a command it has received. -/
inductive Route where
  /-- Serves it alone. -/
  | here
  /-- Applies it and sends it to the companion. -/
  | both
  /-- Sends it to the primary, which decides. -/
  | ask
  /-- Answers ST_PRECONDITION: the twin link is down. -/
  | refuse
  /-- Keeps it until the tables of a resynchronisation are over. -/
  | wait
  deriving DecidableEq, Repr

/-- The route of a command (R420, R421). -/
def routeOf (op : Nat) (r : Req) (s : State) : Route :=
  if s.pair.role = .single || !pairSequenced op r s then .here
  else if s.pair.role = .companion then
    if r.twin || r.back then .here else if !mirrors s then .refuse else if tablesMoving s then .wait else .ask
  else if !mirrors s then .here
  else if tablesMoving s then .wait
  else .both

/-- Body of a `MIRROR`, in the model's order (log 14): function and ring, whether the receiver asked for it, opcode, acceptance SPC, the
packet, its buffer. -/
def mirrorBody (op : Nat) (r : Req) (s : State) : List Nat :=
  [r.fn, r.ring, b2n r.twin, op, s.spc % 2 ^ 32, s.spc / 2 ^ 32] ++ (packetWords op r).map (·.toNat) ++ [r.w15.toNat] ++ r.inb.map (·.toNat)

/-- Hold a completion until the companion acknowledges the message just sent, in place of writing it. -/
def deferMirror (ref : CmdRef) (status : Nat) (results : List Word) (s : State) : State :=
  let d : Deferred :=
    { kind := .mirror ((s.pair.nextSeq + 2 ^ 32 - 1) % 2 ^ 32), ref := ref, accept := s.spc, results := results, status := status }
  if ref.twin then s else { s with cmd := { s.cmd with deferred := s.cmd.deferred ++ [d] } }

/-- The completion of an accepted command: held for the companion where it was sent on. -/
def completeRouted (both : Bool) (ref : CmdRef) (status : Nat) (results : List Word) (s : State) : State :=
  if both then deferMirror ref status results s else completeAt ref status results s.spc s

/-- Run a command: its checks in the order of R397, then its effect and its completion (R390, R391), in a pair by its route (R421). A
packet of a function that is not served has no effect. -/
def command (k : Checks) (r : Req) (s0 : State) (act : State → Reply) : State :=
  if !served r s0 then s0
  else
    let s := if r.twin || r.back then s0 else traceCommand 0x200 (reqRef r) 0 s0
    let route := routeOf k.op r s
    let st := if route = .here || route = .both then firstFail k r s
      else (earlyFail k r).orElse fun _ => if route = .refuse then some ST_PRECONDITION else none
    let s1 := if r.twin || !(route == .here || route == .both) then s else noteInbound k r s
    match st with
    | some e => complete (reqRef r) e [] s1
    | none =>
      if route = .wait then { s1 with pair := { s1.pair with held := s1.pair.held ++ [{ op := k.op, req := r }] } }
      else if route = .ask then deferMirror (reqRef r) 0 [] (sendPair .mirror (mirrorBody k.op r s1) s1)
      else
        let both := route == .both
        let s2 := if both then sendPair .mirror (mirrorBody k.op r s1) s1 else s1
        match act s2 with
        | .now status res s3 => completeRouted both (reqRef r) status res s3
        | .long obj res s3 => completeRouted both (reqRef r) ST_ACCEPTED res (holdUnfinished (reqRef r) k.op obj s3)
        | .longNow status res s3 => finish (reqRef r) status
            (completeRouted both (reqRef r) ST_ACCEPTED res (holdUnfinished (reqRef r) k.op 0 s3))
        | .later kind s3 => { s3 with cmd := { s3.cmd with
            deferred := s3.cmd.deferred ++ [{ kind := kind, ref := (reqRef r), accept := s.spc }] } }

/-! ### Outbound buffers (R164, R165, R399) -/

/-- One section of an outbound buffer: the eight header words but for `RECORDS`, and the records. -/
structure Section where
  stype : Nat
  tag : Nat := 0
  start : Nat := 0
  /-- Words 4 and 5, as one 64-bit value. -/
  stop : Nat := 0
  w6 : Nat := 0
  w7 : Nat := 0
  cont : Bool := false
  records : List (List Word) := []
  deriving DecidableEq, Repr

/-- The words of a section with the records given. -/
def sectionWords (x : Section) (recs : List (List Word)) : List Word :=
  [wd (x.stype * 2 ^ 24 + b2n x.cont * 2 ^ 23 + x.tag % 2 ^ 16), wd recs.length] ++ wd64 x.start ++ wd64 x.stop
    ++ [wd x.w6, wd x.w7] ++ recs.flatten

/-- The records of a list that fit in `room` bytes, in order. -/
def fitRecords : Nat → List (List Word) → List (List Word)
  | _, [] => []
  | room, x :: r => if x.length * 4 ≤ room then x :: fitRecords (room - x.length * 4) r else []

/-- What fitted: the words, the sections begun, the records written of each section in turn, and whether records remain. -/
structure Fitted where
  words : List Word := []
  sections : Nat := 0
  written : List Nat := []
  more : Bool := false
  deriving DecidableEq, Repr

/-- Place sections into `room` bytes: a section with records is begun only when its header and first record fit (R164). -/
def fitSections : Nat → List Section → Fitted
  | _, [] => {}
  | room, x :: r =>
    let recs := fitRecords (room - 32) x.records
    if room < 32 ∨ (recs.isEmpty ∧ ¬ x.records.isEmpty) then { more := true }
    else
      let ws := sectionWords x recs
      if recs.length < x.records.length then
        { words := ws, sections := 1, written := [recs.length], more := true }
      else
        let f := fitSections (room - ws.length * 4) r
        { words := ws ++ f.words, sections := f.sections + 1, written := recs.length :: f.written, more := f.more }

/-- Header fields that differ from one outbound buffer to another (R164). -/
structure BufHead where
  magic : Nat
  cls : Nat
  missed : Nat := 0
  tripLost : Nat := 0
  /-- Transfer class whose check binding applies. -/
  chkClass : Nat := 0
  /-- Header words 11 to 15. -/
  tail : List Word := [0, 0, 0, 0, 0]
  deriving DecidableEq, Repr

/-- A buffer built: its words with the check word, and what fitted. -/
def buildBuffer (h : BufHead) (r : Req) (secs : List Section) (s : State) : List Word × Fitted :=
  let kind := (chkOf s r.fn h.chkClass).kind
  let f := fitSections (2 ^ r.size - 68) secs
  let len := 68 + f.words.length * 4
  let head := [wd h.magic, wd (0x01000000 + h.cls * 2 ^ 16 + r.fn), wd len, wd f.sections] ++ wd64 s.spc
    ++ [wd h.missed, wd kind, wd (b2n f.more), wd h.tripLost, r.cmdId] ++ h.tail
  let body := head ++ f.words
  (body ++ [checkWord kind body], f)

/-- Write a buffer to the host and answer as `ACC.HARVEST` does: `LENGTH`, `SECTIONS`, `MORE`, `MISSED` (R165). -/
def emitBuffer (h : BufHead) (r : Req) (secs : List Section) (s : State) : Fitted × List Word × State :=
  let b := buildBuffer h r secs s
  let s1 := if r.twin then s else countAppended r.fn h.chkClass
    { s with out := { s.out with buffers := { fn := r.fn, cmdId := r.cmdId, addr := r.buf, words := b.1 } :: s.out.buffers } }
  (b.2, [wd (b.1.length * 4), wd b.2.sections, wd (b2n b.2.more), wd h.missed], s1)

/-- Records written, over all sections. -/
def Fitted.records (f : Fitted) : Nat := f.written.sum

/-- Key of a continuation. -/
def contKey (fn magic cls : Nat) : Nat := fn * 2 ^ 40 + magic * 2 ^ 8 + cls

/-- The sections that a continuation leaves, the first with `CONT` where it goes on within a section. -/
def contSections (c : Cont) (secs : List (Nat × Section)) : List (Nat × Section) :=
  (secs.filter (fun x => decide (c.sec ≤ x.1))).map fun x =>
    if x.1 = c.sec ∧ c.skip ≠ 0 then (x.1, { x.2 with cont := true, records := x.2.records.drop c.skip }) else x

/-- Where the next harvest goes on: the first section not written whole. -/
def nextCont (sel : List Nat) (old : Option Cont) : List (Nat × Section) → List Nat → Option Cont
  | [], _ => none
  | x :: _, [] => some { sel := sel, sec := x.1, skip := 0 }
  | x :: r, n :: ns =>
    if n < x.2.records.length then
      let before := match old with
        | some c => if c.sec = x.1 ∧ x.2.cont then c.skip else 0
        | none => 0
      some { sel := sel, sec := x.1, skip := before + n }
    else nextCont sel old r ns

/-- The sections a harvest that goes on where the last of its class with the same selection ended has to write. -/
def harvestLeft (h : BufHead) (r : Req) (sel : List Nat) (secs : List (Nat × Section)) (s : State) : List (Nat × Section) :=
  match (tget s.cmd.conts (contKey r.fn h.magic h.cls)).filter (fun c => c.sel == sel) with
  | some c => contSections c secs
  | none => secs

/-- The records a harvest wrote, in order, from the sections it had to write. -/
def writtenRecords (mine : List (Nat × Section)) (f : Fitted) : List (List Word) :=
  (mine.zip f.written).flatMap fun x => x.1.2.records.take x.2

/-- Some record written carries `RPL`: bit 21 of word 1 of every record with the flags of R152. -/
def showsRpl (secs : List Section) (written : List Nat) : Bool :=
  (secs.zip written).any fun x => (x.1.records.take x.2).any (fun w => (w.getD 1 0).getLsbD 21)

/-- Status of a harvest of such records: one whose result includes a recomputed value says so (R129). -/
def harvestStatus (secs : List Section) (written : List Nat) : Nat := if showsRpl secs written then ST_INTERNAL else ST_OK

/-- Write a buffer whose sections, in ascending order of their numbers, are not consumed: it goes on where the last harvest of its class
with the same selection ended, and a harvest with another selection starts anew (R164). -/
def harvestOut (h : BufHead) (r : Req) (sel : List Nat) (secs : List (Nat × Section)) (s : State) : Fitted × List Word × State :=
  let key := contKey r.fn h.magic h.cls
  let old := (tget s.cmd.conts key).filter (fun c => c.sel == sel)
  let mine := harvestLeft h r sel secs s
  let o := emitBuffer h r (mine.map (·.2)) s
  let conts := match nextCont sel old mine o.1.written with
    | some c => tset o.2.2.cmd.conts key c
    | none => tdel o.2.2.cmd.conts key
  (o.1, o.2.1, { o.2.2 with cmd := { o.2.2.cmd with conts := conts } })

/-- Divide a capacity among demands in proportion to weights: what one does not use passes to the others in proportion to theirs
(R190, R376, R379). Each element is a function, its weight and its demand; the answer is each function's share. -/
def waterFill : Nat → Rat → List (Nat × Nat × Rat) → List (Nat × Rat)
  | 0, _, _ => []
  | n + 1, cap, l =>
    let total : Rat := ((l.map (fun x => x.2.1)).sum : Nat)
    let share (x : Nat × Nat × Rat) : Rat := if total = 0 then 0 else cap * (x.2.1 : Nat) / total
    let full := l.filter (fun x => decide (x.2.2 ≤ share x))
    if full.isEmpty then l.map (fun x => (x.1, share x))
    else
      full.map (fun x => (x.1, x.2.2))
        ++ waterFill n (cap - (full.map (fun x => x.2.2)).sum) (l.filter (fun x => !decide (x.2.2 ≤ share x)))

/-- A buffer of an opcode of R399: one section per object named. -/
def emitStatus (op : Nat) (r : Req) (recs : List (List (List Word))) (s : State) (chkClass : Nat := 0) :
    Fitted × List Word × State :=
  harvestOut { magic := 0x4B545354, cls := op / 256, chkClass := chkClass } r (op :: r.w.map (·.toNat))
    (recs.zipIdx.map fun rs => (rs.2, { stype := op % 256, start := s.spc, stop := s.spc, records := rs.1 })) s

/-! ### Common parameter encodings (R398) -/

/-- A chain word. -/
def chainWord (c : Nat) : Word := wd c

/-- A position word: channel 0 of the position. -/
def posWord (p : Nat) : Word := wd (p * 16 * 512)

/-- A channel word with its multiplexer position. -/
def chiWord (c : Nat) (pos : Nat := 0) : Word := wd (c * 512 + pos * 64)

/-- Lanes of the variant (R1). -/
def lanesOf : Variant → Nat
  | .f => 128
  | .m => 32
  | .l => 0

/-- The variant has the chain: a lane chain 0 to 255 of its lanes, or local ring 0 to 15 (R1, R4). -/
def chainExists (s : State) (c : Nat) : Bool :=
  if isLocal c then decide (ringOfChain c < 16) else decide (laneOfChain c < lanesOf s.otp.variant)

/-- The variant has the position. -/
def posExists (s : State) (p : Nat) : Bool := chainExists s (chainOfPos p)

/-- A chain word with its reserved bits 0 that names a chain of the variant. -/
def chainParam (s : State) (w : Word) : Option Nat :=
  if w.toNat < 65536 ∧ chainExists s w.toNat then some w.toNat else none

/-- A position word: channel 0, no multiplexer position, reserved bits 0. -/
def posParam (s : State) (w : Word) : Option Nat :=
  if bits w 12 0 = 0 ∧ posExists s (bits w 31 13) then some (bits w 31 13) else none

/-- A channel word: its channel and multiplexer position. -/
def chiParam (s : State) (w : Word) : Option (Nat × Nat) :=
  if bits w 5 0 = 0 ∧ posExists s (posOfChi (bits w 31 9)) then some (bits w 31 9, bits w 8 6) else none

/-- A range: first and last channel, inclusive, each on a position of the variant or a device housekeeping position (R4). -/
def rangeParam (s : State) (a b : Word) : Option (Nat × Nat) :=
  let named (w : Word) : Bool := bits w 8 0 == 0 && (posExists s (posOfChi (bits w 31 9)) || isHk (bits w 31 9))
  if named a ∧ named b ∧ bits a 31 9 ≤ bits b 31 9 then some (bits a 31 9, bits b 31 9) else none

/-- Words 4 to 14 outside a list are 0 (unused words are reserved, R387). -/
def unusedZero (r : Req) (used : List Nat) : Bool :=
  (List.range 11).all fun i => used.contains (i + 4) || r.w.getD i 0 == 0

/-- A row about a physical object that no device has stops; otherwise its effect. -/
def onObject (exists_ : Bool) (s' : State) : Host.Outcome State Fault Refusal :=
  if exists_ then .next s' else .fault .noSuchObject

end Sys2Proof.Machine
end

