-- ==== Sys2Proof/Machine/LineOps.lean ====
section
/-! DEFINITION. Operations on chains and positions that several rows share (R37, R52 to R61). -/

namespace Sys2Proof.Machine

/-- A chain; an absent one is unpowered with nothing enumerated. -/
def chainOf (s : State) (c : Nat) : Chain := tgetD s.line.chains c {}

/-- Change a chain. -/
def modChain (c : Nat) (f : Chain → Chain) (s : State) : State :=
  { s with line := { s.line with chains := tmod s.line.chains c {} f } }

/-- A position; an absent one holds no tag. -/
def posOf (s : State) (p : Nat) : Posn := tgetD s.line.posns p {}

/-- Change a position. -/
def modPos (p : Nat) (f : Posn → Posn) (s : State) : State :=
  { s with line := { s.line with posns := tmod s.line.posns p {} f } }

/-! ### Units (R451, R454, R498) -/

/-- Units of a class that the variant has: class 1 counts physical tiles by `tileExists`. -/
def unitExists (v : Variant) (cls u : Nat) : Bool :=
  match cls, v with
  | 1, .f => decide (u < 68)
  | 1, .m => decide (u < 16) || u == 64 || u == 65
  | 1, .l => u == 64 || u == 65
  | 2, .f => decide (u < 16)
  | 2, .m => decide (u < 4)
  | 2, .l => decide (u < 1)
  | 3, .f => decide (u < 32)
  | 3, .m => decide (u < 8)
  | 3, .l => decide (u < 2)
  | 4, v => decide (u < lanesOf v)
  | 5, _ => decide (u < 8)
  | 6, .f => decide (u < 4)
  | 6, .m => decide (u < 2)
  | 6, .l => decide (u < 1)
  | 7, _ => decide (u < 8)
  | 8, _ => decide (u < 33)
  | 9, _ => decide (u < 32)
  | 10, _ => decide (u < 16)
  | 11, _ => decide (u < 1)
  | 12, _ => decide (u < 1)
  | _, _ => false

/-- What is held of a unit: a unit of the variant reads `TESTING` until BIST reaches it, any other `ABSENT` (R498). -/
def unitOf (s : State) (cls u : Nat) : UnitRec :=
  tgetD s.boot.units (cls * 256 + u) { ustate := if unitExists s.otp.variant cls u then .testing else .absent }

/-- `USTATE` of a unit. -/
def ustate (s : State) (cls u : Nat) : UState := (unitOf s cls u).ustate

/-- A unit fenced by BIST, by a record or by a failure in service. -/
def fencedUnit (s : State) (cls u : Nat) : Bool := ustate s cls u == .fenced || ustate s cls u == .failed

/-- Logical tiles of the variant (R107). -/
def tileExists (v : Variant) (t : Nat) : Bool :=
  t == 64 || (match v with
    | .f => decide (t < 64)
    | .m => decide (t < 16)
    | .l => false)

/-- The physical tile of a logical tile. -/
def physOf (s : State) (t : Nat) : Nat := tgetD s.loom.tileMap t t

/-- The stack that homes a logical tile (R457): 16 tiles a stack on the F, 8 on the M; tile 64 on the lowest working stack. -/
def stackOf (s : State) (t : Nat) : Nat :=
  if t = 64 then ((List.range 4).find? (fun k => unitExists s.otp.variant 6 k && !fencedUnit s 6 k)).getD 0
  else if s.otp.variant = .f then t / 16 else t / 8

/-- The ring is fenced when both its ports, or the chiplet, are (R456). -/
def ringFenced (s : State) (r : Nat) : Bool :=
  fencedUnit s 8 32 || (fencedUnit s 8 (2 * r) && fencedUnit s 8 (2 * r + 1))

/-- A chain whose lane, tile or ports are fenced is refused with ST_FENCED (R4, R131, R456). -/
def chainFenced (s : State) (c : Nat) : Bool :=
  s.loom.fenced.contains (if isLocal c then 64 else laneOfChain c / 2)
    || (if isLocal c then ringFenced s (ringOfChain c) else fencedUnit s 4 (laneOfChain c))

/-- The unit check of a command that names a chain (R397 step 8): fenced, or its ports, lane or tile still under test. -/
def chainUnit (s : State) (c : Nat) : Option Nat :=
  if chainFenced s c then some ST_FENCED
  else if isLocal c then
    if ustate s 8 (2 * ringOfChain c) = .testing && ustate s 8 (2 * ringOfChain c + 1) = .testing then some ST_NOT_READY else none
  else if ustate s 4 (laneOfChain c) = .testing then some ST_NOT_READY else none

/-- The unit check of a command that names several chains: the first that is refused (R4, R397). -/
def chainsUnit (s : State) (cs : List Nat) : Option Nat := cs.findSome? (chainUnit s)

/-- The readiness bit that serves a chain: `LOCAL` or `LANES` (R449). -/
def chainReady (c : Nat) : Nat := if isLocal c then 5 else 6

/-! ### Positions and procedures -/

/-- Positions of a chain that hold a tag. -/
def occPosns (s : State) (c : Nat) : List Nat := (chainOf s c).occ.map (fun i => c * 8 + i)

/-- Change every occupied position of a chain. -/
def modOcc (c : Nat) (f : Posn → Posn) (s : State) : State := forEach (occPosns s c) s (fun p s => modPos p f s)

/-- Powered: frames run on the chain, in normal or wrap mode (R401). -/
def powered (c : Chain) : Bool := c.mode == .normal || c.mode == .wrap

/-- In a chain procedure (R401). -/
def inProcedure (c : Chain) : Bool := c.proc.isSome

/-- The pick of the chain frame that carries a command accepted now: the next boundary on a local ring, two picks later on a
bridged chain (R81, R401). -/
def frameAfter (s : State) (c : Nat) : Nat := if isLocal c then s.spc + 1 else s.spc + 3

/-- The boundary at which a word assembled now is in force at the tag (R43, R81, R290). -/
def inForce (s : State) (c : Nat) : Nat := if isLocal c then s.spc + 1 else s.spc + 3

/-- Split hop of a ring of N tags (R37). -/
def splitHop (n : Nat) : Nat := (n + 1) / 2

/-- Power configuration of the tag that stands k-th from port A with the split at hop h: side-A tags stand before it, and the two tags at its
ends stop relaying (R37). -/
def powerConfig (h k : Nat) : Bool × Bool := (decide (h ≤ k), k + 1 == h || k == h)

/-- Move the split hop: every tag whose configuration changes is posted its new word, in place of one still waiting (R37, R76). A tag's place
in the ring is its place among the occupied slots, which on an open ring are not consecutive (R55). -/
def moveSplit (c h : Nat) (s : State) : State :=
  forEach (chainOf s c).occ.zipIdx (modChain c (fun x => { x with split := h }) s) fun e s =>
    let cfg := powerConfig h e.2
    modPos (c * 8 + e.1) (fun x => { x with posted := { x.posted with
      power := if (x.feedB, x.relayOff) = cfg then none else some cfg } }) s

/-- Set bits of a ring's `RING_CHG`. -/
def noteRing (c bit : Nat) (s : State) : State := modChain c (fun x => { x with chg := x.chg ||| BitVec.ofNat 4 (2 ^ bit) }) s

/-- A ring or lane event about a chain, named by its slot 0 (R76). -/
def ringEvent (c kind detail : Nat) (s : State) : State := raiseChain c (lineSource c) kind detail s

/-- An event about a position. -/
def posEvent (p kind detail : Nat) (s : State) : State := raisePos p (lineSource (chainOfPos p)) kind detail s

/-- Change the mode of a chain, noting the SPC. -/
def setMode (m : CMode) (s : State) (x : Chain) : Chain :=
  if x.mode = m then x else { x with mode := m, since := s.spc, started := x.started || m == .normal || m == .wrap }

/-- Finish a chain procedure, if one runs, with a status (R401). -/
def endProc (c status : Nat) (s : State) : State :=
  match (chainOf s c).proc with
  | none => s
  | some p =>
    let s1 := modChain c (fun x => { x with proc := none }) s
    match p.cmd with
    | some r => finish r status s1
    | none => s1

/-- A procedure whose enumeration is counted finishes when every tag is released, with ST_PRECONDITION when a tag's coefficients
stayed inconsistent (R53, R59). -/
def settleProc (c : Nat) (s : State) : State :=
  let x := chainOf s c
  match x.proc with
  | some { counted := some _, .. } =>
    let ps := (occPosns s c).map (posOf s)
    if ps.all (fun p => p.state == .released) then endProc c ST_OK s
    else if ps.all (fun p => p.state == .released || decide (3 ≤ p.coefBad)) then endProc c ST_PRECONDITION s
    else s
  | _ => s

/-- Record a position delay; one that differs from the former is noted with its SPC (R18, R177). -/
def setDelay (now d : Nat) (x : Posn) : Posn :=
  if x.delay = d then x else { x with delay := d, delayWas := ((now, d) :: x.delayWas).take 64 }

/-- The delay of a position as it stood in a pick. -/
def delayAt (x : Posn) (pick : Nat) : Nat :=
  match x.delayWas.find? (fun e => decide (e.1 ≤ pick)) with
  | some e => e.2
  | none => if x.delayWas.isEmpty then x.delay else 0

/-- Record measured position delays, slot by slot (R18). -/
def setDelays (c : Nat) (ds : List Nat) (s : State) : State :=
  forEach (ds.zipIdx) s (fun d s => modPos (c * 8 + d.2) (setDelay s.spc d.1) s)

/-- Forget what a loss of power or a reboot takes from a position: its identity is unknown until it is sent again, and data picks
are a gap (R49, R53, R72). The recorded tag stays for comparison (R60). -/
def darken (st : PState) (s : State) (p : Posn) : Posn :=
  { p with
    state := st, known := false, parts := [], coefOk := false, noLive := 0
    gapFrom := if p.gapFrom.isSome then p.gapFrom else some s.spc
    posted := { p.posted with outEn := false, ditherEn := false, iSet := 0, power := none, reset := false } }

/-- A tag that loses power loses its power configuration and its slot as well (R545). -/
def unpower (st : PState) (s : State) (p : Posn) : Posn := { darken st s p with feedB := false, relayOff := false }

/-- Stop frames and carriers of a chain, drop its requests and mark its positions (R73, R74). -/
def stopChain (m : CMode) (st : PState) (c : Nat) (s : State) : State :=
  let s1 := modOcc c (unpower st s) s
  modChain c (fun x =>
    { setMode m s x with
      carrierA := false, carrierB := false, missing := [], asked := [], askedB := []
      pwrA := 0, pwrB := 0, parkAt := none, offAt := none, unwrapAt := none, wrapAt := none
      hopFault := false, hopMiss := 0, syncMiss := 0, lockLost := false, synced := false, invA := false, invB := false
      countA := none, countB := none }) s1

/-- Start a bring-up, enumeration or reboot procedure (R53, R401). A ring that `CHAIN.RESET` finds off is brought up as by `CHAIN.POWER`. -/
def startProc (c op : Nat) (cmd : Option CmdRef) (s : State) : State :=
  let p := frameAfter s c
  let ending := if op = 0x0201 then p + 3 else if op = 0x0207 ∧ powered (chainOf s c) then p + 11 else p + 203
  modChain c (fun x => { x with proc := some { op := op, p0 := p, enumEnd := ending, cmd := cmd }, enumTry := 0 }) s

/-- A local port is fenced, by itself or with the chiplet (R456). -/
def portFenced (s : State) (c : Nat) (b : Bool) : Bool :=
  isLocal c && (fencedUnit s 8 32 || fencedUnit s 8 (2 * ringOfChain c + b2n b))

/-- A port turned off under R39 stays off through a bring-up that neither `CHAIN.POWER` nor `CHAIN.RESET` starts; a fenced port stays off
(R456). -/
def portOff (s : State) (c op : Nat) (b : Bool) : Bool :=
  portFenced s c b || (op != 0x0200 && op != 0x0207 && (if b then (chainOf s c).offB else (chainOf s c).offA))

/-- Power a chain: carrier and frames of port A from p0, counters of the bring-up cleared. -/
def powerUp (c op : Nat) (cmd : Option CmdRef) (s : State) : State :=
  let s1 := startProc c op cmd s
  let s2 := modChain c (fun x =>
    { setMode .normal s x with
      carrierA := !portOff s c op false, carrierB := false, offA := portOff s c op false, offB := portOff s c op true
      brk := none, split := 0, tags := 0
      fcrcErr := 0, rsndReq := 0, hopFault := false, hopMiss := 0, syncMiss := 0, lockLost := false, synced := false
      ccmd := if isLocal c then 0 else if op = 0x0207 then 5 else 1 }) s1
  modOcc c (unpower .bringingUp s) s2

/-- CRC-16/CCITT over the first `n - 16` bits of a field that ends in its check (R44, R57). -/
def crc16Ok {n : Nat} (x : BitVec n) : Bool :=
  crcBits 16 0x1021 0xFFFF ((bitsMsb n x.toNat).take (n - 16)) == x.toNat % 2 ^ 16

/-- The bytes of a field whose width is a whole number of bytes, first transmitted bit as bit 7 of the first (R42). -/
def fieldBytes {n : Nat} (x : BitVec n) : List Nat := (List.range (n / 8)).map (fun i => fieldOf x (8 * i) 8)

/-- A down selvedge message (R57): `SEQ`, `TYPE`, body and its check. -/
def selvMsg (seq typ : Nat) (body : BitVec 480) : BitVec 512 :=
  let head := (seq % 256 * 256 + typ) * 2 ^ 480 + body.toNat
  BitVec.ofNat 512 (head * 2 ^ 16 + crcBits 16 0x1021 0xFFFF (bitsMsb 496 head))

/-! ### Up selvedge messages (R57) -/

/-- Bit j of a message: bit 0 is the first transmitted. -/
def msgBit (j : Nat) : BitVec 512 := BitVec.ofNat 512 (2 ^ (511 - j))

/-- Put bit j into a message. -/
def UpMsg.put (u : UpMsg) (j : Nat) (b : Bool) : UpMsg :=
  { u with bits := if b then u.bits ||| msgBit j else u.bits &&& ~~~msgBit j, have_ := u.have_ ||| msgBit j }

/-- Take the `USELV` bit of the block of frame `fp`: message bit j stands in the frame whose pick modulo 512 is j. A resent block restores its
bit to the message it belongs to. -/
def noteUselv (fp : Nat) (b : Bool) (x : Posn) : Posn :=
  let k := fp / 512
  if k = x.up.period then { x with up := x.up.put (fp % 512) b }
  else if x.up.period < k then { x with upLast := x.up, up := ({ period := k } : UpMsg).put (fp % 512) b }
  else if k = x.upLast.period then { x with upLast := x.upLast.put (fp % 512) b }
  else x

/-- The message that is complete and not taken, the older first. -/
def upMessage (x : Posn) : Option UpMsg := [x.upLast, x.up].find? fun u => !u.taken && u.have_ == BitVec.allOnes 512

/-- The complete message of a position is `msg`. -/
def upIs (x : Posn) (msg : BitVec 512) : Bool := (upMessage x).elim false (fun u => u.bits == msg)

/-- Note that the message of a period is taken. -/
def takeUp (k : Nat) (x : Posn) : Posn :=
  { x with
    up := if x.up.period = k then { x.up with taken := true } else x.up
    upLast := if x.upLast.period = k then { x.upLast with taken := true } else x.upLast }

/-- A message of which some bit has come and which has ended without its check holding: complete, or its missing bits past the age of every
resend (R58, R59, R76). -/
def upFailed (now : Nat) (x : Posn) : Option UpMsg := [x.upLast, x.up].find? fun u =>
  !u.taken && u.have_ != 0 && (if u.have_ = BitVec.allOnes 512 then !crc16Ok u.bits else decide (512 * u.period + 545 ≤ now))

/-- Accept an upstream message: hold it for `CHAIN.SELV_READ`, compare its `SEQ` with the previous one within R24 and R59, and
finish the commands that wait for it. -/
def holdMsg (p typ part : Nat) (msg : BitVec 512) (s : State) : State :=
  let x := posOf s p
  let seq := fieldOf msg 0 8
  let far := match x.upSeq with
    | some (_, at_) => decide (128 ≤ (s.spc - at_) / 512)
    | none => false
  let waiting := x.refresh.filter (fun r => r.1 == typ && r.2.1 == part)
  let s1 := modPos p (fun x =>
    { x with
      upSeq := some (seq, s.spc)
      msgs := tset x.msgs (typ * 256 + part) { msg := msg, spc := s.spc, gap := far }
      refresh := x.refresh.filter (fun r => !(r.1 == typ && r.2.1 == part)) }) s
  forEach waiting s1 (fun r s => finish r.2.2 ST_OK s)

/-! ### Lanes -/

/-- A lane; an absent one is down. Twin lane k stands at 0x100 + k. -/
def laneOf (s : State) (l : Nat) : Lane := tgetD s.lane.lanes l {}

/-- Change a lane. -/
def modLane (l : Nat) (f : Lane → Lane) (s : State) : State :=
  { s with lane := { s.lane with lanes := tmod s.lane.lanes l {} f } }

/-- Is the lane a twin lane? -/
def isTwin (l : Nat) : Bool := decide (0x100 ≤ l)

/-- The variant has the lane: its bridge lanes, or one of the eight twin lanes (R1). -/
def laneExists (s : State) (l : Nat) : Bool :=
  if isTwin l then decide (l < 0x108) else decide (l < lanesOf s.otp.variant)

/-- Event source of a lane: 0x000 + k, or 0x600 + k (R95). -/
def laneSource (l : Nat) : Nat := if isTwin l then 0x600 + (l - 0x100) else l

/-- Lane field of the positions behind a lane (R96): its own number, 2k in a lane pair, the pair lane number in a binary pair. -/
def placeLane (s : State) (l : Nat) : Nat :=
  match (laneOf s l).mode with
  | 1 => l / 2 * 2
  | 2 => tgetD s.lane.pairMap l l
  | _ => l

/-- The bridge behind a lane field. -/
def bridgeOf (s : State) (pl : Nat) : Bridge := tgetD s.lane.bridges pl {}

/-- Change a bridge. -/
def modBridge (pl : Nat) (f : Bridge → Bridge) (s : State) : State :=
  { s with lane := { s.lane with bridges := tmod s.lane.bridges pl {} f } }

/-- A bridge lane has a path: it runs, or the twin forwards and relays for it (R99). -/
def hasPath (s : State) (l : Nat) : Bool := (laneOf s l).lstate == .run || thas s.lane.forwarded l

/-- Own bridge lanes to the bridge of a lane field. -/
def uplinksOf (s : State) (pl : Nat) : List Nat := tkeys s.lane.lanes (fun l _ => decide (l < 128) && placeLane s l == pl)

/-- The bridge of a lane field is reached over one of its uplinks, or over the twin. -/
def reached (s : State) (pl : Nat) : Bool := (uplinksOf s pl).any (hasPath s)

/-- The bridge of a lane field is reached over the twin (R99). -/
def forwardedAt (s : State) (pl : Nat) : Bool := (uplinksOf s pl).any (thas s.lane.forwarded)

/-- Set bits of `LANE_CHG` (R503). -/
def noteLane (l bit : Nat) (s : State) : State := modLane l (fun x => { x with chg := x.chg ||| BitVec.ofNat 5 (2 ^ bit) }) s

end Sys2Proof.Machine
end

