-- ==== Sys2Proof/Machine/Operands.lean ====
section
/-! DEFINITION. From modulator bits to values: the fast-path filter, the nominal transfer, the thermistor law and the correction law
(R105, R106, R109, R196, R237). -/

namespace Sys2Proof.Machine

/-- Division to the nearest integer, halves away from zero (R105). The divisor is positive. -/
def roundDiv (a b : Int) : Int := if a < 0 then -((2 * (-a) + b) / (2 * b)) else (2 * a + b) / (2 * b)

/-! ### The fast-path filter (R109) -/

/-- n choose 3. -/
def choose3 (n : Nat) : Nat := n * (n - 1) * (n - 2) / 6

/-- h[n]: the coefficients of (1 + z^-1 + ... + z^-255)^4, n = 0 to 1,020. -/
def tap (n : Nat) : Nat :=
  let c (j : Nat) : Nat := if 256 * j ≤ n then choose3 (n - 256 * j + 3) else 0
  c 0 + 6 * c 2 + c 4 - 4 * c 1 - 4 * c 3

/-- Contribution of the word of one pick, `i` picks after the first of the span: bit 0 of the pick is the word's most significant. -/
def wordTaps (i : Nat) (w : Nat) : Nat :=
  ((List.range 32).map fun k =>
    let n := 32 * i + k
    if w.testBit (31 - k) && decide (2 ≤ n) && decide (n ≤ 1022) then tap (n - 2) else 0).sum

/-- y[m] from the 32 words of picks 8m - 12 to 8m + 19. -/
def ySum (ws : List Nat) : Nat := (ws.zipIdx.map fun w => wordTaps w.2 w.1).sum

/-- The 28-bit density D[m]. -/
def density (ws : List Nat) : Nat := min (ySum ws / 16) 0x0FFFFFFF

/-! ### The nominal transfer (R105) -/

/-- The ends of a channel's range in its value LSB: 100 nV, 1 nV for DT1 ch0 and ch1, 2^-30 for a divider ratio. -/
def rangeOf (k : TagKind) (ch aux : Nat) : Int × Int :=
  match k, ch with
  | .dt1, 0 => (-40000000, 40000000)
  | .dt1, 1 => (-400000000, 400000000)
  | .dt1, 2 => (-50000000, 800000000)
  | .dt1, 3 => (0, 1000000000)
  | .dt1, 4 => (0, 1073741824)
  | .dt1, _ => (-5000000, 50000000)
  | _, 12 => (0, 650000000)
  | _, 13 => (0, 1073741824)
  | _, 15 => if aux = 1 then (-500000, 5000000) else (-5000000, 50000000)
  | _, _ => (-5000000, 50000000)

/-- x_nom of a density D of 28 bits, rounded as a whole. -/
def nominal (r : Int × Int) (d : Nat) : Int :=
  roundDiv (r.1 * 1610612736 + (r.2 - r.1) * (8 * (d : Int) - 268435456)) 1610612736

/-- Channels of a tag (R57). -/
def channelsOf : TagKind → Nat
  | .none => 0
  | .ct12 => 16
  | .dt1 => 6

/-- The thermistor channel and the housekeeping channel of a tag. -/
def thermCh (k : TagKind) : Nat := if k = .dt1 then 4 else 13
def hkCh (k : TagKind) : Nat := if k = .dt1 then 5 else 14

/-- The channel steps through multiplexer positions (R113). -/
def multiplexed (k : TagKind) (ch : Nat) : Bool := k != .none && (ch == thermCh k || ch == hkCh k)

/-! ### Temperatures (R105, R106) -/

/-- 2 * atanh(a/b) = ln((b+a)/(b-a)) as a series of `n` terms from z = a/b, with 80 fractional bits. -/
def atanhSeries : Nat → Nat → Int → Int → Int
  | 0, _, _, _ => 0
  | n + 1, i, z, zz => z / (2 * i + 1) + atanhSeries n (i + 1) (z * zz / 2 ^ 80) zz

/-- ln(a/b) with 80 fractional bits, for positive a and b (DEDUCED, log 8: the result is rounded to 1 m°C afterwards). -/
def lnFix (a b : Nat) : Int :=
  let k : Int := (Nat.log2 a : Int) - (Nat.log2 b : Int)
  let an : Int := if 0 ≤ k then a else (a : Int) * 2 ^ (-k).toNat
  let bn : Int := if 0 ≤ k then (b : Int) * 2 ^ k.toNat else b
  let z := (an - bn) * 2 ^ 80 / (an + bn)
  let ln2z : Int := 2 ^ 80 / 3
  2 * atanhSeries 30 0 z (z * z / 2 ^ 80) + k * (2 * atanhSeries 30 0 ln2z (ln2z * ln2z / 2 ^ 80))

/-- A divider ratio a/b as a temperature in m°C, limited as R106 limits it; the flag says that it was limited. R25 in Ω, B in K; the
pull-up is 10 kΩ. -/
def thermistor (r25 bk : Nat) (a : Int) (b : Nat) : Int × Bool :=
  if a ≤ 0 then (200000, true)
  else if (b : Int) ≤ a then (-55000, true)
  else
    let l := lnFix (a.toNat * 10000) ((b - a.toNat) * r25)
    let den : Int := 100 * (bk : Int) * 2 ^ 80 + 29815 * l
    if den ≤ 0 then (200000, true)
    else
      let t := roundDiv (29815000 * (bk : Int) * 2 ^ 80) den - 273150
      if 200000 < t then (200000, true) else if t < -55000 then (-55000, true) else (t, false)

/-- Housekeeping position 3, the tag die temperature: n samples that sum to v in 100 nV, as m°C. -/
def dieTemperature (v : Int) (n : Nat) : Int := roundDiv (v - 5460000 * n) (20 * n)

/-! ### The correction law (R196) and slewing (R216) -/

/-- The value of a nominal x under an entry, t being the die temperature less 25 °C in m°C. -/
def correct (e : Entry) (t x : Int) : Int :=
  let k := e.k - tdivI (e.kt * t) 1000
  let o := e.o + tdivI (e.ot * t) 64000
  let d := clampI (-0x80000000) 0x7FFFFFFF (x - o)
  clampI (-0x80000000) 0x7FFFFFFF ((d * k + 0x20000000) >>> (30 : Nat))

/-- K and O of a slew at its step in force. -/
def Slew.now (w : Slew) : Int × Int := (w.k0 + tdivI ((w.k1 - w.k0) * w.i) 256, w.o0 + tdivI ((w.o1 - w.o0) * w.i) 256)

/-- The step that is in force from a boundary on. -/
def Slew.stepAt (w : Slew) (c : Nat) : Nat := min 256 ((c - w.b) / 200 + 1)

/-- Which of a channel's entries a computation takes: the step in force; that of the live stream, nominal until the coefficients have come
(R54); or, for the safety comparators of a slewing channel, the entry in force at the flip or the target (R218). -/
inductive EntrySel where
  | step
  | live
  | flip
  | target
  deriving DecidableEq, Repr

/-! ### Sense-wire compensation (R229, R237) -/

/-- Partner of the wire that `TEST_WIRE` names (R229). -/
def partnerOf (w : Nat) : Nat := if w = 12 then 11 else w + 1

/-- The cell whose bleed path a test of wire w acts as, with its sign for `TEST_DIR` = 0: the current enters at the pin of w and flows
down w to its node, so the sign is +1 when w is the lower wire. -/
def testCell (w : Nat) : Nat × Int := (min w (partnerOf w), if w < partnerOf w then 1 else -1)

/-- Element of a list, 0 outside it. -/
def geti (l : List Int) (i : Nat) : Int := l.getD i 0

/-- c[0..12] of R237. `v` are the values after R196, `rw` the wire resistances in µΩ, `rbal` in mΩ, `b` the bleed mask, `test` the cell,
sign and current of a test, µA; `nocur` cells whose path crosses a wire confirmed broken. -/
def compensate (v rw : List Int) (rbal : List Nat) (b : Nat) (test : Option (Nat × Int × Int)) (nocur : Nat → Bool) : List Int :=
  let i := (List.range 12).map fun j =>
    if nocur j then 0
    else
      (if b.testBit j then tdivI (geti v j * 100) (rbal.getD j 33000) else 0)
        + (match test with
          | some (c, s, it) => if c = j then s * it else 0
          | none => 0)
  (List.range 12).map (fun j =>
      geti v j + tdivI (geti i j * (geti rw j + geti rw (j + 1))
        - (if j = 0 then 0 else geti i (j - 1) * geti rw j) - (if j = 11 then 0 else geti i (j + 1) * geti rw (j + 1))) 100000)
    ++ [geti v 12 + tdivI (geti i 0 * geti rw 0 + geti i 11 * geti rw 12) 100000]

/-! ### Sums of products -/

/-- Add a vector, begun with a 1, to a matrix of sums of products. -/
def addProducts (x : List Int) (m : List (List Int)) : List (List Int) :=
  let v := 1 :: x
  v.zipIdx.map fun a => v.zipIdx.map fun b => a.1 * b.1 + geti (m.getD a.2 []) b.2

/-- An element of the matrix, and the number of vectors in it. -/
def prodAt (m : List (List Int)) (i j : Nat) : Int := geti (m.getD i []) j
def prodCount (m : List (List Int)) : Nat := (prodAt m 0 0).toNat

/-- Mean of element i of the vectors, counted from 0, and covariance of two of them. -/
def prodMean (m : List (List Int)) (i : Nat) : Rat := (prodAt m 0 (i + 1) : Rat) / (prodAt m 0 0 : Rat)
def prodCov (m : List (List Int)) (i j : Nat) : Rat := (prodAt m (i + 1) (j + 1) : Rat) / (prodAt m 0 0 : Rat) - prodMean m i * prodMean m j

/-- Mean square of a linear form over the vectors; its first weight is that of the 1. -/
def meanSquare (m : List (List Int)) (w : List Rat) : Rat :=
  ((w.zipIdx.map fun a => (w.zipIdx.map fun b => a.1 * b.1 * (prodAt m a.2 b.2 : Rat)).sum).sum) / (prodAt m 0 0 : Rat)

/-- The nearest integer, halves away from zero. -/
def nearestInt (x : Rat) : Int := roundDiv x.num x.den

/-- A square root, 60 fractional bits. -/
def sqrtRat (x : Rat) : Rat := ((isqrt (x * 2 ^ 120).floor.toNat : Nat) : Rat) / 2 ^ 60

end Sys2Proof.Machine
end

