-- ==== Sys2Proof/Machine/Flags.lean ====
section
/-! DEFINITION. The flags of decimated samples and the records they rest on: which channels a switch change disturbs, coverage,
recomputation (R106, R112, R113, R129, R131, R199, R217, R239). -/

namespace Sys2Proof.Machine

/-! ### Disturbed channels (R112, R239) -/

/-- The switch states of a tag, newest first. -/
def disturbOf (s : State) (p : Nat) : List Disturb := tgetD s.loom.disturb p []

/-- The switch state in force at a pick. -/
def disturbAt (s : State) (p d : Nat) : Disturb := ((disturbOf s p).find? (fun x => decide (x.at_ ≤ d))).getD {}

/-- Channels about cell j. -/
def aboutCell (j ch : Nat) : Bool := ch == j || ch + 1 == j || (ch == j + 1 && ch != 12) || (ch == 12 && (j == 0 || j == 11))

/-- Channels that a test of wire w disturbs. -/
def aboutWire (w ch : Nat) : Bool :=
  let c := min w (partnerOf w)
  (ch != 12 && (ch == c || ch + 1 == c || ch == c + 1)) || (ch == 12 && (w == 0 || w == 12 || partnerOf w == 0 || partnerOf w == 12))

/-- A change from one switch state to another disturbs a channel (R239). -/
def disturbs (a b : Disturb) (ch : Nat) : Bool :=
  (List.range 12).any (fun j => a.bleed.testBit j != b.bleed.testBit j && aboutCell j ch)
    || (a.wire != b.wire && (a.wire.toList ++ b.wire.toList).any (fun w => aboutWire w ch))
    || (a.ref != b.ref && decide (ch ≤ 12))

/-- The span of sample m holds a change that disturbs the channel: a boundary after pick 8m - 12 and up to pick 8m + 19. -/
def spanDisturbed : List Disturb → Nat → Nat → Bool
  | [], _, _ => false
  | a :: r, m, ch =>
    (decide (8 * m < a.at_ + 12) && decide (a.at_ ≤ 8 * m + 19) && disturbs (r.headD {}) a ch) || spanDisturbed r m ch

/-- Sample m of a multiplexed channel is delivered with its position: its span lies within the dwell and clear of the settling time
(R113). -/
def inDwell (m : Nat) : Bool := decide (3 ≤ m % 25) && decide (m % 25 ≤ 22)

/-- `TRANS` of a sample (R112, R113). -/
def transFlag (s : State) (p ch m : Nat) : Bool :=
  let k := (posOf s p).kind
  if multiplexed k ch then !inDwell m else k == .ct12 && spanDisturbed (disturbOf s p) m ch

/-! ### Coverage (R199) -/

/-- Calibration state of a position. -/
def tagCal (s : State) (p : Nat) : TagCal := tgetD s.cal.tags p {}

/-- Codes of R406 of the procedures that cover a tag. -/
def coverProcs : TagKind → List Nat
  | .ct12 => [1, 2]
  | .dt1 => [3, 4]
  | .none => []

/-- A position is covered by some procedures (R199). -/
def coveredBy (s : State) (p : Nat) (procs : List Nat) : Bool :=
  let t := tagCal s p
  let x := posOf s p
  x.kind != .none && t.serial == x.serial && t.crc == x.coefCrc && (coverProcs x.kind).all (fun c => procs.contains c)

/-- A position is covered (R199). -/
def covered (s : State) (p : Nat) : Bool := coveredBy s p (tagCal s p).procs

/-- A value as it stood at a boundary, from the present one and the one before its latest change. -/
def valueAt {α : Type} (now : α) (was : Option (Nat × α)) (t : Nat) : α :=
  match was with
  | some (b, x) => if t < b then x else now
  | none => now

/-- A position was covered at a boundary of the latest past (R135). -/
def coveredAt (s : State) (p t : Nat) : Bool := coveredBy s p (valueAt (tagCal s p).procs (tagCal s p).procsWas t)

/-! ### Recomputation (R129, R131) -/

/-- `RPL` of a sample: its span holds a pick at or after that of a tile fault and begins at most 47 picks after it, or a full replay names
it. -/
def rplFlag (s : State) (p ch m : Nat) : Bool :=
  let t := if isLocal (chainOfPos p) then 64 else laneOfChain (chainOfPos p) / 2
  (tgetD s.loom.rplFrom t []).any (fun f => decide (f ≤ 8 * m + 19) && decide (8 * m ≤ f + 59))
    || s.loom.full.any (fun x => x.1 == p * 16 + ch && decide (x.2.1 ≤ m) && decide (m ≤ x.2.2))

/-- `OVR` of a density (R106): below 1/16 or above 15/16. -/
def ovrDensity (d : Nat) : Bool := decide (d < 16777216) || decide (251658240 < d)

/-! ### Slewing (R216, R217) -/

/-- The slew of a channel that was the latest to have begun at a boundary. -/
def slewAt (s : State) (chi c : Nat) : Option Slew :=
  let t := tagCal s (posOfChi chi)
  let at_ (w : Option Slew) : Option Slew := w.filter (fun w => decide (w.b ≤ c))
  (at_ (tget t.slews (chanOf chi))).or (at_ (tget t.before (chanOf chi)))

/-- A sample of the channel released at a boundary is a slew sample (R217). -/
def slewing (s : State) (chi c : Nat) : Bool := (slewAt s chi c).elim false (fun w => decide (c < w.b + 51000))

/-- The union of the flags of several samples. -/
def orFlags (l : List Flags) : Flags :=
  { gap := l.any (·.gap), edge := l.any (·.edge), ovr := l.any (·.ovr), trans := l.any (·.trans), uncal := l.any (·.uncal)
    rpl := l.any (·.rpl), wide := l.any (·.wide), subst := l.any (·.subst)
    slew := l.any (·.slew) }

end Sys2Proof.Machine
end

