-- ==== Sys2Proof/Machine/LoomOps.lean ====
section
/-! DEFINITION. The Loom's computations from the bolt: fast-path samples, merged current, dwell values and primary samples
(R109 to R120, R129 to R132, R196, R207, R237). -/

namespace Sys2Proof.Machine

/-! ### Bolt entries -/

/-- The first fast-path sample whose span, bit 2 of pick 8m - 12 to bit 30 of pick 8m + 19, holds a pick, and the last (R109). -/
def firstSpan (d : Nat) : Nat := (d - 19 + 7) / 8
def lastSpan (d : Nat) : Nat := (d + 12) / 8

/-- Entries of a position. -/
def boltOf (s : State) (p : Nat) : List BoltEntry := tgetD s.loom.bolt p []

/-- The entry of a pick. -/
def boltAt (s : State) (p d : Nat) : Option BoltEntry := (boltOf s p).find? (fun e => e.pick == d)

/-- The logical tile of a chain (R107). -/
def tileOf (c : Nat) : Nat := if isLocal c then 64 else laneOfChain c / 2

/-- The source of a tile's events: 0x090 plus the physical tile number (R107). -/
def tileSource (s : State) (t : Nat) : Nat := 0x90 + physOf s t

/-- What one pick gives a sample: the payload that counts (none: 0x5555_5555 on every channel), and whether it is a substitute, a gap,
a fill whose correction is not done, or a pick of a block with `OVR`. -/
structure PickView where
  payload : Option (BitVec 512) := none
  subst : Bool := false
  gap : Bool := false
  queued : Bool := false
  ovr : Bool := false
  deriving DecidableEq, Repr

/-- A correction of sample m for pick d is still queued (R130). -/
def replayQueued (s : State) (p d m : Nat) : Bool :=
  (tgetD s.loom.replay (tileOf (chainOfPos p)) []).any (fun r => r.pos == p && r.pick == d && r.m == m && r.chans.isEmpty)

/-- The full replay of sample m of a channel is still queued (R129, R130). -/
def fullQueued (s : State) (p ch m : Nat) : Bool :=
  (tgetD s.loom.replay (tileOf (chainOfPos p)) []).any (fun r => r.pos == p && r.m == m && r.chans.contains ch)

/-- The substitute of pick d: the most recent earlier pick that arrived `LIVE` without a fill, within the preceding 32 (R110). -/
def substitute (l : List BoltEntry) (d : Nat) : Option (BitVec 512) :=
  (l.find? (fun e => decide (e.pick < d) && decide (d ≤ e.pick + 32) && e.bstate == .live && !e.filled)).map (·.payload)

/-- What pick d gives sample m of a position (R110, R128, R130, R132). The live stream takes the bits that an identified position sends
while it is brought up, since its comparators run before its release (R54, log 10); in the settled stream those picks are gaps. -/
def pickView (s : State) (live : Bool) (p m d : Nat) : PickView :=
  let l := boltOf s p
  let fenced := s.loom.fenced.contains (tileOf (chainOfPos p))
  match l.find? (fun e => e.pick == d) with
  | some e =>
    if e.bstate = .live ∧ ((live && e.raw) ∨ ¬ e.mute) ∧ ¬ fenced then
      if e.filled ∧ replayQueued s p d m then
        { payload := substitute l d, subst := true, gap := true, queued := true }
      else { payload := some e.payload, ovr := e.ovr }
    else { payload := substitute l d, subst := true, gap := true }
  | none => { payload := substitute l d, subst := true, gap := true }

/-- The 32 picks of sample m's span; picks before SPC 0 hold nothing. -/
def spanViews (s : State) (live : Bool) (p m : Nat) : List PickView :=
  (List.range 32).map fun i =>
    if 8 * m + i < 12 then { subst := true, gap := true } else pickView s live p m (8 * m + i - 12)

/-- The word of a channel in a pick. -/
def viewWord (ch : Nat) (v : PickView) : Nat :=
  match v.payload with
  | some x => fieldOf x (32 * ch) 32
  | none => 0x55555555

/-! ### Coefficients in force (R117, R196 to R199, R216) -/

/-- The factory entry of a channel, or the nominal one (R54, R198). -/
def factoryEntry (s : State) (chi : Nat) : Entry := tgetD (tagCal s (posOfChi chi)).factory (chanOf chi) {}

/-- The entry in force, where no slew runs. -/
def restEntry (s : State) (chi : Nat) : Entry := tgetD (tagCal s (posOfChi chi)).entries (chanOf chi) (factoryEntry s chi)

/-- The entry of a channel now. While the channel slews, it is the step in force, or one of the ends (R216, R218). -/
def entryNow (s : State) (sel : EntrySel) (chi : Nat) : Entry :=
  let e := restEntry s chi
  if sel != .step && !(posOf s (posOfChi chi)).coefOk then {} else
  match (tget (tagCal s (posOfChi chi)).slews (chanOf chi)).filter (fun w => decide (s.spc < w.b + 51000)) with
  | some w =>
    match sel with
    | .step => { e with k := w.now.1, o := w.now.2 }
    | .live => { e with k := w.now.1, o := w.now.2 }
    | .flip => { e with k := w.k0, o := w.o0 }
    | .target => { e with k := w.k1, o := w.o1 }
  | none => e

/-- t of R196: the latest die temperature less 25 °C, 0 before the first. -/
def tagTemp (s : State) (p : Nat) : Int := (tagCal s p).dieT.elim 0 (· - 25000)

/-- t of R196 as of a boundary of the latest past. -/
def tagTempAt (s : State) (p t : Nat) : Int := (valueAt (tagCal s p).dieT (tagCal s p).dieWas t).elim 0 (· - 25000)

/-- The estimate of ρ by which densities under reference B are divided, as a fraction (R204, R207; log 9): the latest position-0 dwell
value, which reads reference A against reference B, over reference B. -/
def rhoOf (s : State) (p : Nat) : Nat × Nat :=
  let t := tagCal s p
  match tget s.loom.dwell ((p * 16 + hkCh (posOf s p).kind) * 8) with
  | some x => if 0 < x.value ∧ 0 < t.refB then (x.value.toNat, t.refB * 10) else (1, 1)
  | none => if 0 < t.refA ∧ 0 < t.refB then (t.refA, t.refB) else (1, 1)

/-- Wire resistances of a CT12, µΩ: learned, else bound; 0 where confirmed broken (R230, R237, R243). -/
def wireResistances (s : State) (p : Nat) : List Int :=
  let d := tgetD s.bal.tags p {}
  let bound := tgetD s.map.bind.rwire p []
  (List.range 13).map fun w =>
    if thas d.broken w then 0
    else
      let est := tgetD d.estimates w []
      if d.learned.contains w && !est.isEmpty then tdivI est.sum est.length else ((bound.getD w 20000 : Nat) : Int)

/-! ### Fast-path samples -/

/-- Densities of a tag's channels that a filter makes of the views of a span, those of ch0 to ch11 scaled while reference B is selected in
the pick of its centre (R207). -/
def tagDensitiesBy (s : State) (p centre : Nat) (filter : List Nat → Nat) (vs : List PickView) : List Nat :=
  let k := (posOf s p).kind
  let ref := (disturbAt s p centre).ref
  let rho := rhoOf s p
  (List.range (channelsOf k)).map fun ch =>
    let d := filter (vs.map (viewWord ch))
    if ref && k == .ct12 && decide (ch < 12) then min (d * rho.2 / rho.1) 0x0FFFFFFF else d

/-- Densities of sample m. -/
def tagDensities (s : State) (p m : Nat) (vs : List PickView) : List Nat := tagDensitiesBy s p (8 * m + 4) density vs

/-- Values of a tag's channels from its densities, corrected with an entry of each at a tag temperature and compensated for a switch state
(R105, R117, R237). A thermistor channel holds its ratio, a housekeeping channel its voltage. -/
def tagValuesBy (s : State) (entry : Nat → Entry) (t : Int) (p : Nat) (d : Disturb) (ds : List Nat) : List Int :=
  let x := posOf s p
  let vs := ds.zipIdx.map fun d => correct (entry (p * 16 + d.2)) t (nominal (rangeOf x.kind d.2 x.aux) d.1)
  if x.kind = .ct12 then
    let g := tgetD s.bal.tags p {}
    let broken (w : Nat) := thas g.broken w
    let test := d.wire.map fun w => ((testCell w).1, (testCell w).2, (g.current : Int))
    compensate (vs.take 13) (wireResistances s p) (tgetD s.map.bind.rbal p []) d.bleed test (fun j => broken j || broken (j + 1))
      ++ vs.drop 13
  else vs

/-- Values with the coefficients in force. -/
def tagValuesWith (s : State) (sel : EntrySel) (p : Nat) (d : Disturb) (ds : List Nat) : List Int :=
  tagValuesBy s (entryNow s sel) (tagTemp s p) p d ds

/-- Values under the switch state in force at the middle of the span. -/
def tagValues (s : State) (sel : EntrySel) (p m : Nat) (ds : List Nat) : List Int := tagValuesWith s sel p (disturbAt s p (8 * m + 4)) ds

/-- The mean of n multiplexed values of sum v in its unit: m°C for a thermistor and for housekeeping position 3; the flag says it was
limited (R105, R106). -/
def convertMux (s : State) (p ch pos : Nat) (v : Int) (n : Nat) : Int × Bool :=
  let k := (posOf s p).kind
  if n = 0 then (0, false)
  else if ch = thermCh k then
    let b := tgetD s.map.bind.therm (p * 4 + pos) (10000, 3435)
    thermistor b.1 b.2 v (n * 2 ^ 30)
  else if pos = 3 then (dieTemperature v n, false)
  else (roundDiv v n, false)

/-- Multiplexer position of a multiplexed channel in force at a pick. -/
def muxPos (s : State) (p ch d : Nat) : Nat :=
  let x := disturbAt s p d
  if ch = thermCh (posOf s p).kind then x.thm else x.hk

/-- A sample whose full replay is not done has lost its value: what is delivered in its place is a free value (R129, R138; log 64). -/
def lostValue (queued : Bool) (chi m : Nat) (v : Int) : Int := if queued then (Config.lostSample chi m).toInt else v

/-- The live samples of a tag at sample m, by channel (R110, R111, R112, R117, R130). -/
def liveSamples (s : State) (sel : EntrySel) (p m : Nat) : List Sample :=
  let vs := spanViews s true p m
  let ds := tagDensities s p m vs
  let blocks := vs.any (·.ovr)
  let sub := vs.any (·.subst)
  let unc := !(covered s p && (posOf s p).coefOk)
  (tagValues s sel p m ds).zipIdx.map fun v =>
    let lost := fullQueued s p v.2 m || tget s.loom.sramAt (p * 16 + v.2) == some s.spc
    { m := m, value := lostValue lost (p * 16 + v.2) m v.1
      flags := { ovr := blocks || ovrDensity (ds.getD v.2 0), trans := transFlag s p v.2 m, uncal := unc, subst := sub || lost
                 rpl := rplFlag s p v.2 m && !lost } }

/-- The settled samples of a tag at sample m, by channel (R116, R118, R130, R132, R133). -/
def settledSamples (s : State) (p m : Nat) : List Sample :=
  let vs := spanViews s false p m
  let ds := tagDensities s p m vs
  let blocks := vs.any (·.ovr)
  let gap := vs.any (·.gap)
  let unc := !covered s p
  (tagValues s .step p m ds).zipIdx.map fun v =>
    let lost := fullQueued s p v.2 m
    { m := m, value := lostValue lost (p * 16 + v.2) m v.1
      flags := { gap := gap || lost, ovr := blocks || ovrDensity (ds.getD v.2 0), trans := transFlag s p v.2 m, uncal := unc
                 rpl := rplFlag s p v.2 m && !lost, slew := slewing s (p * 16 + v.2) (8 * m + 92) } }

/-- Step the merged current with the samples of ch0 and ch1 (R114). Where the sample after 25 calm ones itself calls for ch1, the current stays
on ch1 (DESIGN CHOICE, log 65). -/
def mergeStep (g : Merge) (a b : Sample) : Merge :=
  let out := a.flags.ovr || decide (36000000 < a.value.natAbs)
  let calm := decide (b.value.natAbs ≤ 30000000) && !a.flags.ovr
  if g.wide then
    if 25 ≤ g.run && !out then { wide := false, run := 0, latest := some a }
    else
      { wide := true, run := if calm then g.run + 1 else 0
        latest := some { b with flags := { b.flags with wide := true } } }
  else if out then
    { wide := true, run := if calm then 1 else 0, latest := some { b with flags := { b.flags with wide := true } } }
  else { wide := false, run := 0, latest := some a }

/-! ### Dwell values (R113) -/

/-- The settled samples kept of a channel, newest first. -/
def settledOf (s : State) (chi : Nat) : List Sample := tgetD s.loom.settled chi []

/-- A sample of a channel's store as a stage reads it: one whose full replay is not done is a gap (R129, R130). -/
def readStore (s : State) (p ch : Nat) (l : List Sample) : List Sample :=
  l.map fun x => if fullQueued s p ch x.m then { x with flags := { x.flags with gap := true } } else x

/-- The samples a dwell's mean is over: those without `GAP`, all of them when none is without. -/
def dwellUse (l : List Sample) : List Sample :=
  let good := l.filter (fun x => !x.flags.gap)
  if good.isEmpty then l else good

/-- The dwell value of period k: the mean, converted and rounded once. -/
def dwellSample (s : State) (chi k : Nat) : Sample :=
  let p := posOfChi chi
  let ch := chanOf chi
  let l := readStore s p ch ((settledOf s chi).filter (fun x => decide (25 * k + 3 ≤ x.m) && decide (x.m ≤ 25 * k + 22)))
  let use := dwellUse l
  let v := convertMux s p ch (muxPos s p ch (200 * k)) (use.map (·.value)).sum use.length
  let gaps := (l.filter (fun x => x.flags.gap)).length + (20 - l.length)
  let o := orFlags (l.map (·.flags))
  { m := k, value := v.1, flags := { gap := decide (10 < gaps), ovr := o.ovr || v.2, uncal := o.uncal, rpl := o.rpl, slew := o.slew } }

/-! ### Primary samples (R119, R120) -/

/-- The sample of number m, or an empty gap sample where the store holds none. -/
def sampleAt (l : List Sample) (m : Nat) : Sample := (l.find? (fun x => x.m == m)).getD { m := m, flags := { gap := true } }

/-- The nearest element without `GAP` in a list, with its distance. -/
def nearest : List Sample → Nat → Option (Nat × Int)
  | [], _ => none
  | x :: r, n => if x.flags.gap then nearest r (n + 1) else some (n, x.value)

/-- The input of the filter for each sample of the span as a fraction: gaps interpolated, or held, or as they stand (R120). -/
def filterInputs : List Sample → List Sample → List (Int × Nat)
  | _, [] => []
  | before, x :: after =>
    let v : Int × Nat :=
      if !x.flags.gap then (x.value, 1)
      else match nearest before 1, nearest after 1 with
        | some (i, a), some (j, b) => (a * j + b * i, i + j)
        | some (_, a), none => (a, 1)
        | none, some (_, b) => (b, 1)
        | none, none => (x.value, 1)
    v :: filterInputs (x :: before) after

/-- A sum of fractions over one denominator. -/
def addFrac (a : Int × Nat) (b : Int × Nat) : Int × Nat :=
  let d := Nat.lcm a.2 b.2
  (a.1 * (d / a.2 : Nat) + b.1 * (d / b.2 : Nat), d)

/-- The output of the primary filter over 351 samples, earliest first. -/
def primaryValue (l : List Sample) : Int :=
  let y := (filterInputs [] l).zipIdx.foldl (fun acc v => addFrac acc (v.1.1 * Config.primaryTap (min v.2 (350 - v.2)), v.1.2)) (0, 1)
  clampI (-0x80000000) 0x7FFFFFFF (roundDiv y.1 (y.2 * (Config.primaryScale + 1)))

/-- Latest primary value of a channel. -/
def primaryOf (s : State) (chi : Nat) : Option Sample := tget s.loom.primary chi

/-- A channel with a primary path: one that is not multiplexed, or the merged current of a drive tag (R119, R139). -/
def hasPrimary (k : TagKind) (ch : Nat) : Bool := (decide (ch < channelsOf k) && !multiplexed k ch) || (k == .dt1 && ch == 6)

/-- Primary sample k over a store of settled samples. The inputs before sample 0 hold nothing. -/
def primarySample (store : List Sample) (k : Nat) : Sample :=
  let l := (List.range 351).map fun i => if 25 * k + i < 163 then { flags := { gap := true } } else sampleAt store (25 * k + i - 163)
  let own := (l.drop 163).take 25
  let o := orFlags (own.map (·.flags))
  let edge := !o.gap && l.any (fun x => x.flags.gap)
  { m := k, value := primaryValue l
    flags := { gap := o.gap, edge := edge, ovr := o.ovr, trans := o.trans, uncal := o.uncal, rpl := o.rpl
               wide := o.wide, slew := o.slew } }

/-- T of R110. -/
def liveDelay (s : State) (p : Nat) : Nat :=
  let c := chainOfPos p
  if isLocal c then 2 else if forwardedAt s (laneOfChain c) then 8 else 7

/-- Channel index of the merged current of a drive tag, ch6 (R139). -/
def mergedKey (p : Nat) : Nat := p * 16 + 6

/-- Keep the newest samples of a store. -/
def keepSample (n : Nat) (x : Sample) (l : List Sample) : List Sample := (x :: l).take n

end Sys2Proof.Machine
end

