-- ==== Sys2Proof/Machine/CalOps.lean ====
section
/-! DEFINITION. Operations of calibration that several rows share: factory entries, coverage, commits and their flips (R198, R199,
R211, R213 to R216). -/

namespace Sys2Proof.Machine

/-- Change the calibration state of a position. -/
def modTagCal (p : Nat) (f : TagCal → TagCal) (s : State) : State :=
  { s with cal := { s.cal with tags := tmod s.cal.tags p {} f } }

/-- Calibration of a chain. -/
def chainCal (s : State) (c : Nat) : ChainCal := tgetD s.cal.chains c {}

/-- Change the calibration of a chain. -/
def modChainCal (c : Nat) (f : ChainCal → ChainCal) (s : State) : State :=
  { s with cal := { s.cal with chains := tmod s.cal.chains c {} f } }

/-! ### Factory entries (R198) -/

/-- Conversion of `OFFSET` and `OFFSET_TC` to the units of R196: numerator and denominator of each. Voltage: 0.1 µV is one value LSB,
0.01 µV/K is 6.4/64 of one. Shunt: 1 nV, 0.1 nV/K. Ratio: 10^-7 and 10^-8 of the ratio in 2^-30. -/
def offsetUnits (k : TagKind) (ch : Nat) : (Int × Int) × (Int × Int) :=
  if multiplexed k ch && ch == thermCh k then ((1073741824, 10000000), (64 * 1073741824, 100000000))
  else ((1, 1), (64, 10))

/-- The factory entry that a channel record forms. -/
def factoryOf (k : TagKind) (ch : Nat) (gainErr offset gainTc offsetTc : Int) : Entry :=
  let u := offsetUnits k ch
  { k := roundDiv (1073741824 * 100000000) (100000000 + gainErr)
    o := roundDiv (offset * u.1.1) u.1.2
    kt := roundDiv (gainTc * 1073741824) 100000000
    ot := roundDiv (offsetTc * u.2.1) u.2.2 }

/-- The channel records of one coefficient part: bits 16 to 415 of the body, five of 80 bits. A last part's reference fields stand in
its second and third record spaces. -/
def partEntries (k : TagKind) (body : BitVec 480) (only : Nat) : List (Nat × Entry) :=
  (List.range only).filterMap fun i =>
    let o := 16 + 80 * i
    let ch := fieldOf body o 8
    if channelsOf k ≤ ch then none
    else some (ch, factoryOf k ch (toSigned 24 (fieldOf body (o + 8) 24)) (toSigned 24 (fieldOf body (o + 32) 24))
      (toSigned 12 (fieldOf body (o + 56) 12)) (toSigned 12 (fieldOf body (o + 68) 12)))

/-- Form the factory entries of a position whose coefficients are complete, and take its references and tolerances (R57, R198).
Coverage stays only for the same tag with the same `COEF_CRC` (R199). -/
def formFactory (p : Nat) (s : State) : State :=
  let x := posOf s p
  let last := x.coefParts - 1
  let ends := tgetD x.parts last 0
  let entries := (List.range x.coefParts).flatMap fun i =>
    partEntries x.kind (tgetD x.parts i 0) (if i = last then 1 else 5)
  let table := entries.foldl (fun t e => tset t e.1 e.2) []
  modTagCal p (fun t =>
    let same := t.serial == x.serial && t.crc == x.coefCrc
    { t with
      factory := table
      refA := fieldOf ends 96 32, refB := fieldOf ends 128 32, tolGain := fieldOf ends 160 16, tolOffset := fieldOf ends 176 16
      procs := if same then t.procs else []
      entries := if same then t.entries else []
      slews := if same then t.slews else []
      before := if same then t.before else []
      serial := x.serial, crc := x.coefCrc }) s

/-- A change of tag (R199, R227): the position reverts to factory entries, uncovered, and its slews end. -/
def uncoverTag (p : Nat) (s : State) : State :=
  modTagCal p (fun t => { t with procs := [], entries := [], slews := [], before := [], factory := [], dieT := none, refA := 0, refB := 0
                                 tolGain := 0, tolOffset := 0 }) s

/-! ### Commits and flips (R213 to R216) -/

/-- The latest boundary at which a slew of a channel, running or committed and not yet flipped, ends. -/
def slewEnd (s : State) (c : Nat) (targets : Tbl Entry) : Nat :=
  let running := targets.map fun e =>
    match tget (tagCal s (posOfChi e.1)).slews (chanOf e.1) with
    | some w => if s.spc < w.b + 51000 then w.b + 51000 else 0
    | none => 0
  let queued := (chainCal s c).queue.map fun q =>
    if targets.any (fun e => thas q.targets e.1) then q.flip.getD 0 + 51000 else 0
  (running ++ queued).foldl max 0

/-- Decide a commit (R213, R215): its flip is the first multiple of 200 at least 400 picks after the decision, or after the slew it
waits for. Commits of a chain flip in the order of their boundaries. Answers the commit's number and flip. -/
def decideCommit (c : Nat) (q : Commit) (s : State) : Nat × Nat × State :=
  let x := chainCal s c
  let b := flipAfter (max s.spc (slewEnd s c q.targets))
  let before := x.queue.filter (fun y => decide (y.flip.getD 0 ≤ b))
  let after := x.queue.filter (fun y => decide (b < y.flip.getD 0))
  (x.commits + before.length + 1, b, modChainCal c (fun x => { x with queue := before ++ { q with flip := some b } :: after }) s)

/-- The entries held for the tags of a chain. -/
def chainEntries (s : State) (c : Nat) : Tbl (Tbl Entry) :=
  (occPosns s c).map fun p =>
    (p, (List.range (channelsOf (posOf s p).kind)).map fun ch => (ch, restEntry s (p * 16 + ch)))

/-- Start the slew of one channel at the flip (R216). -/
def startSlew (b chi : Nat) (e : Entry) (s : State) : State :=
  let old := entryNow s .step chi
  if (old.k, old.o) = (e.k, e.o) then modTagCal (posOfChi chi) (fun t => { t with entries := tset t.entries (chanOf chi) e }) s
  else
    modTagCal (posOfChi chi) (fun t =>
      { t with
        entries := tset t.entries (chanOf chi) e
        before := ((tget t.slews (chanOf chi)).map (tset t.before (chanOf chi))).getD t.before
        slews := tset t.slews (chanOf chi) { k0 := old.k, o0 := old.o, k1 := e.k, o1 := e.o, b := b } }) s

/-- A committed procedure counts toward coverage; a factory revert ends it (R199, R214). -/
def noteCoverage (q : Commit) (s : State) : State :=
  forEach q.posns s fun p s =>
    let x := posOf s p
    modTagCal p (fun t =>
      if q.proc = 0xFF then { t with procs := [], procsWas := some (s.spc, t.procs) }
      else if q.proc = 0 ∨ t.procs.contains q.proc then t
      else { t with procs := t.procs ++ [q.proc], procsWas := some (s.spc, t.procs), serial := x.serial, crc := x.coefCrc }) s

/-- Source of a function's calibration finishes: its summary, or 0x400 plus the run slot (R200). -/
def calSource (fn : Nat) (slot : Option Nat) : Nat :=
  if fn = mgmt then (match slot with
    | some n => 0x400 + n % 4
    | none => srcMgmt) else 0x100 + fn

/-- Flip the first commit of a chain's queue at its boundary b. -/
def flipCommit (c : Nat) (q : Commit) (b : Nat) (s : State) : State :=
  let s1 := forEach q.targets s (fun e s => startSlew b e.1 e.2 s)
  let s2 := noteCoverage q s1
  let n := (chainCal s2 c).commits + 1
  let s3 := modChainCal c (fun x =>
    { x with
      commits := n, lastFlip := b, queue := x.queue.drop 1
      history := ({ commit := n, flip := b, entries := chainEntries s2 c, residuals := q.residuals } :: x.history).take 64 }) s2
  let s4 := match q.slot with
    | some k =>
      let runs := tupd s3.cal.runs k fun r => { r with busy := false, generation := n % 65536, flip := b, held := [] }
      { s3 with cal := { s3.cal with runs := runs } }
    | none => s3
  match q.cmd with
  | some ref => finishOn (calSource ref.fn q.slot) ref q.status b s4
  | none => s4

/-! ### Plausibility (R211, R212) -/

/-- Which coefficients a procedure corrects on a channel: gain, offset. -/
def corrects (proc ch : Nat) : Bool × Bool :=
  match proc with
  | 1 => (decide (ch ≤ 12), false)
  | 2 => (false, decide (ch ≤ 12) || ch == 14)
  | 3 => (decide (ch ≤ 3), decide (ch ≤ 1))
  | 4 => (ch == 2, ch == 2)
  | _ => (false, false)

/-- Offset limit of the table in value LSB: ±2 mV, or ±20 µV on DT1 ch0 and ±200 µV on ch1. -/
def offsetTable (proc ch : Nat) : Nat := if proc = 3 then (if ch = 0 then 20000 else 200000) else 20000

/-- The entry that a candidate asks for: only what the procedure corrects moves (R197, R205). -/
def candidateEntry (s : State) (proc chi : Nat) (x : Candidate) : Entry :=
  let e := restEntry s chi
  let w := corrects proc (chanOf chi)
  { e with k := if w.1 then x.k else e.k, ref := if w.1 then x.ref else e.ref, o := if w.2 then x.o else e.o }

/-- The candidate of one channel moves no further than the limits of its chain. -/
def plausible (s : State) (proc chi : Nat) (e : Entry) : Bool :=
  let x := chainCal s (chainOfChi chi)
  let old := entryNow s .step chi
  decide ((e.k - old.k).natAbs * 100000 ≤ x.gainLim * old.k.natAbs)
    && decide ((e.o - old.o).natAbs * 1000 ≤ x.offLim * offsetTable proc (chanOf chi))

/-! ### Runs (R200 to R203) -/

/-- Key of a run slot. -/
def runKey (fn slot : Nat) : Nat := fn * 4 + slot

/-- The run of a slot. -/
def runOf (s : State) (fn slot : Nat) : Option CalRun := tget s.cal.runs (runKey fn slot)

/-- Replace the run of a slot, and the run of a lane. -/
def putRun (k : Nat) (r : CalRun) (s : State) : State := { s with cal := { s.cal with runs := tset s.cal.runs k r } }
def putLaneRun (l : Nat) (r : LaneRun) (s : State) : State := { s with cal := { s.cal with laneRuns := tset s.cal.laneRuns l r } }

/-- A run in progress. -/
def runGoes (r : CalRun) : Bool := r.finished.isNone

/-- End the runs of a function on a chain with ST_ABORTED and discard their held candidates (R227); commits decided stay. -/
def abortRuns (p : Nat → CalRun → Bool) (s : State) : State :=
  forEach (s.cal.runs.filter (fun e => e.2.busy && p e.1 e.2 && (runGoes e.2 || !e.2.held.isEmpty))) s fun e s =>
    let r1 : CalRun := { e.2 with
      busy := false, held := [], finished := some (e.2.finished.getD s.spc)
      outcome := if runGoes e.2 then ST_ABORTED else e.2.outcome }
    let s1 : State := { s with cal := { s.cal with runs := tset s.cal.runs e.1 r1 } }
    match e.2.cmd with
    | some ref => if runGoes e.2 then finishOn (calSource ref.fn (some (e.1 % 4))) ref ST_ABORTED s.spc s1 else s1
    | none => s1

/-- Causes of R406 that the block finds itself. -/
def CAUSE_INC : Nat := 2
def CAUSE_UNBOUND : Nat := 3
def CAUSE_WIRE : Nat := 6

/-- A tag fails its precondition in the runs of the procedures that `f` selects; its first cause stays (R227). -/
def failInRun (p cause : Nat) (f : Nat → Bool) (s : State) : State :=
  let runs := tmap s.cal.runs fun _ r =>
    if runGoes r && r.posns.contains p && f r.proc && !thas r.failed p then
      { r with failed := tset r.failed p cause, stats := tdel r.stats p }
    else r
  { s with cal := { s.cal with runs := runs } }

/-- A run takes another injection of a position (R205). -/
def takesInjection (r : CalRun) (p : Nat) : Bool :=
  runGoes r && r.proc == 2 && r.posns.contains p && !thas r.failed p && decide ((tgetD r.stats p {}).injections.length < r.window)

/-- The position is in an offset run that still wants injections (R208). -/
def wantsInjection (s : State) (p : Nat) : Bool := s.cal.runs.any fun e => e.2.busy && takesInjection e.2 p

end Sys2Proof.Machine
end

