-- ==== Sys2Proof/Machine/AccOps.lean ====
section
/-! DEFINITION. Operations of accumulators and apsis trackers: admission, records, the intervals of standard and user windows, and
the pooled resources (R139 to R159, R362). -/

namespace Sys2Proof.Machine

/-! ### Pools (R362) -/

/-- The check of a pooled resource: a tenant against its reservation, the management function against the unreserved remainder. -/
def poolCheck (s : State) (fn : Nat) (res : Pools → Nat) (limit held need : Nat) : Option Nat :=
  if fn = mgmt then
    if limit < held + need + (s.ten.tenants.map (fun t => res t.2.pools)).sum then some ST_TABLE_FULL else none
  else if res ((tget s.ten.tenants fn).getD {}).pools < held + need then some ST_QUOTA else none

/-! ### Flags and admission (R152, R153) -/

/-- Bits of a record's `FLAGS`. -/
def RF_GAP : Nat := 2 ^ 0
def RF_UNCAL : Nat := 2 ^ 4
def RF_WIDE : Nat := 2 ^ 6
def RF_GENCHG : Nat := 2 ^ 8
def RF_INC : Nat := 2 ^ 9
def RF_IDCHG : Nat := 2 ^ 10
def RF_PARTIAL : Nat := 2 ^ 11
def RF_EMPTY : Nat := 2 ^ 12
def RF_ERROR : Nat := 2 ^ 13
def RF_DROPPED : Nat := 2 ^ 14

/-- The flags of a sample as record bits. -/
def flagBits (f : Flags) : Nat :=
  b2n f.gap + b2n f.edge * 2 + b2n f.ovr * 4 + b2n f.trans * 8 + b2n f.uncal * 16 + b2n f.rpl * 32 + b2n f.wide * 64 + b2n f.subst * 128

/-- The flags of an exclusion mask, in its order, that a sample carries: `OVR`, `TRANS`, `UNCAL`, `RPL`, `WIDE`. -/
def maskHit (mask : Nat) (f : Flags) : Bool :=
  (mask.testBit 0 && f.ovr) || (mask.testBit 1 && f.trans) || (mask.testBit 2 && f.uncal) || (mask.testBit 3 && f.rpl)
    || (mask.testBit 4 && f.wide)

/-- Take a sample into an accumulator, or count it against it; a slew sample admitted sets `GENCHG` (R217). -/
def Acc.add (a : Acc) (x : Sample) (gen mask : Nat) : Acc :=
  let fl := a.flags ||| flagBits x.flags
  if x.flags.gap then { a with flags := fl, nGap := a.nGap + 1 }
  else if maskHit mask x.flags then { a with flags := fl, nExcl := a.nExcl + 1 }
  else
    { a with
      flags := if x.flags.slew || (a.gen.isSome && a.gen != some gen) then fl ||| RF_GENCHG else fl
      count := a.count + 1, sum := a.sum + x.value, sumsq := a.sumsq + x.value.natAbs ^ 2
      gen := some gen, genFirst := some (a.genFirst.getD gen) }

/-- Take a sample into an apsis tracker (R159). -/
def Apsis.add (a : Apsis) (x : Sample) (centre gen mask : Nat) : Apsis :=
  let fl := a.flags ||| flagBits x.flags
  if x.flags.gap || maskHit mask x.flags then { a with flags := fl }
  else
    let lower := a.count = 0 || decide (x.value < a.min)
    let higher := a.count = 0 || decide (a.max < x.value)
    { a with
      flags := if x.flags.slew || (a.gen.isSome && a.gen != some gen) then fl ||| RF_GENCHG else fl
      count := a.count + 1, gen := some gen
      min := if lower then x.value else a.min, minSpc := if lower then centre else a.minSpc
      max := if higher then x.value else a.max, maxSpc := if higher then centre else a.maxSpc }

/-! ### Generations and owners in the past -/

/-- Generation of a chain in force at a pick: the latest flip at or before it; device housekeeping carries 0 (R140, R214). -/
def genAt (s : State) (c pick : Nat) : Nat :=
  match (tgetD s.cal.chains c {}).history.find? (fun h => decide (h.flip ≤ pick)) with
  | some h => h.commit % 65536
  | none => 0

/-- The function that owned a chain at a pick. -/
def ownerAt (s : State) (c pick : Nat) : Nat :=
  match (tgetD s.ten.ownerHist c []).find? (fun h => decide (h.1 ≤ pick)) with
  | some h => h.2
  | none => mgmt

/-- The function that owned a chain throughout an interval; none when ownership changed within it (R146). -/
def ownerThrough (s : State) (c a b : Nat) : Option Nat :=
  if (tgetD s.ten.ownerHist c []).any (fun h => decide (a < h.1) && decide (h.1 < b)) then none else some (ownerAt s c a)

/-- Since when the present owner has owned a chain. -/
def ownedSince (s : State) (c : Nat) : Nat :=
  match tgetD s.ten.ownerHist c [] with
  | h :: _ => h.1
  | [] => 0

/-! ### Keys and sources (R139 to R141) -/

/-- Key of an entry: channel and multiplexer position. -/
def entryKey (chi pos : Nat) : Nat := chi * 8 + pos

/-- Multiplexer positions of a channel of a tag type: four thermistors, eight housekeeping positions (R403). -/
def positionsOf (k : TagKind) (ch : Nat) : Nat := if !multiplexed k ch then 1 else if ch = thermCh k then 4 else 8

/-- A channel has accumulators (R139). -/
def hasAcc (s : State) (chi : Nat) : Bool :=
  isHk chi || (match (posOf s (posOfChi chi)).kind with
    | .none => false
    | .ct12 => true
    | .dt1 => decide (chanOf chi ≤ 6))

/-- Standard position of a multiplexed channel (R141). -/
def stdPos (s : State) (chi : Nat) : Nat :=
  let k := (posOf s (posOfChi chi)).kind
  if isHk chi || !multiplexed k (chanOf chi) then 0
  else tgetD s.map.bind.std chi (if chanOf chi = thermCh k then 0 else 3)

/-- Standard position of a channel for the interval that holds a pick: the one in force when the 60 s interval began, which both lengths change
with, so that sixty 1 s records are made of the samples of the 60 s record (R145, R168; DEDUCED, log 71). -/
def stdPosIn (s : State) (chi pick : Nat) : Nat :=
  let a := pick / 6000000 * 6000000
  match (s.map.stdWas.filter (fun w => w.1 == chi && decide (a < w.2.2))).getLast? with
  | some w => w.2.1
  | none => stdPos s chi

/-- `SRC` code of a channel. -/
def srcOf (s : State) (chi : Nat) : Nat :=
  if isHk chi then 2 else if multiplexed (posOf s (posOfChi chi)).kind (chanOf chi) then 1 else 0

/-- Identity word. -/
def identity (chi pos src rtype : Nat) : Word := wd (chi * 2 ^ 9 + pos * 2 ^ 6 + src * 2 ^ 4 + rtype)

/-! ### Marks -/

/-- A position changes incarnation or tag now: the record flag stands in every interval that holds this pick, and in the running
trackers (R152). -/
def markPosition (p flag : Nat) (s : State) : State :=
  { s with acc := { s.acc with
      marks := tmod s.acc.marks (2 ^ 28 + p) [] (fun l => (s.spc, flag) :: l)
      apsis := tmap s.acc.apsis fun k a => if posOfChi (k / 8) = p && !isHk (k / 8) then { a with flags := a.flags ||| flag } else a } }

/-- A binding of an entry changes now (R152, R168). -/
def markBinding (key : Nat) (s : State) : State :=
  { s with acc := { s.acc with
      marks := tmod s.acc.marks key [] (fun l => (s.spc, RF_GENCHG) :: l)
      apsis := tupd s.acc.apsis key (fun a => { a with flags := a.flags ||| RF_GENCHG }) } }

/-- The standard position of a channel changes now: its standard records say so (R168). -/
def markStdPos (chi : Nat) (s : State) : State :=
  { s with acc := { s.acc with marks := tmod s.acc.marks (2 ^ 29 + chi) [] (fun l => (s.spc, RF_GENCHG) :: l) } }

/-- Flags that a list of marks sets in an interval. -/
def flagsIn (l : List (Nat × Nat)) (a b : Nat) : Nat := l.foldl (fun f m => if a ≤ m.1 ∧ m.1 < b then f ||| m.2 else f) 0

/-- Flags that marks set in an interval of an entry. -/
def markFlags (s : State) (key a b : Nat) : Nat :=
  flagsIn (tgetD s.acc.marks (2 ^ 28 + posOfChi (key / 8)) [] ++ tgetD s.acc.marks key []) a b

/-! ### Standard windows (R142 to R146) -/

/-- Length of a standard interval. -/
def stdLen (sixty : Bool) : Nat := if sixty then 6000000 else 100000

/-- Records of one length. -/
def stdTab (s : State) (sixty : Bool) : Tbl (List StdRec) := if sixty then s.acc.sixty else s.acc.one
def putStdTab (sixty : Bool) (t : Tbl (List StdRec)) (s : State) : State :=
  { s with acc := if sixty then { s.acc with sixty := t } else { s.acc with one := t } }

/-- Put a record in place, newest first. -/
def putRec (x : StdRec) (l : List StdRec) : List StdRec :=
  l.takeWhile (fun y => decide (x.j < y.j)) ++ [x] ++ (l.dropWhile (fun y => decide (x.j < y.j))).filter (fun y => y.j != x.j)

/-- Take a sample whose own period starts at `own` into the standard window of one length, unless its interval is committed. -/
def stdAdd (sixty : Bool) (key own gen : Nat) (x : Sample) (s : State) : State :=
  let l := tgetD (stdTab s sixty) key []
  let j := own / stdLen sixty
  let r := (l.find? (fun y => y.j == j)).getD { j := j }
  if r.committed then s else putStdTab sixty (tset (stdTab s sixty) key (putRec { r with acc := r.acc.add x gen 0 } l)) s

/-- Samples that an interval of an entry holds where that number is fixed: primary samples (R142). -/
def fixedSamples (s : State) (sixty : Bool) (chi : Nat) : Nat :=
  if srcOf s chi = 0 && !isHk chi then stdLen sixty / 200 else 0

/-- Samples of a 1 s interval of an entry that never came, where their number is fixed; what an error cleared came (R142, R146, R155). -/
def neverCame (s : State) (key : Nat) (r : StdRec) : Nat := fixedSamples s false (key / 8) - (r.acc.count + r.acc.nGap + r.cleared)

/-- Count n samples that never came as gaps in interval j of an entry, unless it is committed (R146). -/
def stdGaps (sixty : Bool) (j key n : Nat) (s : State) : State :=
  let l := tgetD (stdTab s sixty) key []
  let r := (l.find? (fun y => y.j == j)).getD { j := j }
  if n = 0 || r.committed then s
  else putStdTab sixty (tset (stdTab s sixty) key
    (putRec { r with acc := { r.acc with nGap := r.acc.nGap + n, flags := r.acc.flags ||| RF_GAP } } l)) s

/-- Commit the record of interval j of an entry: its flags are completed, and the oldest record drops out (R143, R144). -/
def commitRec (sixty : Bool) (j key : Nat) (s : State) : State :=
  let chi := key / 8
  let a := stdLen sixty * j
  let b := a + stdLen sixty
  let l := tgetD (stdTab s sixty) key []
  let r := (l.find? (fun y => y.j == j)).getD { j := j }
  if r.committed then s
  else
    let gen := genAt s (chainOfChi chi) b
    let fl := r.acc.flags ||| (if r.acc.count = 0 then RF_EMPTY else 0) ||| markFlags s key a b ||| flagsIn (tgetD s.acc.marks (2 ^ 29 + chi) []) a b
    let r1 : StdRec :=
      { r with
        acc := { r.acc with flags := fl }
        committed := true, endGen := gen, owner := if isHk chi then some mgmt else ownerThrough s (chainOfChi chi) a b }
    let keep := if sixty then 4 else 8
    let l1 := putRec r1 l
    let old := ((l1.filter (·.committed)).drop keep).map (·.j)
    putStdTab sixty (tset (stdTab s sixty) key (l1.filter (fun y => !old.contains y.j))) s

/-- Commit 1 s interval j of an entry: samples that never came count as gaps, in it and in the 60 s interval that holds it (R145, R146). -/
def commitSecond (j key : Nat) (s : State) : State :=
  let r := ((tgetD (stdTab s false) key []).find? (fun y => y.j == j)).getD { j := j }
  if r.committed || decide (j + 8 < s.acc.doneOne) then s
  else
    let n := neverCame s key r
    commitRec false j key (stdGaps true (j / 60) key n (stdGaps false j key n s))

/-- Commit interval j of an entry. The last second of a 60 s interval, which ends with it, is committed with it. -/
def commitEntry (sixty : Bool) (j key : Nat) (s : State) : State :=
  if sixty then commitRec true j key (commitSecond (60 * j + 59) key s) else commitSecond j key s

/-- Entries that run the standard window of one length in interval j: every channel of every known tag at its standard position, and
device housekeeping. -/
def stdEntries (s : State) (sixty : Bool) (j : Nat) : List Nat :=
  (s.line.posns.flatMap fun e =>
    (List.range (if e.2.kind = .dt1 then 7 else channelsOf e.2.kind)).map fun ch => 
      entryKey (e.1 * 16 + ch) (stdPosIn s (e.1 * 16 + ch) (stdLen sixty * j)))
    ++ (List.range 24).map fun h => entryKey (hkChi + h) 0

/-! ### User windows (R147 to R152) -/

/-- An entry of a window takes samples of a channel and position. `ALLPOS` of a channel that turns out not to be multiplexed takes none
(R151). -/
def entryTakes (s : State) (e : WinEntry) (chi pos : Nat) : Bool :=
  e.chi == chi && (if e.all then multiplexed (posOf s (posOfChi chi)).kind (chanOf chi) else e.pos == pos)

/-- End of interval n of a window, none when it has none of its own. -/
def winEnd (w : Window) (n : Nat) : Option Nat := if w.length = 0 then none else some (w.start + 200 * w.length * (n + 1))

/-- The interval in which an own period that starts at `own` falls, if the window still accumulates it. -/
def winInterval (w : Window) (chain own : Nat) : Option Nat :=
  let n := if w.length = 0 then 0 else (own - w.start) / (200 * w.length)
  let ended : Bool := match w.close with
    | some e => decide (e ≤ own)
    | none => false
  let gone : Bool := match tget w.left chain with
    | some g => decide (g ≤ own)
    | none => false
  if own < w.start ∨ ended ∨ gone ∨ w.draining ∨ n < w.next ∨ (n ≠ 0 ∧ ¬ w.repeats) then none else some n

/-- Take a sample into interval n of a window. -/
def winAdd (w : Window) (n key centre gen : Nat) (x : Sample) : Window :=
  let i := (w.open_.find? (fun y => y.n == n)).getD { n := n }
  let i1 : WinInterval :=
    { i with
      accs := tmod i.accs key {} (fun a => a.add x gen w.mask)
      aps := if w.apsis then tmod i.aps key {} (fun a => a.add x centre gen w.mask) else i.aps }
  { w with open_ := w.open_.takeWhile (fun y => decide (y.n < n)) ++ [i1] ++ w.open_.filter (fun y => decide (n < y.n)) }

/-- The running trackers: those that have a reset point, and those of device housekeeping, which have had one from the start (R158). -/
def trackers (s : State) : Tbl Apsis :=
  (List.range 24).foldl (fun t h => tset t (entryKey (hkChi + h) 0) (tgetD t (entryKey (hkChi + h) 0) {})) s.acc.apsis

/-- Every entry of a position: each position of each channel that has an accumulator (R139, R158). -/
def entriesOf (s : State) (p : Nat) : List Nat :=
  let k := (posOf s p).kind
  (List.range (if k = .dt1 then 7 else channelsOf k)).flatMap fun ch => (List.range (positionsOf k ch)).map (entryKey (p * 16 + ch))

/-- The running trackers of a position start when it is first released (R158). -/
def startTrackers (p : Nat) (s : State) : State :=
  { s with acc := { s.acc with
      apsis := (entriesOf s p).foldl (fun t k => if thas t k then t else tset t k { point := s.spc }) s.acc.apsis } }

/-- Give a sample to the running tracker, the standard windows where it is of the standard position, and every user window that names
its entry (R139, R141, R158). -/
def feedAcc (chi pos own centre gen : Nat) (x : Sample) (s : State) : State :=
  let key := entryKey chi pos
  let one (sixty : Bool) (s : State) : State :=
    if pos = stdPosIn s chi own then stdAdd sixty key own gen x s else s
  let s1 := one true (one false s)
  let aps := match tget (trackers s1) key with
    | some t => if t.point ≤ own then tset s1.acc.apsis key (t.add x centre gen 0) else s1.acc.apsis
    | none => s1.acc.apsis
  let wins := tmap s1.acc.windows fun _ w =>
    if w.entries.any (fun e => entryTakes s1 e chi pos) then
      match winInterval w (chainOfChi chi) own with
      | some n => winAdd w n key centre gen x
      | none => w
    else w
  { s1 with acc := { s1.acc with apsis := aps, windows := wins } }

/-- A dwell value or primary sample reaches the accumulators: own period 200k, generation of the release of its first input, or of its
centre tap (R139, R153). -/
def feedDwell (chi pos : Nat) (x : Sample) (s : State) : State :=
  feedAcc chi pos (200 * x.m) (200 * x.m + 104) (genAt s (chainOfChi chi) (200 * x.m + 116)) x s
def feedPrimary (chi : Nat) (x : Sample) (s : State) : State :=
  feedAcc chi 0 (200 * x.m) (200 * x.m + 100) (genAt s (chainOfChi chi) (200 * x.m + 188)) x s

/-- The tag type of a position has become known: the primary samples of the running second that were final before are gaps (R145, R146). -/
def backGaps (p : Nat) (s : State) : State :=
  let k := (posOf s p).kind
  let last := (s.spc - 1600 + 199) / 200
  forEach ((List.range 16).filter (hasPrimary k)) s fun ch s =>
    let first := max (500 * s.acc.doneOne) ((primaryOf s (p * 16 + ch)).elim 0 (·.m + 1))
    forEach (List.range (last - first)) s fun i => feedPrimary (p * 16 + ch) { m := first + i, flags := { gap := true } }

/-! ### Records -/

/-- Words of an n-word field, least significant first. -/
def wdN : Nat → Nat → List Word
  | 0, _ => []
  | n + 1, x => wd x :: wdN n (x / 2 ^ 32)

/-- A compact accumulator record (R156). -/
def compactRecord (s : State) (key : Nat) (r : StdRec) : List Word :=
  [identity (key / 8) (key % 8) (srcOf s (key / 8)) 1, wd (r.acc.flags * 2 ^ 16 + r.acc.count % 2 ^ 16)]
    ++ wdN 2 (ofSigned 64 r.acc.sum) ++ wdN 3 r.acc.sumsq ++ [wd ((r.acc.gen.getD r.endGen) * 2 ^ 16 + r.acc.nGap % 2 ^ 16)]

/-- A full accumulator record (R157). `GEN_FIRST` is 0 where no sample was admitted (DESIGN CHOICE, log 72). -/
def fullRecord (s : State) (key gen : Nat) (a : Acc) : List Word :=
  [identity (key / 8) (key % 8) (srcOf s (key / 8)) 2, wd (a.flags * 2 ^ 16 + a.gen.getD gen)]
    ++ wdN 2 a.count ++ wdN 3 (ofSigned 96 a.sum) ++ wdN 4 a.sumsq
    ++ [wd (sat32 a.nGap), wd (sat32 a.nExcl), wd (a.genFirst.getD 0 * 2 ^ 16), 0, 0]

/-- An apsis record (R159). -/
def apsisRecord (src key gen : Nat) (a : Apsis) : List Word :=
  let fl := a.flags ||| (if a.count = 0 then RF_EMPTY else 0)
  [identity (key / 8) (key % 8) src 3, wd (fl * 2 ^ 16 + a.gen.getD gen), wdI a.min, wdI a.max] ++ wd64 a.minSpc ++ wd64 a.maxSpc

/-- Keys of an entry: one, or every position of the channel (R151). `ALLPOS` has one record, at `POS` 0, while the tag type is unknown and where
the channel is not multiplexed (DESIGN CHOICE, log 72). -/
def entryKeys (s : State) (e : WinEntry) : List Nat :=
  if e.all then (List.range (positionsOf (posOf s (posOfChi e.chi)).kind (chanOf e.chi))).map (entryKey e.chi) else [entryKey e.chi e.pos]

/-- Entries an entry counts as against the reservation (R151). -/
def entryCost (s : State) (e : WinEntry) : Nat :=
  if e.all then (if (posOf s (posOfChi e.chi)).kind = .none then 8 else positionsOf (posOf s (posOfChi e.chi)).kind (chanOf e.chi)) else 1

/-- The records of an interval of a window over the keys given, committed with its end b. -/
def winRecords (s : State) (w : Window) (i : WinInterval) (keys : List Nat) (a b extra : Nat) : List (List Word) :=
  keys.flatMap fun k =>
    let gen := genAt s (chainOfChi (k / 8)) b
    let acc := tgetD i.accs k {}
    let fl := acc.flags ||| extra ||| (if acc.count = 0 then RF_EMPTY else 0) ||| markFlags s k a b
    let ap := tgetD i.aps k {}
    fullRecord s k gen { acc with flags := fl }
      :: (if w.apsis then [apsisRecord (srcOf s (k / 8)) k gen { ap with flags := ap.flags ||| extra ||| markFlags s k a b }] else [])

/-- Put a committed interval into a window's queue of 4, or count it as not stored (R148). -/
def queueInterval (w : Window) (q : Nat → WinQueued) : Window :=
  if w.queue.length < 4 then { w with queue := w.queue ++ [q w.dropped], dropped := 0 }
  else { w with dropped := min 0xFFFF (w.dropped + 1) }

/-- Change a window. -/
def modWin (k : Nat) (f : Window → Window) (s : State) : State := { s with acc := { s.acc with windows := tupd s.acc.windows k f } }

/-- Remove a window from its table. -/
def dropWin (k : Nat) (s : State) : State := { s with acc := { s.acc with windows := tdel s.acc.windows k } }

/-- `ARG` of a window event (R370). -/
def winArg (id n : Nat) : Nat := id * 2 ^ 26 + n % 2 ^ 26

/-- Windows and entries a function holds. -/
def windowsHeld (s : State) (fn : Nat) : Nat := (s.acc.windows.filter (fun w => w.1 / 65536 == fn)).length
def entriesHeld (s : State) (fn : Nat) : Nat :=
  ((s.acc.windows.filter (fun w => w.1 / 65536 == fn)).map (fun w => (w.2.entries.map (entryCost s)).sum)).sum

end Sys2Proof.Machine
end

