-- ==== Sys2Proof/Machine/Readiness.lean ====
section
/-! DEFINITION. `FN_READY`, the alert bits and the events about units (R369, R449, R469, R498, R499). -/

namespace Sys2Proof.Machine

/-- Set bits of `ALERT_STAT` (R499). -/
def setAlert (bit : Nat) (s : State) : State :=
  let x := BitVec.ofNat 9 (2 ^ bit)
  { s with boot := { s.boot with
      alertStat := s.boot.alertStat ||| x, alertNew := if s.boot.alertAt = s.spc then s.boot.alertNew ||| x else x, alertAt := s.spc } }

/-- MGMT_ALERT_N is driven low (R499). -/
def alertLow (s : State) : Bool := s.boot.alertStat &&& s.boot.alertEn != 0

/-- No unit of a class is under test. -/
def classTested (s : State) (cls n : Nat) : Bool := (List.range n).all (fun u => ustate s cls u != .testing)

/-- Some unit of a class is in use. -/
def classRuns (s : State) (cls n : Nat) : Bool := (List.range n).any (fun u => ustate s cls u == .ready)

/-- A logical tile runs: it exists, is not fenced, and its physical tile is in use. -/
def tileRuns (s : State) (t : Nat) : Bool :=
  tileExists s.otp.variant t && !s.loom.fenced.contains t && ustate s 1 (physOf s t) == .ready

/-- `FN_READY` as the conditions of R449 give it now. A device whose boot ROM found no valid image sets only `HOST`, `NVM`, `HK`,
`TRACE` and `WEAR` (R464). -/
def readyNow (s : State) : BitVec 16 :=
  let host := s.boot.linkUp && (s.boot.imageVerified || s.boot.romOnly) && ustate s 12 0 == .ready
  let nvm := s.boot.nvmLoaded
  let hk := s.boot.hkRound
  let full := s.boot.imageVerified
  let safety := full && nvm && ustate s 11 0 == .ready
  let loom := full && (s.boot.fnReady.getLsbD 4 || (classTested s 1 68 && classTested s 6 4)) && (List.range 65).any (tileRuns s)
  let loc := loom && tileRuns s 64 && ustate s 8 32 == .ready && classRuns s 8 32
  let lanes := full && s.lane.lanes.any (fun e => e.2.lstate == .run && decide (e.1 < 128))
  let ten := full && host && nvm && classRuns s 7 8
  let l : List Bool :=
    [host, nvm, hk, safety, loom, loc, lanes, loom, loom && classRuns s 2 16, loom && nvm, loom && classRuns s 3 32,
     loom && safety, ten, full && nvm && classRuns s 5 8, classTested s 10 16, nvm && hk]
  BitVec.ofNat 16 (ofBits l.reverse)

/-- Bits never cleared in service: `NVM`, `HK`, `SAFETY`, `TRACE`, `WEAR` (R449). -/
def readySticky : BitVec 16 := 0xC00E

/-- Report the thermal-shutdown records of the run before this one, once `NVM` and `HK` are both set (R480). -/
def reportShutdowns (old new : BitVec 16) (s : State) : State :=
  if new &&& 6 = 6 ∧ old &&& 6 ≠ 6 then
    forEach (s.nvm.thermal.filter (fun x => (x.getD 5 0).toNat + 1 == s.nvm.coldRun)) s fun x s => raiseNow 0x700 0xC1 (x.getD 1 0).toNat s
  else s

/-- Bring `FN_READY` up to date: changed bits are noted, an event is raised, a bit lost in service sets `READY_LOST` (R449, R469,
R498). -/
def refreshReady (s : State) : State :=
  if !s.up then s
  else
    let old := s.boot.fnReady
    let new := readyNow s ||| (old &&& readySticky)
    if new = old then s
    else
      let s1 := { s with boot := { s.boot with fnReady := new, readyChg := s.boot.readyChg ||| (old ^^^ new) } }
      let s2 := if old &&& ~~~new != 0 then setAlert 3 s1 else s1
      reportShutdowns old new (raiseNow 0x743 0xCD new.toNat s2)

/-- Clear every bit at a reset or a shutdown (R449). -/
def clearReady (s : State) : State :=
  { s with boot := { s.boot with readyChg := s.boot.readyChg ||| s.boot.fnReady, fnReady := 0 } }

/-- The event of a unit that serves chains: one record on the unit's source for the chains of the management function, and one on
each owner's summary, each with the receiver's lowest affected chain and their number (R369, R370). -/
def unitEvent (src kind : Nat) (chains : List Nat) (s : State) : State :=
  let mine (fn : Nat) := chains.filter (fun c => ownerOf s c == fn)
  let s1 := raiseNow src kind ((mine mgmt).headD (chains.headD 0) * 128 * 2 ^ 19 + (mine mgmt).length) s
  forEach (s.ten.tenants.map (·.1)) s1 fun t s =>
    match mine t with
    | [] => s
    | c :: r => raiseNow (0x100 + t) kind (c * 128 * 2 ^ 19 + (r.length + 1)) s

/-- Record a unit's state and raise the event of R469. A spare Loom tile is power-gated while it stands by (R488). -/
def setUnit (cls u : Nat) (f : UnitRec → UnitRec) (s : State) : State :=
  let x := f (unitOf s cls u)
  let code : Nat := match x.ustate with
    | .absent => 0
    | .testing => 1
    | .ready => 2
    | .spare => 3
    | .fenced => 4
    | .failed => 5
  raiseNow 0x740 0xC8 (cls * 2 ^ 16 + u * 2 ^ 8 + code) <| (if cls = 1 then wantGate 1 u (x.ustate == .spare) else id)
    { s with boot := { s.boot with units := tset s.boot.units (cls * 256 + u) x } }

end Sys2Proof.Machine
end

