-- ==== Sys2Proof/Machine/PairOps.lean ====
section
/-! DEFINITION. Roles, epochs and leases of a binary pair, as its rows and the rows of lanes, safety and resets use them (R424 to R434). -/

namespace Sys2Proof.Machine

/-- a follows b in 32-bit serial arithmetic (R23, R424). -/
def epochFollows (a b : Nat) : Bool :=
  match serialCmp 32 b a with
  | .follows _ => true
  | _ => false

/-- The later of two epochs. -/
def laterEpoch (a b : Nat) : Nat := if epochFollows b a then b else a

/-- Change the pair unit. -/
def modPair (f : PairUnit → PairUnit) (s : State) : State := { s with pair := f s.pair }

/-- Code of a role (R438). -/
def roleCode : PRole → Nat
  | .single => 0
  | .primary => 1
  | .companion => 2

/-- Working twin lanes, bit k for TLk. -/
def twinMask (s : State) : Nat := ((List.range 8).map fun k => if (laneOf s (0x100 + k)).lstate = .run then 2 ^ k else 0).sum

/-- Bridge lanes with a path to their bridge, direct or relayed (R427). -/
def bridgeLanes (s : State) : List Nat := tkeys s.lane.lanes (fun l _ => decide (l < 128) && hasPath s l)

/-! ### Leases as last received (R425) -/

/-- Die identity of the leaseholder of the bridge behind a lane; 0 when there is none. -/
def leaseHolder (s : State) (l : Nat) : Nat :=
  let x := (laneOf s l).lease
  if fieldOf x 96 4 = 0 then 0 else fieldOf x 0 64

/-- This device holds the lease; another device does; none does. -/
def holdsLease (s : State) (l : Nat) : Bool := leaseHolder s l != 0 && leaseHolder s l == s.otp.dieUid.toNat
def otherHolds (s : State) (l : Nat) : Bool := leaseHolder s l != 0 && leaseHolder s l != s.otp.dieUid.toNat
def noLease (s : State) (l : Nat) : Bool := leaseHolder s l == 0

/-- Lanes whose bridge leases to this device. -/
def heldLanes (s : State) : List Nat := (bridgeLanes s).filter (holdsLease s)

/-! ### Roles and epochs -/

/-- Change role, with the event of R439. -/
def setRole (r : PRole) (cause : Nat) (s : State) : State :=
  if s.pair.role = r then s
  else raiseNow 0x608 0xB0 (roleCode r + cause * 2 ^ 8) (modPair (fun u => { u with role := r, roleSpc := s.spc }) s)

/-- Adopt an epoch. -/
def setEpoch (e : Nat) (s : State) : State :=
  if s.pair.epoch = e then s else raiseNow 0x609 0xB1 e (modPair (fun u => { u with epoch := e, epochSpc := s.spc }) s)

/-- The proposed epoch: 1 plus the greatest of the own, the twin's last and every epoch heard (R424). -/
def nextEpoch (s : State) : Nat := (laterEpoch (laterEpoch s.pair.epoch s.pair.twin.epoch) s.pair.heard + 1) % 2 ^ 32

/-- Claim bridges, for a cause of R439 that a promotion would name. -/
def startClaims (lanes : List Nat) (cause : Nat) (s : State) : State :=
  let new := lanes.filter (fun l => !s.pair.claims.contains l)
  if new.isEmpty then s
  else modPair (fun u => { u with claims := u.claims ++ new, proposed := some (u.proposed.getD (nextEpoch s)), claimCause := cause }) s

/-- Stop claiming. -/
def stopClaims (s : State) : State := modPair (fun u => { u with claims := [], proposed := none }) s

/-- The primary gives up its role (R428): `YIELD` with its cause and the last chain frame it commands, then release now. The causes are
numbered by the model (log 14): 1 lockout, 2 thermal shutdown, 3 reset, 4 leave, 5 stale epoch. -/
def yieldPair (cause : Nat) (s : State) : State :=
  if s.pair.role = .primary && s.pair.link then
    modPair (fun u => { u with releasing := heldLanes s })
      (sendPair .yield [cause, (s.spc + 2) % 2 ^ 32, (s.spc + 2) / 2 ^ 32] s)
  else s

/-- The chain that an unfinished plant command is about. -/
def plantChain (u : Unfinished) : Nat :=
  if [0x0200, 0x0203, 0x0204, 0x0207].contains u.op then u.obj else chainOfPos u.obj

/-- The own epoch is found stale (R434): yield, claim nothing, end plant commands with ST_STALE_EPOCH until the demotion. -/
def findStale (e : Nat) (s : State) : State :=
  if s.pair.role != .primary || s.pair.stale.isSome then s
  else
    let s1 := stopClaims (yieldPair 5 (raiseNow 0x609 0xB2 e s))
    let s2 := modPair (fun u => { u with stale := some (nextMult 200 (s.spc + 200)) }) s1
    let s3 := forEach (s2.cmd.unfinished.filter (fun u => plantOp u.op && !isLocal (plantChain u))) s2
      (fun u s => finish u.ref ST_STALE_EPOCH s)
    forEach (tkeys s3.line.chains (fun c x => !isLocal c && x.offAt.isSome)) s3 (fun c s => completeDeferred (.powerOff c) ST_STALE_EPOCH [] s)

/-- The latest epoch that is this device's own: held, proposed, or about to be taken in a handover. -/
def ownEpoch (s : State) : Nat :=
  laterEpoch (laterEpoch s.pair.epoch (s.pair.proposed.getD s.pair.epoch)) ((s.pair.handing.map (·.epoch)).getD s.pair.epoch)

/-- An up lane header's accepted epoch and `STALE` (R424, R434). An epoch that this device has proposed or is about to take does not make its
own stale. -/
def hearEpoch (e : Nat) (stale : Bool) (s : State) : State :=
  let s1 := modPair (fun u => { u with heard := laterEpoch u.heard e }) s
  if stale || epochFollows e (ownEpoch s) then findStale e s1 else s1

/-- A lease is granted: the claim ends, the proposed epoch is adopted at the first grant, and a companion is promoted (R424, R427), which
the functions behind the lane learn from a path event (R439). -/
def takeGrant (l : Nat) (s : State) : State :=
  if !s.pair.claims.contains l then s
  else
    let s1 := match s.pair.proposed with
      | some e => setEpoch e s
      | none => s
    let pl := placeLane s1 l
    let s2 := if s1.pair.role = .companion then
        unitEvent (laneSource l) 0x21 (tkeys s1.line.chains (fun c _ => laneOfChain c == pl)) (setRole .primary s1.pair.claimCause s1)
      else s1
    let rest := s2.pair.claims.filter (· != l)
    modPair (fun u => { u with claims := rest, proposed := if rest.isEmpty then none else u.proposed }) s2

/-- A handover is over when every bridge's record names the new primary: its command finishes with ST_OK (R429). -/
def settleHandover (s : State) : State :=
  match s.pair.handing with
  | some h =>
    if h.x ≤ s.spc && !h.take && (bridgeLanes s).all (otherHolds s) then
      let s1 := modPair (fun u => { u with handing := none }) s
      match h.cmd with
      | some c => finish c ST_OK s1
      | none => s1
    else s
  | none => s

/-- A device that commands its bridges claims one that reports no lease (R431). -/
def claimFree (l : Nat) (s : State) : State :=
  if s.pair.role = .primary && s.pair.stale.isNone && noLease s l && !s.pair.releasing.contains l && s.pair.releasing.isEmpty then
    startClaims [l] 3 s
  else s

/-- Take an up lease record (R425). -/
def takeLease (l : Nat) (x : BitVec 128) (s : State) : State :=
  let had := holdsLease s l
  let s1 := modLane l (fun y => { y with lease := x }) s
  let has := holdsLease s1 l
  let s2 := if had = has then s1 else raiseNow 0x60A 0xB6 (l + 2 ^ 8 * b2n has) s1
  let s3 := if has then takeGrant l s2 else s2
  let s4 := if otherHolds s3 l then modPair (fun u => { u with releasing := u.releasing.filter (· != l) }) s3 else s3
  claimFree l (settleHandover s4)

/-! ### Lease records sent (R425, R427) -/

/-- The handover window of a frame: the picks X - 100 to X - 1. -/
def inWindow (h : Handing) (frame : Nat) : Bool := decide (h.x ≤ frame + 100) && decide (frame < h.x)

/-- The down lease record of a lane in the down frame of chain frame `frame`. -/
def leaseRecord (s : State) (l frame : Nat) : BitVec 128 :=
  let u := s.pair
  let word (kind epoch at_ : Nat) (hclaim : Bool) : BitVec 128 :=
    BitVec.ofNat 128 (((((((kind * 2 ^ 2 + roleCode u.role) * 2 ^ 10) * 2 ^ 16 + u.pid) * 2 ^ 32 + epoch) * 2 ^ 32 + at_ % 2 ^ 32) * 2
      + b2n hclaim) * 2 ^ 31)
  match u.handing.filter (fun h => inWindow h frame || (!h.take && decide (h.x ≤ frame))) with
  | some h =>
    if h.x ≤ frame then word 0 u.epoch 0 false
    else if holdsLease s l then (if h.take then word 1 u.epoch 0 false else word 4 u.epoch h.x false)
    else if h.take then word 2 h.epoch h.x true else word 0 u.epoch 0 false
  | none =>
    if u.releasing.contains l then word 3 u.epoch 0 false
    else if u.stale.isSome then word 0 u.epoch 0 false
    else if u.claims.contains l then word 2 (u.proposed.getD u.epoch) 0 false
    else if holdsLease s l && frame % 50 == 0 then word 1 u.epoch 0 false
    else word 0 u.epoch 0 false

/-- The records of every lane as assembled at a boundary: the down frame carries the chain frame two picks on (R81). -/
def assembleLeases (s : State) : State :=
  modPair (fun u => { u with leaseTx := (bridgeLanes s).map (fun l => (l, leaseRecord s l (s.spc + 2))) }) s

/-- A lane that is commanded with content in a frame: the lease is held or claimed, and the own epoch is not stale (R427, R434). In a handover
the taker's claims carry content, and from X the other device sends none (R429). -/
def commands (s : State) (l frame : Nat) : Bool :=
  s.pair.stale.isNone && match s.pair.handing with
  | some h =>
    if h.take then holdsLease s l || s.pair.claims.contains l || inWindow h frame || decide (h.x ≤ frame)
    else holdsLease s l && decide (frame < h.x)
  | none => holdsLease s l || s.pair.claims.contains l

/-- The epoch in the header of a frame to a bridge lane: the proposed one while it is claimed (R424). -/
def laneEpoch (s : State) (l frame : Nat) : Nat :=
  match s.pair.handing.filter (fun h => h.take && (inWindow h frame || decide (h.x ≤ frame))) with
  | some h => h.epoch
  | none => if s.pair.claims.contains l then s.pair.proposed.getD s.pair.epoch else s.pair.epoch

/-! ### The twin link -/

/-- Start a resynchronisation of the companion (R435). -/
def startResync (s : State) : State := modPair (fun u => { u with resync := true, progress := 0, taken := [] }) s

/-- Complete every command that waits for the companion with the outcome it has; one that the primary has not decided ends with
ST_PRECONDITION (R421). -/
def releaseMirrored (s : State) : State :=
  let mine := s.cmd.deferred.filter (fun d => match d.kind with
    | .mirror _ => true
    | _ => false)
  let s1 := { s with cmd := { s.cmd with deferred := s.cmd.deferred.filter (fun d => !mine.contains d) } }
  forEach mine s1 fun d s =>
    if s.pair.role = .companion then completeAt d.ref ST_PRECONDITION [] d.accept s else completeAt d.ref d.status d.results d.accept s

/-- Mirroring stops (R431, R432): what waits for the twin is answered, and the shed steps are the device's own (R477). -/
def stopMirroring (s : State) : State :=
  let s1 := releaseMirrored s
  let s2 := { s1 with
    pair := { s1.pair with unacked := [], progress := if s1.pair.resync then 0 else s1.pair.progress, taken := [] }
    therm := { s1.therm with twin := 0, force := s1.therm.steps }
    lane := { s1.lane with forwarded := [], uses := [], backfills := [], words := [] } }
  if s2.pair.role = .companion then startClaims ((bridgeLanes s2).filter (fun l => !holdsLease s2 l)) 3 s2
  else forEach (bridgeLanes s2) s2 claimFree

/-- The devices merge (R433). The winner has the higher epoch, then more leases, then the lower pair identifier. It raises its epoch and takes
the loser's leases by a handover; the loser becomes companion and resynchronises. -/
def mergePair (s : State) : State :=
  let own := (heldLanes s).length
  let win := epochFollows s.pair.epoch s.pair.twin.epoch
    || (s.pair.epoch == s.pair.twin.epoch && (decide (s.pair.twin.leases < own)
      || (own == s.pair.twin.leases && decide (s.pair.pid < s.pair.twin.pid))))
  if win then
    let e := nextEpoch s
    let s1 := setRole .primary 5 (stopClaims s)
    if s.pair.twin.leases = 0 then setEpoch e s1
    else
      let x := flipAfter s.spc
      modPair (fun u => { u with handing := some { x := x, epoch := e, take := true } })
        (sendPair .handover [x % 2 ^ 32, x / 2 ^ 32, e] s1)
  else
    let s1 := startResync (setRole .companion 5 (stopClaims s))
    sendPair .safeState (s.safe.trips.map (·.id) ++ s.safe.stops.map (·.1)) (modPair (fun u => { u with stale := none }) s1)

end Sys2Proof.Machine
end

