-- ==== Sys2Proof/Machine/SafeOps.lean ====
section
/-! DEFINITION. Operations of the safety island: limits in force, coverage, comparators, trips, demands, outputs, lockout and the
change log (R320 to R355). -/

namespace Sys2Proof.Machine

/-- Change the island. -/
def modSafe (f : SafeUnit → SafeUnit) (s : State) : State := { s with safe := f s.safe }

/-! ### Limits and coverage (R324, R326) -/

/-- Key of a derived set. -/
def derivedKey (chain base : Nat) : Nat := chain * 4096 + base

/-- The tighter of two window sets in every field that a derived set tightens; `OUT_MASK` and the scopes stay the base set's (R326). -/
def tighter (b d : WSet) : WSet :=
  { b with
    vHi := min b.vHi d.vHi, vLo := max b.vLo d.vLo, tHi := min b.tHi d.tHi, tLo := max b.tLo d.tLo
    iChg := min b.iChg d.iChg, iDis := min b.iDis d.iDis, dir := b.dir ||| d.dir, dirTol := min b.dirTol d.dirTol
    nV := min b.nV d.nV, nT := min b.nT d.nT, tBlind := min b.tBlind d.tBlind, parkOk := b.parkOk && d.parkOk
    tripPre := d.tripPre, tripPost := d.tripPost }

/-- The effective limits of a base set on a chain. -/
def effective (s : State) (num chain : Nat) : Option WSet :=
  (tget s.safe.sets num).map fun b =>
    match tget s.safe.derived (derivedKey chain num) with
    | some d => tighter b d.set
    | none => b

/-- The armed base set of a position with its effective limits: none when the position is not covered. -/
def coverOf (s : State) (p : Nat) : Option (Nat × WSet) :=
  match tget s.safe.assign p with
  | some n => if s.safe.armed.contains n then (effective s n (chainOfPos p)).map (fun w => (n, w)) else none
  | none => none

/-- Thermistor positions of a tag's cells (R259). -/
def thermAssign (s : State) (p : Nat) : List Nat := tgetD s.est.therm p ((List.range 12).map (· / 3))

/-- The scan set of a CT12 (R328). -/
def scanSet (s : State) (p : Nat) : List Nat := (List.range 4).filter (fun t => (thermAssign s p).contains t)

/-- The drive tag bound to a CT12, and the CT12s bound to a drive tag. -/
def driveOf (s : State) (p : Nat) : Option Nat := tget s.map.bind.drive p
def boundTo (s : State) (d : Nat) : List Nat := tkeys s.map.bind.drive (fun _ x => x == d)

/-- The supply group of a drive tag. -/
def groupOf (s : State) (d : Nat) : Option Nat := (s.chg.groups.find? (fun g => g.2.members.contains d)).map (·.1)

/-- Wires confirmed broken on a tag. -/
def brokenWires (s : State) (p : Nat) : List Nat := (tgetD s.bal.tags p {}).broken.map (·.1)

/-! ### Scopes (R331) -/

/-- The drive tags a scope code turns off for a tripping position. -/
def scopeOf (s : State) (code num p : Nat) : Scope :=
  let own := if (posOf s p).kind = .dt1 then [p] else (driveOf s p).toList
  if code = 0 then .drives own
  else if code = 1 then
    .drives ((own.flatMap fun d => d :: ((groupOf s d).bind (tget s.chg.groups)).elim [] (·.members)).eraseDups)
  else if code = 2 then .drives (tkeys s.safe.assign (fun q n => n == num && (posOf s q).kind == .dt1))
  else .all

/-- A scope takes in a drive tag. -/
def inScope (x : Scope) (d : Nat) : Bool :=
  match x with
  | .drives l => l.contains d
  | .all => true

/-! ### Demands (R331, R334, R338, R339, R344) -/

/-- Input k demands SPO: recognised or latched, and used. -/
def inputDemand (s : State) (k : Nat) : Bool :=
  (s.safe.demand.testBit k || s.safe.latched.testBit k) && (s.safe.inputs.getD k {}).scope != 0

/-- Some input demands SPO of a chain. -/
def inputOff (s : State) (c : Nat) : Bool :=
  (List.range 4).any fun k =>
    let x := s.safe.inputs.getD k {}
    inputDemand s k && (x.scope == 1 || (x.scope == 2 && x.chains.contains c))

/-- The kill line is asserted: outside `RUN`, in a scan, after thermal shutdown (R320, R321, R344, R467, R478). -/
def killed (s : State) : Bool := s.safe.kill || s.safe.island != .run

/-- The trips in force at the coming boundary. -/
def tripsNow (s : State) : List Trip := s.safe.trips.filter (fun t => decide (t.since ≤ s.spc + 1))

/-- The safety island demands off of a drive tag. -/
def driveOff (s : State) (d : Nat) : Bool :=
  killed s || (tripsNow s).any (fun t => inScope t.scope d) || thas s.safe.stops (chainOfPos d) || inputOff s (chainOfPos d)

/-- The safety island demands off of a CT12: a trip of one of its cells opens its bleed switches, a lockout and a stop of all open
every one. -/
def cellOff (s : State) (p : Nat) : Bool :=
  killed s || (tripsNow s).any (fun t => t.bleed == some p)

/-- The tag is sent the off word (R10). -/
def safetyOff (s : State) (p : Nat) : Bool := if (posOf s p).kind = .dt1 then driveOff s p else cellOff s p

/-- Every drive tag of a chain is demanded off: `SPO_ALL` (R331). -/
def spoAll (s : State) (c : Nat) : Bool :=
  killed s || (let l := (occPosns s c).filter (fun p => (posOf s p).kind == .dt1)
    !l.isEmpty && l.all (driveOff s))

/-- SAFE_OUT k is on, test pulses aside (R338). A stop of R334 names no output that it drops: only sets and inputs have a mask (log 41). -/
def outOn (s : State) (k : Nat) : Bool :=
  s.safe.island == .run && !s.safe.kill && s.safe.ioEn.testBit k && !(tripsNow s).any (fun t => t.mask.testBit k)
    && !(List.range 4).any (fun i => inputDemand s i && (s.safe.inputs.getD i {}).mask.testBit k)

/-! ### Change log (R350) -/

/-- Entries not archived. -/
def unarchived (s : State) : Nat := (s.safe.log.filter (fun e => !e.archived)).length

/-- Overwrite the oldest archived entry when the log is full. -/
def makeRoom (l : List LogEntry) : List LogEntry :=
  if l.length < 4096 then l
  else match l.reverse.find? (·.archived) with
    | some e => l.filter (fun x => x != e)
    | none => l

/-- Write an entry: before a change takes effect, or after the fact, when it may be lost (R350). `detail` are words 6 to 13. -/
def logChange (kind fn wset : Nat) (detail : List Word) (s : State) : State :=
  if 4096 ≤ unarchived s then modSafe (fun x => { x with logLost := sat32 (x.logLost + 1) }) s
  else
    let prev := match s.safe.log with
      | e :: _ => crc32c (bytesOf e.words)
      | [] => 0
    let n := s.safe.logSeq
    let body := wd64 n ++ wd64 s.spc ++ [wd (kind * 2 ^ 24 + fn), wd wset] ++ (List.range 8).map (fun i => detail.getD i 0) ++ [wd prev]
    let e : LogEntry := { seq := n, words := body ++ [wd (crc32c (bytesOf body))] }
    let s1 := modSafe (fun x => { x with log := e :: makeRoom x.log, logSeq := n + 1 }) s
    if 3584 ≤ unarchived s1 && !s1.safe.logWarned then
      raiseNow 0x204 0xA5 0 (modSafe (fun x => { x with logWarned := true }) s1)
    else s1

/-- A configuration change cannot be logged: the last 64 entries are kept for after-the-fact entries. -/
def logFull (s : State) : Bool := decide (4032 ≤ unarchived s)

/-! ### Lockout (R344 to R346) -/

/-- Enter lockout for a cause, or note a further cause (R345). -/
def lockNow (cause : Nat) (s : State) : State :=
  if s.safe.island = .lockout then
    modSafe (fun x => { x with causes := if x.causes.contains cause then x.causes else x.causes ++ [cause] }) s
  else
    let s1 := modSafe (fun x => { x with island := .lockout, kill := true, causes := [cause], ackUntil := none, testing := false }) s
    yieldPair 1 (logChange 0x0A mgmt 0 [wd cause] (raiseNow 0x200 0xA2 cause (setAlert 2 s1)))

/-- A lockout cause: in `START` it is taken up when the island leaves `START` (R321), else at once. -/
def enterLockout (cause : Nat) (s : State) : State :=
  if s.safe.island = .start then
    modSafe (fun x => { x with startCauses := if x.startCauses.contains cause then x.startCauses else x.startCauses ++ [cause] }) s
  else lockNow cause s

/-- Lockout causes of R345. -/
def LC_CORE : Nat := 1
def LC_CLOCK : Nat := 2
def LC_REFCLK : Nat := 3
def LC_WDOG : Nat := 4
def LC_OUT_FB : Nat := 5
def LC_IN_DISC : Nat := 6
def LC_CFG : Nat := 7
def LC_SUPPLY : Nat := 8
def LC_POWER_UP : Nat := 9
def LC_FW_SAFETY : Nat := 10
def LC_SCAN : Nat := 11

/-- The island leaves `START` once `FN_READY.SAFETY` is set (R321): into lockout with the causes that the start found (R461, R465, R467, R468) and
with `POWER_UP`, else into `RUN`. In a pair update it waits for the primary's safety state and enters `RUN` then (R436). -/
def leaveStart (s : State) : State :=
  if s.up && s.safe.island == .start && s.boot.fnReady.getLsbD 3 then
    let upd := s.pair.updating.isSome
    let causes := (if s.boot.scan then [LC_SCAN] else []) ++ s.safe.startCauses ++ (if s.safe.startLocked && !upd then [LC_POWER_UP] else [])
    if !causes.isEmpty then forEach causes (modSafe (fun u => { u with startCauses := [] }) s) lockNow
    else if upd && (s.pair.role != .companion || s.pair.resync) then s
    else modSafe (fun u => { u with island := .run, kill := false }) s
  else s

/-! ### Trips (R331 to R333) -/

/-- The source of a trip event: the owner's summary, or 0x207. -/
def tripSource (s : State) (c : Nat) : Nat := chainSource s c 0x207

/-- The drive tags that a scope turns off of functions other than the trip's own, each with its function (R333). -/
def foreignDrives (s : State) (x : Scope) (fn : Nat) : List (Nat × Nat) :=
  (s.line.posns.filter fun e => e.2.kind == .dt1 && inScope x e.1 && ownerOf s (chainOfPos e.1) != fn).map fun e =>
    (ownerOf s (chainOfPos e.1), e.1)

/-- What a re-analysis needs to know of a tag as of its trip pick (R135). -/
def tagAsOf (s : State) (t : Nat) (c : Tbl (Int × Bool)) (p : Nat) : Tbl (Int × Bool) := tset c p (tagTempAt s p t, !coveredAt s p t)

/-- Start a trip's re-analysis, or leave a notice or a count where there is no room (R134, R136, R162). One in progress takes a place of the
store, which its section will need (DESIGN CHOICE, log 67). -/
def startReanalysis (a : Reanalysis) (s : State) : State :=
  let note (st : Nat) (s : State) : State :=
    if s.loom.notices.length < 256 then
      { s with loom := { s.loom with notices := s.loom.notices ++
          [{ fn := a.fn, trip := a.trip, chi := a.chi, t := a.t, pre := a.pre, post := a.post, wset := a.wset, gen := a.gen, status := st }] } }
    else { s with loom := { s.loom with tripLost := tmod s.loom.tripLost a.fn 0 (fun n => sat32 (n + 1)) } }
  if 64 ≤ s.loom.reanalyses.length then note 1 s
  else if 1024 ≤ s.loom.trips.length + s.loom.reanalyses.length then note 2 s
  else
    let p := posOfChi a.chi
    let tags := p :: (driveOf s p).toList
    { s with loom := { s.loom with reanalyses := s.loom.reanalyses ++ [{ a with asOf := tags.foldl (tagAsOf s a.t) [] }] } }

/-- What a trip is about. -/
structure TripCase where
  cause : Nat
  num : Nat
  set : WSet
  chi : Nat
  mux : Nat := 0
  limit : Int := 0
  value : Int := 0
  /-- Trip pick of R134 and centre of the tripping sample. -/
  t : Nat
  centre : Nat
  deriving DecidableEq, Repr

/-- A condition stands in a latched trip of the same cause and channel. -/
def sameTrip (x : TripCase) (t : Trip) : Bool := t.cause == x.cause && t.chi == x.chi && t.mux == x.mux && t.wset == x.num

/-- Trip, or note that the condition of a latched trip is present (R331 to R333). The demand is in force from the next boundary; the
companion of a pair forwards what it has found to the leaseholder (R343). -/
def doTrip (x : TripCase) (s : State) : State :=
  if s.safe.trips.any (sameTrip x) then
    modSafe (fun u => { u with trips := u.trips.map (fun t => if sameTrip x t then { t with lastBad := s.spc } else t) }) s
  else
    let p := posOfChi x.chi
    let c := chainOfPos p
    let fn := ownerOf s c
    let id := (tgetD s.safe.lastId fn 0 + 1) % 2 ^ 32
    let dt := (posOf s p).kind = .dt1
    let code := if dt then x.set.scopeC else x.set.scopeW
    let scope := scopeOf s code x.num p
    let trip : Trip :=
      { id := id, fn := fn, cause := x.cause, wset := x.num, chi := x.chi, mux := x.mux, limit := x.limit, value := x.value
        spc := x.centre, since := s.spc + 1, code := code, scope := scope, mask := x.set.outMask
        bleed := if dt then none else some p, lastBad := s.spc }
    let s1 := modSafe (fun u => { u with trips := u.trips ++ [trip], lastId := tset u.lastId fn id }) s
    let s2 := raiseNow (tripSource s c) 0xA0 (x.cause * 2 ^ 32 + id) s1
    let s3 := forEach (foreignDrives s2 scope fn) s2 fun f s => raiseNow (if f.1 = mgmt then 0x207 else 0x100 + f.1) 0xA1 (f.2 * 16 * 2 ^ 19) s
    let s4 := if s3.pair.role = .companion && mirrors s3 && !isLocal c then sendPair .demand [id, x.cause, x.chi] s3 else s3
    startReanalysis
      { fn := fn, trip := id, chi := x.chi, t := x.t, pre := x.set.tripPre, post := x.set.tripPost, wset := x.num
        gen := genAt s c x.t } s4

/-! ### Comparators (R327 to R330, R336) -/

/-- Whether any of the values of a sample violates the upper or the lower of two limits, which move inward by a part in 100,000 and an
offset while the channel is uncalibrated; a sample with `OVR` violates by the side of the midpoint it lies on (R336). -/
def violates (vals : List Int) (f : Flags) (hi lo : Int) (gain off : Nat) : Bool × Bool :=
  if f.ovr then
    let v := vals.headD 0
    (decide (hi + lo < 2 * v), !decide (hi + lo < 2 * v))
  else
    let g : Int := if f.uncal then gain else 0
    let o : Int := if f.uncal then off else 0
    let h := 100000 * hi - (hi.natAbs : Int) * g - 100000 * o
    let l := 100000 * lo + (lo.natAbs : Int) * g + 100000 * o
    (vals.any (fun v => decide (h < 100000 * v)), vals.any (fun v => decide (100000 * v < l)))

/-- One more sample in the counts of a limit pair; the pair has tripped when a count reaches n. -/
def bump (c : Count) (v : Bool × Bool) : Count := { hi := if v.1 then c.hi + 1 else 0, lo := if v.2 then c.lo + 1 else 0 }

/-- The entries a channel is judged under: both ends of a slew (R218). -/
def judgeSels (s : State) (p : Nat) : List EntrySel :=
  if (List.range (channelsOf (posOf s p).kind)).any (fun ch => slewing s (p * 16 + ch) s.spc) then [.flip, .target] else [.live]

/-- The switch states in force during the span of a sample. -/
def spanStates (s : State) (p m : Nat) : List Disturb :=
  disturbAt s p (8 * m - 12) :: (disturbOf s p).filter (fun d => decide (8 * m < d.at_ + 12) && decide (d.at_ ≤ 8 * m + 19))

/-- The values under which each channel of a tag is judged at live sample m (R218, R336). -/
def judgeValues (s : State) (p m : Nat) : List (List Int) :=
  let ds := tagDensities s p m (spanViews s true p m)
  let all := (judgeSels s p).flatMap fun sel => (spanStates s p m).map fun d => tagValuesWith s sel p d ds
  (List.range (channelsOf (posOf s p).kind)).map fun ch => all.map (fun l => geti l ch)

/-- Keys of comparator counts: a channel with its multiplexer position, a pair of cells, the direction of a drive tag. -/
def countKey (chi mux : Nat) : Nat := chi * 8 + mux
def pairKey (chi : Nat) : Nat := 2 ^ 26 + chi * 8
def dirKey (chi : Nat) : Nat := 2 ^ 27 + chi * 8

/-- Judge one limit pair with persistence n: counts, and a trip on the limit reached. -/
def judgePair (key n : Nat) (v : Bool × Bool) (x : TripCase) (hi lo : Int) (s : State) : State :=
  let c := bump (tgetD s.safe.counts key {}) v
  let s1 := modSafe (fun u => { u with counts := tset u.counts key c }) s
  if n ≤ c.hi then doTrip { x with limit := hi } s1
  else if n ≤ c.lo then doTrip { x with limit := lo } s1
  else s1

/-- Note a live sample of a channel for R337; the condition of a latched trip with cause `BLIND` is present while its samples carry `SUBST`
and was present when a sample ends a silence of `period`. -/
def noteSeen (key period : Nat) (subst : Bool) (s : State) : State :=
  let old := tget s.safe.seen key
  let since := if subst then some (((old.bind (·.subst))).getD s.spc) else none
  let blind := subst || old.elim false (fun o => decide (o.last + period ≤ s.spc))
  modSafe (fun u =>
    { u with
      seen := tset u.seen key { last := s.spc, subst := since }
      trips := if blind then u.trips.map (fun t => if t.cause = 5 && t.chi == key / 8 then { t with lastBad := s.spc } else t) else u.trips }) s

/-- Take a live sample into the fast-path tracker of an armed channel (R160, R335). -/
def feedFast (key m : Nat) (x : Sample) (s : State) : State :=
  let t := tgetD s.acc.fast key {}
  let gen := genAt s (chainOfChi (key / 8)) s.spc
  { s with acc := { s.acc with fast := tset s.acc.fast key (t.add { x with flags := { x.flags with gap := false } } (8 * m + 4) gen 0) } }

/-- The tolerances of a tag: gain in 0.001 %, offset in µV; the nominal ones until its coefficients are complete (R54). -/
def tolGain (s : State) (p : Nat) : Nat := if (posOf s p).coefOk then (tagCal s p).tolGain else 1500
def tolOff (s : State) (p : Nat) : Nat := if (posOf s p).coefOk then (tagCal s p).tolOffset else 20000

/-- Judge the cell voltages of a covered CT12 (R327): interior breaks by their pair sums, outer ones not at all (R248, R249). -/
def judgeCells (p m num : Nat) (w : WSet) (xs : List Sample) (s : State) : State :=
  let vs := judgeValues s p m
  let broken := brokenWires s p
  let off := tolOff s p * 10
  let gain := tolGain s p
  let case (ch : Nat) (v : Int) : TripCase :=
    { cause := 1, num := num, set := w, chi := p * 16 + ch, value := v, t := 8 * m, centre := 8 * m + 4 }
  let one (ch : Nat) (s : State) : State :=
    let x := xs.getD ch {}
    let key := countKey (p * 16 + ch) 0
    let s1 := feedFast key m x (noteSeen key 16 x.flags.subst s)
    if broken.contains 0 && ch == 0 || broken.contains 12 && ch == 11 then s1
    else if (broken.contains ch && ch != 0) || (broken.contains (ch + 1) && ch != 11) then s1
    else judgePair key w.nV (violates (vs.getD ch []) x.flags w.vHi w.vLo gain off) (case ch x.value) w.vHi w.vLo s1
  let two (wire : Nat) (s : State) : State :=
    let a := xs.getD (wire - 1) {}
    let b := xs.getD wire {}
    let sums := ((vs.getD (wire - 1) []).zip (vs.getD wire [])).map (fun v => v.1 + v.2)
    let f := orFlags [a.flags, b.flags]
    judgePair (pairKey (p * 16 + wire - 1)) w.nV (violates sums f (2 * w.vHi) (2 * w.vLo) gain (2 * off))
      (case (wire - 1) (a.value + b.value)) (2 * w.vHi) (2 * w.vLo) s
  forEach (broken.filter (fun x => x != 0 && x != 12)) (forEach (List.range 12) s one) two

/-- Judge the thermistor of a covered CT12 when the sample is delivered with its position (R328, R113). Temperatures in m°C; an
uncalibrated ratio is moved by the tolerance, which is the same as moving the limits by what it represents there (R336). -/
def judgeTherm (p m num : Nat) (w : WSet) (x : Sample) (s : State) : State :=
  let k := (posOf s p).kind
  let pos := muxPos s p (thermCh k) (8 * m + 4)
  if !inDwell m || !(scanSet s p).contains pos then s
  else
    let chi := p * 16 + thermCh k
    let key := countKey chi pos
    let ratios := (judgeValues s p m).getD (thermCh k) []
    let b := tgetD s.map.bind.therm (p * 4 + pos) (10000, 3435)
    let temp (r : Int) (den : Nat) : Int := (thermistor b.1 b.2 r den).1
    let g : Int := if x.flags.uncal then tolGain s p else 0
    let o : Int := if x.flags.uncal then roundDiv (tolOff s p * 2 ^ 30) 1000000 else 0
    let hot := ratios.any fun r => decide (w.tHi * 100 < temp ((r - o) * 100000) ((100000 + g.toNat) * 2 ^ 30))
    let cold := ratios.any fun r => decide (temp ((r + o) * 100000) ((100000 - g.toNat) * 2 ^ 30) < w.tLo * 100)
    let t := temp x.value (2 ^ 30)
    let v := if x.flags.ovr then (decide ((w.tHi + w.tLo) * 100 < 2 * t), !decide ((w.tHi + w.tLo) * 100 < 2 * t)) else (hot, cold)
    let s1 := feedFast key m { x with value := t } (noteSeen key (200 * (scanSet s p).length) x.flags.subst s)
    judgePair key w.nT v
      { cause := 2, num := num, set := w, chi := chi, mux := pos, value := t, t := 8 * m, centre := 8 * m + 4 } w.tHi w.tLo s1

/-- The sign of a drive tag's shunt, and its resistance in µΩ. -/
def shuntOf (s : State) (d : Nat) : Option Shunt := tget s.map.bind.shunt d
def polar (x : Shunt) (v : Int) : Int := if x.inverted then -v else v

/-- Judge the merged current of a covered DT1 (R329, R330): a current of I mA through R µΩ is I * R nV. -/
def judgeCurrent (p m num : Nat) (w : WSet) (g : Merge) (x : Sample) (s : State) : State :=
  let chi := mergedKey p
  let key := countKey chi 0
  let s1 := feedFast key m x (noteSeen key 16 x.flags.subst s)
  match shuntOf s p with
  | none => s1
  | some sh =>
    let vals := ((judgeValues s p m).getD (if g.wide then 1 else 0) []).map (polar sh)
    let off := tolOff s p * 1000
    let hi : Int := w.iChg * sh.rsh
    let lo : Int := -(w.iDis * sh.rsh : Int)
    let case (cause : Nat) : TripCase :=
      { cause := cause, num := num, set := w, chi := chi, value := x.value, t := 8 * m, centre := 8 * m + 4 }
    let s2 := judgePair key 1 (violates vals x.flags hi lo (tolGain s p) off) (case 3) w.iChg (-(w.iDis : Int)) s1
    if w.dir = 0 then s2
    else
      let tol : Int := max ((w.dirTol : Int) * sh.rsh) 400000
      let top := if w.dir.testBit 1 then tol else hi
      let bottom := if w.dir.testBit 0 then -tol else lo
      let v := violates vals { x.flags with ovr := false } top bottom (tolGain s p) off
      let o := violates vals x.flags hi lo (tolGain s p) off
      let v1 := if x.flags.ovr then o else v
      judgePair (dirKey chi) 1 (v1.1 && w.dir.testBit 1, v1.2 && w.dir.testBit 0) (case 4) w.dirTol (-(w.dirTol : Int)) s2

/-- The comparators take the live samples of a tag (R320, R322). -/
def judgeLive (p m : Nat) (xs : List Sample) (s : State) : State :=
  match coverOf s p with
  | none => s
  | some (num, w) =>
    match (posOf s p).kind with
    | .ct12 => judgeTherm p m num w (xs.getD 13 {}) (judgeCells p m num w xs s)
    | .dt1 =>
      let g := tgetD s.loom.mergeLive p {}
      judgeCurrent p m num w g (g.latest.getD {}) s
    | .none => s

/-! ### Blind and unmeasured (R337) -/

/-- A position that is exempt: parked or turned off with `PARK_OK`, bringing up with its identity still awaited, or on a chain that has not
been powered since the reset (R446). -/
def exempt (s : State) (p : Nat) (w : WSet) : Bool :=
  let x := posOf s p
  !(chainOf s (chainOfPos p)).started ||
  (w.parkOk && (x.state == .parked || x.state == .unpowered)) || (x.state == .bringingUp && !x.known && (chainOf s (chainOfPos p)).proc.isSome)

/-- A position is unmeasured as a whole. -/
def unmeasuredPos (s : State) (p : Nat) (w : WSet) : Bool :=
  let x := posOf s p
  let c := chainOfPos p
  let f := (tgetD s.bal.tags p {}).faults
  !exempt s p w
    && (x.state == .lost || x.state == .hopFault || x.state == .unpowered || x.state == .parked
      || s.loom.fenced.contains (tileOf c)
      || (!isLocal c && (tgetD s.lane.lanes (laneOfChain c) {}).lstate == .failed && (tgetD s.lane.lanes (laneOfChain c) {}).mode == 0)
      || f.testBit 0 || f.testBit 3 || f.testBit 8 || f.testBit 10
      || (x.kind == .dt1 && (shuntOf s p).isNone))

/-- Channels of a position that are unmeasured: the whole tag by its last channel index, or an outer cell (R249). -/
def unmeasuredChis (s : State) (p : Nat) (w : WSet) : List Nat :=
  if unmeasuredPos s p w then [p * 16 + 15]
  else (if (brokenWires s p).contains 0 then [p * 16] else []) ++ (if (brokenWires s p).contains 12 then [p * 16 + 11] else [])

/-- Trip every covered position that has become unmeasured, and start the blind time of the others anew while they are exempt or not
covered (R337). Such a trip has no live sample: its trip pick is the SPC at which it is decided (DESIGN CHOICE, log 68). -/
def sweepUnmeasured (s : State) : State :=
  let now := s.safe.assign.flatMap fun e =>
    match coverOf s e.1 with
    | some (num, w) => (unmeasuredChis s e.1 w).map (fun chi => (chi, e.1, num, w))
    | none => []
  let s1 := forEach (now.filter (fun x => !s.safe.unmeasured.contains x.1)) s fun x s =>
    let chi := if x.1 % 16 = 15 then (if (posOf s x.2.1).kind = .dt1 then mergedKey x.2.1 else x.2.1 * 16) else x.1
    doTrip { cause := 6, num := x.2.2.1, set := x.2.2.2, chi := chi, t := s.spc, centre := s.spc } s
  let spared := (s.safe.assign.filter (fun e => (coverOf s e.1).elim true (fun c => exempt s e.1 c.2))).map (·.1)
  modSafe (fun u =>
    { u with
      unmeasured := now.map (·.1)
      coveredFrom := spared.foldl (fun t p => tset t p (s.spc + 1)) u.coveredFrom
      trips := u.trips.map fun t =>
        if t.cause = 6 && now.any (fun x => x.2.1 == posOfChi t.chi && (x.1 == t.chi || x.1 % 16 == 15)) then { t with lastBad := s.spc } else t }) s1

/-- Since when a covered channel has been blind (R337); `period` is the longest gap between samples it may have. -/
def blindSince (s : State) (key period : Nat) : Option Nat :=
  let from_ := tgetD s.safe.coveredFrom (posOfChi (key / 8)) 0
  let x := (tget s.safe.seen key).getD { last := from_ }
  let last := max x.last from_
  match x.subst with
  | some b => some (max b from_)
  | none => if last + period ≤ s.spc then some (last + period) else none

/-- Comparator channels of a tag with the longest interval between their samples. -/
def watched (s : State) (p : Nat) : List (Nat × Nat) :=
  match (posOf s p).kind with
  | .ct12 =>
    (List.range 12).map (fun ch => (countKey (p * 16 + ch) 0, 16))
      ++ (scanSet s p).map (fun t => (countKey (p * 16 + 13) t, 200 * (scanSet s p).length))
  | .dt1 => [(countKey (mergedKey p) 0, 16)]
  | .none => []

end Sys2Proof.Machine
end

