-- ==== Sys2Proof/Machine/BalOps.lean ====
section
/-! DEFINITION. Operations of balancing and diagnostics: bleed currents, duties, quiet windows, tag checks, wire states
(R228 to R256). -/

namespace Sys2Proof.Machine

/-- Diagnostics of a tag. -/
def diagOf (s : State) (p : Nat) : TagDiag := tgetD s.bal.tags p {}

/-- Change the diagnostics of a tag. -/
def modDiag (p : Nat) (f : TagDiag → TagDiag) (s : State) : State :=
  { s with bal := { s.bal with tags := tmod s.bal.tags p {} f } }

/-- Key of a cell, and the cell. -/
def cellKey (p j : Nat) : Nat := p * 16 + j
def balCell (s : State) (k : Nat) : BalCell := tgetD s.bal.cells k {}

/-- Change a cell. -/
def modCell (k : Nat) (f : BalCell → BalCell) (s : State) : State := { s with bal := { s.bal with cells := tmod s.bal.cells k {} f } }

/-- Balancing parameters of a chain. -/
def balChain (s : State) (c : Nat) : BalChain := tgetD s.bal.chains c {}

/-- Released tags of a type. -/
def releasedTags (s : State) (k : TagKind) : List Nat := tkeys s.line.posns (fun _ x => x.kind == k && x.state == .released)

/-! ### Bleed currents and charge (R232, R235, R236) -/

/-- `R_BAL` of a cell, mΩ. -/
def rbalOf (s : State) (k : Nat) : Nat := (tgetD s.map.bind.rbal (posOfChi k) []).getD (chanOf k) 33000

/-- Bleed current of a cell while its switch is closed, µA. -/
def bleedCurrent (s : State) (k : Nat) : Nat := ((primaryOf s k).elim 0 (fun x => x.value.toNat)) * 100 / rbalOf s k

/-- Duty in force: of the frame last decided once it has begun, else of the one before. -/
def dutyAt (s : State) (k pick : Nat) : Nat :=
  let c := balCell s k
  if 3200 * (s.bal.frame - 1) ≤ pick then c.next else c.duty

/-- The switch of a cell is closed at a pick (R231). -/
def bleedAt (s : State) (k pick : Nat) : Bool :=
  let q := pick % 3200
  decide (400 ≤ q) && decide (q < 400 + 175 * dutyAt s k pick)

/-- Charge that a frame of duty d bleeds at I µA, nC. -/
def frameCharge (i d : Nat) : Nat := i * 175 * d / 100

/-! ### Duties (R233 to R235) -/

/-- Wires a cell adjoins that are confirmed broken. -/
def cellBroken (s : State) (p j : Nat) : Bool := (brokenWires s p).contains j || (brokenWires s p).contains (j + 1)

/-- The cause that forces a cell's duty to 0, 0 for none. -/
def forcedCause (s : State) (p j : Nat) : Nat :=
  let x := posOf s p
  let v := primaryOf s (cellKey p j)
  if safetyOff s p then 1
  else if x.state != .released || !powered (chainOf s (chainOfPos p)) then 2
  else if v.elim false (fun y => decide (y.value < (balChain s (chainOfPos p)).vFloor * 10000)) then 3
  else if cellBroken s p j then 4
  else if (diagOf s p).hot then 5
  else 0

/-- The SOC of a cell in ppm with its standard uncertainty and capacity, when it is valid and not suspended. -/
def socOf (s : State) (p j : Nat) : Option (Int × Nat × Nat) :=
  match tget s.est.cells (cellKey p j) with
  | some c => if c.valid && !c.susp && !cellBroken s p j then some (tdivI c.est 1000000, isqrt c.ur2 + c.ub, c.cap) else none
  | none => none

/-- The balance group of a CT12. -/
def balGroup (s : State) (p : Nat) : List Nat :=
  match driveOf s p with
  | some d => boundTo s d
  | none => [p]

/-- The lowest SOC of a group. -/
def groupRef (s : State) (p : Nat) : Int :=
  let l := (balGroup s p).flatMap fun q => (List.range 12).filterMap fun j => (socOf s q j).map (·.1)
  l.tail.foldl min (l.headD 0)

/-- The duty that `AUTO` decides for a cell, against the reference of its group (R235). -/
def autoDuty (s : State) (p j : Nat) (ref : Int) : Nat :=
  match socOf s p j with
  | none => 0
  | some (soc, u, cap) =>
    let b := balChain s (chainOfPos p)
    let e := soc - ref - b.db - 2 * u
    let ib : Int := bleedCurrent s (cellKey p j)
    if e ≤ 0 ∨ ib ≤ 0 then 0
    else
      let q := tdivI (e * cap * 3600) 1000000
      let den := ib * b.th * 2800
      (min 16 (tdivI (16 * q * 1000 * 3200 + den - 1) den)).toNat

/-- Decide one cell for the next frame: the frame that ends is added to the charge bled, the duty asked for by the mode is forced to 0
or limited to 8 (R233). -/
def decideCell (p j : Nat) (ref : Int) (s : State) : State :=
  let k := cellKey p j
  let c := balCell s k
  let asked := match c.mode with
    | .off => 0
    | .manual => if c.ttlEnd ≤ s.spc + 200 then 0 else c.host
    | .auto_ => autoDuty s p j ref
  let cause := forcedCause s p j
  let warm : Bool := (tagCal s p).dieT.elim false (fun t => decide (95000 ≤ t))
  let duty := if cause ≠ 0 then 0 else if warm then min 8 asked else asked
  let shown := if cause ≠ 0 then cause else if duty < asked then 6 else 0
  let charge := c.bled + frameCharge (bleedCurrent s k) c.next
  let s1 := modCell k (fun c =>
    { c with
      duty := c.next, next := duty, cause := shown, bled := charge
      marks := if s.spc % 100000 = 0 then ((s.spc, charge) :: c.marks).take 4 else c.marks
      mode := if c.mode = .manual ∧ c.ttlEnd ≤ s.spc + 200 then .off else c.mode }) s
  if cause ≠ 0 ∧ asked ≠ 0 ∧ c.cause ≠ cause then raiseChi k 0x412 0x73 cause s1 else s1

/-! ### Detected rests (R209) -/

/-- A program's phase in force is a rest, since a boundary. -/
def restSince (s : State) (d : Nat) : Option Nat :=
  match tget s.chg.drives d with
  | some x =>
    if x.pst = .running && (x.prog.bind (fun g => g.phases[x.phase]?)).elim false (fun h => h.typ == 5) then some x.entered else none
  | none => none

/-- A boundary lies within a detected rest of a CT12. -/
def detectedRest (s : State) (p w : Nat) : Bool :=
  let d := diagOf s p
  let cell (n : Nat) := decide (d.calmCell + n ≤ w)
  match driveOf s p with
  | none => cell 200000
  | some k =>
    (cell 200000 && decide (d.calmCur + 200000 ≤ w))
      || ((restSince s k).elim false (fun e => decide (e + 10000 ≤ w)) && cell 10000)

/-- A rest that ends during an injection window spoils the injection (R227). -/
def TagDiag.endRest (d : TagDiag) (spc : Nat) (x : TagDiag) : TagDiag :=
  match d.quiet with
  | some (w, .injection) => { x with spoilt := d.spoilt || decide (spc < w + 400) }
  | _ => x

/-- A primary sample of a cell that moves more than 100 µV from the mean of the preceding 200 ms breaks the rest of its tag. -/
def noteCellCalm (chi : Nat) (x : Sample) (s : State) : State :=
  let l := tgetD s.bal.recent chi []
  let far := x.flags.gap || (decide (0 < l.length) && decide (1000 * l.length < (x.value * l.length - l.sum).natAbs))
  let s1 := { s with bal := { s.bal with recent := tset s.bal.recent chi ((x.value :: l).take 100) } }
  if far then modDiag (posOfChi chi) (fun d => d.endRest s.spc { d with calmCell := s.spc }) s1 else s1

/-- A primary sample of a merged current beyond 0.5 % of its 0.4 V full scale breaks the rest of the CT12s bound to the drive tag. -/
def noteCurrentCalm (d : Nat) (x : Sample) (s : State) : State :=
  if x.flags.gap || decide (2000000 < x.value.natAbs) then
    forEach (boundTo s d) s (fun p s => modDiag p (fun g => g.endRest s.spc { g with calmCur := s.spc }) s)
  else s

/-! ### Quiet windows (R208, R240) -/

/-- `TEST_WIRE` for a wire: an unresolved one is paired the other way (R242). -/
def testWireFor (d : TagDiag) (w : Nat) : Nat := if d.unresolved.contains w ∧ 1 ≤ w ∧ w ≤ 11 then w - 1 else w

/-- The next wire of the routine scan that is not confirmed broken. -/
def routineWire (d : TagDiag) : Option Nat :=
  ((List.range 13).map (fun i => (d.nextWire + i) % 13)).find? (fun w => !thas d.broken w)

/-- The test or injection of a tag's quiet window in frame f, and the diagnostics that go with the choice. -/
def decideQuiet (s : State) (p f : Nat) : Option QuietUse × TagDiag :=
  let d := diagOf s p
  let n := (balChain s (chainOfPos p)).scan
  let due := n ≠ 0 ∧ f % n = 0
  let d1 : TagDiag := { d with owed := d.owed || decide due }
  let start (w : Nat) (why : TestWhy) (d : TagDiag) : Option QuietUse × TagDiag :=
    let t := tgetD d.tested w 0
    (some (.test (testWireFor d w) w (t % 2 == 1) why), { d with tested := tset d.tested w (t + 1) })
  match (d.suspect.map (·.1) ++ d.unresolved).mergeSort (fun a b => decide (a ≤ b)) with
  | w :: _ => start w .confirm d1
  | [] =>
    match (d.broken.map (·.1))[f / 16 % max 1 d.broken.length]? with
    | some w => if f % 16 = 0 then start w .clear d1 else rest d1 start
    | none => rest d1 start
where
  rest (d : TagDiag) (start : Nat → TestWhy → TagDiag → Option QuietUse × TagDiag) : Option QuietUse × TagDiag :=
    match d.asked with
    | a :: _ => start a.1 .asked d
    | [] =>
      match d.owed, routineWire d with
      | true, some w => start w .routine { d with owed := false, nextWire := (w + 1) % 13 }
      | _, _ =>
        if wantsInjection s p && detectedRest s p (3200 * f) then (some .injection, d) else (none, d)

/-- Place the use of a tag's quiet window in the frame that begins at 3,200 f. -/
def placeQuiet (p f : Nat) (s : State) : State :=
  let q := if (posOf s p).state = .released then decideQuiet s p f else (none, diagOf s p)
  modDiag p (fun _ => { q.2 with quiet := q.1.map (fun u => (3200 * f, u)), current := 10000, spoilt := false }) s

/-! ### Tag checks (R252 to R254) -/

/-- Faults, in the order of R252. -/
def TF_REF_RATIO : Nat := 0
def TF_SUPPLY : Nat := 1
def TF_DIE_TEMP : Nat := 2
def TF_ZERO : Nat := 3
def TF_SRC_HEAD : Nat := 4
def TF_LEAK : Nat := 5
def TF_TEST_SRC : Nat := 6
def TF_HIGH_R : Nat := 7
def TF_STACK_DIS : Nat := 8
def TF_BLEED_NORESP : Nat := 9
def TF_TAG_FAULT : Nat := 10

/-- Set or clear a fault, with its event. -/
def setFault (p i : Nat) (on : Bool) (s : State) : State :=
  let f := (diagOf s p).faults
  if f.testBit i = on then s
  else
    raisePos p 0x411 0x72 (i + 256 * b2n on) (modDiag p (fun d => { d with faults := if on then f + 2 ^ i else f - 2 ^ i }) s)

/-- One check of a fault: it is set after n failing checks in a row, and clears after 16 passing ones. -/
def tagCheck (p i n : Nat) (bad : Bool) (s : State) : State :=
  let s1 := modDiag p (fun d =>
    { d with
      failing := tset d.failing i (if bad then tgetD d.failing i 0 + 1 else 0)
      passing := tset d.passing i (if bad then 0 else tgetD d.passing i 0 + 1) }) s
  let d := diagOf s1 p
  if n ≤ tgetD d.failing i 0 then setFault p i true s1
  else if 16 ≤ tgetD d.passing i 0 then setFault p i false s1
  else s1

/-- The check that a housekeeping dwell value of a position feeds (R252), and what else it sets: the die temperature of R197 and R233,
the test current of R237. -/
def checkDwell (p pos : Nat) (x : Sample) (s : State) : State :=
  let v := x.value
  let ct := (posOf s p).kind = .ct12
  if x.flags.gap then s
  else
    match pos with
    | 0 =>
      let a := (tagCal s p).refA
      if a = 0 then s else tagCheck p TF_REF_RATIO 8 (decide (10 * (a : Int) < (v - 10 * a).natAbs * 500)) s
    | 2 => tagCheck p TF_SUPPLY 4 (decide (v < 30000000) || decide (36000000 < v)) s
    | 3 =>
      let s1 := modTagCal p (fun t => { t with dieT := some v, dieWas := some (s.spc, t.dieT) }) s
      let s2 := modDiag p (fun d => { d with hot := decide (110000 ≤ v) || (d.hot && decide (100000 ≤ v)) }) s1
      tagCheck p TF_DIE_TEMP 2 (decide (110000 < v)) s2
    | 4 => tagCheck p TF_ZERO 4 (decide (5000 < v.natAbs)) s
    | 5 => if ct then modDiag p (fun d => { d with current := (v / 1000).toNat }) s else s
    | 6 => if ct then tagCheck p TF_SRC_HEAD 4 (decide (v < 3000000)) s else s
    | 7 => if ct then tagCheck p TF_LEAK 4 (decide (2000000 < v)) s else s
    | _ => s

/-! ### Bleed response (R255) -/

/-- The uncompensated values of sample m of a CT12 (R242, R255). -/
def rawSample (s : State) (p m : Nat) : RawSample :=
  let vs := spanViews s false p m
  let ds := tagDensities s p m vs
  let blocks := vs.any (·.ovr)
  { m := m, gap := vs.any (·.gap), ovr := (ds.take 13).map (fun d => blocks || ovrDensity d)
    values := (ds.take 13).zipIdx.map fun d => correct (entryNow s .step (p * 16 + d.2)) (tagTemp s p) (nominal (rangeOf .ct12 d.2 0) d.1) }

/-- Keep the uncompensated values of a settled sample. -/
def keepRaw (p m : Nat) (s : State) : State :=
  { s with loom := { s.loom with raw := tmod s.loom.raw p [] (fun l => (rawSample s p m :: l).take 64) } }

/-- Samples a to a + n - 1 of those kept. -/
def rawsOf (s : State) (p a n : Nat) : List RawSample := (tgetD s.loom.raw p []).filter (fun x => decide (a ≤ x.m) && decide (x.m < a + n))

/-- Mean of 8 uncompensated settled values of a cell channel, from sample m on: none when one is a gap. -/
def rawMean (s : State) (p ch m : Nat) : Option Int :=
  let l := rawsOf s p m 8
  if l.length < 8 ∨ l.any (·.gap) = true then none else some (tdivI (l.map (fun x => geti x.values ch)).sum 8)

/-- Step of a cell's reading at a switch transition at boundary a against the expected step, in 1/1000: the 8 samples whose spans end
before the transition against the 8 whose spans start after it. -/
def stepRatio (s : State) (p j a : Nat) : Option Nat :=
  let before := (a - 20) / 8 - 7
  let after := (a + 12 + 7) / 8
  match rawMean s p j before, rawMean s p j after with
  | some x, some y =>
    let rw := wireResistances s p
    let expected := (bleedCurrent s (cellKey p j) * ((geti rw j + geti rw (j + 1)).toNat)) / 100000
    if expected = 0 then none else some ((y - x).natAbs * 1000 / expected)
  | _, _ => none

/-- One evaluation of a cell's bleed response: `BLEED_NORESP` is set while any cell of the tag fails, and a cell recovers after 16 passing
evaluations (R252, R255). -/
def cellResponse (p j : Nat) (bad : Bool) (s : State) : State :=
  let key := 16 * (j + 1)
  let s1 := modDiag p (fun d =>
    let n := if bad then 0 else tgetD d.passing key 0 + 1
    { d with
      passing := tset d.passing key n
      noresp := if bad then (if d.noresp.contains j then d.noresp else j :: d.noresp)
        else if 16 ≤ n then d.noresp.filter (· != j) else d.noresp }) s
  setFault p TF_BLEED_NORESP (!(diagOf s1 p).noresp.isEmpty) s1

/-- Measure the steps of the switch transitions whose eighth sample afterwards is settled sample m, and judge each cell over the 16
transitions of eight frames in which it switched. -/
def checkBleed (p m : Nat) (s : State) : State :=
  let ds := disturbOf s p
  let hits := (ds.zip (ds.drop 1 ++ [{}])).filter (fun x => x.1.bleed != x.2.bleed && (x.1.at_ + 19) / 8 + 7 == m && decide (84 ≤ x.1.at_))
  forEach hits s fun x s => forEach (List.range 12) s fun j s =>
    if x.1.bleed.testBit j = x.2.bleed.testBit j then s
    else match stepRatio s p j x.1.at_ with
      | none => s
      | some r =>
        let s1 := modCell (cellKey p j) (fun c => { c with steps := (r :: c.steps).take 16 }) s
        let l := (balCell s1 (cellKey p j)).steps
        if l.length < 16 then s1 else cellResponse p j (decide (l.sum < 250 * 16)) s1

/-! ### What an open-wire test measures (R241, R242) -/

/-- What an open-wire test measured: the shift of ch0 to ch12 in 100 nV, the test current in µA of position 5, the gap samples among its 40,
whether any carried `OVR`, and whether an off word fell in its window (R256). -/
structure WireTest where
  shifts : List Int := []
  currentUa : Nat := 0
  gaps : Nat := 0
  ovr : Bool := false
  offWord : Bool := false
  deriving DecidableEq, Repr

/-- The 20 samples of dwell k that R113 delivers. -/
def dwellRaws (s : State) (p k : Nat) : List RawSample := rawsOf s p (25 * k + 3) 20

/-- Mean of a channel over samples without `GAP`. -/
def shiftMean (l : List RawSample) (ch : Nat) : Rat :=
  let good := l.filter (fun x => !x.gap)
  (((good.map (fun x => geti x.values ch)).sum : Int) : Rat) / (max 1 good.length : Nat)

/-- The test in the quiet window that began at W: the mean over the on-dwell less the mean over the off-dwell. -/
def wireTestAt (s : State) (p w : Nat) (odd : Bool) : WireTest :=
  let first := dwellRaws s p (w / 200)
  let second := dwellRaws s p (w / 200 + 1)
  let sides := if odd then (second, first) else (first, second)
  { shifts := (List.range 13).map fun ch => nearestInt (shiftMean sides.1 ch - shiftMean sides.2 ch)
    currentUa := (diagOf s p).current
    gaps := 40 - ((first ++ second).filter (fun x => !x.gap)).length
    ovr := (first ++ second).any (fun x => x.ovr.any id)
    offWord := (diagOf s p).spoilt }

/-! ### Passive classification (R244) -/

/-- A sample may be used of a channel. -/
def usable (x : Sample) : Bool := !x.flags.trans && !x.flags.gap && !x.flags.ovr

/-- Take settled sample m of a CT12 into the block of its release: `xs` are its samples by channel, `before` those of sample m - 1. -/
def PassiveBlock.take (b : PassiveBlock) (xs before : List Sample) : PassiveBlock :=
  let ok (ch : Nat) : Bool := usable (xs.getD ch { flags := { gap := true } }) && usable (before.getD ch { flags := { gap := true } })
  let step (ch : Nat) : Int := (xs.getD ch {}).value - (before.getD ch {}).value
  { b with
    all := if (xs.take 13).length = 13 ∧ (xs.take 13).all usable = true then addProducts ((xs.take 13).map (·.value)) b.all else b.all
    pairs := (List.range 11).map fun i =>
      let l := b.pairs.getD i []
      if ok i && ok (i + 1) then addProducts [step i, step (i + 1)] l else l }

/-- Note a settled sample of a CT12 for the passive classification; `before` are the samples of m - 1. -/
def notePassive (p : Nat) (xs before : List Sample) (s : State) : State :=
  modDiag p (fun d =>
    let a := s.spc / 10000
    match d.blocks with
    | b :: r => { d with blocks := if b.at_ = a then b.take xs before :: r else (({ at_ := a } : PassiveBlock).take xs before :: b :: r).take 11 }
    | [] => { d with blocks := [({ at_ := a } : PassiveBlock).take xs before] }) s

/-- What a passive evaluation found of a CT12: the wires whose neighbours' first differences have a correlation of at most -0.5, the mean of
ch12 less the sum of the cells, the means of ch0 to ch12, and their movement since the previous evaluation, in 100 nV. -/
structure PassiveStats where
  corr : List Nat := []
  stackDiff : Rat := 0
  means : List Rat := []
  moves : List Rat := []
  deriving DecidableEq, Repr

/-- A correlation is at most -0.5. -/
def anticorrelated (m : List (List Int)) : Bool :=
  let c := prodCov m 0 1
  prodCount m != 0 && decide (c < 0) && decide (prodCov m 0 0 * prodCov m 1 1 ≤ 4 * c * c)

/-- Sums of matrices of products. -/
def sumProducts (l : List (List (List Int))) (n : Nat) : List (List Int) :=
  (List.range n).map fun i => (List.range n).map fun j => (l.map (fun m => prodAt m i j)).sum

/-- The evaluation at boundary 10,000 a over the settled samples released in the ten blocks before it. -/
def passiveStats (d : TagDiag) (a : Nat) : PassiveStats :=
  let bs := d.blocks.filter (fun b => decide (b.at_ < a) && decide (a ≤ b.at_ + 10))
  let all := sumProducts (bs.map (·.all)) 14
  let means := if prodCount all = 0 then [] else (List.range 13).map (prodMean all)
  { corr := (List.range 11).filterMap fun i => if anticorrelated (sumProducts (bs.map (fun b => b.pairs.getD i [])) 3) then some (i + 1) else none
    stackDiff := means.getD 12 0 - (means.take 12).sum
    means := means
    moves := if means.isEmpty || d.means.isEmpty then [] else (means.zip d.means).map (fun x => x.1 - x.2) }

/-! ### Wire states (R242 to R250) -/

/-- A wire becomes suspect; `passive` says that it does so from R244 alone. -/
def suspectWire (p w n : Nat) (passive : Bool) (s : State) : State :=
  modDiag p (fun d =>
    if thas d.broken w || thas d.suspect w then d
    else { d with suspect := tset d.suspect w n, passive := if passive then w :: d.passive else d.passive }) s

/-- Channels adjacent to a wire. -/
def adjacent (w : Nat) : List Nat := if w = 0 then [0, 12] else if w = 12 then [11, 12] else [w - 1, w]

/-- Channels of a test that jumped: shifts of more than 50 mV. -/
def jumped (t : WireTest) : List Nat := (List.range 13).filter (fun i => decide (500000 < (geti t.shifts i).natAbs))

/-- The wire an open result names: one of the two under test, else another whose adjacent channels both jumped; none when unresolved. -/
def namedWire (tw : Nat) (t : WireTest) : Option Nat :=
  let js := jumped t
  let hit (w : Nat) : Bool := (adjacent w).all (fun c => js.contains c)
  match [tw, partnerOf tw].filter hit with
  | [x] => some x
  | _ :: _ => none
  | [] =>
    match (List.range 13).filter hit with
    | [x] => some x
    | _ => none

/-- Estimates that a passing test gives: wire and resistance, µΩ (R243). -/
def wireEstimates (tw : Nat) (t : WireTest) : List (Nat × Int) :=
  let i : Int := t.currentUa
  let r (ch : Nat) (sign : Int) : Int := tdivI (sign * geti t.shifts ch * 100000) i
  if i = 0 then []
  else
    let own : Nat × Int := if tw = 0 then (0, r 12 (-1)) else if tw = 12 then (12, r 12 1) else (tw, r (tw - 1) 1)
    let p := partnerOf tw
    let other : Nat × Int := if tw = 12 then (11, r 10 (-1)) else if p = 12 then (12, r 12 (-1)) else (p, r p 1)
    [own, other]

/-- n² (n - 1) times the square of the standard error of the mean of n estimates. -/
def spread (l : List Int) : Int := l.length * (l.map (fun x => x * x)).sum - l.sum * l.sum

/-- Add an estimate; a wire with 16 estimates and a standard error of at most 1,000 µΩ is learned and stays so. -/
def learnWire (d : TagDiag) (e : Nat × Int) : TagDiag :=
  let l := (e.2 :: tgetD d.estimates e.1 []).take 64
  let n : Int := l.length
  let ok := decide (16 ≤ l.length) && decide (spread l ≤ 1000000 * n * n * (n - 1))
  { d with
    estimates := tset d.estimates e.1 l
    learned := if ok && !d.learned.contains e.1 then d.learned ++ [e.1] else d.learned }

/-- `HIGH_R` while a learned resistance is above 2 Ω. -/
def checkHighR (p : Nat) (s : State) : State :=
  let d := diagOf s p
  setFault p TF_HIGH_R (d.learned.any fun w => decide (2000000 < (let l := tgetD d.estimates w []; tdivI l.sum l.length))) s

/-- A change of tag clears every break, estimate, fault and test of the position; its cells are off (R243, R250, R256). -/
def freshDiag (p : Nat) (s : State) : State :=
  let s1 := forEach (diagOf s p).asked s (fun a s => finish a.2 ST_ABORTED s)
  let s2 := { s1 with bal := { s1.bal with tags := tset s1.bal.tags p { calmCell := s.spc, calmCur := s.spc } } }
  forEach (List.range 12) s2 (fun j s => modCell (cellKey p j) (fun _ => {}) s)

/-- Every cell of a chain is `OFF` from the next frame, scan interval and limits return to their defaults (R256). -/
def resetBalancing (c : Nat) (s : State) : State :=
  let s1 := forEach (occPosns s c) s fun p s => forEach (List.range 12) s fun j s =>
    modCell (cellKey p j) (fun x => { x with mode := .off, host := 0, ttlEnd := 0 }) s
  { s1 with bal := { s1.bal with chains := tdel s1.bal.chains c } }

end Sys2Proof.Machine
end

