-- ==== Sys2Proof/Machine/Dsp.lean ====
section
/-! DEFINITION. The arithmetic of the spectral engine on plain data: complex numbers, the half-band cascade, segment transforms, binary32
(R170, R172 to R174, R177, R183). The manual asks for binary32 or wider and does not give the order of operations or the rounding of the
steps: the model works in fractions, cosines being good to 2^-70, and rounds once, to binary32 (DESIGN CHOICE, log 11). -/

namespace Sys2Proof.Machine

/-! ### Complex numbers -/

def Cx.add (a b : Cx) : Cx := { re := a.re + b.re, im := a.im + b.im }
def Cx.sub (a b : Cx) : Cx := { re := a.re - b.re, im := a.im - b.im }
def Cx.mul (a b : Cx) : Cx := { re := a.re * b.re - a.im * b.im, im := a.re * b.im + a.im * b.re }
def Cx.scale (k : Rat) (a : Cx) : Cx := { re := k * a.re, im := k * a.im }
def Cx.normSq (a : Cx) : Rat := a.re * a.re + a.im * a.im
def Cx.div (a b : Cx) : Cx := Cx.scale (1 / b.normSq) (a.mul { re := b.re, im := -b.im })
def Cx.sum (l : List Cx) : Cx := l.foldl Cx.add {}

/-! ### Sines and cosines, by turns -/

/-- A sum of n terms of the series of a sine or cosine, 80 fractional bits. -/
def trigSeries : Nat → Int → Int → Int → Int
  | 0, _, _, _ => 0
  | n + 1, k, term, sq => term + trigSeries n (k + 2) (-(term * sq / 2 ^ 80) / ((k + 1) * (k + 2))) sq

/-- Cosine and sine of a quarter turn's fraction r, 80 fractional bits; π/2 stands for a quarter turn. -/
def quarter (r : Int) : Int × Int :=
  let th := r * 1898976236818169290393996 / 2 ^ 80
  (trigSeries 16 0 (2 ^ 80) (th * th / 2 ^ 80), trigSeries 16 1 th (th * th / 2 ^ 80))

/-- exp(j2πx). -/
def expTurn (x : Rat) : Cx :=
  let a : Int := (x * 2 ^ 82).floor % 2 ^ 82
  let q := quarter (a % 2 ^ 80)
  let c : Rat := (q.1 : Rat) / 2 ^ 80
  let s : Rat := (q.2 : Rat) / 2 ^ 80
  if a / 2 ^ 80 = 0 then { re := c, im := s }
  else if a / 2 ^ 80 = 1 then { re := -s, im := c }
  else if a / 2 ^ 80 = 2 then { re := -c, im := -s }
  else { re := s, im := -c }

/-! ### binary32 -/

/-- The nearest integer, halves to even. -/
def roundEven (x : Rat) : Int :=
  let f := x.floor
  let d := x - (f : Rat)
  if d < 1 / 2 then f else if 1 / 2 < d then f + 1 else if f % 2 = 0 then f else f + 1

/-- A power of two. -/
def pow2 (e : Int) : Rat := if 0 ≤ e then 2 ^ e.toNat else 1 / 2 ^ (-e).toNat

/-- A positive fraction lies in [2^e, 2^(e+1)). -/
def exponentOf (x : Rat) : Int :=
  let e : Int := (Nat.log2 x.num.natAbs : Int) - (Nat.log2 x.den : Int)
  if x < pow2 e then e - 1 else e

/-- A fraction as a binary32 word, rounded to nearest even. -/
def binary32 (x : Rat) : Word :=
  let a := if x < 0 then -x else x
  let mag : Nat :=
    if a = 0 then 0
    else
      let e := max (-126) (exponentOf a)
      min 0x7F800000 ((e + 126) * 8388608 + roundEven (a * pow2 (23 - e))).toNat
  wd ((if x < 0 then 2 ^ 31 else 0) + mag)

/-! ### The half-band cascade (R172) -/

/-- Coefficient n of the 47 taps: linear phase, one half in the middle, 0 at the other even distances from it; the odd ones are not listed. -/
def halfTap (n : Nat) : Rat :=
  if n = 23 then 1 / 2
  else if n % 2 = 1 then 0
  else (Config.halfBand ((max n 23 - min n 23) / 2) : Rat) / ((Config.halfBandScale + 1 : Nat) : Rat)

/-- The output of a stage's filter over its samples, newest first; a history that is not full holds zeros. -/
def halfBand (hist : List Cx) : Cx := Cx.sum ((hist.take 47).zipIdx.map fun x => Cx.scale (halfTap x.2) x.1)

/-- Put sample j into a stage and, at every second one, its filtered sample into the next: stage o + 1's sample j is made of stage o's 2j - 46
to 2j. -/
def pushStages (keep : Nat) : List Stage → Nat → Cx → List Stage
  | [], _, _ => []
  | a :: r, j, x =>
    let h := (x :: a.hist).take keep
    { a with newest := j, hist := h } :: (if j % 2 = 0 then pushStages keep r (j / 2) (halfBand h) else r)

/-- n stages that begin with a fast-path sample. -/
def freshStages (n m : Nat) : List Stage := List.replicate n { since := m }

/-! ### The input: gap samples replaced before the cascade (R177) -/

/-- Add a run of samples to those noted, newest first; what no span reaches any more goes. -/
def noteSpan (a b : Nat) (l : List (Nat × Nat)) : List (Nat × Nat) :=
  match l.filter (fun e => decide (b < e.2 + 2 ^ 25)) with
  | e :: r => if e.2 + 1 = a then (e.1, b) :: r else (a, b) :: e :: r
  | [] => [(a, b)]

/-- Samples of a span that runs noted of it hold, and the longest of them. -/
def inSpan (l : List (Nat × Nat)) (a b : Nat) : List Nat := l.map (fun e => min e.2 b + 1 - max e.1 a)
def hitsSpan (l : List (Nat × Nat)) (a b : Nat) : Bool := (inSpan l a b).any (fun n => decide (0 < n))

/-- Take sample m into a cascade's input: what the cascade gets, in order. A run of at most 4,096 gap samples is interpolated once it has ended,
a longer one holds the last value; numbers that never came are gaps. Nothing is passed on before the first sample without `GAP`. -/
def Cascade.input (c : Cascade) (m : Nat) (x : Int) (gap : Bool) : Cascade × List (Nat × Rat) :=
  match c.last with
  | none =>
    if gap then ({ c with next := m + 1 }, [])
    else ({ c with next := m + 1, last := some x, run := 0, stages := freshStages 16 m }, [(m, (x : Rat))])
  | some a =>
    if m < c.next then (c, [])
    else
      let lost := m - c.next
      let run := c.run + lost + b2n gap
      let waiting := if c.run ≤ 4096 then run else lost + b2n gap
      let first := m + b2n gap - waiting
      if gap then
        ({ c with next := m + 1, run := run }, if run ≤ 4096 then [] else (List.range waiting).map fun i => (first + i, (a : Rat)))
      else
        let fill (i : Nat) : Rat := if run ≤ 4096 then (a : Rat) + ((x - a : Int) : Rat) * ((i + 1 : Nat) : Rat) / ((run + 1 : Nat) : Rat) else (a : Rat)
        ({ c with next := m + 1, last := some x, run := 0 }, (List.range waiting).map (fun i => (first + i, fill i)) ++ [(m, (x : Rat))])

/-- Note the flags of sample m, and the samples that never came before it. -/
def Cascade.note (c : Cascade) (m : Nat) (f : Flags) (disturbed : Bool) : Cascade :=
  let first := if c.last.isSome && decide (c.next < m) then c.next else m
  let add (b : Bool) (a e : Nat) (l : List (Nat × Nat)) : List (Nat × Nat) := if b then noteSpan a e l else l
  { c with
    gaps := add f.gap m m (add (decide (first < m)) first (m - 1) c.gaps)
    ovr := add f.ovr m m c.ovr, uncal := add f.uncal m m c.uncal, disturbed := add disturbed m m c.disturbed }

/-! ### Segments (R173, R174, R183) -/

/-- The window w[n] of a segment of L samples: sin²(π(n + 0.5)/L). -/
def windowOf (L n : Nat) : Rat := (1 - (expTurn (((2 * n + 1 : Nat) : Rat) / ((2 * L : Nat) : Rat))).re) / 2

/-- A segment less its weighted least-squares straight line. -/
def lineOff (ws : List Rat) (xs : List Cx) : List Cx :=
  let m : Rat := (((xs.length : Nat) : Rat) - 1) / 2
  let place (n : Nat) : Rat := ((n : Nat) : Rat) - m
  let xw := (xs.zip ws).zipIdx
  let a := Cx.scale (1 / ws.sum) (Cx.sum (xw.map fun x => Cx.scale x.1.2 x.1.1))
  let c := Cx.scale (1 / (xw.map fun x => x.1.2 * place x.2 * place x.2).sum) (Cx.sum (xw.map fun x => Cx.scale (x.1.2 * place x.2) x.1.1))
  xs.zipIdx.map fun x => (x.1.sub a).sub (Cx.scale (place x.2) c)

/-- The windowed transform of a segment at `turn` turns a sample. -/
def transformAt (turn : Rat) (ws : List Rat) (xs : List Cx) : Cx :=
  Cx.scale (2 / ws.sum) (Cx.sum ((xs.zip ws).zipIdx.map fun x => Cx.scale x.1.2 (x.1.1.mul (expTurn (-(turn * ((x.2 : Nat) : Rat)))))))

/-- The samples first to first + len - 1 of a stage, in order; fewer where the stage holds them no longer. -/
def Stage.slice (a : Stage) (first len : Nat) : List Cx := ((a.hist.drop (a.newest + 1 - (first + len))).take len).reverse

/-- The fast-path samples that reach samples first to first + len - 1 of stage o; none where they begin before sample 0. -/
def spanOf (o first len : Nat) : Option (Nat × Nat) :=
  let back := 46 * (2 ^ o - 1)
  if 2 ^ o * first < back then none else some (2 ^ o * first - back, 2 ^ o * (first + len - 1))

/-- A shunt voltage at a frequency in 10^-15 Hz as a current: U / (R_SH + j2πf L_SH), R_SH in µΩ, L_SH in pH, positive when it charges. -/
def shuntCurrent (x : Shunt) (freq : Nat) (u : Cx) : Cx :=
  let twoPi : Rat := (4 * 1898976236818169290393996 : Nat) / 2 ^ 80
  let z : Cx := { re := (x.rsh : Nat) / 10 ^ 6, im := twoPi * ((freq * x.lsh : Nat) : Rat) / 10 ^ 27 }
  Cx.scale (if x.inverted then -1 else 1) (u.div z)

end Sys2Proof.Machine
end

