-- ==== Sys2Proof/Machine/SpecOps.lean ====
section
/-! DEFINITION. Operations of the spectral engine: bins, averages, cascades, segments, admission, rounds, restarts, records (R169 to R195). -/

namespace Sys2Proof.Machine

/-! ### Bins (R172, R173, R176) -/

/-- Centre frequencies of the bins, in 10^-15 Hz: 5,000 Hz × 50,000^((b - 63)/63) (R172). -/
def binTable : List Nat :=
  [100000000000000, 118737206032762, 140985240964667, 167401936040003, 198768381698651, 236012022905515, 280234081899411,
   332742119198924] ++
  [395088695631006, 469117278543542, 557016749559533, 661386125561498, 785311406580061, 932456822829751, 1107173178889911,
   1314626498557998] ++
  [1560950774154100, 1853429336777353, 2200710210280987, 2613061816565374, 3102676592898671, 3684031498640387, 4374316070852499,
   5193940685572367] ++
  [6167140053047532, 7322689791116059, 8694757264417531, 10323911847100017, 12258324480531910, 14555191994613722,
   17282428307108629, 20520672506476019] ++
  [24365673193322852, 28931119580825305, 34352003064269399, 40788608654802399, 48431254296349868, 57505918198108020,
   68280920571919309, 81074857340546656] ++
  [96266020401213048, 114303582983329393, 135720880829745329, 161151181900294596, 191346410877184455, 227199382119538531,
   269770198452439532, 320317596351465048] ++
  [380336164339031171, 451600535068341119, 536217857769153470, 636690102563824435, 755988038871414263, 897639075297790822,
   1065831558266920830, 1265538613301595487] ++
  [1502665190700079269, 1784222663464154682, 2118536140000673699, 2515490621431130964, 2986823281903496448,
   3546470514068269371, 4210980001180407750, 5000000000000000000]

/-- Centre frequency of a bin. -/
def binFreq (b : Nat) : Nat := binTable.getD b 1

/-- Cascade stage of a bin: the last at which it lies at or below 0.4 of the stage's rate (R172). -/
def stageOf (b : Nat) : Nat := ((List.range 15).filter (fun o => decide (binFreq b * 2 ^ (o + 1) ≤ 5 * 10 ^ 18))).length

/-- L_b and H_b (R173). -/
def segLen (b : Nat) : Nat :=
  let d := 2 ^ stageOf b * binFreq b
  (2 * 8 * 12500 * 10 ^ 15 + d) / (2 * d)
def segHop (b : Nat) : Nat := segLen b / 2

/-- M_b of a memory of `t` seconds: round(T_MEM f_b / 4) within 8 and 4,096 (R176). -/
def memOf (t b : Nat) : Nat := min 4096 (max 8 ((2 * t * binFreq b + 4 * 10 ^ 15) / (8 * 10 ^ 15)))

/-! ### Averages (R175, R176) -/

/-- N_EFF in units of 0.25 segment. -/
def nEff4 (x : SpecBin) : Nat := if x.q = 0 then 0 else (x.p * x.p * 4 / x.q).floor.toNat

/-- Admit one segment of voltage v, turned by the skew, and current i into a bin of memory m. -/
def SpecBin.add (x : SpecBin) (m : Nat) (v i : Cx) (flip lastSpc : Nat) (uncal interp : Bool) : SpecBin :=
  let c := x.n + 1
  let k : Rat := ((min c m : Nat) : Rat)
  let a : Rat := ((m - 1 : Nat) : Rat) / (m : Nat)
  { n := c
    p := if c ≤ m then c else a * x.p + 1
    q := if c ≤ m then c else a * a * x.q + 1
    svRe := x.svRe + (v.re * i.re + v.im * i.im - x.svRe) / k
    svIm := x.svIm + (v.im * i.re - v.re * i.im - x.svIm) / k
    sii := x.sii + (i.normSq - x.sii) / k
    svv := x.svv + (v.normSq - x.svv) / k
    restart := x.restart
    since := x.since, flip := flip, sinceFlip := if x.flip = flip then x.sinceFlip + 1 else 1
    uncal := uncal, interp := interp, lastSpc := lastSpc }

/-- γ² in units of 2^-16, truncated and saturating. -/
def cohOf (x : SpecBin) : Nat :=
  let d := x.svv * x.sii
  if d = 0 then 0 else min 0xFFFF ((x.svRe * x.svRe + x.svIm * x.svIm) * 65536 / d).floor.toNat

/-- I_BAND in units of 10 µA, saturating at 24 bits. -/
def bandOf (x : SpecBin) : Nat := min 0xFFFFFF (isqrt (x.sii * 5000000000).floor.toNat)

/-- Words of Z, S_vi / S_ii, each segment of which was admitted with its skew corrected; 0 while the bin is empty (R175, R180). -/
def zWords (x : SpecBin) : List Word := if x.sii = 0 then [0, 0] else [binary32 (x.svRe / x.sii), binary32 (x.svIm / x.sii)]

/-! ### Contexts (R169) -/

/-- The context of a voltage channel, and its change. -/
def ctxOf (s : State) (chi : Nat) : SpecCtx := tgetD s.spec.ctxs chi {}
def modCtx (chi : Nat) (f : SpecCtx → SpecCtx) (s : State) : State :=
  { s with spec := { s.spec with ctxs := tmod s.spec.ctxs chi {} f } }

/-- Spectral settings of a chain. -/
def specChain (s : State) (c : Nat) : SpecChain := tgetD s.spec.chains c {}

/-- The drive tag whose current a voltage channel is correlated with: the bound one, or its own. -/
def currentTag (s : State) (chi : Nat) : Option Nat :=
  let p := posOfChi chi
  if (posOf s p).kind = .dt1 then some p else driveOf s p

/-- No current is bound: no drive tag, or a drive tag whose shunt is not bound (R169, R403). -/
def unbound (s : State) (chi : Nat) : Bool := (currentTag s chi).elim true (fun d => (shuntOf s d).isNone)

/-- Voltage channels that have a context on a position: the cells of a CT12, ch2 of a DT1. -/
def voltChis (s : State) (p : Nat) : List Nat :=
  match (posOf s p).kind with
  | .ct12 => (List.range 12).map (p * 16 + ·)
  | .dt1 => [p * 16 + 2]
  | .none => []

/-- Voltage channels of the contexts bound to a tag: its own, and the cells of every CT12 bound to it. -/
def chisOfTag (s : State) (p : Nat) : List Nat :=
  voltChis s p ++ (if (posOf s p).kind = .dt1 then (boundTo s p).flatMap (fun q => (List.range 12).map (q * 16 + ·)) else [])

/-- Owners of the voltage chain and of the current chain differ (R169). -/
def xown (s : State) (chi : Nat) : Bool :=
  (currentTag s chi).elim false (fun d => ownerOf s (chainOfPos d) != ownerOf s (chainOfChi chi))

/-- A confirmed break stops admission to a cell (R178, R248, R249). -/
def wireBroken (s : State) (chi : Nat) : Bool :=
  (posOf s (posOfChi chi)).kind == .ct12 && cellBroken s (posOfChi chi) (chanOf chi)

/-- Spectral tiles in use. -/
def specTiles (s : State) : List Nat := (List.range 16).filter (fun u => ustate s 2 u == .ready)

/-- Δτ in force: the position delay of the voltage tag less that of the current tag, 0.1 ns; and as it stood in a pick (R175). -/
def skewOf (s : State) (chi : Nat) : Int :=
  (currentTag s chi).elim 0 (fun d => ((posOf s (posOfChi chi)).delay : Int) - (posOf s d).delay)
def skewAt (s : State) (chi pick : Nat) : Int :=
  (currentTag s chi).elim 0 (fun d => (delayAt (posOf s (posOfChi chi)) pick : Int) - delayAt (posOf s d) pick)

/-! ### Cascades (R171, R172, R177, R183) -/

/-- The cascade of a channel. -/
def cascOf (s : State) (chi : Nat) : Cascade := tgetD s.spec.casc chi {}

/-- The span of a settled sample holds a reference switch or a sense-line test current of its tag: the causes that the notices of R112 give. -/
def testDisturbed (s : State) (p m : Nat) : Bool :=
  let l := spanStates s p m
  (posOf s p).kind == .ct12 && (l.any (fun d => d.wire.isSome) || l.any (fun d => d.ref != (l.headD {}).ref))

/-- A focus session mixes its samples by exp(-j2πf_c t), f_c in mHz, 80 µs to a sample. -/
def mixed (f : Focus) (x : Nat × Rat) : Cx := Cx.scale x.2 (expTurn (-(((f.fc * x.1 : Nat) : Rat) / 12500000)))

/-- Samples that a focus session keeps of each stage: a segment of 512, and what a round may add. -/
def focusKeep : Nat := 640

/-- A focus session takes a sample of its voltage or of its current. -/
def Focus.take (f : Focus) (current : Bool) (x : Nat × Rat) : Focus :=
  let put (l : List Stage) : List Stage := pushStages focusKeep (if l.isEmpty then freshStages (f.zoom + 1) x.1 else l) x.1 (mixed f x)
  if f.complete then f else if current then { f with i := put f.i } else { f with v := put f.v }

/-- Bins of a stage of which a segment ends with sample j, with the segment's number (R173). -/
def segsEnding (o j : Nat) : List (Nat × Nat) :=
  ((List.range 64).filter (fun b => stageOf b == o && decide (segLen b ≤ j + 1) && (j + 1 - segLen b) % segHop b == 0)).map
    fun b => (b, (j + 1 - segLen b) / segHop b)

/-- The window of a bin's segments, and the bin's frequency in turns a sample of its stage. -/
def binWindow (b : Nat) : List Rat := (List.range (segLen b)).map (windowOf (segLen b))
def binTurn (b : Nat) : Rat := ((binFreq b * 2 ^ stageOf b : Nat) : Rat) / (12500 * 10 ^ 15 : Nat)

/-- The transform of segment q of a bin from a cascade whose samples are in units of `unit` volts; none where the stage does not hold all of
it (R174). -/
def segTransform (c : Cascade) (unit : Rat) (b q : Nat) : Option Cx :=
  match c.stages[stageOf b]? with
  | some a =>
    let xs := a.slice (q * segHop b) (segLen b)
    if xs.length = segLen b then some (Cx.scale unit (transformAt (binTurn b) (binWindow b) (lineOff (binWindow b) xs))) else none
  | none => none

/-- The limit on a run of gap samples at a frequency in 10^-15 Hz. -/
def gapRunLimit (freq : Nat) : Nat := min 4096 (12500 * 10 ^ 15 / (32 * max 1 freq))

/-- What a span from a to b must satisfy in a voltage or a current, `whole` being the sample since which its history is whole. -/
def sideGood (c : Cascade) (whole a b freq : Nat) : Bool :=
  decide (whole ≤ a) && !hitsSpan c.ovr a b && decide ((inSpan c.gaps a b).sum * 256 ≤ b + 1 - a)
    && (inSpan c.gaps a b).all (fun n => decide (n ≤ gapRunLimit freq))

/-- The sample since which the history of a stage of a cascade is whole. -/
def wholeFrom (l : List Stage) (o : Nat) : Nat := (l[o]?).elim 0 (·.since)

/-- The current context of a drive tag takes each segment that ends with fast-path sample m: its transform, shared by every context bound to
the tag, and its part of the band averages (R169, R173, R175). -/
def stepCurrent (p m : Nat) (s : State) : State :=
  let c := cascOf s (mergedKey p)
  let ended := (List.range 16).flatMap fun o => if m % 2 ^ o = 0 then segsEnding o (m / 2 ^ o) else []
  forEach ended s fun e s =>
    match segTransform c (1 / 10 ^ 9) e.1 e.2 with
    | none => s
    | some u =>
      let x := tgetD s.spec.cur p {}
      let good := (spanOf (stageOf e.1) (e.2 * segHop e.1) (segLen e.1)).elim false fun ab =>
        sideGood c (wholeFrom c.stages (stageOf e.1)) ab.1 ab.2 (binFreq e.1)
      let mem := memOf (specChain s (chainOfPos p)).tMem e.1
      let bins := match shuntOf s p with
        | some sh =>
          if good then tmod x.bins e.1 {} (fun y => y.add mem {} (shuntCurrent sh (binFreq e.1) u) 0 (8 * m + 92) false false) else x.bins
        | none => x.bins
      { s with spec := { s.spec with
        cur := tset s.spec.cur p { bins := bins, segs := tmod x.segs e.1 [] (fun l => ((e.2, u) :: l).take 8) } } }

/-- Pass one sample on from a cascade's input to its stages and to the focus sessions that take it. -/
def passOn (chi : Nat) (x : Nat × Rat) (s : State) : State :=
  let p := posOfChi chi
  let current := chanOf chi == 6 && (posOf s p).kind == .dt1
  let takes (f : Focus) : Bool := if current then currentTag s f.chi == some p else f.chi == chi
  let u := { s.spec with
    casc := tupd s.spec.casc chi (fun c => { c with stages := pushStages 128 c.stages x.1 { re := x.2 } })
    focus := tmap s.spec.focus (fun _ f => if takes f then f.take current x else f) }
  let s1 := { s with spec := u }
  if current then stepCurrent p x.1 s1 else s1

/-- A settled sample of a voltage channel, or of a merged current, enters the engine (R171). -/
def feedSpec (chi : Nat) (x : Sample) (s : State) : State :=
  let p := posOfChi chi
  let c := (cascOf s chi).note x.m x.flags (testDisturbed s p x.m)
  let r := c.input x.m x.value x.flags.gap
  forEach r.2 { s with spec := { s.spec with casc := tset s.spec.casc chi r.1 } } (passOn chi)

/-! ### Restarts (R178) -/

/-- Restart the bins of a context that `p` selects, at an SPC. -/
def SpecCtx.restart (p : Nat → Bool) (spc : Nat) (x : SpecCtx) : SpecCtx :=
  { x with bins := (List.range 64).map fun b => (b, if p b then { restart := true, since := spc } else tgetD x.bins b {}) }

/-- Restart a context. -/
def restartCtx (chi : Nat) (s : State) : State := modCtx chi (SpecCtx.restart (fun _ => true) s.spc) s

/-- Restart a context whose binding or an owner changes: a segment that began before is discarded (R178, R195). -/
def cutCtx (chi : Nat) (s : State) : State := modCtx chi (fun x => { x with cut := s.spc }) (restartCtx chi s)

/-- A stage record is lost (R178): the stage's history refills from zero, the bins of the stage restart, and what reaches back across the refill
is rejected at this stage and at those below it. -/
def loseStage (chi o : Nat) (s : State) : State :=
  let now := (cascOf s chi).next
  let refill (x : Stage × Nat) : Stage :=
    if x.2 < o then x.1 else { x.1 with since := now, hist := if x.2 = o then [] else x.1.hist }
  let s1 := modCtx chi (fun x => { x.restart (fun b => stageOf b == o) s.spc with error := true }) s
  { s1 with spec := { s1.spec with casc := tupd s1.spec.casc chi (fun c => { c with stages := c.stages.zipIdx.map refill }) } }

/-- Restart the focus sessions of a voltage channel. -/
def restartFocus (chi : Nat) (s : State) : State :=
  { s with spec := { s.spec with focus := tmap s.spec.focus fun _ f =>
      if f.chi = chi ∧ ¬ f.complete then { f with ctx := { f.ctx with cut := s.spc, bins := (List.range 256).map fun b => (b, { restart := true, since := s.spc }) }, admitted := 0 }
      else f } }

/-- A tag changes incarnation or identity: every context bound to it restarts. -/
def restartTag (p : Nat) (s : State) : State := forEach (chisOfTag s p) s (fun c s => restartFocus c (restartCtx c s))

/-- The shunt of a tag, or the owner of its chain, changes: every context bound to it restarts, and segments that began before are
discarded. -/
def cutTag (p : Nat) (s : State) : State := forEach (chisOfTag s p) s (fun c s => restartFocus c (cutCtx c s))

/-! ### Admission (R177) -/

/-- The position delay of a tag changed within a span of samples. -/
def delayMoved (x : Posn) (a b : Nat) : Bool := x.delayWas.any (fun e => decide (8 * a < e.1 + 12) && decide (e.1 ≤ 8 * b + 19))

/-- The position behind a channel delivers: released. -/
def delivers (s : State) (chi : Nat) : Bool :=
  (posOf s (posOfChi chi)).state == .released && (currentTag s chi).elim false (fun d => (posOf s d).state == .released)

/-- A segment of span a to b is admitted; `wv` and `wi` are the samples since which the histories of its voltage and its current are whole. -/
def admits (s : State) (chi : Nat) (span : Option (Nat × Nat)) (wv wi freq cut : Nat) : Bool :=
  match span, currentTag s chi with
  | some (a, b), some d =>
    sideGood (cascOf s chi) wv a b freq && sideGood (cascOf s (mergedKey d)) wi a b freq && !hitsSpan (cascOf s chi).disturbed a b
      && !delayMoved (posOf s (posOfChi chi)) a b && !delayMoved (posOf s d) a b && decide (cut ≤ 8 * a)
      && !unbound s chi && !xown s chi && !wireBroken s chi && delivers s chi
  | _, _ => false

/-- Bin width of a focus session and the highest frequency of its band, 10^-15 Hz (R183). -/
def focusStep (z : Nat) : Nat := 12500 * 10 ^ 15 / (512 * 2 ^ z)
def focusTop (f : Focus) : Nat := f.fc * 10 ^ 12 + 127 * focusStep f.zoom

/-- Count a skipped or a rejected segment of a context. -/
def SpecCtx.skip (x : SpecCtx) : SpecCtx := { x with skipped := sat32 (x.skipped + 1) }
def SpecCtx.reject (x : SpecCtx) : SpecCtx := { x with rejected := sat32 (x.rejected + 1) }

/-- Take an admitted segment into bins 0 and up, or into one bin, of a context. -/
def SpecCtx.enter (x : SpecCtx) (first : Nat) (m : Nat → Nat) (gen flip : Nat) (w : InWork) : SpecCtx :=
  { x with
    bins := ((w.v.zip w.i).zipIdx first).foldl
      (fun t y => tmod t y.2 {} (fun z => z.add (m y.2) y.1.1 y.1.2 flip w.lastSpc w.uncal w.interp)) x.bins
    gen := gen, lastSpc := max x.lastSpc w.lastSpc }

/-- The latest flip of a chain's calibration generation (R214). -/
def lastFlip (s : State) (c : Nat) : Nat :=
  (((tgetD s.cal.chains c {}).history.find? (fun h => decide (h.flip ≤ s.spc))).map (·.flip)).getD 0

/-- Key of a focus session. -/
def focusKey (fn id : Nat) : Nat := fn * 65536 + id

/-- A focus session at work, and its change. -/
def modFocus (k : Nat) (f : Focus → Focus) (s : State) : State := { s with spec := { s.spec with focus := tupd s.spec.focus k f } }

/-- A segment's round is over: it is in the results, or rejected. One whose bins restarted in the round is discarded, and so is one of a session
that has gone or is complete. A single session completes with its N-th admitted segment, which is reported on the source of the tile that ran
it (R179, R185, R195). -/
def finishSegment (w : InWork) (s : State) : State :=
  if !w.work.focus then
    let chi := w.work.id
    let c := chainOfChi chi
    if w.at_ < (tgetD (ctxOf s chi).bins w.work.bin {}).since then s
    else if w.good then modCtx chi (fun x => x.enter w.work.bin (memOf (specChain s c).tMem) (genAt s c w.lastSpc) (lastFlip s c) w) s
    else modCtx chi SpecCtx.reject s
  else
    let k := focusKey w.work.fn w.work.id
    match tget s.spec.focus k with
    | none => s
    | some f =>
      let c := chainOfChi f.chi
      if f.complete || decide (w.at_ < max f.start (tgetD f.ctx.bins 0 {}).since) then s
      else if w.good then
        let done := !f.running && decide (f.n ≤ f.admitted + 1)
        let s1 := modFocus k (fun f =>
          { f with ctx := f.ctx.enter 0 (fun _ => f.n) (genAt s c w.lastSpc) (lastFlip s c) w, admitted := f.admitted + 1, complete := done }) s
        if done then raiseNow (if w.work.fn = mgmt then 0xE0 + w.tile else 0x100 + w.work.fn) 0x50 w.work.id s1 else s1
      else modFocus k (fun f => { f with ctx := f.ctx.reject }) s

/-- The segments of the round before are done. -/
def finishRound (s : State) : State := forEach s.spec.work { s with spec := { s.spec with work := [] } } finishSegment

/-- Skip a segment for want of capacity (R190). -/
def skipWork (w : SegmentWork) (s : State) : State :=
  if w.seg.isNone then s
  else if w.focus then modFocus (focusKey w.fn w.id) (fun f => { f with ctx := f.ctx.skip }) s
  else modCtx w.id SpecCtx.skip s

/-! ### Segments that have ended -/

/-- The newest sample that both lists of stages have of a stage. -/
def newestOf (v i : List Stage) (o : Nat) : Option Nat :=
  match v[o]?, i[o]? with
  | some a, some b => if a.hist.isEmpty || b.hist.isEmpty then none else some (min a.newest b.newest)
  | _, _ => none

/-- The first segment of a history that begins at fast-path sample m, and the segment after the last that has ended with sample j. -/
def firstSeg (m o hop : Nat) : Nat := ((m + 2 ^ o - 1) / 2 ^ o + hop - 1) / hop
def nextSeg (j len hop : Nat) : Nat := if j + 1 < len then 0 else (j + 1 - len) / hop + 1

/-- The stages of a context's voltage and of its current. -/
def stagesOf (s : State) (chi : Nat) : List Stage × List Stage :=
  ((cascOf s chi).stages, (currentTag s chi).elim [] (fun d => (cascOf s (mergedKey d)).stages))

/-- Segments of a bin of a context that have ended since the last round: the first and the one after the last. -/
def dueSegs (s : State) (chi b : Nat) : Nat × Nat :=
  let o := stageOf b
  let st := stagesOf s chi
  let hop := segHop b
  match newestOf st.1 st.2 o with
  | some j => (tgetD (ctxOf s chi).nexts b (firstSeg (max (wholeFrom st.1 o) (wholeFrom st.2 o)) o hop), nextSeg j (segLen b) hop)
  | none => (0, 0)

/-- Segments of a focus session that have ended since the last round. -/
def dueFocus (f : Focus) : Nat × Nat :=
  match newestOf f.v f.i f.zoom with
  | some j => (tgetD f.ctx.nexts 0 (firstSeg (max (wholeFrom f.v f.zoom) (wholeFrom f.i f.zoom)) f.zoom 256), nextSeg j 512 256)
  | none => (0, 0)

/-- A segment is past the time by which it must be in the results (R179). -/
def tooLate (s : State) (o last : Nat) : Bool := decide (8 * 2 ^ o * last + 92 + 400 * 2 ^ o < s.spc)

/-! ### Capacity (R189, R190) -/

/-- Segment work of one context in a round of 200 picks at full rate, in stage samples transformed (log 12). -/
def roundWork : Rat := ((List.range 64).map fun b => (25 * segLen b : Nat) / ((segHop b * 2 ^ stageOf b : Nat) : Rat)).sum

/-- Cost of a piece of work: a segment's samples; a focus session costs 64 context-equivalents in every round (R189; log 12). -/
def workCost (w : SegmentWork) : Rat := if w.focus then 64 * roundWork else (segLen w.bin : Nat)

/-- What a tile does in a round at the duty that the shed steps leave, and the capacity of all the tiles in use. -/
def tileCapacity (s : State) : Rat := 262144 * roundWork / (if 2 ≤ s.therm.force then 2 else 1)
def roundCapacity (s : State) : Rat := ((specTiles s).length : Nat) * tileCapacity s

/-- The function a segment is worked for. -/
def workFn (s : State) (w : SegmentWork) : Nat := if w.focus then w.fn else ownerOf s (chainOfChi w.id)

/-- Order within a function: baseline from stage 15 down, then focus sessions by identifier. -/
def workOrder (a b : SegmentWork) : Bool :=
  let key (w : SegmentWork) : Nat := if w.focus then 2 ^ 40 + w.id else (15 - stageOf w.bin) * 2 ^ 30 + w.id * 64 + w.bin
  decide (key a ≤ key b)

/-- A focus session takes part in rounds unless it is complete or suspended by throttle (R192). -/
def focusRuns (s : State) (f : Focus) : Bool := s.therm.force == 0 && !f.complete

/-- A context takes part in rounds: its analysis is not stopped, a current is bound, and both positions deliver. -/
def takesPart (s : State) (chi : Nat) : Bool := !(specChain s (chainOfChi chi)).stopped && !unbound s chi && delivers s chi

/-- Voltage channels of the contexts of every position. -/
def allVolts (s : State) : List Nat := s.line.posns.flatMap (fun e => voltChis s e.1)

/-- The work of a round: the segments of the contexts that take part, and the focus sessions (R190). -/
def roundItems (s : State) : List SegmentWork :=
  ((allVolts s).filter (takesPart s)).flatMap (fun chi => (List.range 64).flatMap fun b =>
      let d := dueSegs s chi b
      (List.range (d.2 - d.1)).map fun i => ({ id := chi, bin := b, seg := some (d.1 + i) } : SegmentWork))
    ++ (s.spec.focus.filter (fun e => focusRuns s e.2)).flatMap fun e =>
      let d := dueFocus e.2
      let w : SegmentWork := { focus := true, fn := e.1 / 65536, id := e.1 % 65536 }
      if d.2 ≤ d.1 then [w] else (List.range (d.2 - d.1)).map fun i => { w with seg := some (d.1 + i) }

/-- What has ended by a round is worked in it or not at all. -/
def advance (s : State) : State :=
  let bins (x : SpecCtx) (due : Nat → Nat × Nat) (n : Nat) : SpecCtx :=
    { x with nexts := (List.range n).foldl (fun t b => if (due b).2 = 0 then t else tset t b (max (due b).1 (due b).2)) x.nexts }
  let s1 := forEach (allVolts s) s fun chi s => modCtx chi (fun x => bins x (dueSegs s chi) 64) s
  { s1 with spec := { s1.spec with focus := tmap s1.spec.focus (fun _ f => { f with ctx := bins f.ctx (fun _ => dueFocus f) 1 }) } }

/-! ### A round (R190) -/

/-- A baseline segment goes to a tile: it is judged, and its transforms are formed (R174, R175, R177). -/
def startBaseline (tile : Nat) (w : SegmentWork) (q : Nat) (s : State) : InWork :=
  let o := stageOf w.bin
  let st := stagesOf s w.id
  let span := spanOf o (q * segHop w.bin) (segLen w.bin)
  let last := q * segHop w.bin + segLen w.bin - 1
  let d := (currentTag s w.id).getD 0
  let v := segTransform (cascOf s w.id) (1 / 10 ^ 7) w.bin q
  let u := ((tgetD (tgetD s.spec.cur d {}).segs w.bin []).find? (fun e => e.1 == q)).map (·.2)
  let turn : Rat := ((binFreq w.bin : Nat) : Rat) * (skewAt s w.id (8 * 2 ^ o * last + 4) : Rat) / 10 ^ 25
  let both := match v, u, shuntOf s d with
    | some v, some u, some sh => some (v.mul (expTurn (-turn)), shuntCurrent sh (binFreq w.bin) u)
    | _, _, _ => none
  let uncal := span.elim false (fun ab => hitsSpan (cascOf s w.id).uncal ab.1 ab.2 || hitsSpan (cascOf s (mergedKey d)).uncal ab.1 ab.2)
  let gaps := span.elim false (fun ab => hitsSpan (cascOf s w.id).gaps ab.1 ab.2 || hitsSpan (cascOf s (mergedKey d)).gaps ab.1 ab.2)
  { work := w, tile := tile, at_ := s.spc, lastSpc := 8 * 2 ^ o * last + 92, uncal := uncal, interp := gaps
    good := both.isSome && admits s w.id span (wholeFrom st.1 o) (wholeFrom st.2 o) (binFreq w.bin) (ctxOf s w.id).cut
    v := (both.map (·.1)).toList, i := (both.map (·.2)).toList }

/-- Frequency of fine bin k of a focus session, 10^-15 Hz, and the window of its segments. -/
def fineFreq (f : Focus) (k : Nat) : Nat := f.fc * 10 ^ 12 + k * focusStep f.zoom - 128 * focusStep f.zoom
def fineWindow : List Rat := (List.range 512).map (windowOf 512)

/-- A focus segment goes to a tile (R183). The samples are mixed, so that a line of zero slope is the signal at f_c: no line is taken off
(DEDUCED, log 11). -/
def startFocus (tile : Nat) (w : SegmentWork) (f : Focus) (q : Nat) (s : State) : InWork :=
  let span := spanOf f.zoom (q * 256) 512
  let last := q * 256 + 511
  let d := (currentTag s f.chi).getD 0
  let xv := ((f.v[f.zoom]?).map (fun a => a.slice (q * 256) 512)).getD []
  let xi := ((f.i[f.zoom]?).map (fun a => a.slice (q * 256) 512)).getD []
  let fine (k : Nat) : Rat := ((k : Nat) - 128 : Rat) / 512
  let skew := skewAt s f.chi (8 * 2 ^ f.zoom * last + 4)
  let v := (List.range 256).map fun k =>
    (Cx.scale (1 / 10 ^ 7) (transformAt (fine k) fineWindow xv)).mul (expTurn (-(((fineFreq f k : Nat) : Rat) * (skew : Rat) / 10 ^ 25)))
  let i := (List.range 256).map fun k =>
    (shuntOf s d).elim {} (fun sh => shuntCurrent sh (fineFreq f k) (Cx.scale (1 / 10 ^ 9) (transformAt (fine k) fineWindow xi)))
  let uncal := span.elim false (fun ab => hitsSpan (cascOf s f.chi).uncal ab.1 ab.2 || hitsSpan (cascOf s (mergedKey d)).uncal ab.1 ab.2)
  let gaps := span.elim false (fun ab => hitsSpan (cascOf s f.chi).gaps ab.1 ab.2 || hitsSpan (cascOf s (mergedKey d)).gaps ab.1 ab.2)
  { work := w, tile := tile, at_ := s.spc, lastSpc := 8 * 2 ^ f.zoom * last + 92, uncal := uncal, interp := gaps
    good := decide (xv.length = 512) && decide (xi.length = 512)
      && admits s f.chi span (wholeFrom f.v f.zoom) (wholeFrom f.i f.zoom) (focusTop f) f.ctx.cut
    v := v, i := i }

/-- A piece of work goes to a tile. -/
def startWork (tile : Nat) (w : SegmentWork) (s : State) : State :=
  let put (x : InWork) (s : State) : State := { s with spec := { s.spec with work := s.spec.work ++ [x] } }
  match w.seg with
  | none => s
  | some q =>
    if w.focus then
      match tget s.spec.focus (focusKey w.fn w.id) with
      | some f => if tooLate s f.zoom (q * 256 + 511) then skipWork w s else put (startFocus tile w f q s) s
      | none => s
    else if tooLate s (stageOf w.bin) (q * segHop w.bin + segLen w.bin - 1) then skipWork w s
    else put (startBaseline tile w q s) s

/-- The tile on which work begins that so much of the round stands before: tiles in use fill in ascending order (DESIGN CHOICE, log 12). -/
def tileAt (s : State) (done : Rat) : Nat := (specTiles s).getD (done / tileCapacity s).floor.toNat ((specTiles s).getLastD 0)

/-- Work what one function asks for within its share; `done` is what the round has worked before. -/
def workShare : Rat → Rat → List SegmentWork → State → State
  | _, _, [], s => s
  | done, room, w :: r, s =>
    if workCost w ≤ room then workShare (done + workCost w) (room - workCost w) r (startWork (tileAt s done) w s)
    else workShare done room r (skipWork w s)

/-- A round: what the one before worked is in the results; the capacity is divided by weight among the functions with work, and each function's
work runs in its order within its share (R190). -/
def runRound (s : State) : State :=
  let s1 := finishRound s
  let mine := roundItems s1
  let of_ (f : Nat) := (mine.filter (fun w => workFn s1 w == f)).mergeSort workOrder
  let fns := ((mine.map (workFn s1)).eraseDups).mergeSort (fun a b => decide (a ≤ b))
  let ask := fns.map fun f => (f, (tgetD s1.ten.weights f {}).spectral, ((of_ f).map workCost).sum)
  let shares := waterFill fns.length (roundCapacity s1) ask
  let share (f : Nat) : Rat := ((shares.find? (fun x => x.1 == f)).map (·.2)).getD 0
  let before (f : Nat) : Rat := ((fns.filter (fun g => decide (g < f))).map share).sum
  forEach fns (advance s1) fun f s => workShare (before f) (share f) (of_ f) s

/-- A spectral tile fails or is fenced (R192): it is reported, and the segments in progress on it are rejected. -/
def loseTile (u : Nat) (s : State) : State :=
  let hit (w : InWork) : InWork := if w.tile = u then { w with good := false } else w
  raiseNow (0xE0 + u) 0x51 0 { s with spec := { s.spec with work := s.spec.work.map hit } }

/-! ### Records (R180 to R185) -/

/-- A bin is stale (R179). -/
def staleBin (s : State) (m b : Nat) (x : SpecBin) : Bool :=
  x.n == 0 || decide (x.lastSpc + m * segHop b * 8 * 2 ^ stageOf b < s.spc)

/-- The band rms of the bound current in a bin, from its current context (R180). -/
def currentBand (s : State) (chi b : Nat) : Nat := (currentTag s chi).elim 0 (fun d => bandOf (tgetD (tgetD s.spec.cur d {}).bins b {}))

/-- `BFLAGS` of a bin whose band rms is `band`, in 10 µA. -/
def binFlags (s : State) (chi : Nat) (m band : Nat) (stale : Bool) (x : SpecBin) : Nat :=
  let k := specChain s (chainOfChi chi)
  let flip := lastFlip s (chainOfChi chi)
  b2n (decide (band < k.iMin * 100)) * 128 + b2n (decide (cohOf x < k.cohMin)) * 64 + b2n stale * 32
    + b2n (decide (x.since < flip) && decide ((if x.flip = flip then x.sinceFlip else 0) < m)) * 16 + b2n x.uncal * 8 + b2n x.interp * 4 + b2n x.restart * 2 + b2n (x.n == 0)

/-- A bin entry. -/
def binEntry (x : SpecBin) (flags band : Nat) : List Word :=
  zWords x ++ [wd ((if x.n = 0 then 0 else cohOf x) * 2 ^ 16 + nEff4 x % 2 ^ 16), wd (flags * 2 ^ 24 + band)]

/-- `RFLAGS`. -/
def recFlags (s : State) (chi : Nat) (e : Bool) : Nat :=
  b2n (unbound s chi) + b2n (xown s chi) * 2 + b2n (wireBroken s chi) * 4
    + b2n ((posOf s (posOfChi chi)).state != .released) * 8 + b2n (specChain s (chainOfChi chi)).stopped * 16
    + b2n (specTiles s).isEmpty * 32 + b2n e * 64

/-- The record of a cell or string context. -/
def specRecord (s : State) (chi : Nat) : List Word :=
  let x := ctxOf s chi
  let str := (posOf s (posOfChi chi)).kind == .dt1
  let skew := skewOf s chi
  let t := (specChain s (chainOfChi chi)).tMem
  [identity chi 0 0 (if str then 6 else 5), wd (recFlags s chi x.error * 2 ^ 16 + x.gen)] ++ wd64 x.lastSpc
    ++ [wd ((currentTag s chi).elim 0 (fun d => mergedKey d * 512)), wdI skew, wd x.skipped, wd x.rejected]
    ++ (List.range 64).flatMap fun b =>
      let y := tgetD x.bins b {}
      binEntry y (binFlags s chi (memOf t b) (currentBand s chi b) (staleBin s (memOf t b) b y) y) (if str then bandOf y else 0)

/-- The record of a focus session. A fine bin is stale when no segment was admitted within its memory. -/
def focusRecord (s : State) (f : Focus) : List Word :=
  let skew := skewOf s f.chi
  [identity f.chi 0 0 7, wd (recFlags s f.chi f.ctx.error * 2 ^ 16 + f.ctx.gen), wd f.fc, wd (f.zoom * 2 ^ 28),
   wd ((currentTag s f.chi).elim 0 (fun d => mergedKey d * 512)), wdI skew, wd f.ctx.skipped, wd f.ctx.rejected]
    ++ (List.range 256).flatMap fun b =>
      let y := tgetD f.ctx.bins b {}
      let stale := y.n == 0 || decide (y.lastSpc + f.n * 256 * 8 * 2 ^ f.zoom < s.spc)
      binEntry y (binFlags s f.chi f.n (bandOf y) stale y) (bandOf y)

/-- What a harvest resets in a record it writes. -/
def SpecCtx.harvested (x : SpecCtx) : SpecCtx :=
  { x with skipped := 0, rejected := 0, error := false, bins := tmap x.bins fun _ y => { y with restart := false } }

/-! ### What the estimator reads (R191, R271) -/

/-- A bin as the estimator takes it: Z_RE in nΩ, to the nearest, γ² and N_EFF; none when the bin is not to be used. -/
def estimatorBin (s : State) (chi b : Nat) : Option (Int × Nat × Nat) :=
  let x := tgetD (ctxOf s chi).bins b {}
  let m := memOf (specChain s (chainOfChi chi)).tMem b
  if x.n = 0 ∨ staleBin s m b x ∨ x.restart ∨ cohOf x < 32768 ∨ nEff4 x < 128 ∨ x.sii = 0 then none
  else some (roundEven (x.svRe / x.sii * 1000000000), cohOf x, nEff4 x)

end Sys2Proof.Machine
end

