-- ==== Sys2Proof/Machine/WordOps.lean ====
section
/-! DEFINITION. The down command words (R10, R47, R48, R231, R251): what each word carries, and its assembly. -/

namespace Sys2Proof.Machine

/-- The no-operation word and the reset word (R47). -/
def noopWord : Word := 0xC0000000
def resetWord : Word := wd (0x80000000 + 0x2B6D * 2 ^ 16)

/-- A power-configuration word. -/
def powerWord (cfg : Bool × Bool) : Word := wd (0x40000000 + b2n cfg.1 * 2 ^ 29 + b2n cfg.2 * 2 ^ 28)

/-- A cell-tag control word. -/
def cellWord (bleed wire : Nat) (dir ref : Bool) (thm hk : Nat) : Word :=
  wd (bleed * 2 ^ 18 + wire * 2 ^ 14 + b2n dir * 2 ^ 13 + b2n ref * 2 ^ 12 + thm * 2 ^ 10 + hk * 2 ^ 7)

/-- A drive-tag setpoint word. -/
def driveWord (outEn dither : Bool) (iSet : Int) (thm hk : Nat) : Word :=
  wd (b2n outEn * 2 ^ 29 + b2n dither * 2 ^ 28 + ofSigned 20 iSet * 2 ^ 8 + thm * 2 ^ 6 + hk * 2 ^ 3)

/-! ### The multiplexer schedule (R48, R251) -/

/-- Thermistor position in force in a pick. -/
def thmAt (s : State) (p q : Nat) : Nat :=
  let k := q / 200
  let a := scanSet s p
  if (posOf s p).kind = .ct12 ∧ (coverOf s p).isSome ∧ ¬ a.isEmpty then a.getD (k % a.length) 0 else k % 4

/-- The use of a CT12's quiet window in force in a pick, with the pick's place in the window. -/
def quietAt (s : State) (p q : Nat) : Option (Nat × QuietUse) :=
  match (diagOf s p).quiet with
  | some (w, u) => if w ≤ q ∧ q < w + 400 then some (q - w, u) else none
  | none => none

/-- The pick lies in the on-dwell of a test: the first dwell of even-numbered tests, the second of odd-numbered ones (R241). -/
def onDwell (odd : Bool) (i : Nat) : Bool := decide (200 ≤ i) == odd

/-- The housekeeping cycle of a CT12 and of a DT1 by dwell within the balance frame (R251). -/
def hkCycle : TagKind → List Nat
  | .ct12 => [4, 0, 0, 3, 4, 2, 0, 1, 3, 6, 0, 4, 7, 3, 0, 2]
  | _ => [0, 3, 4, 2, 0, 1, 3, 4, 0, 3, 4, 2, 0, 1, 3, 4]

/-- Housekeeping position in force in a pick. -/
def hkAt (s : State) (p q : Nat) : Nat :=
  match quietAt s p q with
  | some (i, .test _ _ odd _) => if onDwell odd i then 5 else 4
  | some (_, .injection) => 0
  | some (_, .dropped) => 0
  | none => (hkCycle (posOf s p).kind).getD (q % 3200 / 200) 0

/-! ### Assembly -/

/-- The tag takes normal words: released, on a chain without a park notice. -/
def served_ (s : State) (p : Nat) : Bool := (posOf s p).state == .released && (chainOf s (chainOfPos p)).parkAt.isNone

/-- The bleed mask in force in a pick. -/
def bleedMask (s : State) (p q : Nat) : Nat := ((List.range 12).map fun j => if bleedAt s (cellKey p j) q then 2 ^ j else 0).sum

/-- The multiplexer positions of the schedule in force in a pick, and those that a word for the pick carries: they change only at a boundary
that is a multiple of 200 (R113). -/
def muxAt (s : State) (p q : Nat) : Nat × Nat := (thmAt s p q, hkAt s p q)
def muxOf (s : State) (p q : Nat) : Nat × Nat :=
  if q % 200 = 0 then muxAt s p q else ((posOf s p).posted.thm, (posOf s p).posted.hk)

/-- The switch state that a normal word for pick q puts in force; `off` discards every contribution but the multiplexer positions. -/
def switchState (s : State) (p q : Nat) (off : Bool) : Disturb :=
  let base : Disturb := { at_ := q, thm := (muxOf s p q).1, hk := (muxOf s p q).2 }
  if off || (posOf s p).kind != .ct12 then base
  else
    match quietAt s p q with
    | some (i, .test tw _ odd _) => { base with wire := if onDwell odd i then some tw else none }
    | some (i, .injection) => { base with ref := decide (200 ≤ i) }
    | some (_, .dropped) => base
    | none => { base with bleed := bleedMask s p q }

/-- The normal word of a switch state and, for a drive tag, of the posted setpoint. -/
def wordOf (x : Posn) (d : Disturb) (off : Bool) : Word :=
  if x.kind = .dt1 then
    driveWord (x.posted.outEn && !off) (x.posted.ditherEn && !off) (if off then 0 else x.posted.iSet) d.thm d.hk
  else cellWord d.bleed (d.wire.getD 15) false d.ref d.thm d.hk

/-- A word with the multiplexer positions taken out: the state it holds at the tag. -/
def heldState (x : Posn) (w : Word) : Nat := if x.kind = .dt1 then bits w 29 8 else bits w 29 12

/-- Bound shunt resistance of a drive tag, µΩ. -/
def rshOf (s : State) (d : Nat) : Nat := (shuntOf s d).elim 1 (fun x => max 1 x.rsh)

/-- The current of an `I_SET`, µA, at the channel's own terminals (R289). -/
def currentOfSet (s : State) (d : Nat) (iSet : Int) : Int := tdivI (iSet * 400000000000) (rshOf s d * 524288 : Nat)

/-- Amplitude of a dither, µA (R187). -/
def ditherAmpl (s : State) (d : Nat) : Int := ((tgetD s.spec.dither d {}).ampl : Int) * 400000000000 / (rshOf s d * 65536 : Nat)

/-- `DITHER_EN` of a setpoint word (R188). -/
def ditherFlag (s : State) (d : Nat) (iSet : Int) : Bool :=
  let x := tgetD s.spec.dither d {}
  let g := tgetD s.chg.drives d {}
  let i := match shuntOf s d with
    | some sh => polar sh (currentOfSet s d iSet)
    | none => currentOfSet s d iSet
  let a := ditherAmpl s d
  let mag : Int := i.natAbs
  let live := g.pst == .running || g.pst == .hold || g.pst == .stopping
  let slc : Bool := match coverOf s d with
    | some (_, w) =>
      decide (mag + a ≤ (if 0 ≤ i then w.iChg else w.iDis : Nat) * 1000)
        && (if 0 < i + a ∨ 0 < i - a then !w.dir.testBit 1 else true) && (if i + a < 0 ∨ i - a < 0 then !w.dir.testBit 0 else true)
    | none => true
  x.on && x.applied && decide (a ≤ mag) && slc && (!live || decide (mag + a ≤ g.ceil)) && (restSince s d).isNone

/-- Record the switch state of a normal word, newest first. -/
def noteSwitch (p : Nat) (d : Disturb) (s : State) : State :=
  let l := (disturbOf s p).filter (fun e => decide (e.at_ < d.at_))
  let same : Bool := match l with
    | e :: _ => { e with at_ := d.at_ } == d
    | [] => false
  let l1 := if same then l else (d :: l).take 64
  { s with loom := { s.loom with disturb := tset s.loom.disturb p l1 } }

/-- Put a word into the frame of a pick. -/
def putWord (p frame : Nat) (w : Word) (f : Posted → Posted) (s : State) : State :=
  modPos p (fun x => { x with posted := f { x.posted with word := w, wordPick := frame } }) s

/-- Add a frame to the runs of frames that carried `OUT_EN` = 1; runs that ended long before go. -/
def addRun (frame : Nat) (l : List (Nat × Nat)) : List (Nat × Nat) :=
  match l.filter (fun e => decide (frame < e.2 + 16000)) with
  | e :: r => if frame ≤ e.2 + 1 then (e.1, max e.2 frame) :: r else (frame, frame) :: e :: r
  | [] => [(frame, frame)]

/-- Send a normal word. -/
def putNormal (p frame : Nat) (off : Bool) (s : State) : State :=
  let y := posOf s p
  let x : Posn := { y with posted := { y.posted with ditherEn := y.kind == .dt1 && ditherFlag s p y.posted.iSet } }
  let d := switchState s p (frame + 1) off
  let w := wordOf x d off
  noteSwitch p d (putWord p frame w (fun y =>
    { y with
      normal := w, bleed := d.bleed, testWire := d.wire.getD 15, refSel := d.ref, thm := d.thm, hk := d.hk
      outPick := if x.kind = .dt1 ∧ bits w 29 29 = 1 then some frame else y.outPick
      outRuns := if x.kind = .dt1 ∧ bits w 29 29 = 1 then addRun frame y.outRuns else y.outRuns }) s)

/-- An off word discards a calibration injection that it interrupts (R10, R227), and an open-wire test becomes invalid (R256). The multiplexer
positions of the window stay (R48). -/
def dropInjection (p q : Nat) (s : State) : State :=
  match quietAt s p q with
  | some (_, .test ..) => modDiag p (fun d => { d with spoilt := true }) s
  | some (_, .injection) => modDiag p (fun d => { d with quiet := d.quiet.map fun e => (e.1, .dropped) }) s
  | _ => s

/-- Send a waiting reset or power-configuration word. -/
def putSpecial (p frame : Nat) (s : State) : Option State :=
  let x := posOf s p
  if x.posted.reset then some (putWord p frame resetWord (fun y => { y with reset := false }) s)
  else match x.posted.power with
    | some cfg => some (modPos p (fun x => { x with feedB := cfg.1, relayOff := cfg.2 })
        (putWord p frame (powerWord cfg) (fun y => { y with power := none }) s))
    | none => none

/-- A tag holds the off state: its latest normal word switches nothing on. -/
def holdsOff (s : State) (p q : Nat) : Bool :=
  let x := posOf s p
  heldState x x.posted.normal == heldState x (wordOf x (switchState s p q true) true)

/-- The frame of a pick stands in the notice of a park: picks p to p + 15 (R73). -/
def inNotice (x : Chain) (frame : Nat) : Bool := x.parkAt.elim false (fun a => decide (a.1 ≤ frame + 16))

/-- Assemble the word of a tag for the frame that is being sent (R10). The safety off word comes first, and the other word waits for the next
pick (R76); under a demand that stands, that word goes once the tag holds the off state, which it keeps through the word (R48; DEDUCED,
log 81). In the notice of a park every word is an off word (R73). A reset or power configuration already in this frame stays. Enumeration frames carry
no operation, and so does a frame to a tag whose type is not known yet, but for its power configuration (R53). -/
def assemble (p : Nat) (s : State) : State :=
  let x := posOf s p
  let c := chainOfPos p
  let ch := chainOf s c
  let frame := inForce s c - 1
  let special := x.posted.wordPick == frame && (bits x.posted.word 31 30 == 1 || bits x.posted.word 31 30 == 2)
  let enumerating := (ch.proc.map (fun q => q.counted.isNone)).getD false
  let typed := x.kind != .none
  let demanded := typed && safetyOff s p
  if special then s
  else if typed && inNotice ch frame then putNormal p frame true (dropInjection p (frame + 1) s)
  else if demanded && !holdsOff (dropInjection p (frame + 1) s) p (frame + 1) then putNormal p frame true (dropInjection p (frame + 1) s)
  else if enumerating && !x.posted.reset then putWord p frame noopWord id s
  else if !typed then (putSpecial p frame s).getD (putWord p frame noopWord id s)
  else if demanded then
    let s1 := dropInjection p (frame + 1) s
    (putSpecial p frame s1).getD (putNormal p frame true s1)
  else match putSpecial p frame s with
    | some s1 => s1
    | none =>
      if x.state = .lost ∧ x.kind = .ct12 then putWord p frame noopWord id s
      else putNormal p frame (!served_ s p) s

/-- Post a drive tag's setpoint: current in units of 2^-19 of full scale, and `OUT_EN`; the word under assembly takes it (R290). -/
def postDrive (p : Nat) (iSet : Int) (outEn : Bool) (s : State) : State :=
  let s1 := modPos p (fun x => { x with posted := { x.posted with iSet := iSet, outEn := outEn } }) s
  if (posOf s1 p).posted.wordPick = inForce s1 (chainOfPos p) - 1 then assemble p s1 else s1

/-- A tag that takes no normal word: its chain sends no frames, or it is a lost CT12. -/
def unscheduled (s : State) (p : Nat) : Bool :=
  let x := posOf s p
  x.kind != .none && (!powered (chainOf s (chainOfPos p)) || (x.state == .lost && x.kind == .ct12))

/-- The dwells of tags that take no normal word belong to the positions of the schedule as well (R48, R146). -/
def noteSchedule (s : State) : State :=
  if s.spc % 200 = 0 then
    forEach (tkeys s.line.posns (fun p _ => unscheduled s p)) s fun p s =>
      noteSwitch p { at_ := s.spc, thm := (muxAt s p s.spc).1, hk := (muxAt s p s.spc).2 } s
  else s

/-- Assemble every word and `SPO_ALL` of the chains whose frames run. -/
def assembleAll (s : State) : State :=
  forEach (tkeys s.line.chains (fun _ x => powered x)) (noteSchedule s) fun c s =>
    forEach (occPosns s c) (modChain c (fun x => { x with spoAll := spoAll s c }) s) assemble

end Sys2Proof.Machine
end

