-- ==== Sys2Proof/Machine/EstOps.lean ====
section
/-! DEFINITION. Operations of the estimator: profiles, coulomb integration, anchors, the step, learning, hibernation
(R257 to R286). -/

namespace Sys2Proof.Machine

/-! ### Profiles (R258) -/

/-- Key of a profile. -/
def profKey (fn n : Nat) : Nat := fn * 256 + n

/-- The profile bound to a CT12 position. -/
def profileOf (s : State) (p : Nat) : Option Profile := (tget s.est.bound p).bind (tget s.est.profiles)

/-- OCV row at a temperature in m°C, in 100 nV: linear between rows, the nearest row outside them. -/
def ocvRow (g : Profile) (t : Rat) : List Rat :=
  let temp (i : Nat) : Rat := (geti g.tRow i * 1000 : Int)
  let row (i : Nat) : List Rat := (g.ocv.getD i []).map (fun v => ((v * 1000 : Nat) : Rat))
  if t ≤ temp 0 then row 0
  else if temp 3 ≤ t then row 3
  else
    let i := if t < temp 1 then 0 else if t < temp 2 then 1 else 2
    let f := (t - temp i) / (temp (i + 1) - temp i)
    (row i).zipWith (fun a b => a + (b - a) * f) (row (i + 1))

/-- The inverse of a row at v: SOC in ppm, and the slope in µV per ppm of the 1 % segment that holds it. Beyond the ends it is 0 or
1,000,000 with the slope of the end segment. -/
def ocvInverse (row : List Rat) (v : Rat) : Rat × Rat :=
  let at_ (i : Nat) : Rat := row.getD i 0
  let slope (i : Nat) : Rat := (at_ (i + 1) - at_ i) / 100000
  if v ≤ at_ 0 then (0, slope 0)
  else match (List.range 100).find? (fun i => decide (v < at_ (i + 1))) with
    | some i => (10000 * (i + (v - at_ i) / (at_ (i + 1) - at_ i)), slope i)
    | none => (1000000, slope 99)

/-- 65,536 e^(-60/tau), rounded: a series of 30 terms with 80 fractional bits (R265; log 8). -/
def aRelOf (tau : Nat) : Nat :=
  let x : Int := 60 * 2 ^ 80 / (max 1 tau : Nat)
  let e := ((List.range 30).foldl (fun (a : Int × Int) k => (a.1 + a.2, -(a.2 * x / 2 ^ 80) / (k + 1 : Nat))) (0, 2 ^ 80)).1
  (roundDiv e (2 ^ 64)).toNat

/-! ### String quantities (R259 to R262) -/

/-- What the estimator holds of a drive tag, and its change. -/
def strOf (s : State) (d : Nat) : Str := tgetD s.est.strs d {}
def modStr (d : Nat) (f : Str → Str) (s : State) : State := { s with est := { s.est with strs := tmod s.est.strs d {} f } }

/-- `I_NOM` as a shunt voltage, nV: 0.4 V by default (R259). -/
def nomNv (s : State) (d : Nat) : Nat := (strOf s d).iNom.elim 400000000 (fun i => i * rshOf s d)

/-- A shunt value with the polarity bound. -/
def signed (s : State) (d : Nat) (v : Int) : Int := (shuntOf s d).elim v (fun x => polar x v)

/-- A count of integrator units as mC (R260): none is converted while no shunt is bound (R403). -/
def asCharge (s : State) (d : Nat) (q : Rat) : Rat := (shuntOf s d).elim 0 (fun x => q * 8 / (100000 * max 1 x.rsh : Nat))

/-- The counts of a drive tag now. -/
def snapNow (x : Str) (at_ : Nat) : Snap := { at_ := at_, integ := x.integ, chg := x.chg, bias := x.gapBias, gaps := x.nGapq, runs := x.longRuns }

/-- The counts at a boundary at the start of a second; those of now when none is held for it. -/
def snapAt (x : Str) (b : Nat) : Snap := (x.snaps.find? (fun y => y.at_ == b)).getD (snapNow x b)

/-- Set a flag in every context of a string. -/
def modCells (s : State) (d : Nat) (f : Cell → Cell) : Tbl Cell :=
  ((boundTo s d).flatMap fun p => (List.range 12).map (cellKey p)).foldl (fun t k => tupd t k f) s.est.cells

/-- Add a settled sample of the merged current to the integrator (R260), with the gap runs of R261. A run before the first valid sample
is not integrated. -/
def feedInteg (d : Nat) (x : Sample) (s : State) : State :=
  let y := strOf s d
  let v := signed s d x.value
  let y1 := if 8 * x.m % 100000 = 0 then { y with snaps := (snapNow y (8 * x.m) :: y.snaps).take 12 } else y
  if x.flags.gap then modStr d (fun _ => { y1 with gapRun := y1.gapRun + 1 }) s
  else
    let n := y1.gapRun
    let run : Int × Rat := match y1.lastValid with
      | some a =>
        if n = 0 then (0, 0)
        else if n ≤ 12500 then (tdivI (n * (a + v)) 2, ((v - a).natAbs : Rat) * n / 2)
        else (250 * a, ((max a.natAbs v.natAbs * (n - 250) : Nat) : Rat))
      | none => (0, 0)
    let add := run.1 + v
    let s1 := modStr d (fun _ =>
      { y1 with
        integ := y1.integ + add, chg := y1.chg + asCharge s d add, gapBias := y1.gapBias + asCharge s d run.2
        lastValid := some v, gapRun := 0, nGapq := y1.nGapq + n
        longRuns := if 12500 < n then y1.longRuns + 1 else y1.longRuns, gapq := y1.gapq || decide (0 < n) }) s
    if n = 0 then s1 else { s1 with est := { s1.est with cells := modCells s1 d (fun c => { c with gapq := true }) } }

/-- A settled sample of a CT12 with or without a gap: a run of 1 s is an outage of its cells (R284). -/
def noteCellGap (p : Nat) (gap : Bool) (s : State) : State :=
  let n := tgetD s.est.gapRuns p 0
  let s1 := { s with est := { s.est with gapRuns := tset s.est.gapRuns p (if gap then n + 1 else 0) } }
  if !gap && decide (12500 ≤ n) then
    { s1 with est := { s1.est with
        cells := (List.range 12).foldl (fun t j => tupd t (cellKey p j) (fun c => { c with outage := true })) s1.est.cells } }
  else s1

/-- An outage of a position: its cells are compared when it returns (R284). -/
def cellOutage (p : Nat) (s : State) : State :=
  { s with est := { s.est with
      cells := (List.range 12).foldl (fun t j => tupd t (cellKey p j) (fun c => { c with outage := true })) s.est.cells } }

/-! ### Records consumed (R262) -/

/-- The committed record of an interval of an entry. -/
def recOf (s : State) (sixty : Bool) (key j : Nat) : Option Acc :=
  ((tgetD (stdTab s sixty) key []).find? (fun r => r.j == j && r.committed)).map (·.acc)

/-- Two records together. -/
def joinAcc (a b : Acc) : Acc :=
  { a with count := a.count + b.count, sum := a.sum + b.sum, sumsq := a.sumsq + b.sumsq, nGap := a.nGap + b.nGap
           flags := a.flags ||| b.flags }

/-- The records of the 1 s intervals that a step consumes. -/
def stepAcc (s : State) (key : Nat) (js : List Nat) : Acc := (js.filterMap (recOf s false key)).foldl joinAcc {}

/-- Mean of a record, none when it is empty. -/
def meanOf (a : Acc) : Option Int := if a.count = 0 then none else some (tdivI a.sum a.count)

/-- Class of an interval (R262). An interval with no valid sample is a rest. -/
inductive IClass where
  | rest
  | charge
  | discharge
  | other
  deriving DecidableEq, Repr

/-- Class of a merged-current record of a drive tag. -/
def classOf (s : State) (d : Nat) (a : Acc) : IClass :=
  let lim : Int := 5 * nomNv s d * a.count
  let sum := signed s d a.sum * 1000
  if lim < sum then .charge
  else if sum < -lim then .discharge
  else if a.sumsq * 10 ^ 6 ≤ a.count * (5 * nomNv s d) ^ 2 then .rest
  else .other

/-- Key of the merged current's standard window, and of a CT12's thermistor. -/
def currentKey (d : Nat) : Nat := entryKey (mergedKey d) 0
def thermKey (s : State) (p : Nat) : Nat := entryKey (p * 16 + 13) (stdPos s (p * 16 + 13))

/-- Bring the rest of a string up to a committed 1 s interval (R262, R264): in every state of its function. -/
def noteRest (j d : Nat) (s : State) : State :=
  let a := 100000 * j
  let x := strOf s d
  if classOf s d (stepAcc s (currentKey d) [j]) = .rest then modStr d (fun x => { x with restFrom := some (x.restFrom.getD a) }) s
  else match x.restFrom with
    | some b => modStr d (fun x => { x with restFrom := none, restEnded := some (b, a) }) s
    | none => s

/-! ### Contexts (R257, R283) -/

/-- A cell context that leaves its initial state: a released CT12 with a profile, bound to a drive tag with a shunt, both chains of one
owner (R257, R403). -/
def hasCell (s : State) (chi : Nat) : Bool :=
  let p := posOfChi chi
  let x := posOf s p
  x.kind == .ct12 && x.state == .released && decide (chanOf chi < 12) && !unbound s chi && (profileOf s p).isSome && !xown s chi

/-- A context in its initial state under a profile. -/
def Cell.initial (c : Cell) (g : Profile) : Cell :=
  { fresh := true, cap := g.cRated, uCap := g.cRated * 5 / 100, aRel := aRelOf g.tauRel, idchg := c.idchg, lastV := c.lastV
    outage := c.outage, learnOff := c.learnOff, stepSpc := c.stepSpc, realAt := c.realAt }

/-- The context of a cell: in its initial state until its first step. -/
def cellOf (s : State) (chi : Nat) : Cell :=
  match tget s.est.cells chi, profileOf s (posOfChi chi) with
  | some c, some g => if c.fresh then c.initial g else c
  | some c, none => c
  | none, some g => Cell.initial {} g
  | none, none => {}

/-- Put a context. -/
def putCell (chi : Nat) (c : Cell) (s : State) : State := { s with est := { s.est with cells := tset s.est.cells chi c } }

/-- Restart the context of a cell; `id` says that a change of identity or owner is the cause. -/
def restartCell (id : Bool) (chi : Nat) (s : State) : State :=
  let c : Cell := { idchg := id, realAt := s.spc }
  { s with est := { s.est with cells := tset s.est.cells chi c, half := tset s.est.half chi c } }

/-- The contexts of a CT12 start in their initial state at its release (R283); those that the position holds already go on. -/
def startCells (p : Nat) (s : State) : State :=
  forEach (List.range 12) s fun j s => if thas s.est.cells (cellKey p j) then s else putCell (cellKey p j) { realAt := s.spc } s

/-- Restart the contexts of a CT12's cells. -/
def restartCells (id : Bool) (p : Nat) (s : State) : State := forEach (List.range 12) s (fun j s => restartCell id (cellKey p j) s)

/-- The context of a string restarts for a change of identity or owner; its integrator goes on (R260, R283). -/
def restartString (d : Nat) (s : State) : State :=
  modStr d (fun x =>
    { x with now := {}, half := {}, restFrom := none, restEnded := none, rRef := 0, gapq := false, idchg := true, error := false }) s

/-- A change of identity of a drive tag: its string context restarts and its integrator is cleared (R260, R283). -/
def clearString (d : Nat) (s : State) : State :=
  modStr d (fun x => { x with integ := 0, clearedAt := s.spc, nGapq := 0 }) (restartString d s)

/-- Disqualify the open learning intervals of cells for a cause (R273). -/
def disqualify (bit : Nat) (chis : List Nat) (s : State) : State :=
  { s with est := { s.est with cells := chis.foldl (fun t k => tupd t k (fun c =>
      { c with learn := c.learn.map (fun l => { l with dq := l.dq ||| 2 ^ bit }) })) s.est.cells } }

/-- Bits of the disqualifiers, in the order of the table of R273. -/
def DQ_SPAN : Nat := 0
def DQ_ANCHOR_U : Nat := 1
def DQ_SYNTH : Nat := 2
def DQ_REVERSE : Nat := 3
def DQ_THRU : Nat := 4
def DQ_TEMP : Nat := 5
def DQ_AGE : Nat := 6
def DQ_GAPQ : Nat := 7
def DQ_UNCAL : Nat := 8
def DQ_BLEED : Nat := 9
def DQ_IDENT : Nat := 10
def DQ_SUSP : Nat := 11
def DQ_THROTTLE : Nat := 12
def DQ_OUTLIER : Nat := 13

/-- Source of an estimator event about a chain: the owner's summary, or the source named (R285). -/
def estEvent (chi named kind detail : Nat) (s : State) : State := raiseChi chi named kind detail s

/-! ### Anchors (R264 to R267) -/

/-- u of a context, ppm. -/
def uncOf (c : Cell) : Nat := isqrt c.ur2 + c.ub

/-- Combine an anchor with the estimate (R267): A in 10^-12, u in ppm. -/
def foldAnchor (a : Int) (u : Nat) (c : Cell) : Cell :=
  let e : Nat := (uncOf c) ^ 2
  let w : Nat := (max 1 u) ^ 2
  { c with est := tdivI (c.est * w + a * e) (e + w : Nat), ur2 := e * w / (e + w), ub := 0 }

/-- The SOC that a voltage in 100 nV maps to, 10^-12, and the uncertainty of a variance in µV² there; none where the slope is 0. -/
def mapOcv (g : Profile) (t v : Rat) (var : Rat) : Option (Int × Nat) :=
  let r := ocvInverse (ocvRow g t) v
  if r.2 ≤ 0 then none else some ((r.1 * 1000000).floor, isqrt (var / (r.2 * r.2)).floor.toNat)

/-- Means of the four most recent 60 s records of an entry that lie wholly within a rest, oldest first; none when they are not held
(R264). -/
def restMeans (s : State) (key a b : Nat) (clean : Bool) : Option (List Int) :=
  let last := b / 6000000
  let ks := (List.range 4).map (fun i => last - 4 + i)
  let l := ks.filterMap fun k => match recOf s true key k with
    | some r => if r.count = 0 ∨ (clean ∧ r.flags &&& (1 + 4 + 8 + 16) ≠ 0) then none else meanOf r
    | none => none
  if 4 ≤ last ∧ a ≤ 6000000 * (last - 4) ∧ l.length = 4 then some l else none

/-- Relaxation over four minutes (R264): a, whether it was measured, V∞ and u_fit, in 2^-16 and 100 nV. -/
def relax (aRel : Nat) (v : List Int) : Nat × Bool × Int × Nat :=
  let d1 := geti v 1 - geti v 0
  let d2 := geti v 2 - geti v 1
  let m := if d1 = 0 then 0 else tdivI (d2 * 65536) d1
  let ok := 500 ≤ d1.natAbs ∧ 0 < m ∧ m ≤ 62259
  let a := if ok then m.toNat else aRel
  (a, decide ok, geti v 3 + tdivI ((geti v 3 - geti v 2) * a) (65536 - a), (geti v 3 - (geti v 2 + tdivI (d2 * a) 65536)).natAbs)

/-! ### Learning (R273, R274) -/

/-- A context of a small configuration learns from full to empty alone (R3). -/
def small (s : State) : Bool := s.otp.variant != .f

/-- Disqualifiers of an interval at its close. -/
def closeBits (s : State) (l : Learn) (typ : Nat) (a2 : Int) (u2 cap now : Nat) (cMeas : Nat) : Nat :=
  let sm := small s
  let net := l.net.natAbs
  let opposite := if 0 ≤ l.net then l.neg else l.pos
  let bit (i : Nat) (b : Bool) : Nat := if b then 2 ^ i else 0
  l.dq ||| bit DQ_SPAN (!sm && decide ((a2 - l.a).natAbs < 300000 * 1000000)) ||| bit DQ_ANCHOR_U (decide (15000 < l.u) || decide (15000 < u2))
    ||| bit DQ_SYNTH (typ == 4) ||| bit DQ_REVERSE (sm && decide (cap * 3600 * 5 < opposite * 1000))
    ||| bit DQ_THRU (!sm && decide (3 * net < l.abs)) ||| bit DQ_AGE (decide (168 * 360000000 < now - l.spc))
    ||| bit DQ_GAPQ (decide (l.samples < l.gaps * 1000)) ||| bit DQ_BLEED (decide (net * 2 < l.bled * 100))
    ||| bit DQ_OUTLIER (decide (cap < (max cMeas cap - min cMeas cap) * 10))

/-- Close the open interval of a context at an anchor, and enter its result (R274). An interval of a small configuration that does not go
from full to empty has no result. -/
def closeLearn (s : State) (typ : Nat) (a2 : Int) (u2 now : Nat) (c : Cell) : Cell × Bool :=
  match c.learn with
  | none => (c, false)
  | some l =>
    let c0 := { c with learn := none }
    if c.learnOff ∨ (small s ∧ typ ≠ 4 ∧ ¬ (l.full ∧ typ = 3)) then (c0, false)
    else
      let span := a2 - l.a
      let cm := if span = 0 then 0 else (tdivI (l.net * 10 ^ 12) (span * 3600)).toNat
      let uq := isqrt (l.u ^ 2 + u2 ^ 2 + (isqrt l.r2 + l.bias) ^ 2)
      let um := if span = 0 then 0 else cm * uq * 1000000 / span.natAbs
      let bits := closeBits s l typ a2 u2 c.cap now cm
      let code := ((List.range 14).find? (fun i => bits.testBit i)).elim 0 (· + 1)
      let entry : LearnLog := { code := code, c := cm, u := um, opened := l.spc, closed := now }
      let c1 := { c0 with log := (entry :: c.log).take 8 }
      if code ≠ 0 then (c1, false)
      else
        let e := c.uCap ^ 2
        let w := (max 1 um) ^ 2
        let new := (c.cap * w + cm * e) / (e + w)
        let step := c.cap * 5 / 100
        ({ c1 with cap := max 1 (min (c.cap + step) (max (c.cap - step) new)), uCap := isqrt (e * w / (e + w)), learned := true }, true)

/-- Open an interval at a qualifying anchor: rest, full or empty, and on a small configuration a full one alone. -/
def openLearn (s : State) (typ : Nat) (a : Int) (u now : Nat) (c : Cell) : Cell :=
  if c.learnOff ∨ ¬ (typ = 1 ∨ typ = 2 ∨ typ = 3) ∨ (small s ∧ typ ≠ 2) then c
  else { c with learn := some { spc := now, a := a, u := u, full := typ == 2 } }

/-- Apply an anchor of a type to a cell (R267, R273), at the start of a step. -/
def applyAnchor (chi typ : Nat) (a : Int) (u : Nat) (s : State) (c : Cell) : Cell × State :=
  let l := closeLearn s typ a u s.spc c
  let c1 := foldAnchor a u (openLearn s typ a u s.spc l.1)
  let real := typ = 1 ∨ typ = 3
  let c2 := { c1 with
    aType := typ, anchorSpc := s.spc, valid := !c1.swapSusp, gapq := false, restored := false, synth := typ == 4
    realAt := if real then s.spc else c1.realAt, synthAt := if real then none else if typ = 4 then some s.spc else c1.synthAt
    noAnchor := if real then false else typ == 4 || c1.noAnchor }
  (c2, if l.2 then estEvent chi 0x521 0x82 0 s else s)

/-- When the last cell of a function loses `NO_ANCHOR`, an event says so (R268). -/
def noteAnchored (fn : Nat) (s : State) : State :=
  if s.est.noAnchorFns.contains fn ∧ ¬ s.est.cells.any (fun e => e.2.noAnchor && ownerOf s (chainOfChi e.1) == fn) then
    raiseNow (if fn = mgmt then 0x520 else 0x100 + fn) 0x81 0
      { s with est := { s.est with noAnchorFns := s.est.noAnchorFns.filter (· != fn) } }
  else s

/-- A rest anchor (R264, R265) from the rest [a, b) of the string. -/
def restAnchor (chi a b : Nat) (g : Profile) (s : State) (c : Cell) : Cell × State :=
  let p := posOfChi chi
  let c0 := { c with restDone := some a, load := none }
  match restMeans s (entryKey chi 0) a b true, restMeans s (thermKey s p) a b false with
  | some v, some t =>
    let r := relax c.aRel v
    let vinf := r.2.2.1
    let var : Rat := ((r.2.2.2 ^ 2 : Nat) : Rat) / 100 + ((g.uOcv ^ 2 : Nat) : Rat)
    let c1 := if r.2.1 then { c0 with aRel := ((c.aRel : Int) + tdivI ((r.1 : Int) - c.aRel) 8).toNat } else c0
    let c2 := match c.load with
      | some (vl, il) =>
        if il = 0 then c1
        else
          let x : Int := tdivI ((vinf - vl) * 100000) il - c1.rLf
          { c1 with rRel := ((c1.rRel : Int) + tdivI (x - c1.rRel) 8).toNat }
      | none => c1
    match mapOcv g ((t.sum : Rat) / 4) vinf var with
    | some (x, u) => if u ≤ 100000 then applyAnchor chi 1 x u s c2 else (c2, s)
    | none => (c2, s)
  | _, _ => (c0, s)

/-- The three 60 s intervals that end with k have current means within 20 % of one another: their means, newest first. -/
def steadyMeans (s : State) (d k : Nat) : Option (List Int) :=
  let l := ([k, k - 1, k - 2].filterMap (recOf s true (currentKey d))).filterMap meanOf
  let m := (l.map Int.natAbs).foldl max 0
  if 2 ≤ k ∧ l.length = 3 ∧ l.all (fun a => l.all (fun b => decide ((a - b).natAbs * 100 ≤ 20 * m))) then some (l.map (signed s d)) else none

/-- nV across the shunt as mA. -/
def asMilliamps (s : State) (d : Nat) (v : Int) : Int := tdivI v (rshOf s d)

/-! ### The step (R262 to R272) -/

/-- The 1 s intervals that step j of a context consumes, whose latest step ended at `after`: two when the refresh rate is shed, and none
twice. -/
def stepSpan (s : State) (j after : Nat) : List Nat :=
  if 4 ≤ s.therm.force ∧ 0 < j ∧ after ≤ 100000 * (j - 1) then [j - 1, j] else [j]

/-- Compare the cells of a position after an outage (R284). -/
def swapCheck (p : Nat) (js : List Nat) (s : State) : Bool :=
  let diffs := (List.range 12).filterMap fun j =>
    match tget s.est.cells (cellKey p j), meanOf (stepAcc s (entryKey (cellKey p j) 0) js) with
    | some c, some v => if c.outage then c.lastV.map (fun x => (v - x).natAbs) else none
    | _, _ => none
  diffs.any (fun x => decide (500000 < x)) || decide (3 ≤ (diffs.filter (fun x => decide (100000 < x))).length)

/-- Set swap suspicion on every cell of a position, with its event. -/
def suspectSwap (p : Nat) (s : State) : State :=
  let cells := (List.range 12).foldl (fun t j => tupd t (cellKey p j) (fun c => { c with swapSusp := true, valid := false, outage := false })) s.est.cells
  estEvent (p * 16) 0x522 0x83 0 { s with est := { s.est with cells := cells } }

/-- A resistance at 25 °C: the measured one over 1 + R_TC (T - 25 °C). -/
def at25 (g : Profile) (t : Option Int) (r : Nat) : Nat :=
  match t with
  | some x =>
    let den : Int := 10 ^ 9 + g.rTc * (x - 25000)
    if den ≤ 0 then r else (tdivI ((r : Int) * 10 ^ 9) den).toNat
  | none => r

/-- Take R_OHM and R_LF of a cell from its spectral context; the previous value stands where a bin is not taken (R271, R272). -/
def takeResistance (s : State) (chi : Nat) (g : Profile) (t : Option Int) (c : Cell) : Cell :=
  let ohm := estimatorBin s chi g.rBin
  let lf := estimatorBin s chi 23
  let c1 := match ohm with
    | some (z, _, _) =>
      let r25 := at25 g t z.toNat
      { c with rOhm := z.toNat, rOhm25 := r25, rRef := if c.rRef = 0 then r25 else c.rRef }
    | none => c
  let c2 := match lf with
    | some (y, coh, n4) =>
      let u := isqrt ((65536 - coh) * (y.toNat ^ 2) * 4000 / (2 * 947 * max 1 n4 * max 1 coh))
      { c1 with rLf := y.toNat, uR := u, rLf25 := at25 g t y.toNat }
    | none => c1
  { c2 with nores := ohm.isNone || lf.isNone }

/-- The charge part of a step (R263), with what it adds to the open learning interval. -/
def chargeStep (s : State) (d : Nat) (cur : Acc) (snap : Snap) (old : Snap) (bled secs : Nat) (stepBits : Nat) (c : Cell) : Cell × Int :=
  let dQ := tdivI (snap.chg - old.chg).num (snap.chg - old.chg).den
  let dqMc := dQ - bled
  let wide := cur.flags &&& RF_WIDE != 0
  let kg := if cur.flags &&& RF_UNCAL != 0 then tolGain s d * 10 else if wide then 500 else 200
  let ko : Rat := (if wide then 15000 else 1500) / (rshOf s d : Nat)
  let cap := max 1 c.cap
  let dq := tdivI (dqMc * 10 ^ 12) (cap * 3600)
  let v := (kg * dqMc.natAbs / (cap * 3600)) ^ 2
  let ub := ((ko * secs + (snap.bias - old.bias)) * 1000000 / (cap * 3600 : Nat)).floor.toNat
  let c1 := { c with est := c.est + dq, ur2 := c.ur2 + v, ub := c.ub + ub }
  let l1 := c.learn.map fun l =>
    { l with
      net := l.net + dqMc, abs := l.abs + dqMc.natAbs
      pos := if 0 < dqMc then l.pos + dqMc.natAbs else l.pos, neg := if dqMc < 0 then l.neg + dqMc.natAbs else l.neg
      bled := l.bled + bled, r2 := l.r2 + v, bias := l.bias + ub, gaps := l.gaps + (snap.gaps - old.gaps)
      samples := l.samples + 12500 * secs, dq := l.dq ||| stepBits ||| (if old.runs < snap.runs then 2 ^ DQ_GAPQ else 0) }
  ({ c1 with learn := l1 }, dq)

/-- The report of a step (R269). -/
def report (rate secs : Nat) (cls : IClass) (dq : Int) (c : Cell) : Cell :=
  let g := c.est - c.rep
  let m : Int := rate * 1000000 * secs / 60
  let rep := match cls with
    | .discharge => if 0 ≤ g then c.rep + tdivI dq 2 else max c.est (c.rep + 2 * dq)
    | .charge => if g ≤ 0 then c.rep + tdivI dq 2 else min c.est (c.rep + 2 * dq)
    | _ => c.rep + clampI (-m) m g
  let r := clampI 0 (10 ^ 12) rep
  { c with rep := r, uRep := uncOf c + (c.est - r).natAbs / 1000000 + (if c.noAnchor then 20000 else 0) }

/-- The rest that step [a, e) forms an anchor from, if any (R264): one that ended in it, or one that has reached 240 min. -/
def restDue (x : Str) (c : Cell) (a e : Nat) : Option (Nat × Nat) :=
  let since := if c.stepSpc = 0 ∨ c.fresh then a else min a c.stepSpc
  let ended := x.restEnded.filter (fun r => decide (since ≤ r.2) && decide (r.2 ≤ e) && decide (x.tRest * 6000000 ≤ r.2 - r.1) && c.restDone != some r.1)
  let long := (x.restFrom.map (fun r => (r, e))).filter (fun r => decide (240 * 6000000 ≤ e - r.1) && c.restDone != some r.1)
  ended.or long

/-- Charge bled from a cell by a boundary at the start of a second, nC; all of it where the count of that boundary is not held (R262). -/
def bledBy (s : State) (chi e : Nat) : Nat :=
  let c := balCell s chi
  ((c.marks.find? (fun m => m.1 == e)).map (·.2)).getD c.bled

/-- One step of a cell context that consumes up to interval j. -/
def stepCell (chi j : Nat) (s0 : State) : State :=
  let p := posOfChi chi
  match profileOf s0 p, driveOf s0 p with
  | some g, some d =>
    let js := stepSpan s0 j (cellOf s0 chi).stepSpc
    let a := 100000 * js.headD j
    let e := 100000 * (j + 1)
    let s := if (tget s0.est.cells chi).elim false (·.outage) && swapCheck p js s0 then suspectSwap p s0 else s0
    let was := cellOf s chi
    let x := strOf s d
    let volt := stepAcc s (entryKey chi 0) js
    let v := meanOf volt
    let temp := meanOf (stepAcc s (thermKey s p) js)
    let cur := stepAcc s (currentKey d) js
    let cls := classOf s d cur
    let snap := snapAt x e
    let old := was.countAt.getD (snapAt x a)
    let bledNow := bledBy s chi e
    let bled := if was.countAt.isSome then (bledNow - was.bledAt) / 1000000 else 0
    let susp := cellBroken s p (chanOf chi)
    -- initial state (R283)
    let c0 : Cell := match was.fresh, v with
      | true, some y =>
        let m := mapOcv g ((temp.getD 25000 : Int) : Rat) (y : Rat) ((g.uOcv ^ 2 : Nat) : Rat)
        let soc := (ocvInverse (ocvRow g ((temp.getD 25000 : Int) : Rat)) (y : Rat)).1
        let u := 100000 + (m.map (·.2)).getD 0
        { was with fresh := false, est := (soc * 1000000).floor, rep := clampI 0 (10 ^ 12) (soc * 1000000).floor, ur2 := u ^ 2 }
      | _, _ => was
    if c0.fresh then
      putCell chi { c0 with stepSpc := e, lastV := v.or c0.lastV } s
    else
      let c1 := { c0 with susp := susp, emptied := c0.emptied && cls == IClass.discharge }
      -- anchors at the start of the step (R266, R264, R286)
      let full := c1.fullAsked || (c1.fullDue && v.elim false (fun y => decide ((y - g.vFull * 1000).natAbs ≤ 100000)))
      let lowI := decide ((signed s d cur.sum).natAbs * 1000 ≤ g.iEmpty * c1.cap * rshOf s d * max 1 cur.count)
      let empty := cls == IClass.discharge && !c1.emptied && v.elim false (fun y => decide (y ≤ g.vEmpty * 1000)) && lowI
      let c2 := { c1 with fullAsked := false, fullDue := false, emptied := c1.emptied || empty }
      let f := if full && !susp then applyAnchor chi 2 (g.socFull * 1000000) g.uFull s c2 else (c2, s)
      let due := restDue x f.1 a e
      let r : Cell × State := match empty && !susp, due with
        | true, _ => applyAnchor chi 3 0 g.uEmpty f.2 { f.1 with restDone := (due.map (·.1)).or f.1.restDone }
        | false, some (ra, rb) => if susp then ({ f.1 with restDone := some ra }, f.2) else restAnchor chi ra rb g f.2 f.1
        | false, none => f
      -- charge, report, resistance
      let uncal := (cur.flags ||| volt.flags) &&& RF_UNCAL != 0
      let hot := temp.elim false (fun t => decide (t < g.tLearnLo * 1000) || decide (g.tLearnHi * 1000 < t))
      let bits := (if uncal then 2 ^ DQ_UNCAL else 0) ||| (if hot then 2 ^ DQ_TEMP else 0) ||| (if susp then 2 ^ DQ_SUSP else 0)
        ||| (if 3 ≤ s.therm.force then 2 ^ DQ_THROTTLE else 0)
      let secs := max js.length ((e - old.at_) / 100000)
      let q := chargeStep r.2 d cur snap old bled secs bits r.1
      let c3 := takeResistance r.2 chi g temp (report x.rateRest secs cls q.2 q.1)
      let begins := x.restFrom.elim false (fun b => decide (a ≤ b) && decide (b < e))
      let k := (x.restFrom.getD 0) / 6000000 - 1
      let load : Option (Int × Int) :=
        if begins then
          match steadyMeans s d k, (recOf s true (entryKey chi 0) k).bind meanOf with
          | some (i :: _), some vl => some (vl, asMilliamps s d i)
          | _, _ => none
        else c3.load
      let c4 := { c3 with
        uncal := uncal, stepSpc := e, countAt := some snap, bledAt := bledNow, load := load, lastV := v.or c3.lastV
        outage := c3.outage && v.isNone }
      let s1 := { r.2 with est := { r.2.est with half := tset r.2.est.half chi was } }
      noteAnchored (ownerOf s (chainOfChi chi)) (putCell chi c4 s1)
  | _, _ => s0

/-- One step of a string context; it stays in its initial state while no shunt is bound (R403). -/
def stepString (d j : Nat) (s : State) : State :=
  let e := 100000 * (j + 1)
  let cur := stepAcc s (currentKey d) (stepSpan s j (strOf s d).now.stepSpc)
  let z := estimatorBin s (d * 16 + 2) 23
  modStr d (fun x =>
    let gapq := x.gapq && x.restEnded.elim true (fun r => decide (r.2 + 100000 < e))
    let new : StrStep :=
      if (shuntOf s d).isNone then { x.now with stepSpc := e, counts := snapAt x e }
      else
        { stepSpc := e, counts := snapAt x e, uncal := cur.flags &&& RF_UNCAL != 0, nores := z.isNone, gapq := gapq
          rStr := (z.map (·.1.toNat)).getD x.now.rStr }
    { x with
      now := new, half := x.now, gapq := gapq
      rRef := if (shuntOf s d).isSome && x.rRef = 0 then (z.map (·.1.toNat)).getD 0 else x.rRef }) s

/-! ### Functions: hibernation (R275 to R277) -/

/-- What is held of a function's estimator, and its change. -/
def fnEst (s : State) (fn : Nat) : FnEst := tgetD s.est.fns fn {}
def modFn (fn : Nat) (f : FnEst → FnEst) (s : State) : State := { s with est := { s.est with fns := tmod s.est.fns fn {} f } }

/-- Released drive tags of a function, and its cells that have a context. -/
def stringsOf (s : State) (fn : Nat) : List Nat :=
  tkeys s.line.posns (fun p x => x.kind == .dt1 && x.state == .released && owns s fn (chainOfPos p))
def cellsOf (s : State) (fn : Nat) : List Nat :=
  ((tkeys s.line.posns (fun p x => x.kind == .ct12 && owns s fn (chainOfPos p))).flatMap fun p => (List.range 12).map (cellKey p)).filter (hasCell s)

/-- Functions that have contexts. -/
def estFns (s : State) : List Nat := ((s.line.posns.map (fun e => ownerOf s (chainOfPos e.1))).eraseDups).mergeSort (fun a b => decide (a ≤ b))

/-- The latest committed 1 s interval. -/
def lastSecond (s : State) : Option Nat := if 101600 ≤ s.spc then some ((s.spc - 1600) / 100000 - 1) else none

/-- Bring every context of a function up to date (R276, R277). -/
def stepAll (fn : Nat) (s : State) : State :=
  match lastSecond s with
  | none => s
  | some j =>
    let s1 := forEach (stringsOf s fn) s (fun d s => if (strOf s d).now.stepSpc < 100000 * (j + 1) then stepString d j s else s)
    forEach (cellsOf s1 fn) s1 (fun c s => if (cellOf s c).stepSpc < 100000 * (j + 1) then stepCell c j s else s)

/-- Cores that serve no awake function are power-gated, each in its turn. -/
def regate (s : State) : State :=
  let off := (estFns s).all (fun f => (fnEst s f).hiber) && (s.est.fns.any (fun e => e.2.hiber))
  forEach ((List.range 32).filter (fun u => ustate s 3 u == .ready)) { s with est := { s.est with gated := off } } (fun u s => wantGate 3 u off s)

/-- Event of a function's hibernation: 1 enter, 0 wake. -/
def hiberEvent (fn d : Nat) (s : State) : State := raiseNow (if fn = mgmt then 0x523 else 0x100 + fn) 0x84 d s

/-- Wake a function. -/
def wakeFn (fn : Nat) (s : State) : State :=
  if (fnEst s fn).hiber then regate (hiberEvent fn 0 (modFn fn (fun x => { x with hiber := false, lastBusy := s.spc }) s)) else s

/-- Hibernate a function. -/
def hibernate (fn : Nat) (s : State) : State :=
  regate (hiberEvent fn 1 (modFn fn (fun x => { x with hiber := true, since := s.spc, asked := false }) s))

/-- An accepted `EST` command of a function: it restarts the 60 s and wakes the function, whose contexts step before it runs. -/
def estCommand (fn : Nat) (s : State) : State :=
  let s1 := modFn fn (fun x => { x with lastCmd := s.spc, asked := false }) s
  if (fnEst s fn).hiber then stepAll fn (wakeFn fn s1) else s1

/-- A live merged current of at least 1 % of `I_NOM` wakes the function of its bound strings (R277). -/
def noteLiveCurrent (d : Nat) (v : Int) (s : State) : State :=
  if nomNv s d ≤ v.natAbs * 100 then wakeFn (ownerOf s (chainOfPos d)) s else s

/-- A primary sample of a merged current beyond 0.5 % of `I_NOM` keeps its function awake (R275). -/
def notePrimaryCurrent (d : Nat) (x : Sample) (s : State) : State :=
  if 5 * nomNv s d < x.value.natAbs * 1000 then modFn (ownerOf s (chainOfPos d)) (fun f => { f with lastBusy := s.spc }) s else s

/-! ### Readable results (R278) -/

/-- Context updates per pick: two for each estimator core in use (R257, R458). -/
def coreRate (s : State) : Nat := max 1 (2 * ((List.range 32).filter (fun u => ustate s 3 u == .ready)).length)

/-- Boundary from which the result of rank r of a step that ended at e is readable. -/
def readableAt (n e r : Nat) : Nat :=
  let units2 := 2 * min (r + 1) 131072 + 3 * (r + 1 - 131072)
  e + 1800 + (units2 + 2 * n - 1) / (2 * n)

/-- Awake contexts in their order: strings, then cells, ascending. -/
def awakeOrder (s : State) : List Nat :=
  let fns := (estFns s).filter (fun f => !(fnEst s f).hiber)
  (fns.flatMap (stringsOf s)).mergeSort (fun a b => decide (a ≤ b)) |>.map mergedKey
    |> (· ++ (fns.flatMap (cellsOf s)).mergeSort (fun a b => decide (a ≤ b)))

/-- The latest step of a string that can be read now. -/
def readString (s : State) (order : List Nat) (d : Nat) : StrStep :=
  let x := strOf s d
  if s.spc < readableAt (coreRate s) x.now.stepSpc (order.idxOf (mergedKey d)) then x.half else x.now

/-- The context of a cell as it can be read now. -/
def readCell (s : State) (order : List Nat) (chi : Nat) : Cell :=
  let c := cellOf s chi
  if s.spc < readableAt (coreRate s) c.stepSpc (order.idxOf chi) then
    match tget s.est.half chi, profileOf s (posOfChi chi) with
    | some h, some g => if h.fresh then h.initial g else h
    | _, _ => c
  else c

/-! ### Restore (R282) -/

/-- What becomes of a record of an image. -/
inductive Taken where
  | applied
  | identity
  | other
  deriving DecidableEq, Repr

/-- The string record of an image about a drive tag. -/
def savedFor (job : RestoreJob) (d : Nat) : Option (List Word) := job.strings.find? (fun w => bits (w.headD 0) 31 9 == mergedKey d)

/-- A saved 96-bit integrator. -/
def read96 (w : List Word) (i : Nat) : Int := toSigned 96 ((of64 (w.getD i 0) (w.getD (i + 1) 0)) + (w.getD (i + 2) 0).toNat * 2 ^ 64)

/-- Apply the record of a cell at the start of a step whose interval begins at a. -/
def restoreCell (job : RestoreJob) (a : Nat) (w : List Word) (s : State) : Taken × State :=
  let word (i : Nat) : Word := w.getD i 0
  let chi := bits (word 0) 31 9
  let p := posOfChi chi
  if !hasCell s chi || (word 34).toNat != chainOfChi chi || !owns s job.fn (chainOfChi chi) then (.other, s)
  else if (posOf s p).serial ≠ of64 (word 2) (word 3) then (.identity, s)
  else
    let d := (driveOf s p).getD 0
    let x := strOf s d
    let snap := snapAt x a
    let saved := savedFor job d
    let goes := job.own && (saved.elim false fun y =>
      of64 (y.getD 2 0) (y.getD 3 0) == (posOf s d).serial && (y.getD 7 0).toNat == rshOf s d && decide (x.clearedAt ≤ of64 (y.getD 16 0) (y.getD 17 0)))
    let cap := max 1 (word 11).toNat
    let bledNow := bledBy s chi a
    let dq := (asCharge s d ((snap.integ - read96 w 19 : Int) : Rat))
    let mc := tdivI dq.num dq.den - ((bledNow / 1000000 : Nat) - (word 22).toNat : Int)
    let move := if goes then tdivI (mc * 10 ^ 12) (cap * 3600) else 0
    let ef := bits (word 1) 15 0
    let net := toSigned 32 (word 28).toNat
    let gone := (word 29).toNat
    let open_ : Option Learn :=
      if bits (word 23) 31 24 = 1 then
        some { spc := of64 (word 24) (word 25), a := toSigned 64 (of64 (word 26) (word 27)), u := isqrt (of64 (word 8) (word 9)) + (word 10).toNat
               full := bits (word 18) 31 24 == 2, net := net, abs := gone, pos := ((gone + net) / 2).toNat, neg := ((gone - net) / 2).toNat, bled := (word 30).toNat }
      else none
    let was := cellOf s chi
    let c : Cell :=
      { was with
        fresh := false, est := toSigned 64 (of64 (word 4) (word 5)) + move
        rep := clampI 0 (10 ^ 12) (toSigned 64 (of64 (word 6) (word 7)) + move)
        ur2 := of64 (word 8) (word 9), ub := (word 10).toNat + (if goes then 0 else job.uRestore), cap := cap, uCap := (word 12).toNat
        rRef := (word 13).toNat, aRel := bits (word 14) 15 0, rRel := (word 15).toNat, anchorSpc := of64 (word 16) (word 17), aType := 5
        restored := true, valid := ef.testBit 0, noAnchor := ef.testBit 3, synth := ef.testBit 4, learned := ef.testBit 5
        gapq := ef.testBit 7, idchg := ef.testBit 8, swapSusp := ef.testBit 10, countAt := some snap, bledAt := bledNow, learn := open_ }
    (.applied, putCell chi c s)

/-- Apply the record of a string. -/
def restoreString (fn : Nat) (w : List Word) (s : State) : Taken × State :=
  let d := posOfChi (bits (w.headD 0) 31 9)
  let x := posOf s d
  if x.kind ≠ .dt1 ∨ x.state ≠ .released ∨ (w.getD 18 0).toNat ≠ chainOfPos d ∨ ¬ owns s fn (chainOfPos d) then (.other, s)
  else if x.serial ≠ of64 (w.getD 2 0) (w.getD 3 0) then (.identity, s)
  else (.applied, modStr d (fun y => { y with iNom := some (max 1 (w.getD 8 0).toNat), rRef := (w.getD 9 0).toNat }) s)

/-- Apply a whole image and complete its command with the records applied and the two skip counts. -/
def restoreJob (a : Nat) (job : RestoreJob) (s : State) : State :=
  let put (acc : (Nat × Nat × Nat) × State) (r : Taken × State) : (Nat × Nat × Nat) × State :=
    match r.1 with
    | .applied => ((acc.1.1 + 1, acc.1.2), r.2)
    | .identity => ((acc.1.1, acc.1.2.1 + 1, acc.1.2.2), r.2)
    | .other => ((acc.1.1, acc.1.2.1, acc.1.2.2 + 1), r.2)
  let r0 := job.cells.foldl (fun acc w => put acc (restoreCell job a w acc.2)) ((0, 0, 0), s)
  let r := job.strings.foldl (fun acc w => put acc (restoreString job.fn w acc.2)) r0
  let mine := r.2.cmd.deferred.filter (fun x => x.kind == .restore && x.ref == job.ref)
  let s1 := { r.2 with cmd := { r.2.cmd with deferred := r.2.cmd.deferred.filter (fun x => !(x.kind == .restore && x.ref == job.ref)) } }
  forEach mine s1 (fun x s => completeAt x.ref ST_OK [wd r.1.1, wd r.1.2.1, wd r.1.2.2] x.accept s)

/-- What the estimator does at a step boundary before any step: restores are applied, and functions that have asked hibernate. -/
def stepBoundary (s : State) : State :=
  if s.spc % 100000 = 1600 ∧ 101600 ≤ s.spc then
    let s1 := forEach s.est.restores { s with est := { s.est with restores := [] } } (restoreJob (s.spc - 101600))
    forEach (s1.est.fns.filter (fun e => e.2.asked)) s1 (fun e s => hibernate e.1 s)
  else s

end Sys2Proof.Machine
end

