-- ==== Sys2Proof/Machine/Acc.lean ====
section
/-! DEFINITION. The rows of accumulators (chapter 05) and the commands of the ACC class (R404). -/

namespace Sys2Proof.Machine

/-! ### Commits -/

/-- STANDARD_INTERVAL_COMMIT (R143). -/
def execStandardIntervalCommit (sixty : Bool) (j : Nat) (s : State) : Host.Outcome State Fault Refusal :=
  .next (if s.up && decide (stdLen sixty * (j + 1) + 1600 ≤ s.spc) then
    let s0 := forEach (stdEntries s sixty j) s (commitEntry sixty j)
    let s1 := if sixty then s0 else forEach (tkeys s0.line.posns (fun _ x => x.kind == .dt1 && x.state == .released)) s0 (noteRest j)
    { s1 with acc := if sixty then { s1.acc with doneSixty := max s1.acc.doneSixty (j + 1) } else { s1.acc with doneOne := max s1.acc.doneOne (j + 1) } }
  else s)

/-- Number and bounds of the interval of a window that holds a pick; the end is that of the interval, or of the window's close. -/
def intervalAt (w : Window) (d : Nat) : Nat × Nat × Option Nat :=
  let n := if w.length = 0 then 0 else (d - w.start) / (200 * w.length)
  let b := match winEnd w n, w.close with
    | some b, some e => some (min b e)
    | some b, none => some b
    | none, e => e
  (n, w.start + 200 * w.length * n, b)

/-- A chain that leaves a window at boundary g cuts the interval that g lies in short; one that ends at g, and one that begins there, it does
not (R167, R168). -/
def cutShort (w : Window) (g : Nat) : Bool :=
  let i := intervalAt w g
  decide (i.2.1 < g) && i.2.2.elim true (fun b => decide (g < b)) && (i.1 == 0 || w.repeats)

/-- Chains whose cut-short interval is due for its own commit (R167). -/
def leftDue (s : State) (w : Window) : List Nat :=
  (w.left.filter (fun c => decide (c.2 + 1600 ≤ s.spc) && cutShort w c.2 && !w.leftDone.contains c.1)).map (·.1)

/-- Keys of a window's entries in order of channel and position. -/
def winKeys (s : State) (w : Window) (p : Nat → Bool) : List Nat :=
  ((w.entries.filter (fun e => p e.chi)).flatMap (entryKeys s)).mergeSort (fun a b => decide (a ≤ b))

/-- Commit the interval in which a chain left, over the entries on it, with `PARTIAL` (R167). The entries of each chain make a section of their
own, which takes a place of the queue or counts as not stored (DESIGN CHOICE, log 74). -/
def commitLeft (k c : Nat) (w : Window) (s : State) : State :=
  let g := tgetD w.left c 0
  let n := (intervalAt w g).1
  let a := (intervalAt w g).2.1
  let i := (w.open_.find? (fun y => y.n == n)).getD { n := n }
  let keys := winKeys s w (fun x => chainOfChi x == c)
  let recs (d : Nat) := winRecords s w i keys a g (RF_PARTIAL + (if 0 < d then RF_DROPPED else 0))
  let q (d : Nat) : WinQueued := { n := n, start := a, stop := g, dropped := d, gen := genAt s c g, records := recs d }
  let w1 := queueInterval w q
  let s1 := modWin k (fun _ => { w1 with leftDone := c :: w.leftDone }) s
  if w.event then raise (summaryOf (k / 65536)) 0x40 (winArg (k % 65536) n) s.spc s1 else s1

/-- The entries that the interval from a to b has: a chain that left during it has its own commit, one that left earlier carries `EMPTY`, and
one that left at its end or later has the whole of it. -/
def keysNow (s : State) (w : Window) (a b : Nat) : List Nat :=
  winKeys s w (fun x => match tget w.left (chainOfChi x) with
    | some g => decide (g ≤ a) || decide (b ≤ g)
    | none => true)

/-- Commit the next interval of a window at its end b (R148, R149): queued or counted as not stored, its event raised, and a window whose
last interval this is drains. -/
def commitWin (k : Nat) (w : Window) (b : Nat) (partly : Bool) (s : State) : State :=
  let n := w.next
  let a := if w.length = 0 then w.start else w.start + 200 * w.length * n
  let i := (w.open_.find? (fun y => y.n == n)).getD { n := n }
  let recs (d : Nat) := winRecords s w i (keysNow s w a b) a b ((if partly then RF_PARTIAL else 0) + (if 0 < d then RF_DROPPED else 0))
  let gen := match w.entries with
    | e :: _ => genAt s (chainOfChi e.chi) b
    | [] => 0
  let q (d : Nat) : WinQueued := { n := n, start := a, stop := b, dropped := d, gen := gen, records := recs d }
  let last := w.close.elim (!w.repeats) (fun e => decide (e ≤ b)) || !w.repeats
  let w1 := { queueInterval w q with next := n + 1, open_ := w.open_.filter (fun y => decide (n < y.n)), draining := last }
  let fn := k / 65536
  let s1 := modWin k (fun _ => w1) s
  let s2 := if w.event || (last && w.close.isSome) then raise (summaryOf fn) 0x40 (winArg (k % 65536) n) s.spc s1 else s1
  if last then
    let s3 := raise (summaryOf fn) 0x41 (winArg (k % 65536) n) s.spc s2
    let s4 := match w.cmd with
      | some ref => finish ref ST_OK s3
      | none => s3
    if w1.queue.isEmpty then dropWin k s4 else s4
  else s2

/-- A window closed at or before its start ends without any interval (R149). -/
def endBefore (k : Nat) (w : Window) (s : State) : State :=
  let s1 := raiseNow (summaryOf (k / 65536)) 0x41 (winArg (k % 65536) 0) (dropWin k s)
  match w.cmd with
  | some ref => finish ref ST_OK s1
  | none => s1

/-- USER_INTERVAL_COMMIT (R148, R149, R167). -/
def execUserIntervalCommit (fn win : Nat) (s : State) : Host.Outcome State Fault Refusal :=
  let k := fn * 65536 + win
  .next (match tget s.acc.windows k with
    | none => s
    | some w =>
      if !s.up || w.draining then s
      else match leftDue s w with
        | c :: _ => commitLeft k c w s
        | [] =>
          if w.close.elim false (fun e => decide (e ≤ w.start)) then
            (if w.close.elim false (fun e => decide (e ≤ s.spc)) then endBefore k w s else s)
          else match winEnd w w.next, w.close with
          | some b, some e =>
            if e < b then (if e + 1600 ≤ s.spc then commitWin k w e true s else s)
            else if b + 1600 ≤ s.spc then commitWin k w b false s else s
          | some b, none => if b + 1600 ≤ s.spc then commitWin k w b false s else s
          | none, some e => if e + 1600 ≤ s.spc then commitWin k w e false s else s
          | none, none => s)

/-! ### Opening and closing -/

/-- An entry word (R398): its channel, position and `ALLPOS`. -/
def entryOf (w : Word) : WinEntry := { chi := bits w 31 9, pos := bits w 8 6, all := bits w 5 5 == 1 }

/-- A channel of a window entry is within the variant, or a device housekeeping position. -/
def entryExists (s : State) (e : WinEntry) : Bool := isHk e.chi || posExists s (posOfChi e.chi)

/-- `POS` and `ALLPOS` fit the tag type where it is known (R151). -/
def entryFits (s : State) (e : WinEntry) : Bool :=
  let k := (posOf s (posOfChi e.chi)).kind
  if isHk e.chi then !e.all && e.pos == 0
  else if k = .none then true
  else if multiplexed k (chanOf e.chi) then decide (e.pos < positionsOf k (chanOf e.chi))
  else !e.all && e.pos == 0

/-- A window identifier that a function does not hold (R151). -/
def freeWin (s : State) (r : Req) : Option Nat := freeId (localNamed 0x0500 r s) 65536 (fun i => !thas s.acc.windows (r.fn * 65536 + i))

/-- The entries of `ACC.OPEN` that concern this device. -/
def openEntries (r : Req) : List WinEntry := (r.inb.dropLast.map entryOf).filter (fun e => isHk e.chi || concerns r (chainOfChi e.chi))

/-- An entry belongs to the function: its chain, or device housekeeping for the management function. -/
def entryOwned (s : State) (fn : Nat) (e : WinEntry) : Bool := if isHk e.chi then fn == mgmt else owns s fn (chainOfChi e.chi)

/-- A channel word with the identity word's `SRC` of live samples names a fast-path tracker (R160; DEDUCED, log 73). -/
def namesFast (w : Word) : Bool := bits w 5 4 == 3

/-- The checks of `ACC.OPEN` in the order of R397. -/
def checksAccOpen (r : Req) (s : State) : Checks :=
  let start := of64 (reqWord r 4) (reqWord r 5)
  let len := (reqWord r 6).toNat
  let w7 := reqWord r 7
  let n := (reqWord r 8).toNat
  let entries := openEntries r
  let rep := bits w7 0 0 == 1
  let need := (entries.map (entryCost s)).sum
  let k : Checks :=
    { op := 0x0500, ready := 7, buf := .inb 6 (n * 4 + 4)
      params := unusedZero r [4, 5, 6, 7, 8] && decide (1 ≤ n) && decide (n ≤ 1048576) && bits w7 7 3 == 0 && bits w7 31 13 == 0
        && start % 200 == 0 && (start == 0 || (decide (s.spc ≤ start) && decide (start ≤ s.spc + 2 ^ 31))) && (!rep || decide (50 ≤ len))
      fields := r.inb.dropLast.all (fun w => bits w 4 0 == 0 || namesFast w) && entries.all (entryExists s)
      quota := match poolCheck s r.fn (·.windows) 65536 (windowsHeld s r.fn) 1 with
        | some e => some e
        | none => poolCheck s r.fn (·.entries) 16777216 (entriesHeld s r.fn) need
      pre := if r.inb.dropLast.any namesFast then some ST_PRIVILEGED
        else if !entries.all (entryOwned s r.fn) then some ST_NOT_OWNER
        else if !entries.all (entryFits s) then some ST_BAD_PARAM else none }
  { k with quota := if r.inb.dropLast.any namesFast then some ST_PRIVILEGED else if !entries.all (entryOwned s r.fn) then some ST_NOT_OWNER
    else (chainsUnit s ((entries.filter (fun e => !isHk e.chi)).map (fun e => chainOfChi e.chi))).or k.quota }

/-- What `ACC.OPEN` does once its checks have passed. -/
def actAccOpen (r : Req) (_ : State) : State → Reply :=
  let start := of64 (reqWord r 4) (reqWord r 5)
  let len := (reqWord r 6).toNat
  let w7 := reqWord r 7
  let entries := openEntries r
  let rep := bits w7 0 0 == 1
  fun s =>
    match freeWin s r with
    | none => .now ST_TABLE_FULL [] s
    | some i =>
      let w : Window :=
        { start := if start = 0 then nextMult 200 (s.spc + 1) else start
          length := len, repeats := rep, apsis := bits w7 1 1 == 1, event := bits w7 2 2 == 1, mask := bits w7 12 8, entries := entries }
      .now ST_OK [wd i] { s with acc := { s.acc with windows := tset s.acc.windows (r.fn * 65536 + i) w } }

/-- ACC.OPEN (R147, R150, R151). -/
def execAccOpen (r : Req) (s : State) : Host.Outcome State Fault Refusal :=
  .next (command (checksAccOpen r s) r s (actAccOpen r s))

/-- The checks of `ACC.CLOSE` in the order of R397. -/
def checksAccClose (r : Req) (s : State) : Checks :=
  let i := (reqWord r 4).toNat
  let e0 := of64 (reqWord r 5) (reqWord r 6)
  let discard := bits (reqWord r 7) 0 0 == 1
  let key := r.fn * 65536 + i
  let w := tget s.acc.windows key
  let closing := match w with
    | some w => w.close.isSome || w.draining
    | none => false
  { op := 0x0501, ready := 7, long := true
    params := unusedZero r [4, 5, 6, 7] && decide (i < 65536) && bits (reqWord r 7) 31 1 == 0 && e0 % 200 == 0
      && (e0 == 0 || closing || decide (s.spc ≤ e0))
    pre := if w.isNone then some ST_BAD_PARAM else if closing && !discard then some ST_PRECONDITION else none }

/-- What `ACC.CLOSE` does once its checks have passed. -/
def actAccClose (r : Req) (s : State) : State → Reply :=
  let i := (reqWord r 4).toNat
  let e0 := of64 (reqWord r 5) (reqWord r 6)
  let discard := bits (reqWord r 7) 0 0 == 1
  let key := r.fn * 65536 + i
  let w := tget s.acc.windows key
  fun s =>
    match w with
    | none => .now ST_BAD_PARAM [] s
    | some w =>
      let e := if e0 = 0 then nextMult 200 (s.spc + 1) else e0
      let old (s : State) : State := match w.cmd with
        | some ref => finish ref ST_OK s
        | none => s
      if discard then .longNow ST_OK [] (old (raiseNow (summaryOf r.fn) 0x41 (winArg i w.next) (dropWin key s)))
      else .long key [] (modWin key (fun w => { w with close := some e, cmd := some (reqRef r) }) s)

/-- ACC.CLOSE (R149). -/
def execAccClose (r : Req) (s : State) : Host.Outcome State Fault Refusal :=
  .next (command (checksAccClose r s) r s (actAccClose r s))

/-! ### Harvest -/

/-- Keys of an accumulator record that a range selects, ascending. -/
def inRange (a b key : Nat) : Bool := decide (a ≤ key / 8) && decide (key / 8 ≤ b)

/-- Sections of a standard class: the retained intervals that start at or after the from-SPC, oldest first, each with the records the
function may harvest (R144, R146, R163). An interval of which it may harvest none has no section (DESIGN CHOICE, log 72). -/
def stdSections (s : State) (sixty : Bool) (fn a b frm : Nat) : List (Nat × Section) :=
  let keep := if sixty then 4 else 8
  let done := if sixty then s.acc.doneSixty else s.acc.doneOne
  let len := stdLen sixty
  ((List.range keep).reverse.filterMap fun i => if i < done then some (done - 1 - i) else none).filterMap fun j =>
    let recs := ((stdTab s sixty).filter (fun e => inRange a b e.1)).filterMap fun e =>
      (e.2.find? (fun x => x.j == j && x.committed && (x.owner == some fn || (x.owner.isNone && fn == mgmt)))).map (compactRecord s e.1)
    if len * j < frm ∨ recs.isEmpty then none
    else some (j, { stype := if sixty then 2 else 1, start := len * j, stop := len * (j + 1), w7 := j, records := recs })

/-- Intervals asked for that are no longer retained (R144), counted from the first whose chains the function owned; device housekeeping is the
management function's from the start. -/
def stdMissed (s : State) (sixty : Bool) (fn a b frm : Nat) : Nat :=
  let keep := if sixty then 4 else 8
  let done := if sixty then s.acc.doneSixty else s.acc.doneOne
  let len := stdLen sixty
  let mine := (s.line.chains.map (·.1)).filter (fun c => owns s fn c && decide (a ≤ c * 128 + 127) && decide (c * 128 ≤ b))
  let hk := fn == mgmt && decide (a < hkChi + 24) && decide (hkChi ≤ b)
  match (if hk then [0] else []) ++ mine.map (ownedSince s) with
  | [] => 0
  | c :: r => (done - keep) - (max frm (r.foldl min c) + len - 1) / len

/-- A tracker as a harvest of this pick sees it: before a reset of the same pick (R168). -/
def trackerSeen (s : State) (key : Nat) (a : Apsis) : Apsis :=
  match tget s.acc.apsisWas key with
  | some w => if w.1 = s.spc then w.2 else a
  | none => a

/-- Sections of the running trackers: one for each reset point (R163). -/
def apsisSections (s : State) (fn a b : Nat) : List (Nat × Section) :=
  let mine := (tmap (trackers s) (trackerSeen s)).filter fun e =>
    inRange a b e.1 && hasAcc s (e.1 / 8) && (if isHk (e.1 / 8) then fn == mgmt else owns s fn (chainOfChi (e.1 / 8)))
  let points := ((mine.map (·.2.point)).mergeSort (fun x y => decide (x ≤ y))).eraseDups
  points.map fun p =>
    (p, { stype := 4, start := p, stop := s.spc
          records := (mine.filter (fun e => e.2.point == p)).map fun e =>
            apsisRecord (srcOf s (e.1 / 8)) e.1 (genAt s (chainOfChi (e.1 / 8)) s.spc) e.2 })

/-- Queued intervals of the windows selected, with the key of each. Records written are gone; `CONT` says that the section goes on from the
last harvest of the same selection (R164). -/
def winSections (s : State) (ks : List Nat) (cont : Option Cont) : List (Nat × Section) :=
  ks.flatMap fun k =>
    ((tget s.acc.windows k).map (·.queue)).getD [] |>.map fun q =>
      (k, { stype := 3, tag := k % 65536, start := q.start, stop := q.stop, w6 := q.dropped * 2 ^ 16 + q.gen, w7 := q.n
            cont := q.taken != 0 && cont.elim false (fun c => c.sec == k && c.skip != 0), records := q.records.drop q.taken })

/-- Release the interval records written of a window, and the window once it drains empty (R149, R164). -/
def releaseWin (k n : Nat) (s : State) : State :=
  match tget s.acc.windows k with
  | some w =>
    match w.queue with
    | q :: rest =>
      let left := q.records.length - q.taken
      if n < left then modWin k (fun w => { w with queue := { q with taken := q.taken + n } :: rest }) s
      else if rest.isEmpty && w.draining then dropWin k s
      else modWin k (fun w => { w with queue := rest }) s
    | [] => s
  | none => s

/-- Trip sections and notices of a function. -/
def tripSections (s : State) (fn : Nat) : List (Bool × TripSection) :=
  (s.loom.trips.filter (fun t => t.fn == fn)).map (fun t => (false, t)) ++ (s.loom.notices.filter (fun t => t.fn == fn)).map (fun t => (true, t))

/-- A trip section as written. -/
def tripSection (x : Bool × TripSection) : Section :=
  let t := x.2
  { stype := if x.1 then 6 else 5, tag := t.wset, start := t.t, stop := t.trip + (t.pre * 2 ^ 16 + t.post) * 2 ^ 32
    w6 := t.status * 2 ^ 16 + t.gen, w7 := t.chi * 2 ^ 9, cont := t.taken != 0, records := t.entries.drop t.taken }

/-- Release the trip records written (R164). -/
def releaseTrips (xs : List (Bool × TripSection)) (ns : List Nat) (s : State) : State :=
  forEach (xs.zip ns) s fun x s =>
    let t := x.1.2
    let whole := decide (t.entries.length - t.taken ≤ x.2)
    if x.1.1 then { s with loom := { s.loom with notices := s.loom.notices.filter (fun y => y != t) } }
    else if whole then { s with loom := { s.loom with trips := s.loom.trips.filter (fun y => y != t) } }
    else { s with loom := { s.loom with trips := s.loom.trips.map (fun y => if y = t then { y with taken := y.taken + x.2 } else y) } }

/-- The checks of `ACC.HARVEST` in the order of R397. A tenant's range that begins at a device housekeeping position names one; one that only
reaches them passes over them, as over other functions' channels (DESIGN CHOICE, log 70). -/
def checksAccHarvest (r : Req) (s : State) : Checks :=
  let cls := (reqWord r 4).toNat
  let w5 := reqWord r 5
  let frm := of64 (reqWord r 7) (reqWord r 8)
  let range := rangeParam s (reqWord r 5) (reqWord r 6)
  let a := (range.getD (0, 0)).1
  let b := (range.getD (0, 0)).2
  let all := bits w5 16 16 == 1
  let ranged := cls == 1 || cls == 2 || cls == 4
  let rec1 := if cls = 3 ∨ cls = 5 then 64 else 32
  { op := 0x0502, ready := 7, buf := .outb rec1
    permitted := !(ranged && (namesFast (reqWord r 5) || namesFast (reqWord r 6)))
    params := unusedZero r [4, 5, 6, 7, 8] && decide (1 ≤ cls) && decide (cls ≤ 5)
      && (if ranged then range.isSome else (reqWord r 6) == 0) && (cls == 1 || cls == 2 || frm == 0)
      && (if cls = 3 then bits w5 31 17 == 0 && (!all || bits w5 15 0 == 0) else ranged || w5 == 0)
    owned := !ranged || r.fn == mgmt || !(decide (hkChi ≤ b) && decide (a < hkChi + 24) && decide (hkChi ≤ a))
    pre := if cls = 3 ∧ !all ∧ !thas s.acc.windows (r.fn * 65536 + bits w5 15 0) then some ST_BAD_PARAM else none }

/-- What `ACC.HARVEST` does once its checks have passed. -/
def actAccHarvest (r : Req) (s0 : State) : State → Reply :=
  let cls := (reqWord r 4).toNat
  let w5 := reqWord r 5
  let frm := of64 (reqWord r 7) (reqWord r 8)
  let range := rangeParam s0 (reqWord r 5) (reqWord r 6)
  let a := (range.getD (0, 0)).1
  let b := (range.getD (0, 0)).2
  let all := bits w5 16 16 == 1
  fun s =>
    let h : BufHead := { magic := 0x4B544856, cls := cls }
    if cls = 3 then
      let ks := if all then tkeys s.acc.windows (fun k _ => k / 65536 == r.fn && !(r.twin && localWindow s k)) else [r.fn * 65536 + bits w5 15 0]
      let key := contKey r.fn h.magic cls
      let sel := [cls, w5.toNat]
      let secs := winSections s ks ((tget s.cmd.conts key).filter (fun c => c.sel == sel))
      let o := emitBuffer h r (secs.map (·.2)) s
      let conts := match nextCont sel none secs o.1.written with
        | some c => tset o.2.2.cmd.conts key c
        | none => tdel o.2.2.cmd.conts key
      .now (harvestStatus (secs.map (·.2)) o.1.written) o.2.1
        (forEach ((secs.map (·.1)).zip o.1.written) { o.2.2 with cmd := { o.2.2.cmd with conts := conts } } (fun x s => releaseWin x.1 x.2 s))
    else if cls = 5 then
      let xs := tripSections s r.fn
      let lost := tgetD s.loom.tripLost r.fn 0
      let o := emitBuffer { h with tripLost := lost } r (xs.map tripSection) s
      let s1 := releaseTrips xs o.1.written o.2.2
      .now ST_OK o.2.1 { s1 with loom := { s1.loom with tripLost := tset s1.loom.tripLost r.fn 0 } }
    else
      let sel := [cls, a, b, frm]
      let missed := if cls = 4 then 0 else stdMissed s (cls == 2) r.fn a b frm
      let secs := if cls = 4 then apsisSections s r.fn a b else stdSections s (cls == 2) r.fn a b frm
      let mine := harvestLeft h r sel secs s
      let o := harvestOut { h with missed := missed } r sel secs s
      .now (harvestStatus (mine.map (·.2)) o.1.written) o.2.1 o.2.2

/-- ACC.HARVEST (R129, R163 to R165). -/
def execAccHarvest (r : Req) (s : State) : Host.Outcome State Fault Refusal :=
  .next (command (checksAccHarvest r s) r s (actAccHarvest r s))

/-- The checks of `ACC.APSIS_RESET` in the order of R397. -/
def checksAccApsisReset (r : Req) (s0 : State) : Checks :=
  let range := rangeParam s0 (reqWord r 4) (reqWord r 5)
  let a := (range.getD (0, 0)).1
  { op := 0x0503, ready := 7
    permitted := !(namesFast (reqWord r 4) || namesFast (reqWord r 5))
    params := unusedZero r [4, 5] && range.isSome
    owned := r.fn == mgmt || !(decide (hkChi ≤ a) && decide (a < hkChi + 24)) }

/-- What `ACC.APSIS_RESET` does once its checks have passed. -/
def actAccApsisReset (r : Req) (s0 : State) : State → Reply :=
  let range := rangeParam s0 (reqWord r 4) (reqWord r 5)
  let a := (range.getD (0, 0)).1
  let b := (range.getD (0, 0)).2
  fun s =>
    let p := nextMult 200 (s.spc + 1)
    let mine (chi : Nat) : Bool :=
      decide (a ≤ chi) && decide (chi ≤ b) && (if isHk chi then r.fn == mgmt else owns s r.fn (chainOfChi chi) && concerns r (chainOfChi chi))
    let hit := (trackers s).filter (fun e => mine (e.1 / 8))
    .now ST_OK (wd64 p) { s with acc := { s.acc with
      apsis := hit.foldl (fun t e => tset t e.1 { point := p }) s.acc.apsis
      apsisWas := hit.foldl (fun t e => tset t e.1 (s.spc, trackerSeen s e.1 e.2)) s.acc.apsisWas } }

/-- ACC.APSIS_RESET (R158): trackers of the range restart at the first multiple of 200 after acceptance. -/
def execAccApsisReset (r : Req) (s : State) : Host.Outcome State Fault Refusal :=
  .next (command (checksAccApsisReset r s) r s (actAccApsisReset r s))

/-- The checks of `ACC.STATUS` in the order of R397. -/
def checksAccStatus (r : Req) (s : State) : Checks :=
  let i := bits (reqWord r 4) 15 0
  let totals := bits (reqWord r 4) 16 16 == 1
  let w := tget s.acc.windows (r.fn * 65536 + i)
  { op := 0x0504, ready := 7
    params := unusedZero r [4] && bits (reqWord r 4) 31 17 == 0 && (!totals || i == 0)
    pre := if !totals && w.isNone then some ST_BAD_PARAM else none }

/-- What `ACC.STATUS` does once its checks have passed. -/
def actAccStatus (r : Req) (s : State) : State → Reply :=
  let i := bits (reqWord r 4) 15 0
  let totals := bits (reqWord r 4) 16 16 == 1
  let w := tget s.acc.windows (r.fn * 65536 + i)
  let pools := ((tget s.ten.tenants r.fn).getD {}).pools
  let sum (f : Pools → Nat) : Nat := (s.ten.tenants.map (fun t => f t.2.pools)).sum
  fun s =>
    if totals then
      .now ST_OK [wd (windowsHeld s r.fn), wd (if r.fn = mgmt then 65536 - sum (·.windows) else pools.windows),
        wd (entriesHeld s r.fn), wd (if r.fn = mgmt then 16777216 - sum (·.entries) else pools.entries)] s
    else match w with
      | some w =>
        let st := if w.draining then 2 else if w.close.isSome then 1 else 0
        let e := match winEnd w w.next, w.close with
          | some b, some e => min b e
          | some b, none => b
          | none, some e => e
          | none, none => 0
        .now ST_OK ([wd (st + w.queue.length * 2 ^ 8), wd (w.entries.map (entryCost s)).sum] ++ wd64 e) s
      | none => .now ST_BAD_PARAM [] s

/-- ACC.STATUS (R404). The end of the current interval of an open-ended window that is not closing reads 0. -/
def execAccStatus (r : Req) (s : State) : Host.Outcome State Fault Refusal :=
  .next (command (checksAccStatus r s) r s (actAccStatus r s))

end Sys2Proof.Machine
end

