-- ==== Sys2Proof/Machine/ChgOps.lean ====
section
/-! DEFINITION. Operations of charge programs, host setpoints and supply groups (R287 to R317). -/

namespace Sys2Proof.Machine

/-- What the sequencer holds of a drive tag. -/
def driveRec (s : State) (d : Nat) : Drive := tgetD s.chg.drives d {}

/-- Change a drive tag's record. -/
def modDrive (d : Nat) (f : Drive → Drive) (s : State) : State := { s with chg := { s.chg with drives := tmod s.chg.drives d {} f } }

/-- A program is running, held or stopping. -/
def driveActive (x : Drive) : Bool := x.pst == .running || x.pst == .hold || x.pst == .stopping

/-- Source of a drive tag's program events (R314). -/
def chgEvent (d kind detail : Nat) (s : State) : State := raisePos d 0x3FF kind detail s

/-- Codes of R409. -/
def pstCode : PrgState → Nat
  | .loaded => 0
  | .running => 1
  | .hold => 2
  | .stopping => 3
  | .done => 4
  | .fault => 5
  | .aborted => 6
def CC_DONE : Nat := 1
def CC_TERM : Nat := 2
def CC_T_STOP : Nat := 3
def CC_MAX_TIME : Nat := 4
def CC_MAX_CHARGE : Nat := 5
def CC_ECC : Nat := 6
def CC_STOP : Nat := 7
def CC_TRACK : Nat := 8
def CC_INRUSH : Nat := 9
def CC_LOST : Nat := 10
def CC_WIRE : Nat := 11
def CC_SAFETY : Nat := 12
def CC_SHUTDOWN : Nat := 13

/-! ### Measurements -/

/-- A current of µA as `I_SET` (R289). -/
def setOfCurrent (s : State) (d : Nat) (i : Int) : Int :=
  let j := match shuntOf s d with
    | some sh => polar sh i
    | none => i
  clampI (-524288) 524287 (tdivI (j * rshOf s d * 524288) 400000000000)

/-- A merged current value as µA, positive into the stack. -/
def currentOf (s : State) (d : Nat) (v : Int) : Int :=
  tdivI ((match shuntOf s d with
    | some sh => polar sh v
    | none => v) * 1000) (rshOf s d)

/-- The live merged current, µA. -/
def liveCurrent (s : State) (d : Nat) : Int := currentOf s d (((tgetD s.loom.mergeLive d {}).latest.getD {}).value)

/-- The live sample of a channel. -/
def liveOf (s : State) (chi : Nat) : Sample := tgetD s.loom.live chi {}

/-- The live voltages of a program's bound cells, µV: cells beside a broken interior wire as half their pair sum (R297). -/
def cellVolts (s : State) (d : Nat) : List Int :=
  (boundTo s d).flatMap fun p =>
    let v (j : Nat) : Int := (liveOf s (p * 16 + j)).value
    let b := brokenWires s p
    (List.range 12).map fun j =>
      if b.contains j && j != 0 then tdivI (v (j - 1) + v j) 20
      else if b.contains (j + 1) && j != 11 then tdivI (v j + v (j + 1)) 20
      else tdivI (v j) 10

/-- Largest and smallest of a list, 0 when it is empty. -/
def maxOf (l : List Int) : Int := l.tail.foldl max (l.headD 0)
def minOf (l : List Int) : Int := l.tail.foldl min (l.headD 0)

/-- DT1 ch2, µV. -/
def stringVolts (s : State) (d : Nat) : Int := tdivI (liveOf s (d * 16 + 2)).value 10

/-- Some sample that the loop uses carries `SUBST`. -/
def loopSubst (s : State) (d : Nat) (refStr : Bool) : Bool :=
  (boundTo s d).any (fun p => (List.range 12).any (fun j => (liveOf s (p * 16 + j)).flags.subst))
    || (refStr && (liveOf s (d * 16 + 2)).flags.subst)

/-- Keys of a program's thermistors (R288). -/
def therms (s : State) (d : Nat) : List Nat :=
  (boundTo s d).flatMap fun p => (List.range 4).filter (fun t => (thermAssign s p).contains t) |>.map (fun t => entryKey (p * 16 + 13) t)

/-- The temperatures in force of a program's thermistors, m°C: the latest valid value of each (R296). -/
def thermsHeld (s : State) (d : Nat) : List Int := (therms s d).filterMap (fun k => (tget s.chg.latest k).map (·.2))

/-- Some thermistor of a program has had no valid dwell value for 100 ms (R296). -/
def thermsStale (s : State) (d : Nat) : Bool :=
  (therms s d).any (fun k => (tget s.chg.latest k).elim true (fun v => decide (v.1 + 10000 < s.spc)))

/-- Integrator of a drive tag. -/
def integOf (s : State) (d : Nat) : Int := (tgetD s.est.strs d {}).integ

/-- A change of the integrator in 0.01 mAh, truncated (R260, R302). -/
def chargeUnits (s : State) (d : Nat) (dq : Int) : Int := tdivI (dq * 20) (9000000 * rshOf s d : Nat)

/-- Program and phase charge, 0.01 mAh; program and phase time, s. -/
def progCharge (s : State) (d : Nat) : Int := chargeUnits s d (integOf s d - (driveRec s d).qProg)
def phaseCharge (s : State) (d : Nat) : Int := chargeUnits s d (integOf s d - (driveRec s d).qPhase)
def progTime (s : State) (d : Nat) : Nat := (s.spc - (driveRec s d).began) / 100000

/-! ### Posting (R290, R312) -/

/-- The command in force at the tag at a boundary. -/
def forceAt (x : Drive) (b : Nat) : Int × Bool := ((x.force.find? (fun f => decide (f.1 ≤ b))).map (·.2)).getD (0, false)

/-- An inrush window that opens at a pick. -/
def openInrush (at_ picks budget : Nat) (x : Drive) : Drive :=
  if picks = 0 then x else { x with inrush := some { start := at_, stop := at_ + picks, budget := budget }, trackHi := 0, trackLo := 0 }

/-- Inrush parameters in force: the host setpoint's, or the program's. -/
def inrushPar (x : Drive) : Nat × Nat :=
  match x.setp, x.prog with
  | some h, _ => (h.inrushPicks, h.inrushBudget)
  | none, some g => (g.inrushPicks, g.inrushI2t)
  | none, none => (0, 0)

/-- Note what a posting puts in force at the tag; an output that comes on opens an inrush window, unless it was off within a pulse
train. -/
def noteForce (b : Nat) (i : Int) (on : Bool) (x : Drive) : Drive :=
  let last := forceAt x (2 ^ 70)
  if last = (i, on) then x
  else
    let x1 := { x with force := ((b, i, on) :: x.force).take 32 }
    if on && !last.2 && !x.pulseOff then openInrush b (inrushPar x).1 (inrushPar x).2 x1 else x1

/-- Post a current at this boundary: the frame of this pick carries it. -/
def postNow (d : Nat) (i : Int) (on : Bool) (s : State) : State :=
  let b := inForce s (chainOfPos d)
  postDrive d (setOfCurrent s d i) on (modDrive d (noteForce b i on) s)

/-- Post a current for the next pick's word. -/
def postNext (d : Nat) (i : Int) (on : Bool) (s : State) : State :=
  let b := inForce s (chainOfPos d) + 1
  modPos d (fun x => { x with posted := { x.posted with iSet := setOfCurrent s d i, outEn := on } }) (modDrive d (noteForce b i on) s)

/-! ### Relaxation sets (R300) -/

/-- Channels of a relaxation set: every bound cell and DT1 ch2, ascending. -/
def relaxChis (s : State) (d : Nat) : List Nat :=
  (((boundTo s d).flatMap fun p => (List.range 12).map (p * 16 + ·)) ++ [d * 16 + 2]).mergeSort (fun a b => decide (a ≤ b))

/-- Store a finished set, or count it as not stored. -/
def storeSet (r : RelaxSet) (x : Drive) : Drive :=
  if x.sets.length < 2 then { x with sets := x.sets ++ [{ r with dropped := x.notStored }], notStored := 0 }
  else { x with notStored := x.notStored + 1 }

/-- The rest in progress has ended before pick b. -/
def closeRest (b : Nat) (x : Drive) : Drive :=
  match x.rest with
  | some r => { x with rest := none, closing := x.closing ++ [{ r with stop := some b }] }
  | none => x

/-- A rest begins: its edge is the pick at which the posting takes effect. -/
def beginRest (d : Nat) (s : State) : State :=
  let e := inForce s (chainOfPos d)
  let chis := relaxChis s d
  modDrive d (fun x =>
    let x1 := closeRest e x
    { x1 with rest := some { e := e, phase := x1.phase, seq := x1.rests, recs := chis.map (fun c => { chi := c }) }, rests := x1.rests + 1 }) s

/-- A rest ends: the first pick after it is the one at which the new posting takes effect. -/
def endRest (d : Nat) (s : State) : State :=
  let b := inForce s (chainOfPos d)
  modDrive d (closeRest b) s

/-- First sample of the sub-windows of a rest with edge e, and the sub-window of a sample. -/
def relaxFirst (e : Nat) : Nat := (e + 12 + 7) / 8
def relaxSub (e m : Nat) : Nat := Nat.log2 ((m - relaxFirst e) / 8 + 1)

/-- Take a settled sample into a record of a rest with edge e. -/
def relaxAdd (e gen : Nat) (x : Sample) (r : RelaxRec) : RelaxRec :=
  let last := (e - 20) / 8
  let m0 := relaxFirst e
  if x.m < m0 then
    if last - 7 ≤ x.m ∧ x.m ≤ last ∧ ¬ x.flags.gap then { r with preSum := r.preSum + x.value, preCount := r.preCount + 1, gen := gen } else r
  else
    let k := relaxSub e x.m
    if 16 ≤ k then r
    else
      let l := (List.range 16).map (fun i => r.subs.getD i (0, 0, 0))
      let c := l.getD k (0, 0, 0)
      if x.flags.gap then { r with subs := l.set k (c.1, c.2.1 + 1, c.2.2), flags := r.flags ||| flagBits x.flags }
      else { r with subs := l.set k (c.1 + 1, c.2.1, c.2.2 + x.value), flags := r.flags ||| flagBits x.flags, gen := gen }

/-- A settled sample of a channel in the set of a rest, while its span ends before the rest does. -/
def relaxTake (chi gen : Nat) (x : Sample) (r : RelaxSet) : RelaxSet :=
  if r.stop.elim true (fun b => decide (8 * x.m + 20 ≤ b)) then
    { r with recs := r.recs.map (fun z => if z.chi = chi then relaxAdd r.e gen x z else z) }
  else r

/-- Give a settled sample of a channel to the rests of a drive tag. -/
def feedRelax (d chi : Nat) (x : Sample) (s : State) : State :=
  let gen := genAt s (chainOfChi chi) (8 * x.m + 4)
  if (driveRec s d).rest.isNone && (driveRec s d).closing.isEmpty then s
  else modDrive d (fun y => { y with rest := y.rest.map (relaxTake chi gen x), closing := y.closing.map (relaxTake chi gen x) }) s

/-- Flags of a finished set: the sub-window that its end cuts short carries `PARTIAL`, those after it `EMPTY` (R300). -/
def relaxFlags (e stop : Nat) : Nat :=
  let ends := (stop - 20) / 8 + 1 - relaxFirst e
  let full := Nat.log2 (ends / 8 + 1)
  if 16 ≤ full then 0
  else (if ends = 8 * (2 ^ full - 1) then 0 else RF_PARTIAL) + (if full + 1 < 16 ∨ ends = 8 * (2 ^ full - 1) then RF_EMPTY else 0)

/-! ### Ending (R307 to R309) -/

/-- Groups of a drive tag: something has changed in them (R316). -/
def groupChanged (d : Nat) (s : State) : State :=
  { s with chg := { s.chg with groups := tmap s.chg.groups fun _ g => if g.members.contains d then { g with changed := true } else g } }

/-- Forget a loaded program. -/
def unloadProgram (d : Nat) (s : State) : State :=
  modDrive d (fun x => { x with prog := none, pst := .loaded, cause := 0, startAt := none, unload := false, sets := [], notStored := 0, rest := none, closing := [] }) s

/-- A program has ended with its off in force from a boundary: its charges are kept and its end is reported. -/
def programEnded (d : Nat) (st : PrgState) (cause off : Nat) (s : State) : State :=
  let pq := progCharge s d
  let hq := phaseCharge s d
  let s1 := modDrive d (fun x =>
    { x with
      pst := st, cause := cause, ramp := none, startAt := none, lastProgQ := pq, lastPhaseQ := hq, ended := s.spc
      cmd := 0, request := 0, share := none, grpLim := false, pulseOff := false, ceil := 0, offAt := some off }) s
  groupChanged d (endRest d (chgEvent d 0x90 (pstCode st * 2 ^ 8 + cause) s1))

/-- Once the off of an ended program is in force, the commands that stop it finish, and it is unloaded if they ask so (R309). -/
def finishStop (d : Nat) (s : State) : State :=
  let x := driveRec s d
  match x.offAt with
  | some b =>
    if b ≤ s.spc then
      let s1 := finishObj 0x0A02 d ST_OK (modDrive d (fun x => { x with offAt := none }) s)
      if x.unload then unloadProgram d (groupChanged d s1) else s1
    else s
  | none => s

/-- End a program at once: `OUT_EN` = 0 for the next pick's word (R308). A safety off is posted by the island alone; the posted value
is off all the same, so that the output stays off when the demand ends. -/
def endNow (d : Nat) (cause : Nat) (s : State) : State :=
  if driveActive (driveRec s d) then programEnded d .fault cause (inForce s (chainOfPos d) + 1) (postNext d 0 false s) else s

/-- Start the ramp of a program from the command in force at this boundary, which is clamped at 0 (R287). -/
def startRamp (d : Nat) (ending : PrgState) (cause dn : Nat) (s : State) : State :=
  let f := forceAt (driveRec s d) s.spc
  modDrive d (fun x => { x with pst := .stopping, ramp := some { s := s.spc, i0 := max 0 f.1, on := f.2, dn := dn, ending := ending, cause := cause }, pulseOff := false }) s

/-- End a program by its stop ramp (R309); a second stop during a ramp changes nothing. -/
def endRamp (d : Nat) (ending : PrgState) (cause : Nat) (s : State) : State :=
  let x := driveRec s d
  if x.pst = .running ∨ x.pst = .hold then
    endRest d (startRamp d ending cause ((x.prog.map (·.rampDn)).getD 0) s)
  else s

/-- Post the step of a ramp for this pick: i0 (dn - k) / dn, then `OUT_EN` = 0 (R309, R311). -/
def rampStep (d : Nat) (s : State) : State :=
  let x := driveRec s d
  match x.ramp with
  | none => s
  | some r =>
    let k := s.spc - r.s
    if k = 0 then s
    else if k ≤ r.dn then postNow d (tdivI (r.i0 * ((r.dn : Int) - k)) r.dn) r.on s
    else
      let s1 := postNow d 0 false s
      if x.pst = .stopping then programEnded d r.ending r.cause (inForce s (chainOfPos d)) s1
      else modDrive d (fun x => { x with ramp := none, setp := none }) s1

/-- Set a host setpoint to 0 with `OUT_EN` = 0 at once (R312). -/
def dropSetpoint (d : Nat) (s : State) : State :=
  modDrive d (fun x => { x with setp := none, ramp := none, request := 0 }) (postNext d 0 false s)

/-! ### Phases (R295, R296, R299) -/

/-- The phase in force. -/
def phaseOf (x : Drive) : PhaseRec := ((x.prog.bind (fun g => g.phases[x.phase]?))).getD {}

/-- One step of a zone at temperature T: rise or fall by one (R296). -/
def zoneStep (g : Program) (t : Int) (z : Nat) : Nat :=
  if z < 5 ∧ geti g.tz z * 100 ≤ t then z + 1
  else if 0 < z ∧ t < (geti g.tz (z - 1) - g.hyst) * 100 then z - 1
  else z

/-- The zone of a temperature from the zone in force. -/
def zoneOf (g : Program) (t : Int) (z : Nat) : Nat := (List.range 6).foldl (fun z _ => zoneStep g t z) z

/-- `ZV`, `ZI` in force: the smaller of the hottest and of the coldest thermistor's zone. -/
def zonePair (h : PhaseRec) (x : Drive) : Nat × Nat :=
  let a := h.zones.getD x.zoneHi (0, 0)
  let b := h.zones.getD x.zoneLo (0, 0)
  (min a.1 b.1, min a.2 b.2)

/-- Ceiling of a taper, µA, at a phase time in picks: it falls over `T_RAMP` and then holds (R295). -/
def taperAt (h : PhaseRec) (x : Drive) (picks : Nat) : Int :=
  let c : Int := h.i * (zonePair h x).2
  let e : Int := if h.i = 0 then 0 else tdivI (c * h.iEnd) h.i
  let t : Int := min picks (h.tRamp * 100000)
  c - tdivI ((c - e) * t) (max 1 (h.tRamp * 100000) : Nat)

/-- Ceiling of the phase at a tick, µA. -/
def ceilOf (h : PhaseRec) (x : Drive) : Int :=
  if h.typ = 6 then taperAt h x (x.ticks * 100) else h.i * (zonePair h x).2

/-- Cell limit, µV. -/
def cellLimit (h : PhaseRec) (x : Drive) : Int := min h.vCell (zonePair h x).1 * 100

/-- The pulse is on at a boundary: the schedule runs from the pick at which the phase was entered (R299). -/
def pulseOn (h : PhaseRec) (x : Drive) (b : Nat) : Bool × Bool :=
  let on := h.tOn * 10
  let off := h.tOff * 10
  let last := if h.trainRest = 0 then off else h.trainRest * 10000
  let body := h.pulses * (on + off) - off
  let r := (b - x.entered) % max 1 (body + last)
  (decide (r < body) && decide (r % max 1 (on + off) < on), decide (body ≤ r) && h.trainRest != 0)

/-- The limiter did not run at the tick before: the error it remembers is a free value (R297; log 59). -/
def forgetError (d : Nat) (s : State) : State :=
  { modDrive d (fun x => { x with ePrev := Config.firstError s.fresh }) s with fresh := s.fresh + 1 }

/-- Enter a phase at this tick. The limiter of a CC-CV phase starts at the ceiling, every other from the command in force (R295). -/
def enterPhase (d i : Nat) (s : State) : State :=
  let was := driveRec s d
  let iNow := (forceAt was s.spc).1
  let qNow := integOf s d
  let s1 := if (phaseOf was).typ = 5 then endRest d s else s
  let s2 := modDrive d (fun x =>
    let x1 := { x with phase := i, entered := s.spc, ticks := 0, qPhase := qNow, holds := [], peak := none, pulseOff := false }
    let h := phaseOf x1
    { x1 with q := if h.typ = 3 then ceilOf h x1 else max 0 iNow }) s1
  let s3 := if (phaseOf was).typ = 1 ∨ (phaseOf was).typ = 5 then forgetError d s2 else s2
  let s4 := if (phaseOf (driveRec s3 d)).typ = 5 then beginRest d s3 else s3
  chgEvent d 0x91 i s4

/-- Start a program at its boundary: phase 0, times and charges at 0 (R306). -/
def startProgram (d : Nat) (s : State) : State :=
  let s1 := modDrive d (fun x =>
    { x with
      pst := .running, cause := 0, startAt := none, began := s.spc, qProg := integOf s d, q := 0, cmd := 0, zoneHi := 0, zoneLo := 0
      trackHi := 0, trackLo := 0, rests := 0, setp := none, ramp := none }) s
  enterPhase d 0 (groupChanged d (forgetError d s1))

/-! ### Terminations (R292, R302 to R304) -/

/-- F(b) of R303, µV: none when a cell has too few samples. -/
def filteredString (s : State) (d : Nat) : Option Int :=
  let b := s.spc / 100000
  let one (k : Nat) : Option Int :=
    let l := (tgetD s.chg.blocks k []).filter (fun x => decide (b ≤ x.1 + 16) && decide (x.1 < b))
    let n := (l.map (·.2.2)).sum
    if n < 7200 then none else some (tdivI (l.map (·.2.1)).sum (10 * n))
  let l := ((boundTo s d).flatMap fun p => (List.range 12).map (fun j => entryKey (p * 16 + j) 0)).map one
  if l.all (·.isSome) then some ((l.filterMap id).sum) else none

/-- Take F(b) into the peak after the hold-off. -/
def notePeak (d : Nat) (s : State) : State :=
  let x := driveRec s d
  let after := decide (x.entered + ((x.prog.map (·.dvHoldoff)).getD 0) * 100000 ≤ s.spc)
  if s.spc % 100000 = 0 ∧ after then
    match filteredString s d with
    | some f => modDrive d (fun x => { x with peak := some (x.peak.elim f (max f)) }) s
    | none => s
  else s

/-- The rise of a thermistor over a minute, m°C: none where a span has too few dwell values (R304). -/
def thermRise (s : State) (k : Nat) : Option Int :=
  let b := s.spc / 100000
  let p := posOfChi (k / 8)
  let a := if (coverOf s p).isSome then max 1 (scanSet s p).length else 4
  let span (hi : Nat) : Option (Int × Nat) :=
    let l := (tgetD s.chg.blocks k []).filter (fun x => decide (b ≤ x.1 + hi) && decide (x.1 + hi < b + 20))
    let n := (l.map (·.2.2)).sum
    if n * a < 8000 then none else some ((l.map (·.2.1)).sum, n)
  match span 20, span 80 with
  | some (x, n), some (y, m) => some (tdivI x n - tdivI y m)
  | _, _ => none

/-- The condition of a termination at this tick (R292). -/
def termHolds (s : State) (d : Nat) (x : Drive) (t : Term) : Bool :=
  match t.kind with
  | 1 => decide (liveCurrent s d ≤ t.thresh * 1000)
  | 2 => decide ((t.thresh : Int) * 100 ≤ maxOf (cellVolts s d))
  | 3 => decide ((t.thresh : Int) * 1000 ≤ stringVolts s d)
  | 4 =>
    let rest := (phaseOf x).anchor && decide (s.spc < x.entered + (tgetD s.est.strs d {}).tRest * 6000000)
    decide (t.thresh * 1000 ≤ x.ticks) && !rest
  | 5 => decide ((t.thresh : Int) ≤ phaseCharge s d)
  | 6 => (thermsHeld s d).any (fun x => decide (toSigned 32 t.thresh * 100 ≤ x))
  | 7 =>
    match filteredString s d, x.peak with
    | some f, some p => s.spc % 100000 == 0 && decide (f ≤ p - (12 * (boundTo s d).length * t.thresh : Nat))
    | _, _ => false
  | 8 =>
    s.spc % 100000 == 0 && decide (x.entered + 8000000 ≤ s.spc)
      && (therms s d).any (fun k => (thermRise s k).elim false (fun r => decide ((t.thresh : Int) * 10 ≤ r)))
  | _ => false

/-- Since when each condition has held, brought up to this tick. -/
def holdsNow (s : State) (d : Nat) (x : Drive) : List (Option Nat) :=
  (phaseOf x).terms.zipIdx.map fun t => if termHolds s d x t.1 then some ((x.holds.getD t.2 none).getD s.spc) else none

/-- The first termination that fires. -/
def firedTerm (s : State) (x : Drive) : Option Term :=
  (((phaseOf x).terms.zip x.holds).find? (fun t => t.2.elim false (fun b => decide (b + t.1.hold * 1000 ≤ s.spc)))).map (·.1)

/-- A taper end of a CV or CC-CV phase asks for full anchors on the bound cells (R266, R305). -/
def taperEnd (d : Nat) (s : State) : State :=
  let mine := (boundTo s d).flatMap fun p => (List.range 12).map (cellKey p)
  { s with est := { s.est with cells := mine.foldl (fun t k => tupd t k (fun c => { c with fullDue := true })) s.est.cells } }

/-- Go to the next phase, or end in `DONE` after the last. -/
def nextPhase (d : Nat) (s : State) : State :=
  let x := driveRec s d
  if x.phase + 1 < (x.prog.map (·.phases.length)).getD 0 then enterPhase d (x.phase + 1) s else endRamp d .done CC_DONE s

/-- Act on a termination (R291, R302, R305). -/
def actTerm (d : Nat) (t : Term) (s : State) : State :=
  let h := phaseOf (driveRec s d)
  let ends := t.action = 2 ∨ (t.action = 0 ∧ ¬ (driveRec s d).phase + 1 < ((driveRec s d).prog.map (·.phases.length)).getD 0)
  let s1 := if t.kind = 1 ∧ (h.typ = 2 ∨ h.typ = 3) ∧ ends then taperEnd d s else s
  match t.action with
  | 0 => nextPhase d s1
  | 1 => enterPhase d t.target s1
  | 2 => endRamp d .done CC_DONE s1
  | _ => endRamp d .fault CC_TERM s1

/-- A program-level limit that ends the program, with its cause (R302). -/
def programLimit (s : State) (d : Nat) (g : Program) : Option Nat :=
  if (thermsHeld s d).any (fun x => decide (g.stopHi * 100 ≤ x) || decide (x ≤ g.stopLo * 100)) then some CC_T_STOP
  else if g.maxTime ≤ progTime s d then some CC_MAX_TIME
  else if (g.maxCharge : Int) ≤ progCharge s d then some CC_MAX_CHARGE
  else none

/-! ### The tick (R296, R297, R302, R313) -/

/-- The implicit end of a CC phase. -/
def ccEnds (s : State) (d : Nat) (h : PhaseRec) (x : Drive) : Bool :=
  h.typ == 1 && (decide (cellLimit h x ≤ maxOf (cellVolts s d)) || (h.refStr && decide ((h.vStr : Int) * 1000 ≤ stringVolts s d)))

/-- The channel is in its inrush window, or is about to be (R312). -/
def inInrush (s : State) (x : Drive) : Bool := x.inrush.elim false (fun w => decide (s.spc < w.stop))

/-- Tracking of a running program: ten ticks above, or below at least 20 ticks after the last change (R313). -/
def track (d : Nat) (s : State) : State :=
  let x := driveRec s d
  match x.prog with
  | none => s
  | some g =>
    let im := liveCurrent s d
    let ic := (forceAt x s.spc).1
    let tol : Int := g.trackTol * 400000000 / rshOf s d
    let changed := ((x.force.find? (fun f => decide (f.1 ≤ s.spc))).map (·.1)).getD 0
    let hi := if ¬ inInrush s x ∧ ic + tol < im then x.trackHi + 1 else 0
    let lo := if ¬ inInrush s x ∧ im < ic - tol ∧ changed + 2000 ≤ s.spc then x.trackLo + 1 else 0
    let s1 := modDrive d (fun x => { x with trackHi := hi, trackLo := lo }) s
    if 10 ≤ hi ∨ 10 ≤ lo then endNow d CC_TRACK s1 else s1

/-- The zones of the highest and of the lowest thermistor (R296). -/
def zonesNow (d : Nat) (s : State) : State :=
  let x := driveRec s d
  let l := thermsHeld s d
  match x.prog with
  | none => s
  | some g => if l.isEmpty then s else modDrive d (fun x => { x with zoneHi := zoneOf g (maxOf l) x.zoneHi, zoneLo := zoneOf g (minOf l) x.zoneLo }) s

/-- The hold of R296, over the phase in force at the end of a tick's checks: a stale thermistor, or a zone without current. -/
def holdNow (d : Nat) (s : State) : State :=
  let x := driveRec s d
  let held := thermsStale s d || ((phaseOf x).typ != 5 && (zonePair (phaseOf x) x).2 == 0)
  if x.pst = .running ∨ x.pst = .hold then modDrive d (fun x => { x with pst := if held then .hold else .running }) s else s

/-- A position is lost, parked or unpowered (R307). -/
def gone (s : State) (p : Nat) : Bool := (posOf s p).state == .lost || (posOf s p).state == .parked || (posOf s p).state == .unpowered

/-- One tick of a program up to its request: zones, the checks of R302 in their order, then the hold. A held program is a running one and
is checked as such; its phase time alone does not advance. -/
def tickProgram (d : Nat) (s : State) : State :=
  let x := driveRec s d
  match x.prog with
  | none => s
  | some g =>
    if driveOff s d then endNow d CC_SAFETY s
    else if (d :: boundTo s d).any (gone s) then endNow d CC_LOST s
    else if (boundTo s d).any (fun p => (brokenWires s p).contains 0 || (brokenWires s p).contains 12) then endNow d CC_WIRE s
    else
      let s0 := zonesNow d s
      match programLimit s0 d g with
      | some c => endRamp d .fault c s0
      | none =>
        let s1 := modDrive d (fun x => { x with ticks := if x.pst = .running ∧ x.entered < s.spc then x.ticks + 1 else x.ticks }) s0
        let s2 := notePeak d s1
        let s3 := modDrive d (fun x => { x with holds := holdsNow s2 d x }) s2
        let y := driveRec s3 d
        holdNow d (match firedTerm s3 y with
          | some t => actTerm d t s3
          | none => if ccEnds s3 d (phaseOf y) y then nextPhase d s3 else s3)

/-- The limiter's request before the share (R297). -/
def limiter (d : Nat) (s : State) : State :=
  let x := driveRec s d
  match x.prog with
  | none => s
  | some g =>
    let h := phaseOf x
    let c := ceilOf h x
    if x.pst ≠ .running then modDrive d (fun x => { x with request := 0, ceil := 0 }) s
    else if h.typ = 5 then modDrive d (fun x => { x with request := 0, ceil := 0 }) s
    else if h.typ = 1 then modDrive d (fun x => { x with request := c, ceil := c }) s
    else if h.typ = 4 && !(pulseOn h x s.spc).1 then modDrive d (fun x => { x with request := min x.q c, ceil := c }) s
    else
      let e0 := cellLimit h x - maxOf (cellVolts s d)
      let e := if h.refStr then min e0 ((h.vStr : Int) * 1000 - stringVolts s d) else e0
      let dq0 := tdivI (g.kp * (e - x.ePrev)) 1000 + tdivI (g.ki * e) 1000
      let dq := if loopSubst s d h.refStr && decide (0 < dq0) then 0 else dq0
      let q := clampI 0 c (x.q + dq)
      modDrive d (fun x => { x with q := q, ePrev := e, request := min q c, ceil := c }) s

/-- Shares of every group at a tick (R315). -/
def shares (s : State) : State :=
  forEach s.chg.groups s fun g s =>
    let req (d : Nat) : Int := max 0 (driveRec s d).request
    let sum := (g.2.members.map req).sum
    let a : Int := g.2.a * 1000
    let s1 := { s with chg := { s.chg with groups := tupd s.chg.groups g.1 (fun x => { x with demand := (sum / 1000).toNat }) } }
    forEach g.2.members s1 fun d s =>
      modDrive d (fun x =>
        if sum ≤ a then { x with share := none, grpLim := false }
        else { x with share := some (tdivI (req d * a) sum), grpLim := decide (0 < x.request) }) s

/-- The command of a program after the share, and its posting (R297, R299). -/
def commandProgram (d : Nat) (s : State) : State :=
  let x := driveRec s d
  match x.prog with
  | none => s
  | some g =>
    let h := phaseOf x
    if x.pst = .hold then postNow d 0 false (modDrive d (fun x => { x with cmd := 0, pulseOff := false }) s)
    else if x.pst ≠ .running then s
    else if h.typ = 5 then postNow d 0 false (modDrive d (fun x => { x with cmd := 0 }) s)
    else
      let p := pulseOn h x s.spc
      if h.typ = 4 && !p.1 then s
      else
        let m := match x.share with
          | some y => min x.request y
          | none => x.request
        let slew := if 0 < g.slewUp then min m (x.cmd + g.slewUp * 1000) else m
        let cmd := max slew 0
        let s1 := postNow d cmd true s
        modDrive d (fun x => { x with cmd := cmd, q := if h.typ = 1 then x.q else min x.q cmd, pulseOff := false }) s1

/-- The command of a host setpoint: a positive one takes its share (R311, R315). -/
def commandSetpoint (d : Nat) (s : State) : State :=
  let x := driveRec s d
  match x.setp, x.ramp with
  | some h, none =>
    let i := match x.share with
      | some y => if 0 < h.current then min h.current y else h.current
      | none => h.current
    postNow d i h.outEn s
  | _, _ => s

/-- Edges of a pulse at this boundary (R290, R299): the output or the current goes off, a train rest begins, or the on-time starts. -/
def pulseEdge (d : Nat) (s : State) : State :=
  let x := driveRec s d
  let h := phaseOf x
  if x.pst ≠ .running ∨ h.typ ≠ 4 ∨ s.spc ≤ x.entered then s
  else
    let now := pulseOn h x s.spc
    let old := pulseOn h x (s.spc - 1)
    if now = old then s
    else
      let s1 := if old.2 && !now.2 then endRest d s else s
      if now.1 then modDrive d (fun x => { x with pulseOff := false }) (postNow d x.cmd true s1)
      else
        let s2 := postNow d 0 (!h.offOpen) (modDrive d (fun x => { x with pulseOff := true }) s1)
        if now.2 && !old.2 then beginRest d s2 else s2

/-- The ramp of a taper between two ticks: its ceiling is posted at every posting boundary (R290, R295). -/
def taperPost (d : Nat) (s : State) : State :=
  let x := driveRec s d
  let h := phaseOf x
  if x.pst = .running ∧ h.typ = 6 ∧ s.spc % 100 ≠ 0 ∧ s.spc % max 1 ((x.prog.map (·.upd)).getD 100) = 0 then
    let now := taperAt h x (x.ticks * 100 + s.spc % 100)
    if now < x.cmd then postNow d (max 0 now) true s else s
  else s

/-- A loop tick over every drive tag (R297). -/
def loopTick (s : State) : State :=
  let ds := s.chg.drives.map (·.1)
  let s1 := forEach ds s fun d s =>
    let x := driveRec s d
    let s1 := match x.startAt with
      | some b => if b ≤ s.spc then startProgram d s else s
      | none => s
    let y := driveRec s1 d
    if y.pst = .running ∨ y.pst = .hold then limiter d (tickProgram d s1)
    else if y.pst = .stopping && driveOff s1 d then endNow d CC_SAFETY s1
    else match y.setp with
      | some h => modDrive d (fun x => { x with request := if h.outEn then h.current else 0 }) s1
      | none => s1
  let s2 := shares s1
  forEach ds s2 fun d s =>
    let x := driveRec s d
    let s1 := if x.setp.isSome then commandSetpoint d s else commandProgram d s
    if (driveRec s1 d).pst = .running ∨ (driveRec s1 d).pst = .hold then track d s1 else s1

/-- The sequencer's part of a pick boundary: ramp steps, taper ramps, pulse edges, and the ends of stops. -/
def sequencerPick (s : State) : State :=
  forEach (s.chg.drives.map (·.1)) s fun d s => finishStop d (pulseEdge d (taperPost d (rampStep d s)))

/-! ### What the sequencer takes from samples -/

/-- Charge the inrush window of a drive tag with a live merged-current sample (R312). -/
def feedInrush (d m : Nat) (s : State) : State :=
  let x := driveRec s d
  match x.inrush with
  | none => s
  | some w =>
    if w.start ≤ 8 * m + 4 ∧ 8 * m + 4 < w.stop then
      let sum := w.sum + (liveCurrent s d).natAbs ^ 2
      let s1 := modDrive d (fun x => { x with inrush := some { w with sum := sum } }) s
      if w.budget * 10 ^ 14 < sum * 8 then
        let s2 := modDrive d (fun x => { x with inrush := none, inrushUsed := sum * 8 / 10 ^ 14 }) s1
        if driveActive x then endNow d CC_INRUSH s2 else dropSetpoint d s2
      else s1
    else s

/-- Add a value of the second that holds `at_` to the block sums kept of a key, for `keep` blocks. -/
def feedBlock (key at_ keep : Nat) (v : Int) (s : State) : State :=
  let b := (at_ + 1600) / 100000
  let l := tgetD s.chg.blocks key []
  let l1 := match l with
    | (k, x, n) :: r => if k = b then (k, x + v, n + 1) :: r else (b, v, 1) :: l
    | [] => [(b, v, 1)]
  { s with chg := { s.chg with blocks := tset s.chg.blocks key (l1.take keep) } }

/-- A dwell value of a CT12 thermistor reaches the sequencer (R296, R304). -/
def feedTherm (key : Nat) (x : Sample) (s : State) : State :=
  if x.flags.gap then s
  else feedBlock key (200 * x.m + 104) 90 x.value { s with chg := { s.chg with latest := tset s.chg.latest key (s.spc, x.value) } }

/-! ### Supply groups (R314 to R317) -/

/-- A group is frozen while a member is in an inrush window or in `FAULT`. -/
def frozen (s : State) (g : Group) : Bool := g.members.any fun d => inInrush s (driveRec s d) || (driveRec s d).pst == .fault

/-- vb of R316, mV; none where no sample of those 50 ms has been released. -/
def busVolts (s : State) (g : Group) : Option Int :=
  let l := (tgetD s.chg.bus g.sense []).filter (fun x => decide (s.spc ≤ 200 * x.1 + 6600) && decide (200 * x.1 + 1600 < s.spc))
  if l.isEmpty then none else some (tdivI (l.map (·.2)).sum (10000 * l.length))

/-- Code of a search state. -/
def gstateCode : GState → Nat
  | .hold => 0
  | .ramp => 1
  | .rampWait => 2

/-- One step of the allowance search. The mean of no sample at all is a free value (log 59). -/
def searchStep (s : State) (g : Group) : Group :=
  let vb := (busVolts s g).getD (Config.busVolts s.fresh)
  if frozen s g then (if g.state = .ramp then { g with state := .rampWait } else g)
  else match g.state with
    | .rampWait => { g with vref := vb, state := .ramp }
    | .hold => if g.tEnd + 60000000 ≤ s.spc ∨ g.changed then { g with vref := vb, state := .ramp, changed := false } else g
    | .ramp =>
      if g.srcLim.isSome ∨ (g.sag : Int) < g.vref - vb then { g with a := g.a * 95 / 100, state := .hold, tEnd := s.spc }
      else if g.demand ≤ g.a then { g with state := .hold, tEnd := s.spc }
      else if g.aMax ≤ g.a then { g with a := g.aMax, state := .hold, tEnd := s.spc }
      else { g with a := min (g.a + max 1 (g.a / 100)) g.aMax }

/-- A reported source limit caps the allowance in every state. -/
def capGroup (g : Group) : Group :=
  match g.srcLim with
  | some l => { g with a := min g.a (l * 95 / 100) }
  | none => g

/-- Search one group, with its event when the state changes. -/
def searchGroup (k : Nat) (g : Group) (s : State) : State :=
  let g1 := capGroup (searchStep s g)
  let s1 := { s with chg := { s.chg with groups := tset s.chg.groups k g1 }, fresh := s.fresh + b2n (busVolts s g).isNone }
  if g1.state = g.state then s1 else raiseNow (0x300 + k) 0x93 (k + gstateCode g1.state * 2 ^ 8) s1

/-- End every program that uses a position: its drive tag, or a bound CT12. -/
def endUsing (p cause : Nat) (s : State) : State :=
  forEach (if (posOf s p).kind = .dt1 then [p] else (driveOf s p).toList) s (fun d s => endNow d cause s)

/-- End the program, or drop the host setpoint, of every drive tag that a position serves. -/
def offUsing (p cause : Nat) (s : State) : State :=
  let s1 := endUsing p cause s
  if (driveRec s1 p).setp.isSome then dropSetpoint p s1 else s1

end Sys2Proof.Machine
end

