-- ==== Sys2Proof/Machine/Cascade.lean ====
section
/-! DEFINITION. What a happening on the line means to the other units: each operation gathers the effects that the chapters of
those units give. -/

namespace Sys2Proof.Machine

/-- Cells whose current is that of a tag: its own, or those of every CT12 bound to it. -/
def cellsWith (s : State) (p : Nat) : List Nat :=
  if (posOf s p).kind = .dt1 then (boundTo s p).flatMap fun q => (List.range 12).map (cellKey q) else (List.range 12).map (cellKey p)

/-- A position is lost, parked, unpowered or turned off by a fault (R70, R73, R74, R56): programs that use it end (R307), and its cells
are compared when it returns (R284). -/
def onSilent (p : Nat) (s : State) : State :=
  let s1 := offUsing p CC_LOST s
  if (posOf s1 p).kind = .ct12 then cellOutage p s1 else s1

/-- The tag of a position has a new incarnation (R72): a loss and a return at once. Records are marked (R152), calibration runs note the
reboot (R227), spectra restart (R178), learning intervals are disqualified (R273), and a dither waits to be applied again (R61). -/
def onIncarnation (p : Nat) (s : State) : State :=
  let s1 := restartTag p (failInRun p CAUSE_INC (fun _ => true) (markPosition p RF_INC (onSilent p s)))
  let s2 := disqualify DQ_IDENT (cellsWith s1 p) (modTagCal p (fun t => { t with dieT := none, dieWas := none }) s1)
  { s2 with spec := { s2.spec with dither := tupd s2.spec.dither p (fun d => { d with applied := false }) } }

/-- The tag of a position has changed (R60), which its records show as another incarnation as well (R168): it is uncalibrated (R199), its diagnostics start anew (R250), its contexts restart (R283) and
its dither is forgotten (R61). -/
def onTagChange (p : Nat) (s : State) : State :=
  let dt := (posOf s p).kind == .dt1
  let s1 := restartTag p (failInRun p CAUSE_INC (fun _ => true) (markPosition p (RF_INC + RF_IDCHG) (onSilent p s)))
  let s2 := disqualify DQ_IDENT (cellsWith s1 p) (freshDiag p (uncoverTag p s1))
  let s3 := if dt then clearString p s2 else restartCells true p s2
  let s4 := raisePos p 0x522 0x83 0 { s3 with spec := { s3.spec with dither := tdel s3.spec.dither p } }
  s4

/-- A companion that was promoted while it resynchronised has every table; contexts not yet copied start again, and the resynchronisation is
over (R435). -/
def startUncopied (s : State) : State :=
  if s.pair.role = .primary && s.pair.resync then
    let ps := (s.line.posns.map (·.1)).filter (fun p => !isLocal (chainOfPos p))
    let s1 := if s.pair.taken.contains 12 then s else forEach ps s restartTag
    let s2 := if s.pair.taken.contains 11 then s1
      else forEach ps s1 fun p s => if (posOf s p).kind = .dt1 then restartString p s else restartCells true p s
    modPair (fun u => { u with resync := false }) s2
  else s

/-- A position's coefficients are complete (R54, R198). -/
def onCoefficients (p : Nat) (s : State) : State := formFactory p s

/-- A position is released (R54): its cells are `OFF` with nothing bled (R234, R236), and what is counted since release starts again. -/
def onRelease (p : Nat) (s : State) : State :=
  let s1 := forEach (List.range 12) s fun j s =>
    modCell (cellKey p j) (fun c => { c with mode := .off, bled := 0, marks := [], host := 0, ttlEnd := 0 }) s
  let s2 := modDiag p (fun d => { d with calmCell := s.spc, calmCur := s.spc, run := 0, passed := 0, opened := 0, invalid := 0, ended := 0 }) s1
  startTrackers p (if (posOf s2 p).kind = .dt1 then modStr p (fun x => { x with nGapq := 0 }) s2 else startCells p s2)

/-- A drive tag's status of a dither configuration (R186, R187): applied or not. -/
def onDither (p : Nat) (ok : Bool) (s : State) : State :=
  { s with spec := { s.spec with dither := tupd s.spec.dither p (fun d => { d with on := d.on && ok, applied := ok }) } }

/-- A valid block of a released tag with or without `FAULT` (R252). -/
def onBlock (p : Nat) (fault : Bool) (s : State) : State :=
  if (posOf s p).state = .released then tagCheck p TF_TAG_FAULT 64 fault s else s

/-- A charge program runs on the drive tag (R73). -/
def driveRunning (s : State) (p : Nat) : Bool := driveActive (driveRec s p)

/-- A position whose coefficients no calibration generation covers (R199). -/
def uncovered (s : State) (p : Nat) : Bool := (posOf s p).kind != .none && !covered s p

/-- Step 7 of a command of the plant that names a chain (R397, R434): ST_STALE_EPOCH while the own epoch is stale, ST_NOT_PRIMARY on the
companion; a local ring is served in either role. -/
def plantRole (s : State) (c : Nat) : Option Nat :=
  if isLocal c || s.pair.role = .single then none
  else if s.pair.stale.isSome then some ST_STALE_EPOCH
  else if s.pair.role = .companion then some ST_NOT_PRIMARY
  else none

end Sys2Proof.Machine
end

