-- ==== Sys2Proof/Machine/Bal.lean ====
section
/-! DEFINITION. The rows and commands of balancing and diagnostics (chapter 08, R407). -/

namespace Sys2Proof.Machine

/-! ### Rows -/

/-- Decide the next balance frame: duties of every cell of every CT12 against its group's reference, then quiet windows. -/
def decideFrame (s : State) : State :=
  let f := (s.spc + 200) / 3200
  if f < s.bal.frame then s
  else
    let ps := tkeys s.line.posns (fun _ x => x.kind == .ct12)
    let s1 := forEach ps s fun p t =>
      let ref := groupRef s p
      forEach (List.range 12) t (fun j t => decideCell p j ref t)
    let s2 := forEach ps s1 (fun p s => placeQuiet p f s)
    { s2 with bal := { s2.bal with frame := f + 1 } }

/-- BALANCE_FRAME_BOUNDARY (R231 to R235, R240): the duty in force for frame f is decided at boundary 3,200 f - 200. -/
def execBalanceFrameBoundary (s : State) : Host.Outcome State Fault Refusal := .next (if s.up then decideFrame s else s)

/-- BALANCE_TTL_EXPIRY (R234): the cell is `OFF` from the next frame boundary. -/
def execBalanceTtlExpiry (pos cell : Nat) (s : State) : Host.Outcome State Fault Refusal :=
  let c := balCell s (cellKey pos cell)
  onObject (posExists s pos && decide (cell < 12))
    (if s.up && c.mode == .manual && decide (c.ttlEnd ≤ s.spc) then
      modCell (cellKey pos cell) (fun c => { c with mode := .off, host := 0 }) s
    else s)

/-- What becomes of a test's command and place in the scan: an uncounted test is repeated (R256). -/
def closeTest (p : Nat) (target : Nat) (why : TestWhy) (again : Bool) (s : State) : State :=
  match why with
  | .asked =>
    match (diagOf s p).asked with
    | a :: r => if again then s else finish a.2 ST_OK (modDiag p (fun d => { d with asked := r }) s)
    | [] => s
  | .routine => if again then modDiag p (fun d => { d with owed := true, nextWire := target }) s else s
  | _ => s

/-- A passing test: estimates, the end of a suspicion, one more pass of a confirmed wire (R243, R245, R250). -/
def passTest (p tw target : Nat) (t : WireTest) (s : State) : State :=
  let s1 := modDiag p (fun d =>
    let d1 := (wireEstimates tw t).foldl learnWire d
    let alone := d.passive.contains target && thas d.suspect target
    { d1 with
      passed := d.passed + 1, invalidRun := 0, ended := d.ended + b2n alone
      suspect := tdel d.suspect target, passive := d.passive.filter (· != target)
      unresolved := d.unresolved.filter (· != target)
      broken := tupd d.broken target (· + 1)
      due := if tget d.broken target = some 3 then d.due ++ [(target, nextMult 200 s.spc, false)] else d.due }) s
  checkHighR p s1

/-- An open result: the wire named becomes suspect, or is confirmed by its second result in a row; an unresolved one is tested the
other way (R242, R245). -/
def openTest (p tw target : Nat) (t : WireTest) (s : State) : State :=
  let s1 := modDiag p (fun d =>
    { d with
      opened := d.opened + 1, invalidRun := 0, unresolved := d.unresolved.filter (· != target)
      broken := tupd d.broken target (fun _ => 0) }) s
  match namedWire tw t with
  | none => modDiag p (fun d => { d with unresolved := d.unresolved ++ [target], suspect := tupd d.suspect target (fun _ => 0) }) s1
  | some x =>
    let n := tgetD (diagOf s1 p).suspect x 0
    if thas (diagOf s1 p).broken x then modDiag p (fun d => { d with broken := tset d.broken x 0 }) s1
    else if n = 0 then
      modDiag p (fun d => { d with suspect := tset (if x = target then d.suspect else tupd d.suspect target (fun _ => 0)) x 1 }) s1
    else if x = target then
      modDiag p (fun d => { d with
        suspect := tdel d.suspect x, passive := d.passive.filter (· != x), due := d.due ++ [(x, nextMult 200 s.spc, true)] }) s1
    else modDiag p (fun d => { d with suspect := tupd d.suspect target (fun _ => 0) }) s1

/-- A test that is invalid for its current: it counts toward `TEST_SRC` after three in a row. -/
def invalidTest (p target : Nat) (s : State) : State :=
  let s1 := modDiag p (fun d =>
    { d with
      invalid := d.invalid + 1, invalidRun := d.invalidRun + 1
      suspect := tupd d.suspect target (fun _ => 0), broken := tupd d.broken target (fun _ => 0) }) s
  if 3 ≤ (diagOf s1 p).invalidRun then setFault p TF_TEST_SRC true s1 else s1

/-- Judge a test (R242). -/
def judgeTest (p tw target : Nat) (why : TestWhy) (t : WireTest) (s : State) : State :=
  let s0 := modDiag p (fun d => { d with quiet := none, run := d.run + 1 }) s
  let js := jumped t
  if 2 < t.gaps ∨ t.ovr ∨ t.offWord then closeTest p target why true (modDiag p (fun d => { d with invalid := d.invalid + 1 }) s0)
  else if t.currentUa < 2000 ∨ ¬ js.isEmpty then closeTest p target why false (openTest p tw target t s0)
  else if 8000 ≤ t.currentUa ∧ t.currentUa ≤ 12000 then
    let s1 := passTest p tw target t s0
    let s2 := modDiag p (fun d => { d with passing := tset d.passing TF_TEST_SRC (tgetD d.passing TF_TEST_SRC 0 + 1) }) s1
    let s3 := if 16 ≤ tgetD (diagOf s2 p).passing TF_TEST_SRC 0 then setFault p TF_TEST_SRC false s2 else s2
    closeTest p target why false s3
  else closeTest p target why false (modDiag p (fun d => { d with passing := tset d.passing TF_TEST_SRC 0 }) (invalidTest p target s0))

/-- OPEN_WIRE_RESULT (R241, R242): the result of the test in the window that began at an SPC is final at W + 500. -/
def execOpenWireResult (pos start : Nat) (s : State) : Host.Outcome State Fault Refusal :=
  onObject (posExists s pos)
    (match (diagOf s pos).quiet with
    | some (w, .test tw target odd why) =>
      if s.up && w == start && decide (w + 500 ≤ s.spc) then judgeTest pos tw target why (wireTestAt s pos w odd) s else s
    | _ => s)

/-- Wires that the passive classification suspects, by its first matching row (R244). -/
def passiveWires (x : PassiveStats) : List Nat :=
  let mv (i : Nat) : Rat := x.moves.getD i 0
  let within (v lim : Rat) : Bool := decide (-lim ≤ v) && decide (v ≤ lim)
  let inner := (List.range 11).map (· + 1)
  let one := if within x.stackDiff 30000 && !x.means.isEmpty then x.corr else []
  let two := inner.filter fun w =>
    (decide (50000 ≤ mv w) && decide (mv (w - 1) ≤ -50000) || decide (mv w ≤ -50000) && decide (50000 ≤ mv (w - 1)))
      && decide (-10000 < mv (w - 1) + mv w) && decide (mv (w - 1) + mv w < 10000) && decide (-10000 < mv 12) && decide (mv 12 < 10000)
  let others (j : Nat) : Rat := (((List.range 12).filter (· != j)).map mv).sum / 11
  let outer := [(0, 0), (12, 11)].filter fun (w : Nat × Nat) =>
    within (mv w.2 - mv 12) 10000 && !decide (-200000 < mv w.2 - others w.2 ∧ mv w.2 - others w.2 < 200000)
  if !one.isEmpty then one else if !two.isEmpty then two else outer.map (·.1)

/-- PASSIVE_CLASSIFICATION (R244): each CT12 at every multiple of 10,000; suspended while an outer wire is confirmed broken (R249). -/
def execPassiveClassification (pos k : Nat) (s : State) : Host.Outcome State Fault Refusal :=
  onObject (posExists s pos)
    (if s.up && s.spc == 10000 * k && (posOf s pos).kind == .ct12 && (posOf s pos).state == .released then
      let x := passiveStats (diagOf s pos) k
      let s0 := modDiag pos (fun d => { d with means := x.means }) s
      if (brokenWires s pos).contains 0 || (brokenWires s pos).contains 12 || x.means.isEmpty then s0
      else
        let ws := passiveWires x
        let s1 := forEach ws s0 (fun w s => suspectWire pos w 0 true s)
        let s2 := modDiag pos (fun d => { d with stack := (nearestInt x.stackDiff :: d.stack).take 10 }) s1
        let d := diagOf s2 pos
        if d.stack.length < 10 || !ws.isEmpty || !d.suspect.isEmpty then s2
        else tagCheck pos TF_STACK_DIS 1 (decide (2000000 < d.stack.sum.natAbs)) s2
    else s)

/-! ### Commands -/

/-- The checks of `BAL.SET` in the order of R397. -/
def checksBalSet (r : Req) (s : State) : Checks :=
  let chainForm := bits (reqWord r 4) 0 0 == 1
  let p := (posParam s (reqWord r 5)).getD 0
  let c := if chainForm then (reqWord r 5).toNat else chainOfPos p
  let w7 := reqWord r 7
  let mode := bits w7 1 0
  let duty := bits w7 8 4
  let ttl := if bits w7 25 16 = 0 then 10 else bits w7 25 16
  { op := 0x0800, ready := 4
    params := unusedZero r [4, 5, 6, 7, 8] && bits (reqWord r 4) 31 1 == 0
      && (if chainForm then
            (chainParam s (reqWord r 5)).isSome && decide ((reqWord r 6).toNat ≤ 5000)
              && decide (60 ≤ (reqWord r 8).toNat) && decide ((reqWord r 8).toNat ≤ 86400)
          else
            (posParam s (reqWord r 5)).isSome && bits (reqWord r 6) 31 12 == 0 && (reqWord r 8) == 0 && decide (mode < 3)
              && bits w7 3 2 == 0 && bits w7 15 9 == 0 && bits w7 31 26 == 0 && decide (duty ≤ 16) && decide (ttl ≤ 600))
    owned := owns s r.fn c
    role := plantRole s c
    unit := chainUnit s c
    pre := if !chainForm && (posOf s p).kind != .ct12 then some ST_BAD_PARAM else none }

/-- What `BAL.SET` does once its checks have passed. -/
def actBalSet (r : Req) (s : State) : State → Reply :=
  let chainForm := bits (reqWord r 4) 0 0 == 1
  let p := (posParam s (reqWord r 5)).getD 0
  let c := if chainForm then (reqWord r 5).toNat else chainOfPos p
  let w7 := reqWord r 7
  let mode := bits w7 1 0
  let duty := bits w7 8 4
  let ttl := if bits w7 25 16 = 0 then 10 else bits w7 25 16
  fun s =>
    if chainForm then
      let s1 := { s with bal := { s.bal with chains := tmod s.bal.chains c {} fun x =>
        { x with vFloor := (reqWord r 6).toNat, db := w7.toNat, th := (reqWord r 8).toNat } } }
      .now ST_OK [] s1
    else
      let cells := (List.range 12).filter (fun j => bits (reqWord r 6) j j == 1)
      .now ST_OK [] (forEach cells s fun j s => modCell (cellKey p j) (fun x =>
        match mode with
        | 0 => { x with mode := .off, host := 0 }
        | 1 => { x with mode := .manual, host := duty, ttlEnd := s.spc + 100000 * ttl }
        | _ => { x with mode := .auto_, host := 0 }) s)

/-- BAL.SET (R233 to R235, R407). -/
def execBalSet (r : Req) (s : State) : Host.Outcome State Fault Refusal :=
  .next (command (checksBalSet r s) r s (actBalSet r s))

/-- Code of a mode. -/
def balModeCode : BalMode → Nat
  | .off => 0
  | .manual => 1
  | .auto_ => 2

/-- A cell's record of `BAL.STATUS` (R407). -/
def balRecord (s : State) (p j : Nat) : List Word :=
  let k := cellKey p j
  let c := balCell s k
  let learned (w : Nat) := (diagOf s p).learned.contains w
  [chiWord k, wd (balModeCode c.mode + dutyAt s k s.spc * 2 ^ 4 + c.cause * 2 ^ 12 + b2n (learned (j + 1)) * 2 ^ 16 + b2n (learned j) * 2 ^ 17),
    wd (bleedCurrent s k), wd (c.bled / 1000000)]

/-- The checks of `BAL.STATUS` in the order of R397. -/
def checksBalStatus (r : Req) (s : State) : Checks :=
  let c := (reqWord r 4).toNat
  { op := 0x0801, ready := 4, buf := .outb 16
    params := unusedZero r [4] && (chainParam s (reqWord r 4)).isSome
    owned := owns s r.fn c
    unit := chainUnit s c }

/-- What `BAL.STATUS` does once its checks have passed. -/
def actBalStatus (r : Req) (_ : State) : State → Reply :=
  let c := (reqWord r 4).toNat
  fun s =>
    let recs := ((occPosns s c).filter (fun p => (posOf s p).kind == .ct12)).flatMap fun p => (List.range 12).map (balRecord s p)
    let o := emitStatus 0x0801 r [recs] s
    .now ST_OK [wd o.1.records] o.2.2

/-- BAL.STATUS (R236, R407). -/
def execBalStatus (r : Req) (s : State) : Host.Outcome State Fault Refusal :=
  .next (command (checksBalStatus r s) r s (actBalStatus r s))

/-- The checks of `DIAG.OPENWIRE` in the order of R397. -/
def checksDiagOpenwire (r : Req) (s : State) : Checks :=
  let chainForm := bits (reqWord r 4) 0 0 == 1
  let p := (posParam s (reqWord r 5)).getD 0
  let c := if chainForm then (reqWord r 5).toNat else chainOfPos p
  let w6 := (reqWord r 6).toNat
  { op := 0x0802, ready := 4, long := !chainForm
    params := unusedZero r [4, 5, 6] && bits (reqWord r 4) 31 1 == 0
      && (if chainForm then (chainParam s (reqWord r 5)).isSome && decide (w6 < 256)
          else (posParam s (reqWord r 5)).isSome && decide (w6 ≤ 12))
    owned := owns s r.fn c
    role := plantRole s c
    unit := chainUnit s c
    pre := if !chainForm && (posOf s p).kind != .ct12 then some ST_BAD_PARAM else none }

/-- What `DIAG.OPENWIRE` does once its checks have passed. -/
def actDiagOpenwire (r : Req) (s : State) : State → Reply :=
  let chainForm := bits (reqWord r 4) 0 0 == 1
  let p := (posParam s (reqWord r 5)).getD 0
  let c := if chainForm then (reqWord r 5).toNat else chainOfPos p
  let w6 := (reqWord r 6).toNat
  fun s =>
    if chainForm then
      .now ST_OK [] { s with bal := { s.bal with chains := tmod s.bal.chains c {} fun x => { x with scan := w6 } } }
    else .long p [] (modDiag p (fun d => { d with asked := d.asked ++ [(w6, reqRef r)] }) s)

/-- DIAG.OPENWIRE (R240, R245). -/
def execDiagOpenwire (r : Req) (s : State) : Host.Outcome State Fault Refusal :=
  .next (command (checksDiagOpenwire r s) r s (actDiagOpenwire r s))

/-- State of a wire: 0 good, 1 suspect, 2 confirmed broken. -/
def wireState (d : TagDiag) (w : Nat) : Nat := if thas d.broken w then 2 else if thas d.suspect w then 1 else 0

/-- The record of `DIAG.TAG` (R407). -/
def diagTagRecord (s : State) (p : Nat) : List Word :=
  let x := posOf s p
  let d := diagOf s p
  let est (w : Nat) : List Int := if d.learned.contains w then tgetD d.estimates w [] else []
  let mean (w : Nat) : Word := let l := est w; wdI (if l.isEmpty then 0 else tdivI l.sum l.length)
  let err (w : Nat) : Word := let l := est w; wd (if l.length < 2 then 0 else isqrt ((spread l).toNat / (l.length ^ 2 * (l.length - 1))))
  [posWord p, wd d.faults, wd x.faultBits, wd ((List.range 13).map (fun w => wireState d w * 4 ^ w)).sum]
    ++ (List.range 13).map mean ++ (List.range 13).map err
    ++ [wd ((List.range 13).map (fun w => if d.learned.contains w then 2 ^ w else 0)).sum, wd x.livePicks, wd x.filledPicks, wd x.gapPicks]
    ++ List.replicate 30 0

/-- The checks of `DIAG.TAG` in the order of R397. -/
def checksDiagTag (r : Req) (s : State) : Checks :=
  let p := (posParam s (reqWord r 4)).getD 0
  { op := 0x0803, ready := 4, buf := .outb 256
    params := unusedZero r [4] && (posParam s (reqWord r 4)).isSome
    owned := owns s r.fn (chainOfPos p)
    unit := chainUnit s (chainOfPos p)
    pre := if (posOf s p).kind = .none then some ST_BAD_PARAM else none }

/-- What `DIAG.TAG` does once its checks have passed. -/
def actDiagTag (r : Req) (s : State) : State → Reply :=
  let p := (posParam s (reqWord r 4)).getD 0
  fun s =>
    let o := emitStatus 0x0803 r [[diagTagRecord s p]] s
    .now ST_OK [wd (diagOf s p).faults] o.2.2

/-- DIAG.TAG (R254). -/
def execDiagTag (r : Req) (s : State) : Host.Outcome State Fault Refusal :=
  .next (command (checksDiagTag r s) r s (actDiagTag r s))

/-- The checks of `DIAG.REPORT` in the order of R397. -/
def checksDiagReport (r : Req) (s : State) : Checks :=
  let c := (reqWord r 4).toNat
  { op := 0x0804, ready := 4, buf := .outb 32
    params := unusedZero r [4] && (chainParam s (reqWord r 4)).isSome
    owned := owns s r.fn c
    unit := chainUnit s c }

/-- What `DIAG.REPORT` does once its checks have passed. -/
def actDiagReport (r : Req) (_ : State) : State → Reply :=
  let c := (reqWord r 4).toNat
  fun s =>
    let recs := (occPosns s c).map fun p =>
      let d := diagOf s p
      [posWord p, wd d.faults, wd d.run, wd d.passed, wd d.opened, wd d.invalid, wd d.ended, 0]
    let o := emitStatus 0x0804 r [recs] s
    .now ST_OK [wd o.1.records] o.2.2

/-- DIAG.REPORT (R254). -/
def execDiagReport (r : Req) (s : State) : Host.Outcome State Fault Refusal :=
  .next (command (checksDiagReport r s) r s (actDiagReport r s))

end Sys2Proof.Machine
end

