-- ==== Sys2Proof/Machine/Chg.lean ====
section
/-! DEFINITION. The rows and commands of charge programs, host setpoints and supply groups (chapter 10, R409). -/

namespace Sys2Proof.Machine

/-! ### Rows -/

/-- LOOP_TICK (R297): every boundary that is a multiple of 100. -/
def execLoopTick (s : State) : Host.Outcome State Fault Refusal :=
  .next (if s.up && s.spc % 100 == 0 then
    let s1 := loopTick s
    if s1.pair.role = .primary && mirrors s1 then sendPair .seqState ((s1.chg.drives.filter (fun e => !isLocal (chainOfPos e.1))).map (·.1)) s1
    else s1
  else s)

/-- INRUSH_WINDOW_END (R312): tracking begins, and the group may leave its freeze. -/
def execInrushWindowEnd (pos : Nat) (s : State) : Host.Outcome State Fault Refusal :=
  onObject (posExists s pos)
    (match (driveRec s pos).inrush with
    | some w =>
      if s.up && decide (w.stop ≤ s.spc) then
        modDrive pos (fun x => { x with inrush := none, inrushUsed := w.sum * 8 / 10 ^ 14, trackHi := 0, trackLo := 0 }) s
      else s
    | none => s)

/-- SETPOINT_TTL_EXPIRY (R311): the setpoint ramps to 0 over 100 picks, then `OUT_EN` = 0. -/
def execSetpointTtlExpiry (pos : Nat) (s : State) : Host.Outcome State Fault Refusal :=
  let x := driveRec s pos
  onObject (posExists s pos)
    (match x.setp, x.ramp with
    | some h, none =>
      if s.up && decide (h.ttl ≤ s.spc) then
        chgEvent pos 0x94 0 (modDrive pos (fun x => { x with
          request := 0, ramp := some { s := s.spc, i0 := (forceAt x s.spc).1, on := (forceAt x s.spc).2, dn := 100, ending := .loaded, cause := 0 } }) s)
      else s
    | _, _ => s)

/-- GROUP_SEARCH (R316): every boundary that is a multiple of 5,000. -/
def execGroupSearch (s : State) : Host.Outcome State Fault Refusal :=
  .next (if s.up && s.spc % 5000 == 0 then forEach s.chg.groups s (fun g s => searchGroup g.1 g.2 s) else s)

/-- RELAXATION_SET_COMPLETE (R300): the rest has ended and every sample within it has been released. -/
def execRelaxationSetComplete (pos : Nat) (s : State) : Host.Outcome State Fault Refusal :=
  onObject (posExists s pos)
    (match (driveRec s pos).closing with
    | r :: later =>
      let b := r.stop.getD r.e
      if s.up && decide (b + 92 ≤ s.spc) then
        let fl := relaxFlags r.e b
        let r1 : RelaxSet := { r with recs := r.recs.map fun z => { z with flags := z.flags ||| fl } }
        let room := decide ((driveRec s pos).sets.length < 2)
        let s1 := modDrive pos (fun x => storeSet r1 { x with closing := later }) s
        if room then chgEvent pos 0x92 0 s1 else s1
      else s
    | [] => s)

/-- CHARGE_SEQUENCER_SRAM_ERROR (R307): the affected program ends in `FAULT` with cause `ECC`, by its ramp. -/
def execChargeSequencerSramError (pos : Nat) (s : State) : Host.Outcome State Fault Refusal :=
  onObject (posExists s pos) (if s.up then endRamp pos .fault CC_ECC s else s)

/-! ### Program format (R291 to R293) -/

/-- A halfword as a signed value. -/
def hiS (w : Word) : Int := toSigned 16 (bits w 31 16)
def loS (w : Word) : Int := toSigned 16 (bits w 15 0)

/-- A termination from its two words. -/
def readTerm (a b : Word) : Term :=
  { kind := bits a 31 28, action := bits a 27 24, target := bits a 23 20, hold := bits a 15 0, thresh := b.toNat }

/-- A phase record from its 24 words. -/
def readPhase (w : List Word) : PhaseRec :=
  let x (i : Nat) : Word := w.getD i 0
  { typ := bits (x 0) 31 28, anchor := bits (x 0) 27 27 == 1, refStr := bits (x 0) 26 26 == 1, offOpen := bits (x 0) 25 25 == 1
    i := (x 1).toNat, iEnd := (x 2).toNat, vCell := bits (x 3) 31 16, vStr := (x 4).toNat
    zones := (List.range 6).map fun z => (bits (x (5 + z)) 31 16, bits (x (5 + z)) 15 0)
    tOn := bits (x 11) 31 16, tOff := bits (x 11) 15 0, pulses := bits (x 12) 31 24, trainRest := bits (x 12) 23 0
    tRamp := (x 13).toNat, terms := (List.range 4).map fun i => readTerm (x (16 + 2 * i)) (x (17 + 2 * i)) }

/-- A program from its 400 words. -/
def readProgram (w : List Word) : Program :=
  let x (i : Nat) : Word := w.getD i 0
  { chem := bits (x 1) 15 8, tz := [hiS (x 2), loS (x 2), hiS (x 3), loS (x 3), hiS (x 4)], hyst := bits (x 4) 15 0
    stopHi := hiS (x 5), stopLo := loS (x 5), maxTime := (x 6).toNat, maxCharge := (x 7).toNat
    upd := bits (x 8) 31 24, rampDn := bits (x 8) 15 0, slewUp := (x 9).toNat, inrushPicks := bits (x 10) 31 16
    trackTol := bits (x 10) 15 0, inrushI2t := (x 11).toNat, kp := (x 12).toNat, ki := (x 13).toNat, dvHoldoff := bits (x 14) 31 16
    phases := (List.range (bits (x 1) 23 16)).map fun i => readPhase ((w.drop (16 + 24 * i)).take 24) }

/-- A termination is permitted in a phase type and within its ranges (R291, R292). -/
def termOk (t : Term) (a : Word) (typ chem n : Nat) : Bool :=
  bits a 19 16 == 0
    && (if t.kind = 0 then a == 0 && t.thresh == 0
        else
          decide (t.kind ≤ 8) && decide (t.action ≤ 3)
            && (if t.action = 1 then decide (t.target < n) else t.target == 0)
            && (t.kind == 1 || t.kind == 2 || t.kind == 3 || t.kind == 6 || t.hold == 0)
            && (match t.kind with
              | 1 => typ == 2 || typ == 3 || typ == 6
              | 2 => typ != 5
              | 3 => typ != 5
              | 5 => typ != 5
              | 7 => (typ == 1 || typ == 4) && chem == 1 && decide (5000 ≤ t.thresh)
              | 8 => (typ == 1 || typ == 4) && chem == 1 && decide (100 ≤ t.thresh)
              | _ => true))

/-- A phase record is within its ranges, and every field that its type does not use is 0 (R293). -/
def phaseOk (w : List Word) (chem n : Nat) : Bool :=
  let h := readPhase w
  let x (i : Nat) : Word := w.getD i 0
  let rest := h.typ == 5
  let pulse := h.typ == 4
  let taper := h.typ == 6
  decide (1 ≤ h.typ) && decide (h.typ ≤ 6) && bits (x 0) 24 0 == 0 && bits (x 3) 15 0 == 0 && x 14 == 0 && x 15 == 0
    && (rest || !h.anchor) && (!rest || !h.refStr) && (pulse || !h.offOpen)
    && (!rest || (x 1 == 0 && x 3 == 0 && (List.range 6).all (fun z => x (5 + z) == 0)))
    && (taper || x 2 == 0) && (h.refStr || x 4 == 0)
    && h.zones.all (fun z => decide (z.2 ≤ 1000))
    && (if pulse then decide (1 ≤ h.tOn) && decide (1 ≤ h.tOff) && decide (1 ≤ h.pulses) else x 11 == 0 && x 12 == 0)
    && (if taper then decide (1 ≤ h.tRamp) else x 13 == 0)
    && (h.terms.zipIdx).all (fun t => termOk t.1 (x (16 + 2 * t.2)) h.typ chem n)

/-- Posting periods (R290). -/
def updPeriods : List Nat := [1, 2, 4, 5, 10, 20, 25, 50, 100]

/-- A program is accepted (R291, R293). -/
def programOk (w : List Word) : Bool :=
  let x (i : Nat) : Word := w.getD i 0
  let g := readProgram w
  let n := bits (x 1) 23 16
  let z := g.tz
  x 0 == 0x4B544348 && bits (x 1) 31 24 == 1 && decide (1 ≤ n) && decide (n ≤ 16) && decide (g.chem ≤ 1) && bits (x 1) 7 0 == 0
    && (List.range 4).all (fun i => decide (geti z i < geti z (i + 1))) && decide (1 ≤ g.hyst) && decide (g.hyst ≤ 100)
    && decide (g.stopLo < g.stopHi) && decide (1 ≤ g.maxTime) && decide (1 ≤ g.maxCharge)
    && updPeriods.contains g.upd && bits (x 8) 23 16 == 0 && decide (g.rampDn ≤ 400)
    && decide (g.inrushPicks ≤ 5000) && (g.inrushPicks == 0 || decide (1 ≤ g.inrushI2t))
    && decide (1 ≤ g.trackTol) && decide (g.trackTol ≤ 1000) && decide (g.dvHoldoff ≤ 3600) && bits (x 14) 15 0 == 0 && x 15 == 0
    && (List.range 16).all (fun i =>
      let p := (w.drop (16 + 24 * i)).take 24
      if i < n then phaseOk p g.chem n else p.all (· == 0))

/-! ### Commands -/

/-- Chains of a drive tag and of the CT12s bound to it. -/
def programChains (s : State) (d : Nat) : List Nat := chainOfPos d :: (boundTo s d).map chainOfPos

/-- Pair role and epoch of a command on a drive tag (R310, R397). -/
def chgRole (s : State) (d : Nat) : Option Nat := (programChains s d).findSome? (plantRole s)

/-- Programs a function holds. -/
def programsHeld (s : State) (fn : Nat) : Nat := (s.chg.drives.filter (fun e => e.2.prog.isSome && e.2.fn == fn)).length

/-- The checks of `CHG.LOAD` in the order of R397. -/
def checksChgLoad (r : Req) (s : State) : Checks :=
  let d := (posParam s (reqWord r 4)).getD 0
  let x := driveRec s d
  let again := x.prog.isSome && x.fn == r.fn
  { op := 0x0A00, ready := 11, buf := .inb 4 1604
    params := unusedZero r [4] && (posParam s (reqWord r 4)).isSome
    owned := owns s r.fn (chainOfPos d)
    role := chgRole s d
    unit := chainUnit s (chainOfPos d)
    fields := programOk r.inb.dropLast
    quota := if again then none else poolCheck s r.fn (·.programs) 16384 (programsHeld s r.fn) 1
    pre :=
      if (posOf s d).kind != .dt1 then some ST_BAD_PARAM
      else if driveActive x || x.startAt.isSome then some ST_PRECONDITION
      else none }

/-- What `CHG.LOAD` does once its checks have passed. -/
def actChgLoad (r : Req) (s : State) : State → Reply :=
  let d := (posParam s (reqWord r 4)).getD 0
  fun s =>
    .now ST_OK [] (groupChanged d (modDrive d (fun x =>
      { x with
        prog := some (readProgram r.inb.dropLast), fn := r.fn, pst := .loaded, cause := 0, startAt := none, unload := false
        q := 0, cmd := 0, sets := [], notStored := 0, rest := none, closing := [] }) s))

/-- CHG.LOAD (R291 to R294). -/
def execChgLoad (r : Req) (s : State) : Host.Outcome State Fault Refusal :=
  .next (command (checksChgLoad r s) r s (actChgLoad r s))

/-- A cell or channel is judged by an armed window set. -/
def armedFor (s : State) (p : Nat) : Bool := (coverOf s p).isSome

/-- A window set forbids a direction on a channel: bit 1 charging, bit 0 discharging. -/
def forbids (s : State) (d bit : Nat) : Bool := (coverOf s d).elim false (fun c => c.2.dir.testBit bit)

/-- In lockout (R344). -/
def lockedOut (s : State) : Option Nat := if s.safe.island = .lockout then some ST_SAFETY_LOCKOUT else none

/-- The checks of `CHG.START` in the order of R397. -/
def checksChgStart (r : Req) (s : State) : Checks :=
  let d := (posParam s (reqWord r 4)).getD 0
  let x := driveRec s d
  let b := of64 (reqWord r 5) (reqWord r 6)
  { op := 0x0A01, ready := 11
    params := unusedZero r [4, 5, 6] && (posParam s (reqWord r 4)).isSome && b % 100 == 0
    owned := (programChains s d).all (owns s r.fn)
    role := (lockedOut s).orElse (fun _ => chgRole s d)
    unit := chainUnit s (chainOfPos d)
    pre :=
      if (posOf s d).kind != .dt1 ∨ (b ≠ 0 ∧ b < s.spc) then some ST_BAD_PARAM
      else if x.prog.isNone ∨ driveActive x ∨ x.startAt.isSome ∨ (posOf s d).state ≠ .released
          ∨ (boundTo s d).any (fun p => (posOf s p).state != .released) ∨ (boundTo s d).isEmpty ∨ (shuntOf s d).isNone then
        some ST_PRECONDITION
      else if ¬ armedFor s d ∨ ¬ (boundTo s d).all (armedFor s) ∨ forbids s d 1 then some ST_SAFETY_DENIED
      else none }

/-- What `CHG.START` does once its checks have passed. -/
def actChgStart (r : Req) (s : State) : State → Reply :=
  let d := (posParam s (reqWord r 4)).getD 0
  let b := of64 (reqWord r 5) (reqWord r 6)
  fun s =>
    let at_ := if b = 0 then nextMult 100 (s.spc + 1) else b
    .now ST_OK (wd64 at_) (modDrive d (fun x => { x with startAt := some at_ }) s)

/-- CHG.START (R306). -/
def execChgStart (r : Req) (s : State) : Host.Outcome State Fault Refusal :=
  .next (command (checksChgStart r s) r s (actChgStart r s))

/-- The checks of `CHG.STOP` in the order of R397. -/
def checksChgStop (r : Req) (s : State) : Checks :=
  let d := (posParam s (reqWord r 4)).getD 0
  let active := driveActive (driveRec s d) || (driveRec s d).offAt.isSome
  { op := 0x0A02, ready := 11, long := active
    params := unusedZero r [4, 5] && (posParam s (reqWord r 4)).isSome && bits (reqWord r 5) 31 1 == 0
    owned := owns s r.fn (chainOfPos d)
    role := chgRole s d
    unit := chainUnit s (chainOfPos d)
    pre := if (posOf s d).kind != .dt1 then some ST_BAD_PARAM else none }

/-- What `CHG.STOP` does once its checks have passed. -/
def actChgStop (r : Req) (s : State) : State → Reply :=
  let d := (posParam s (reqWord r 4)).getD 0
  let unload := bits (reqWord r 5) 0 0 == 1
  let active := driveActive (driveRec s d) || (driveRec s d).offAt.isSome
  fun s =>
    if active then .long d [] (modDrive d (fun x => { x with unload := x.unload || unload }) (endRamp d .aborted CC_STOP s))
    else
      let s1 := modDrive d (fun x => { x with startAt := none }) s
      .now ST_OK [] (if unload then unloadProgram d (groupChanged d s1) else s1)

/-- CHG.STOP (R309). A program that does not run, or has not started yet, is stopped at once. -/
def execChgStop (r : Req) (s : State) : Host.Outcome State Fault Refusal :=
  .next (command (checksChgStop r s) r s (actChgStop r s))

/-- Result words of a drive tag: state, cause, phase, zone; command in force, mA. -/
def driveWords (s : State) (d : Nat) : List Word :=
  let x := driveRec s d
  [wd (pstCode x.pst + x.cause * 2 ^ 8 + x.phase * 2 ^ 16 + x.zoneHi * 2 ^ 20), wdI (tdivI (forceAt x s.spc).1 1000)]

/-- The drive-tag record of `CHG.STATUS` (R409). -/
def driveRecord (s : State) (d : Nat) : List Word :=
  let x := driveRec s d
  let live := driveActive x
  let used : Nat := match x.inrush with
    | some w => w.sum * 8 / 10 ^ 14
    | none => x.inrushUsed
  let prog : Nat := if live then progTime s d else (x.ended - x.began) / 100000
  [posWord d] ++ driveWords s d
    ++ [wd (x.ticks / 1000), wd prog, wdI (if live then phaseCharge s d else x.lastPhaseQ), wdI (if live then progCharge s d else x.lastProgQ),
        wd (sat32 used), wdI (x.peak.getD 0), wd (b2n x.grpLim + b2n x.peak.isSome * 2 + x.sets.length * 2 ^ 8)]
    ++ List.replicate 6 0

/-- The group record of `CHG.STATUS` (R409). -/
def groupRecord (s : State) (k : Nat) (g : Group) : List Word :=
  [wd k, wd g.a, wd (gstateCode g.state + b2n (frozen s g) * 4 + b2n g.srcLim.isSome * 8), wdI g.vref, wd g.demand, wd g.members.length]
    ++ wd64 g.tEnd ++ List.replicate 8 0

/-- A relaxation record (R300). -/
def relaxRecord (x : RelaxRec) : List Word :=
  [identity x.chi 0 0 0xC, wd (x.flags * 2 ^ 16 + x.gen)] ++ wdN 2 (ofSigned 64 x.preSum) ++ [wd (x.preCount * 2 ^ 16), 0, 0, 0]
    ++ (List.range 16).flatMap fun i =>
      let c := x.subs.getD i (0, 0, 0)
      [wd c.1, wd c.2.1] ++ wdN 2 (ofSigned 64 c.2.2)

/-- The sections of a drive tag's relaxation sets (R300). -/
def relaxSections (s : State) (d : Nat) : List Section :=
  (driveRec s d).sets.map fun x =>
    { stype := 0x41, tag := x.phase, start := x.e, stop := x.stop.getD x.e
      w6 := x.dropped * 2 ^ 16 + genAt s (chainOfPos d) (x.stop.getD x.e), w7 := x.seq, cont := x.taken != 0
      records := (x.recs.map relaxRecord).drop x.taken }

/-- Release the relaxation records written (R300). -/
def releaseSets : List RelaxSet → List Nat → List RelaxSet
  | r :: rs, n :: ns => if r.recs.length - r.taken ≤ n then releaseSets rs ns else { r with taken := r.taken + n } :: rs
  | rs, [] => rs
  | [], _ => []

/-- The checks of `CHG.STATUS` in the order of R397. -/
def checksChgStatus (r : Req) (s : State) : Checks :=
  let form := bits (reqWord r 4) 1 0
  let d := (posParam s (reqWord r 5)).getD 0
  let g := (reqWord r 5).toNat
  { op := 0x0A03, ready := 11, permitted := form != 2 || r.fn == mgmt
    buf := .outb (if form = 1 then 288 else 64)
    params := unusedZero r [4, 5] && bits (reqWord r 4) 31 2 == 0
      && (if form = 2 then decide (g < 256) else form != 3 && (posParam s (reqWord r 5)).isSome)
    owned := form == 2 || owns s r.fn (chainOfPos d), unit := if form = 2 then none else chainUnit s (chainOfPos d)
    pre :=
      if form = 2 then (if thas s.chg.groups g then none else some ST_BAD_PARAM)
      else if (posOf s d).kind != .dt1 then some ST_BAD_PARAM else none }

/-- What `CHG.STATUS` does once its checks have passed. -/
def actChgStatus (r : Req) (s : State) : State → Reply :=
  let form := bits (reqWord r 4) 1 0
  let d := (posParam s (reqWord r 5)).getD 0
  let g := (reqWord r 5).toNat
  fun s =>
    if form = 2 then
      match tget s.chg.groups g with
      | some x =>
        let o := emitStatus 0x0A03 r [[groupRecord s g x]] s
        .now ST_OK [wd x.a, wd (gstateCode x.state)] o.2.2
      | none => .now ST_BAD_PARAM [] s
    else if form = 1 then
      let secs := relaxSections s d
      let o := emitBuffer { magic := 0x4B544352, cls := 0x41 } r secs s
      .now (harvestStatus secs o.1.written) o.2.1 (modDrive d (fun x => { x with sets := releaseSets x.sets o.1.written }) o.2.2)
    else
      let o := emitStatus 0x0A03 r [[driveRecord s d]] s
      .now ST_OK (driveWords s d) o.2.2

/-- CHG.STATUS (R300, R310, R409). -/
def execChgStatus (r : Req) (s : State) : Host.Outcome State Fault Refusal :=
  .next (command (checksChgStatus r s) r s (actChgStatus r s))

/-- Members that the buffer of `CHG.GROUP` names. -/
def groupMembers (r : Req) : List Nat := (r.inb.dropLast).map (fun w => bits w 31 13)

/-- The checks of `CHG.GROUP` in the order of R397. -/
def checksChgGroup (r : Req) (s : State) : Checks :=
  let w4 := reqWord r 4
  let g := bits w4 7 0
  let form := bits w4 11 8
  let n := (reqWord r 10).toNat
  let old := tget s.chg.groups g
  let ms := if form = 0 then groupMembers r else (old.map (·.members)).getD []
  let sense := (posParam s (reqWord r 5)).getD 0
  { op := 0x0A04, ready := 11, permitted := r.fn == mgmt
    buf := if form = 0 then .inb 6 (4 * n + 4) else .none
    params := unusedZero r [4, 5, 6, 7, 8, 9, 10] && bits w4 31 12 == 0 && decide (form ≤ 3)
      && (if form = 0 then
            (posParam s (reqWord r 5)).isSome && decide (1 ≤ (reqWord r 6).toNat) && decide ((reqWord r 6).toNat ≤ 65535)
              && decide ((reqWord r 8).toNat ≤ (reqWord r 7).toNat) && reqWord r 9 == 0 && decide (1 ≤ n) && decide (n ≤ 256)
          else
            reqWord r 5 == 0 && reqWord r 6 == 0 && reqWord r 7 == 0 && reqWord r 8 == 0 && reqWord r 10 == 0
              && (form == 2 || reqWord r 9 == 0))
    role := ms.findSome? (fun d => plantRole s (chainOfPos d))
    unit := chainsUnit s (ms.map chainOfPos)
    fields := form != 0 || (r.inb.dropLast.all (fun w => (posParam s w).isSome) && ms.contains sense && ms.eraseDups.length == ms.length)
    pre :=
      if form = 0 then
        if ms.any (fun d => (posOf s d).kind != .dt1) then some ST_BAD_PARAM
        else if s.chg.groups.any (fun e => e.1 != g && e.2.members.any (fun d => ms.contains d)) then some ST_PRECONDITION
        else none
      else if old.isNone then some ST_BAD_PARAM else none }

/-- What `CHG.GROUP` does once its checks have passed. -/
def actChgGroup (r : Req) (s : State) : State → Reply :=
  let w4 := reqWord r 4
  let g := bits w4 7 0
  let form := bits w4 11 8
  let old := tget s.chg.groups g
  let ms := if form = 0 then groupMembers r else (old.map (·.members)).getD []
  let sense := (posParam s (reqWord r 5)).getD 0
  fun s =>
    let put (x : Group) : State := { s with chg := { s.chg with groups := tset s.chg.groups g x } }
    match form, old with
    | 0, none =>
      .now ST_OK [] (put
        { members := ms, sense := sense, sag := (reqWord r 6).toNat, aMax := (reqWord r 7).toNat, aInit := (reqWord r 8).toNat
          a := (reqWord r 8).toNat })
    | 0, some x =>
      let g1 : Group :=
        { x with
          members := ms, sense := sense, sag := (reqWord r 6).toNat, aMax := (reqWord r 7).toNat, aInit := (reqWord r 8).toNat
          a := min x.a (reqWord r 7).toNat, changed := true }
      .now ST_OK [] (forEach (x.members.filter (fun d => !ms.contains d)) (put g1)
        (fun d s => modDrive d (fun y => { y with share := none, grpLim := false }) s))
    | 1, some x =>
      let s1 : State := { s with chg := { s.chg with groups := tdel s.chg.groups g } }
      .now ST_OK [] (forEach x.members s1 (fun d s => modDrive d (fun y => { y with share := none, grpLim := false }) s))
    | 2, some x => .now ST_OK [] (put (capGroup { x with srcLim := some (reqWord r 9).toNat, changed := true }))
    | _, some x => .now ST_OK [] (put { x with srcLim := none, changed := true })
    | _, none => .now ST_BAD_PARAM [] s

/-- CHG.GROUP (R314, R316). A replaced group keeps its allowance, within the new `A_MAX`, and its search. -/
def execChgGroup (r : Req) (s : State) : Host.Outcome State Fault Refusal :=
  .next (command (checksChgGroup r s) r s (actChgGroup r s))

/-- The checks of `CHG.SETPOINT` in the order of R397. -/
def checksChgSetpoint (r : Req) (s : State) : Checks :=
  let d := (posParam s (reqWord r 4)).getD 0
  let x := driveRec s d
  let i := toSigned 32 (reqWord r 5).toNat
  let w6 := reqWord r 6
  let ttl := if bits w6 15 0 = 0 then 100 else bits w6 15 0
  let on := bits w6 16 16 == 1
  let picks := (reqWord r 7).toNat
  let budget := (reqWord r 8).toNat
  let beyond : Bool := match coverOf s d with
    | some (_, w) => decide ((if 0 ≤ i then w.iChg else w.iDis) < i.natAbs)
    | none => true
  { op := 0x0A05, ready := 11
    params := unusedZero r [4, 5, 6, 7, 8] && (posParam s (reqWord r 4)).isSome && bits w6 31 17 == 0 && decide (ttl ≤ 10000)
      && decide (picks ≤ 5000) && (picks == 0 || decide (1 ≤ budget))
    owned := owns s r.fn (chainOfPos d)
    role := (if on then lockedOut s else none).orElse (fun _ => chgRole s d)
    unit := chainUnit s (chainOfPos d)
    pre :=
      if (posOf s d).kind != .dt1 then some ST_BAD_PARAM
      else if driveActive x ∨ (posOf s d).state ≠ .released ∨ (shuntOf s d).isNone then some ST_PRECONDITION
      else if beyond ∨ (0 < i ∧ forbids s d 1) ∨ (i < 0 ∧ forbids s d 0) then some ST_SAFETY_DENIED
      else none }

/-- What `CHG.SETPOINT` does once its checks have passed. -/
def actChgSetpoint (r : Req) (s : State) : State → Reply :=
  let d := (posParam s (reqWord r 4)).getD 0
  let i := toSigned 32 (reqWord r 5).toNat
  let w6 := reqWord r 6
  let ttl := if bits w6 15 0 = 0 then 100 else bits w6 15 0
  let on := bits w6 16 16 == 1
  let picks := (reqWord r 7).toNat
  let budget := (reqWord r 8).toNat
  fun s =>
    let s1 := modDrive d (fun x =>
      { x with
        ramp := none, request := if on then i * 1000 else 0
        setp := some { current := i * 1000, outEn := on, ttl := s.spc + 100 * ttl, inrushPicks := picks, inrushBudget := budget } }) s
    .now ST_OK [] (postNext d (i * 1000) on s1)

/-- CHG.SETPOINT (R311). -/
def execChgSetpoint (r : Req) (s : State) : Host.Outcome State Fault Refusal :=
  .next (command (checksChgSetpoint r s) r s (actChgSetpoint r s))

end Sys2Proof.Machine
end

