-- ==== Sys2Proof/Machine/Est.lean ====
section
/-! DEFINITION. The estimator's rows and commands (chapter 09, R408). -/

namespace Sys2Proof.Machine

/-! ### Rows -/

/-- ESTIMATOR_STEP (R262): a string context by its merged channel, or a cell context, consumes a committed interval. A hibernating
function's contexts take no steps, and while the refresh rate is shed steps run for even j alone. -/
def execEstimatorStep (chi j : Nat) (s : State) : Host.Outcome State Fault Refusal :=
  let p := posOfChi chi
  let e := 100000 * (j + 1)
  let runs := s.up && decide (e + 1600 ≤ s.spc) && !(fnEst s (ownerOf s (chainOfChi chi))).hiber
    && (decide (s.therm.force < 4) || j % 2 == 0)
  onObject (posExists s p)
    (if !runs then s
    else if chanOf chi = 6 ∧ (posOf s p).kind = .dt1 then
      if (posOf s p).state = .released ∧ (strOf s p).now.stepSpc < e then stepString p j s else s
    else if hasCell s chi && decide ((cellOf s chi).stepSpc < e) then stepCell chi j s
    else s)

/-- A synthesised anchor over the most recent steady three minutes whose voltage records are clean (R268): SOC and uncertainty. A rest that
has reached `T_REST` forms its own anchor, and none is synthesised (R286). -/
def synthesise (s : State) (chi d : Nat) (g : Profile) (c : Cell) : Option (Int × Nat) :=
  let p := posOfChi chi
  let last := s.acc.doneSixty - 1
  let x := strOf s d
  if x.restFrom.elim false (fun b => decide (b + 6000000 * x.tRest ≤ s.spc)) then none else
  (([last, last - 1].filter (fun k => decide (2 ≤ k))).findSome? fun k =>
    let vs := [k, k - 1, k - 2].filterMap (recOf s true (entryKey chi 0))
    let ts := ([k, k - 1, k - 2].filterMap (recOf s true (thermKey s p))).filterMap meanOf
    match steadyMeans s d k with
    | some is =>
      if vs.length = 3 ∧ vs.all (fun a => a.count != 0 && a.flags &&& 5 == 0) ∧ ts ≠ [] then
        let v : Rat := ((vs.filterMap meanOf).sum : Rat) / 3
        let i : Rat := (is.sum : Rat) / (3 * (rshOf s d : Nat))
        let ocv := v - i * ((c.rLf + c.rRel : Nat) : Rat) / 100000
        let ui : Rat := i * ((c.uR : Nat) : Rat) / 1000000
        mapOcv g ((ts.sum : Rat) / ts.length) ocv (((g.uOcv ^ 2 : Nat) : Rat) + ui * ui)
      else none
    | none => none).map fun a => (a.1, a.2 + 20000)

/-- SYNTH_ANCHOR_DUE (R268): after 72 h without a rest or empty anchor, and every 24 h after. -/
def execSynthAnchorDue (chi : Nat) (s : State) : Host.Outcome State Fault Refusal :=
  let c := cellOf s chi
  let fn := ownerOf s (chainOfChi chi)
  let due := decide (c.realAt + 25920000000 ≤ s.spc) && c.synthAt.elim true (fun t => decide (t + 8640000000 ≤ s.spc))
  onObject (posExists s (posOfChi chi))
    (match profileOf s (posOfChi chi), driveOf s (posOfChi chi) with
    | some g, some d =>
      if s.up && hasCell s chi && !c.fresh && due && !c.susp && !(fnEst s fn).hiber then
        match synthesise s chi d g c with
        | some (x, u) =>
          let r := applyAnchor chi 4 x u s c
          let s1 := putCell chi r.1 r.2
          if s1.est.noAnchorFns.contains fn then s1
          else estEvent chi 0x520 0x80 0 { s1 with est := { s1.est with noAnchorFns := fn :: s1.est.noAnchorFns } }
        | none => s
      else s
    | _, _ => s)

/-- Automatic hibernation is due (R275). -/
def hiberDue (s : State) (fn : Nat) : Bool :=
  let x := fnEst s fn
  !(stringsOf s fn).isEmpty && (stringsOf s fn).all (fun d => (strOf s d).autoHib)
    && decide (x.lastBusy + 6000000 ≤ s.spc) && decide (x.lastCmd + 6000000 ≤ s.spc)

/-- HIBERNATE_ENTRY (R275): after 60 s, or at a step boundary where `EST.HIBERNATE` has asked. -/
def execHibernateEntry (fn : Nat) (s : State) : Host.Outcome State Fault Refusal :=
  let asked := (fnEst s fn).asked && s.spc % 100000 == 1600
  .next (if s.up && !(fnEst s fn).hiber && (asked || hiberDue s fn) then hibernate fn s else s)

/-- A rest of one of a function's strings has reached `T_REST` or 240 min or has ended since the string's latest step (R276). -/
def passDue (s : State) (fn : Nat) : Bool :=
  let now := (lastSecond s).elim 0 (fun j => 100000 * (j + 1))
  (stringsOf s fn).any fun d =>
    let x := strOf s d
    let fresh (t : Nat) : Bool := decide (x.now.stepSpc < t) && decide (t ≤ now)
    x.restFrom.elim false (fun b => fresh (b + x.tRest * 6000000) || fresh (b + 240 * 6000000))
      || x.restEnded.elim false (fun r => decide (x.tRest * 6000000 ≤ r.2 - r.1) && fresh (r.2 + 100000))

/-- ANCHOR_PASS (R276): the contexts of a hibernating function are brought up to date and take their rest anchors. -/
def execAnchorPass (fn : Nat) (s : State) : Host.Outcome State Fault Refusal :=
  .next (if s.up && (fnEst s fn).hiber && passDue s fn then stepAll fn s else s)

/-! ### Records (R280, R281) -/

/-- `EFLAGS` of a cell. -/
def cellFlags (s : State) (chi : Nat) (c : Cell) : Nat :=
  let p := posOfChi chi
  b2n c.valid + b2n (c.susp || cellBroken s p (chanOf chi)) * 2 + b2n (fnEst s (ownerOf s (chainOfChi chi))).hiber * 4 + b2n c.noAnchor * 8
    + b2n c.synth * 16 + b2n c.learned * 32 + b2n c.uncal * 64 + b2n c.gapq * 128 + b2n c.idchg * 256 + b2n c.restored * 512
    + b2n c.swapSusp * 1024 + b2n c.nores * 2048 + b2n c.error * 4096 + b2n (driveOf s p).isNone * 8192 + b2n c.learn.isSome * 16384

/-- Profile number of a position. -/
def profNum (s : State) (p : Nat) : Nat := (tgetD s.est.bound p 0) % 256

/-- Cell estimate record. -/
def cellEstimate (s : State) (chi : Nat) (c : Cell) : List Word :=
  let rated := (profileOf s (posOfChi chi)).elim 1 (fun g => max 1 g.cRated)
  [identity chi 0 0 8, wd (cellFlags s chi c * 2 ^ 16 + profNum s (posOfChi chi) * 2 ^ 8 + c.aType), wd (c.rep / 1000000).toNat,
   wdI (tdivI c.est 1000000), wd (sat32 c.uRep), wd c.cap, wd c.uCap, wd c.rOhm25, wd c.rLf25, wd (c.cap * 1000000 / rated),
   wd (if c.rOhm25 = 0 then 0 else c.rRef * 1000000 / c.rOhm25)]
    ++ wd64 c.anchorSpc ++ [wd (sat32 (uncOf c))] ++ wd64 c.stepSpc

/-- String estimate record. -/
def stringEstimate (s : State) (order : List Nat) (d : Nat) : List Word :=
  let x := strOf s d
  let y := readString s order d
  let cells := (boundTo s d).flatMap fun p => (List.range 12).map (cellKey p)
  let good := (cells.filter (hasCell s)).map (fun k => (k, readCell s order k)) |>.filter (fun e =>
    e.2.valid && !e.2.susp && !cellBroken s (posOfChi e.1) (chanOf e.1))
  let dis := minOf (good.map (fun e => e.2.rep * e.2.cap / 10 ^ 12))
  let chg := minOf (good.map (fun e => (10 ^ 12 - e.2.rep) * e.2.cap / 10 ^ 12))
  let fl := b2n (fnEst s (ownerOf s (chainOfPos d))).hiber * 4 + b2n y.uncal * 64 + b2n (x.gapq || y.gapq) * 128 + b2n x.idchg * 256 + b2n y.nores * 2048
    + b2n x.error * 4096
  [identity (mergedKey d) 0 0 9, wd (fl * 2 ^ 16 + cells.length), wdI (if dis + chg = 0 then 0 else dis * 1000000 / (dis + chg)),
   wd good.length, wdI dis, wdI chg, wd y.rStr, wd (x.iNom.getD (400000000 / rshOf s d))]
    ++ wd64 (ofSigned 64 (let q := asCharge s d (y.counts.integ : Rat); tdivI q.num q.den)) ++ [wd (sat32 y.counts.gaps), 0] ++ wd64 y.stepSpc ++ [0, 0]
where
  minOf (l : List Int) : Int := l.tail.foldl min (l.headD 0)

/-- Channels of a chain that `EST.READ` reports: cells of CT12s and merged currents, ascending. -/
def estChis (s : State) (c : Nat) : List Nat :=
  (occPosns s c).flatMap fun p => match (posOf s p).kind with
    | .ct12 => (List.range 12).map (cellKey p)
    | .dt1 => [mergedKey p]
    | .none => []

/-- The record of one channel. -/
def estRecord (s : State) (order : List Nat) (x : Nat) : List Word :=
  if chanOf x = 6 ∧ (posOf s (posOfChi x)).kind = .dt1 then stringEstimate s order (posOfChi x)
  else cellEstimate s x (readCell s order x)

/-- The checks of `EST.READ` in the order of R397. -/
def checksEstRead (r : Req) (s0 : State) : Checks :=
  let rng := rangeParam s0 (reqWord r 4) (reqWord r 5)
  { op := 0x0901, ready := 10, buf := .outb 64, params := rng.isSome && unusedZero r [4, 5] }

/-- What `EST.READ` does once its checks have passed. -/
def actEstRead (r : Req) (s0 : State) : State → Reply :=
  let rng := rangeParam s0 (reqWord r 4) (reqWord r 5)
  fun s0 =>
      let s := estCommand r.fn s0
      let ab := rng.getD (0, 0)
      let order := awakeOrder s
      let secs : List (Nat × Section) := (tkeys s.line.chains (fun c _ => owns s r.fn c)).filterMap fun c =>
        let chis := (estChis s c).filter (fun x => decide (ab.1 ≤ x) && decide (x ≤ ab.2))
        let recs := chis.map (estRecord s order)
        if chis.isEmpty then none
        else some (c, { stype := 0x31, tag := c, start := s.spc, stop := s.spc, records := recs })
      let h : BufHead := { magic := 0x4B544552, cls := 0x31 }
      let sel := r.w.map (·.toNat)
      let mine := harvestLeft h r sel secs s
      let o := harvestOut h r sel secs s
      let read := (writtenRecords mine o.1).map (fun w => bits (w.headD 0) 31 9)
      let cells := read.foldl (fun t k => tupd t k (fun c => { c with error := false })) o.2.2.est.cells
      let strs := (read.filter (fun k => chanOf k == 6)).foldl (fun t k => tupd t (posOfChi k) (fun c => { c with error := false }))
        o.2.2.est.strs
      .now ST_OK o.2.1 { o.2.2 with est := { o.2.2.est with cells := cells, strs := strs } }

/-- EST.READ (R280). -/
def execEstRead (r : Req) (s : State) : Host.Outcome State Fault Refusal :=
  .next (command (checksEstRead r s) r s (actEstRead r s))

/-- Saved cell context. -/
def savedCell (s : State) (chi : Nat) (c : Cell) : List Word :=
  let p := posOfChi chi
  let q := c.countAt.elim 0 (·.integ)
  let l : Learn := c.learn.getD { spc := 0, a := 0, u := 0, full := false }
  [identity chi 0 0 10, wd (2 ^ 24 + profNum s p * 2 ^ 16 + cellFlags s chi c)] ++ wd64 (posOf s p).serial
    ++ wd64 (ofSigned 64 c.est) ++ wd64 (ofSigned 64 c.rep) ++ wd64 c.ur2
    ++ [wd c.ub, wd c.cap, wd c.uCap, wd c.rRef, wd c.aRel, wd c.rRel] ++ wd64 c.anchorSpc ++ [wd (c.aType * 2 ^ 24)]
    ++ wdN 3 (ofSigned 96 q) ++ [wd (c.bledAt / 1000000), wd (b2n c.learn.isSome * 2 ^ 24)] ++ wd64 l.spc ++ wd64 (ofSigned 64 l.a)
    ++ [wdI l.net, wd l.abs, wd l.bled, 0]

/-- Saved string context. -/
def savedString (s : State) (order : List Nat) (d : Nat) : List Word :=
  let x := strOf s d
  let q := (readString s order d).counts.integ
  [identity (mergedKey d) 0 0 11, wd (2 ^ 24)] ++ wd64 (posOf s d).serial ++ wdN 3 (ofSigned 96 q)
    ++ [wd (rshOf s d), wd (x.iNom.getD (400000000 / rshOf s d)), wd x.rRef, 0, 0, 0, 0, 0, 0]

/-- The checks of `EST.SAVE` in the order of R397. -/
def checksEstSave (r : Req) (s : State) : Checks :=
  let n := (reqWord r 4).toNat
  let cs := (List.range n).map (fun i => reqWord r (5 + i))
  { op := 0x0902, ready := 10, buf := .outb 128
    params := decide (1 ≤ n) && decide (n ≤ 10) && cs.all (fun w => (chainParam s w).isSome) && unusedZero r (4 :: (List.range n).map (· + 5))
    owned := cs.all (fun w => owns s r.fn w.toNat), unit := chainsUnit s (cs.map (·.toNat)) }

/-- What `EST.SAVE` does once its checks have passed. -/
def actEstSave (r : Req) (_ : State) : State → Reply :=
  let n := (reqWord r 4).toNat
  let cs := (List.range n).map (fun i => reqWord r (5 + i))
  fun s0 =>
      let s := estCommand r.fn s0
      let order := awakeOrder s
      let secs : List (Nat × Section) := (cs.map (·.toNat)).eraseDups.mergeSort (fun a b => decide (a ≤ b)) |>.map fun c =>
        let chis := (estChis s c).filter (fun x => chanOf x == 6 && (posOf s (posOfChi x)).kind == .dt1 || hasCell s x)
        let ends := chis.map fun x => if (posOf s (posOfChi x)).kind = .dt1 then (readString s order (posOfChi x)).stepSpc else (readCell s order x).stepSpc
        let e := ends.foldl max 0
        let recs := chis.map (fun x => if (posOf s (posOfChi x)).kind = .dt1 then savedString s order (posOfChi x) else savedCell s x (readCell s order x))
        (c, { stype := 0x21, tag := c, start := e, stop := e, records := recs })
      let h : BufHead := { magic := 0x4B544553, cls := 0x21, chkClass := 1, tail := wd64 s.otp.dieUid.toNat ++ [wd s.nvm.aonRun, 0, 0] }
      let o := harvestOut h r (r.w.map (·.toNat)) secs s
      .now ST_OK o.2.1 o.2.2

/-- EST.SAVE (R281). -/
def execEstSave (r : Req) (s : State) : Host.Outcome State Fault Refusal :=
  .next (command (checksEstSave r s) r s (actEstSave r s))

/-! ### Restore (R282) -/

/-- The image is one the device knows: magic, class, formats. -/
def imageKnown (r : Req) : Bool :=
  r.inb.getD 0 0 == 0x4B544553 && bits (r.inb.getD 1 0) 31 24 == 1 && bits (r.inb.getD 1 0) 23 16 == 0x21
    && (imageSections r).all (fun x => x.2.2.all fun w =>
      (bits (w.headD 0) 3 0 == 10 || bits (w.headD 0) 3 0 == 11) && bits (w.getD 1 0) 31 24 == 1)

/-- The checks of `EST.RESTORE` in the order of R397. -/
def checksEstRestore (r : Req) (s : State) : Checks :=
  let u := (reqWord r 4).toNat
  let secs := imageSections r
  { op := 0x0903, ready := 10, buf := .inb 3 (r.inb.getD 2 0).toNat
    params := (decide (u ≤ 500000) || u == 0xFFFFFFFF) && unusedZero r [4]
    fields := imageKnown r
    pre := if secs.any (fun x => !ownsHere s r x.1 || x.2.2.any (fun w => !ownsHere s r (chainOfChi (bits (w.headD 0) 31 9)))) then some ST_NOT_OWNER
      else chainsUnit s ((secs.map (·.1)).filter (concerns r)) }

/-- What `EST.RESTORE` does once its checks have passed. -/
def actEstRestore (r : Req) (_ : State) : State → Reply :=
  let u := (reqWord r 4).toNat
  let secs := imageSections r
  fun s0 =>
      let s := estCommand r.fn s0
      let recs := (secs.filter (fun x => concerns r x.1)).flatMap fun x => x.2.2.map (fun w => w ++ wd64 x.2.1 ++ [wd x.1])
      let own := of64 (r.inb.getD 11 0) (r.inb.getD 12 0) == s.otp.dieUid.toNat && (r.inb.getD 13 0).toNat == s.nvm.aonRun
      let job : RestoreJob :=
        { fn := r.fn, uRestore := if u = 0xFFFFFFFF then 20000 else u, own := own, ref := reqRef r
          cells := recs.filter (fun w => bits (w.headD 0) 3 0 == 10), strings := recs.filter (fun w => bits (w.headD 0) 3 0 == 11) }
      .later .restore { s with est := { s.est with restores := s.est.restores ++ [job] } }

/-- EST.RESTORE (R282): refused whole, or applied at the first step that begins after checking. -/
def execEstRestore (r : Req) (s : State) : Host.Outcome State Fault Refusal :=
  .next (command (checksEstRestore r s) r s (actEstRestore r s))

/-! ### Configuration and learning -/

/-- The profile words of a buffer (R258). -/
def readProfile (ws : List Word) : Profile :=
  let w (i : Nat) : Word := ws.getD i 0
  let half (i : Nat) : Nat := let x := w (16 + i / 2); if i % 2 = 0 then bits x 15 0 else bits x 31 16
  { cRated := (w 1).toNat, vFull := bits (w 2) 31 16, vEmpty := bits (w 2) 15 0, iEmpty := bits (w 3) 31 16, uOcv := bits (w 3) 15 0
    tauRel := bits (w 4) 31 16, rTc := toSigned 16 (bits (w 4) 15 0), tLearnLo := toSigned 8 (bits (w 5) 31 24)
    tLearnHi := toSigned 8 (bits (w 5) 23 16), rBin := bits (w 5) 15 8, uFull := bits (w 6) 31 16, uEmpty := bits (w 6) 15 0
    socFull := (w 7).toNat
    tRow := [bits (w 8) 7 0, bits (w 8) 15 8, bits (w 8) 23 16, bits (w 8) 31 24].map (toSigned 8)
    ocv := (List.range 4).map fun r => (List.range 101).map fun i => half (101 * r + i) }

/-- Never falls. -/
def rising : List Nat → Bool
  | a :: b :: r => decide (a ≤ b) && rising (b :: r)
  | _ => true

/-- The profile is within the ranges of R258. -/
def profileValid (ws : List Word) (g : Profile) : Bool :=
  let w (i : Nat) : Word := ws.getD i 0
  bits (w 0) 31 16 == 1 && bits (w 0) 15 0 == 0 && decide (1 ≤ g.cRated) && decide (g.cRated ≤ 10000000) && decide (60 ≤ g.tauRel)
    && decide (g.tauRel ≤ 3600) && decide (32 ≤ g.rBin) && decide (g.rBin ≤ 63) && bits (w 5) 7 0 == 0
    && decide (900000 ≤ g.socFull) && decide (g.socFull ≤ 1000000) && decide (geti g.tRow 0 < geti g.tRow 1)
    && decide (geti g.tRow 1 < geti g.tRow 2) && decide (geti g.tRow 2 < geti g.tRow 3) && g.ocv.all rising
    && ((List.range 7).all fun i => w (9 + i) == 0) && ((List.range 38).all fun i => w (218 + i) == 0)

/-- Profiles a function holds; a profile is bound to a position. -/
def profilesHeld (s : State) (fn : Nat) : Nat := (s.est.profiles.filter (fun e => e.1 / 256 == fn)).length
def profileBound (s : State) (k : Nat) : Bool := s.est.bound.any (fun e => e.2 == k)

/-- The checks of `EST.CONFIG` in the order of R397. -/
def checksEstConfig (r : Req) (s : State) : Checks :=
  let form := (reqWord r 4).toNat
  let w5 := reqWord r 5
  let w6 := reqWord r 6
  let n := w5.toNat
  let p := bits w5 31 13
  let chi := bits w5 31 9
  let kind := (posOf s (if form = 5 then posOfChi chi else p)).kind
  let prof := form = 0 ∨ form = 1
  let k := profKey r.fn n
  let words := r.inb.dropLast
  let used := match form with
    | 0 => [4, 5]
    | 1 => [4, 5]
    | 2 => [4, 5, 6]
    | 3 => [4, 5, 6, 7, 8]
    | 6 => [4, 5]
    | _ => [4, 5, 6]
  let tRest := bits (reqWord r 7) 15 0
  let rate := bits (reqWord r 7) 31 16
  let params := decide (form ≤ 6) && unusedZero r used &&
    (if prof then decide (n < 256)
    else if form = 5 then (chiParam s w5).isSome && bits w5 8 6 == 0 && decide (chanOf chi < 12)
    else (posParam s w5).isSome &&
      (match form with
      | 2 => decide (w6.toNat < 256)
      | 3 => decide (1 ≤ w6.toNat) && decide (20 ≤ tRest) && decide (tRest ≤ 240) && decide (100 ≤ rate) && decide (rate ≤ 10000)
          && decide ((reqWord r 8).toNat ≤ 1)
      | 4 => bits w6 31 24 == 0
      | _ => true))
  let clash := kind != .none && ((form = 3 && kind != .dt1) || ((form = 2 || form = 4 || form = 5 || form = 6) && kind != .ct12))
  { op := 0x0900, ready := 10, buf := if form = 0 then .inb 4 1028 else .none, params := params
    owned := prof || owns s r.fn (chainOfPos (if form = 5 then posOfChi chi else p))
    unit := if prof then none else chainUnit s (chainOfPos (if form = 5 then posOfChi chi else p))
    fields := form != 0 || profileValid words (readProfile words)
    quota := if form = 0 && !thas s.est.profiles k then poolCheck s r.fn (·.profiles) 1024 (profilesHeld s r.fn) 1 else none
    pre := if clash then some ST_BAD_PARAM
      else if form = 1 && !thas s.est.profiles k then some ST_BAD_PARAM
      else if prof && profileBound s k then some ST_PRECONDITION
      else if form = 2 && !thas s.est.profiles (profKey r.fn w6.toNat) then some ST_BAD_PARAM
      else none }

/-- What `EST.CONFIG` does once its checks have passed. -/
def actEstConfig (r : Req) (_ : State) : State → Reply :=
  let form := (reqWord r 4).toNat
  let w5 := reqWord r 5
  let w6 := reqWord r 6
  let n := w5.toNat
  let p := bits w5 31 13
  let chi := bits w5 31 9
  let k := profKey r.fn n
  let words := r.inb.dropLast
  let tRest := bits (reqWord r 7) 15 0
  let rate := bits (reqWord r 7) 31 16
  fun s0 =>
      let s := estCommand r.fn s0
      let e := s.est
      let s1 : State := match form with
        | 0 => { s with est := { e with profiles := tset e.profiles k (readProfile words) } }
        | 1 => { s with est := { e with profiles := tdel e.profiles k } }
        | 2 => { s with est := { e with bound := tset e.bound p (profKey r.fn w6.toNat) } }
        | 3 => modStr p (fun x => { x with iNom := some w6.toNat, tRest := tRest, rateRest := rate, autoHib := (reqWord r 8).toNat == 1 }) s
        | 4 => { s with est := { e with therm := tset e.therm p ((List.range 12).map (fun j => bits w6 (2 * j + 1) (2 * j))) } }
        | 5 => putCell chi { cellOf s chi with rRef := w6.toNat } s
        | _ => forEach (List.range 12) s fun j s =>
            let keep (c : Cell) : Cell := if c.swapSusp then { c with swapSusp := false, valid := true, ub := c.ub + 20000 } else c
            { s with est := { s.est with cells := tupd s.est.cells (cellKey p j) keep } }
      .now ST_OK [] s1

/-- EST.CONFIG (R258, R259, R284, R408). -/
def execEstConfig (r : Req) (s : State) : Host.Outcome State Fault Refusal :=
  .next (command (checksEstConfig r s) r s (actEstConfig r s))

/-- Cells of the issuing function with contexts that a range names. -/
def rangeCells (s : State) (q : Req) (r : Option (Nat × Nat)) : List Nat :=
  let ab := r.getD (0, 0)
  (cellsOf s q.fn).filter (fun c => decide (ab.1 ≤ c) && decide (c ≤ ab.2) && concerns q (chainOfChi c))

/-- The checks of `EST.LEARN` in the order of R397. -/
def checksEstLearn (r : Req) (s0 : State) : Checks :=
  let form := (reqWord r 4).toNat
  let rng := rangeParam s0 (reqWord r 5) (reqWord r 6)
  let cap := (reqWord r 7).toNat
  { op := 0x0904, ready := 10, buf := if form = 0 then .outb 32 else .none
    params := decide (form ≤ 4) && rng.isSome && unusedZero r (if form = 4 then [4, 5, 6, 7, 8] else [4, 5, 6])
      && (form != 4 || (decide (1 ≤ cap) && decide (cap ≤ 10000000))) }

/-- What `EST.LEARN` does once its checks have passed. -/
def actEstLearn (r : Req) (s0 : State) : State → Reply :=
  let form := (reqWord r 4).toNat
  let rng := rangeParam s0 (reqWord r 5) (reqWord r 6)
  let cap := (reqWord r 7).toNat
  let u := (reqWord r 8).toNat
  fun s0 =>
      let s := estCommand r.fn s0
      let cells := rangeCells s r rng
      if form = 0 then
        let recs := cells.flatMap fun k => (cellOf s k).log.map fun l =>
          [chiWord k, wd l.code, wd l.c, wd l.u] ++ wd64 l.opened ++ wd64 l.closed
        let o := emitStatus 0x0904 r [recs] s
        .now ST_OK [wd o.1.records] o.2.2
      else
        let change (c : Cell) : Cell := match form with
          | 1 => { c with fullAsked := true }
          | 2 => { c with learnOff := true, learn := none }
          | 3 => { c with learnOff := false }
          | _ => { c with cap := cap, uCap := u }
        .now ST_OK [wd cells.length] (forEach cells s (fun k s => putCell k (change (cellOf s k)) s))

/-- EST.LEARN (R274). -/
def execEstLearn (r : Req) (s : State) : Host.Outcome State Fault Refusal :=
  .next (command (checksEstLearn r s) r s (actEstLearn r s))

/-- The checks of `EST.RESET` in the order of R397. -/
def checksEstReset (r : Req) (s0 : State) : Checks :=
  let rng := rangeParam s0 (reqWord r 4) (reqWord r 5)
  let given := (reqWord r 6).toNat == 1
  let soc := (reqWord r 7).toNat
  { op := 0x0905, ready := 10
    params := rng.isSome && decide ((reqWord r 6).toNat ≤ 1) && decide (soc ≤ 1000000)
      && unusedZero r (if given then [4, 5, 6, 7, 8] else [4, 5, 6]) }

/-- What `EST.RESET` does once its checks have passed. -/
def actEstReset (r : Req) (s0 : State) : State → Reply :=
  let rng := rangeParam s0 (reqWord r 4) (reqWord r 5)
  let given := (reqWord r 6).toNat == 1
  let soc := (reqWord r 7).toNat
  let u := (reqWord r 8).toNat
  fun s0 =>
      let s := estCommand r.fn s0
      let cells := rangeCells s r rng
      .now ST_OK [wd cells.length] (forEach cells s fun k s =>
        let s1 := restartCell false k s
        if given then
          putCell k { cellOf s1 k with
            fresh := false, est := soc * 1000000, rep := soc * 1000000, ur2 := u ^ 2, valid := true, aType := 7, anchorSpc := s.spc
            realAt := s.spc } s1
        else s1)

/-- EST.RESET (R283). -/
def execEstReset (r : Req) (s : State) : Host.Outcome State Fault Refusal :=
  .next (command (checksEstReset r s) r s (actEstReset r s))

/-- The checks of `EST.HIBERNATE` in the order of R397. -/
def checksEstHibernate (r : Req) (_ : State) : Checks :=
  { op := 0x0906, ready := 10, params := decide ((reqWord r 4).toNat ≤ 1) && unusedZero r [4] }

/-- What `EST.HIBERNATE` does once its checks have passed. -/
def actEstHibernate (r : Req) (_ : State) : State → Reply :=
  let read := (reqWord r 4).toNat == 1
  fun s =>
      let x := fnEst s r.fn
      let res := wd (b2n x.hiber) :: wd64 x.since
      if read then .now ST_OK res (estCommand r.fn s) else .now ST_OK res (modFn r.fn (fun x => { x with asked := !x.hiber }) s)

/-- EST.HIBERNATE (R275): the enter form takes effect at the next step boundary. -/
def execEstHibernate (r : Req) (s : State) : Host.Outcome State Fault Refusal :=
  .next (command (checksEstHibernate r s) r s (actEstHibernate r s))

end Sys2Proof.Machine
end

