-- ==== Sys2Proof/Machine/Safe.lean ====
section
/-! DEFINITION. The rows of the safety island (chapter 11). -/

namespace Sys2Proof.Machine

/-! ### Leaving lockout -/

/-- The lines of an input that is used differ. -/
def linesDiffer (s : State) : Bool :=
  (List.range 4).any fun k => (s.safe.inputs.getD k {}).scope != 0 && s.safe.inA.testBit k != s.safe.inB.testBit k

/-- A recorded cause persists (R346), as far as the state shows it; the start test judges the rest. A scan in force always does (R467). -/
def causePersists (s : State) : Bool :=
  s.boot.scan || s.safe.causes.any fun c =>
    (c == LC_REFCLK && !s.time.refclkOk) || (c == LC_IN_DISC && linesDiffer s) || (c == LC_CFG && !s.safe.bad.isEmpty)

/-- SAFE_START_TEST_DONE (R346): the island enters `RUN`, or stays in lockout and needs a new pulse. -/
def execSafeStartTestDone (pass : Bool) (s : State) : Host.Outcome State Fault Refusal :=
  .next (if s.up && s.safe.testing && s.safe.island == .lockout then
    if pass && !causePersists s then
      let s1 := modSafe (fun u => { u with island := .run, kill := false, causes := [], testing := false, ackUntil := none }) s
      completeDeferred .lockoutAck ST_OK [] (logChange 0x0B mgmt 0 [] (raiseNow 0x200 0xA3 0 s1))
    else completeDeferred .lockoutAck ST_SAFETY_LOCKOUT [] (modSafe (fun u => { u with testing := false }) s)
  else s)

/-- SAFE_RST_N_PULSE (R346): 100 to 1,000 ms low opens the window of 10 s; any other low is ignored with an event. -/
def execSafeRstNPulse (lowMs : Nat) (s : State) : Host.Outcome State Fault Refusal :=
  .next (if s.up then
    if 100 ≤ lowMs ∧ lowMs ≤ 1000 then modSafe (fun u => { u with ackUntil := some (s.spc + 1000000) }) s
    else raiseNow 0x200 0xA6 0 s
  else s)

/-- ACK_WINDOW_EXPIRY (R346). -/
def execAckWindowExpiry (s : State) : Host.Outcome State Fault Refusal :=
  .next (if s.safe.ackUntil.elim false (fun t => decide (t ≤ s.spc)) then modSafe (fun u => { u with ackUntil := none }) s else s)

/-! ### Internal faults (R342, R345) -/

/-- CLOCK_MONITOR_FAULT (R15). -/
def execClockMonitorFault (s : State) : Host.Outcome State Fault Refusal := .next (if s.up then enterLockout LC_CLOCK s else s)

/-- SAFETY_CORE_FAULT (R342). -/
def execSafetyCoreFault (s : State) : Host.Outcome State Fault Refusal := .next (if s.up then enterLockout LC_CORE s else s)

/-- ISLAND_WATCHDOG_EXPIRY (R342). -/
def execIslandWatchdogExpiry (s : State) : Host.Outcome State Fault Refusal := .next (if s.up then enterLockout LC_WDOG s else s)

/-- ISLAND_SUPPLY_FAULT (R345). -/
def execIslandSupplyFault (s : State) : Host.Outcome State Fault Refusal := .next (if s.up then enterLockout LC_SUPPLY s else s)

/-- The island holds the record of a number. -/
def recordHeld (s : State) (record : Nat) : Bool :=
  if record < 4096 then thas s.safe.sets record || s.safe.derived.any (fun d => d.2.num == record)
  else record == 4096 || thas s.safe.assign (record - 4097)

/-- SAFETY_RECORD_CHECK_FAIL (R345): a window set, an assignment or the I/O record fails its check. -/
def execSafetyRecordCheckFail (record : Nat) (s : State) : Host.Outcome State Fault Refusal :=
  .next (if s.up && recordHeld s record then
    enterLockout LC_CFG (modSafe (fun u => { u with bad := if u.bad.contains record then u.bad else record :: u.bad }) s)
  else s)

/-! ### Inputs and outputs (R338, R339) -/

/-- Set or clear bit k. -/
def setBit (x k : Nat) (v : Bool) : Nat := if x.testBit k = v then x else x ^^^ 2 ^ k

/-- Recognise a demand of input k, and latch it where the input latches. -/
def recogniseIn (k : Nat) (s : State) : State :=
  raiseNow 0x200 0xA7 0 (modSafe (fun u =>
    { u with demand := setBit u.demand k true, latched := if (u.inputs.getD k {}).latch then setBit u.latched k true else u.latched }) s)

/-- SAFE_IN_DEMAND (R339): either line low for 20 samples. -/
def execSafeInDemand (k : Nat) (a b : Bool) (s : State) : Host.Outcome State Fault Refusal :=
  onObject (decide (k < 4))
    (if s.up && !(a && b) then
      let x := s.safe.inputs.getD k {}
      let s1 := modSafe (fun u => { u with inA := setBit u.inA k a, inB := setBit u.inB k b }) s
      if x.scope = 0 then s1 else recogniseIn k s1
    else s)

/-- SAFE_IN_RELEASE (R339): both lines have returned high; a latched demand stays until its acknowledgement. -/
def execSafeInRelease (k : Nat) (s : State) : Host.Outcome State Fault Refusal :=
  onObject (decide (k < 4))
    (if s.up then
      modSafe (fun u => { u with inA := setBit u.inA k true, inB := setBit u.inB k true, demand := setBit u.demand k false }) s
    else s)

/-- SAFE_IN_DISCREPANCY (R339). -/
def execSafeInDiscrepancy (k : Nat) (s : State) : Host.Outcome State Fault Refusal :=
  onObject (decide (k < 4)) (if s.up && (s.safe.inputs.getD k {}).scope != 0 then enterLockout LC_IN_DISC s else s)

/-- SAFE_OUT_TEST_PULSE (R338): a line that is on is pulsed low and read back; one that stays high through its pulse is `OUT_FB`. -/
def execSafeOutTestPulse (k : Nat) (lineB readback : Bool) (s : State) : Host.Outcome State Fault Refusal :=
  onObject (decide (k < 8))
    (if s.up && outOn s k then
      let n := 2 * k + b2n lineB
      let s1 : State := { s with out := { s.out with pins := (n, true) :: (n, false) :: s.out.pins } }
      if readback then enterLockout LC_OUT_FB (modSafe (fun u => { u with readback := tset u.readback n true }) s1)
      else modSafe (fun u => { u with readback := tdel u.readback n }) s1
    else s)

/-- OUT_FB (R338): a readback that disagrees with the driven state for more than 50 µs. -/
def execOutFb (k : Nat) (lineB readback : Bool) (s : State) : Host.Outcome State Fault Refusal :=
  onObject (decide (k < 8))
    (if s.up && readback != outOn s k then
      enterLockout LC_OUT_FB (modSafe (fun u => { u with readback := tset u.readback (2 * k + b2n lineB) readback }) s)
    else s)

/-! ### Blind channels -/

/-- BLIND_TIMEOUT (R337): a covered channel has been blind for `T_BLIND`. -/
def execBlindTimeout (chi : Nat) (s : State) : Host.Outcome State Fault Refusal :=
  let p := posOfChi chi
  onObject (posExists s p)
    (if s.up then
      let s1 := sweepUnmeasured s
      match coverOf s1 p with
      | some (num, w) =>
        let due := (watched s1 p).find? fun k =>
          k.1 / 8 == chi && (blindSince s1 k.1 k.2).elim false (fun b => decide (b + 8 * w.tBlind ≤ s1.spc))
        match due with
        | some k =>
          if exempt s1 p w || unmeasuredPos s1 p w then s1
          else doTrip { cause := 5, num := num, set := w, chi := chi, mux := k.1 % 8, t := s1.spc, centre := s1.spc } s1
        | none => s1
      | none => s1
    else s)

/-! ### Configuration (R352) -/

/-- Positions covered now. -/
def coveredPosns (s : State) : List Nat := (s.safe.assign.filter (fun e => (coverOf s e.1).isSome)).map (·.1)

/-- Forget what belonged to a base set that is deleted: changes accepted before it may have armed or assigned it (log 41). -/
def dropSet (n : Nat) (u : SafeUnit) : SafeUnit :=
  { u with
    sets := tdel u.sets n, armed := u.armed.filter (· != n), assign := u.assign.filter (fun e => e.2 != n), bad := u.bad.filter (· != n) }

/-- What a change does at its flip. An input that comes into use with a line low is a demand (R339). Arming, assigning to and tightening a set
that an earlier flip has deleted do nothing. -/
def applyChange (c : CfgChange) (s : State) : State :=
  match c with
  | .writeSet w => modSafe (fun u => { u with sets := tset u.sets w.num w, bad := u.bad.filter (· != w.num) }) s
  | .assign (some n) ps =>
    if !thas s.safe.sets n then s else
    modSafe (fun u => { u with
      assign := ps.foldl (fun t p => tset t p n) u.assign
      bad := u.bad.filter (fun b => !ps.any (fun p => b == 4097 + p)) }) s
  | .assign none ps =>
    modSafe (fun u => { u with
      assign := ps.foldl (fun t p => tdel t p) u.assign
      bad := u.bad.filter (fun b => !ps.any (fun p => b == 4097 + p)) }) s
  | .io en ins =>
    let low := (List.range 4).filter fun k =>
      (ins.getD k {}).scope != 0 && !(s.safe.inA.testBit k && s.safe.inB.testBit k) && !inputDemand s k
    forEach low (modSafe (fun u => { u with ioEn := en, inputs := ins, bad := u.bad.filter (· != 4096) }) s) recogniseIn
  | .release base none => modSafe (fun u => { u with derived := tdrop u.derived (fun k => k % 4096 == base) }) s
  | .release base (some c) => modSafe (fun u => { u with derived := tdel u.derived (derivedKey c base) }) s
  | .delete n => modSafe (dropSet n) s
  | .settings b => modSafe (fun u => { u with startLocked := b }) s
  | .arm n on =>
    modSafe (fun u => { u with
      armed := if on && thas u.sets n then (if u.armed.contains n then u.armed else n :: u.armed) else u.armed.filter (· != n) }) s
  | .tighten base c d => modSafe (fun u => { u with derived := if thas u.sets base then tset u.derived (derivedKey c base) d else u.derived }) s

/-- Keys of the fast-path trackers of a position, whichever tag it holds: cells, thermistor positions and merged current (R335). -/
def fastKeys (p : Nat) : List Nat :=
  (List.range 12).map (fun ch => countKey (p * 16 + ch) 0) ++ (List.range 4).map (countKey (p * 16 + 13)) ++ [countKey (mergedKey p) 0]

/-- Positions that a change brings under cover start their blind time and fresh fast-path trackers at the flip (R335, R337). -/
def startCover (before : List Nat) (armed : Option Nat) (b : Nat) (s : State) : State :=
  let fresh := (coveredPosns s).filter (fun p => !before.contains p || (armed.isSome && tget s.safe.assign p == armed))
  let s1 := modSafe (fun u => { u with coveredFrom := fresh.foldl (fun t p => tset t p b) u.coveredFrom }) s
  { s1 with acc := { s1.acc with
      fast := (fresh.flatMap fastKeys).foldl (fun t k => tset t k { point := b }) s1.acc.fast } }

/-- One pending change flips: its effect, its event and the finish of its command, with the flip's SPC (R352). -/
def flipChange (c : CfgPending) (s : State) : State :=
  let src := if c.cmd.fn = mgmt then 0x203 else 0x100 + c.cmd.fn
  let before := coveredPosns s
  let armed : Option Nat := match c.change with
    | .arm n true => some n
    | _ => none
  let s1 := startCover before armed c.flip (applyChange c.change s)
  finishOn src c.cmd ST_OK c.flip (raise src 0xA4 0 c.flip s1)

/-- SAFETY_CONFIG_FLIP (R352). -/
def execSafetyConfigFlip (s : State) : Host.Outcome State Fault Refusal :=
  .next (if s.up then
    let due := s.safe.pendingCfg.filter (fun c => decide (c.flip ≤ s.spc))
    let s1 := modSafe (fun u => { u with pendingCfg := u.pendingCfg.filter (fun c => !decide (c.flip ≤ s.spc)) }) s
    sweepUnmeasured (forEach due s1 flipChange)
  else s)

/-- PASSWORD_SUSPENSION_END (R347). -/
def execPasswordSuspensionEnd (s : State) : Host.Outcome State Fault Refusal :=
  .next (if s.safe.pwUntil.elim false (fun t => decide (t ≤ s.spc)) then modSafe (fun u => { u with pwUntil := none, pwFails := 0 }) s else s)

end Sys2Proof.Machine
end

