-- ==== Sys2Proof/Machine/SafeCmd.lean ====
section
/-! DEFINITION. The commands of the SAFE class (R347 to R354, R410). -/

namespace Sys2Proof.Machine

/-! ### Window set records (R323) -/

/-- Read the sixteen words of a record; none when a field is outside its range or a reserved field is not 0. No bit of a packet or record is the
default flag that R323 names: the fields written are the values taken (DESIGN CHOICE, log 69). -/
def readSet (s : State) (ws : List Word) : Option WSet :=
  let w (i : Nat) : Word := ws.getD i 0
  let x : WSet :=
    { num := bits (w 0) 11 0, vHi := toSigned 32 (w 1).toNat, vLo := toSigned 32 (w 2).toNat
      tHi := toSigned 16 (bits (w 3) 31 16), tLo := toSigned 16 (bits (w 3) 15 0), iChg := (w 4).toNat, iDis := (w 5).toNat
      dir := (if bits (w 6) 31 30 = 1 then 1 else if bits (w 6) 31 30 = 2 then 2 else 0), dirTol := bits (w 6) 15 0
      nV := bits (w 7) 31 28, nT := bits (w 7) 27 23, outMask := bits (w 7) 7 0
      scopeW := bits (w 8) 31 30, scopeC := bits (w 8) 29 28, parkOk := bits (w 8) 16 16 == 1, tBlind := bits (w 8) 15 0
      tripPre := bits (w 9) 31 16, tripPost := bits (w 9) 15 0, head := ws.take 8 }
  let ok := bits (w 0) 31 24 == 1 && bits (w 0) 23 12 == 0 && bits (w 6) 31 30 != 3 && bits (w 6) 29 16 == 0 && bits (w 7) 22 8 == 0
    && bits (w 8) 27 17 == 0 && (List.range 6).all (fun i => w (10 + i) == 0)
    && decide (x.vLo < x.vHi) && decide (x.tLo < x.tHi) && decide (1 ≤ x.iChg) && decide (1 ≤ x.iDis) && decide (1 ≤ x.dirTol)
    && decide (1 ≤ x.nV) && decide (x.nV ≤ 8) && decide (1 ≤ x.nT) && decide (x.nT ≤ 16) && decide (1 ≤ x.tBlind) && decide (x.tBlind ≤ 1250)
    && x.tripPre % 8 == 0 && x.tripPost % 8 == 0 && decide (x.tripPre ≤ 1440) && decide (x.tripPost ≤ 1440)
    && decide (x.tripPre + x.tripPost + 160 ≤ s.loom.depth)
  if ok then some x else none

/-- The reserved fields of a record are 0 (R353). -/
def reservedClear (ws : List Word) : Bool :=
  let w (i : Nat) : Word := ws.getD i 0
  bits (w 0) 23 12 == 0 && bits (w 6) 29 16 == 0 && bits (w 7) 22 8 == 0 && bits (w 8) 27 17 == 0
    && (List.range 6).all (fun i => w (10 + i) == 0)

/-- Window sets a function holds against the pool: base sets and its chains' derived sets (R323, R354). -/
def setsHeld (s : State) (fn : Nat) : Nat :=
  (if fn = mgmt then s.safe.sets.length else 0) + (s.safe.derived.filter (fun d => ownerOf s (d.1 / 4096) == fn)).length

/-- Base sets accepted and not yet flipped, each number once. -/
def comingSets (s : State) : List Nat :=
  (s.safe.pendingCfg.filterMap fun c => match c.change with
    | .writeSet w => if thas s.safe.sets w.num then none else some w.num
    | _ => none).eraseDups

/-- Derived sets accepted and not yet flipped, by key. -/
def comingDerived (s : State) : Tbl Derived :=
  s.safe.pendingCfg.filterMap fun c => match c.change with
    | .tighten b c d => some (derivedKey c b, d)
    | _ => none

/-- The derived set of a base set on a chain, flipped or accepted (R353). -/
def derivedOf (s : State) (key : Nat) : Option Derived := (tget s.safe.derived key).or (tget (comingDerived s) key)

/-- What a function will hold against the pool once everything accepted has flipped (R7, R323). -/
def setsTaken (s : State) (fn : Nat) : Nat :=
  let new := ((comingDerived s).map (·.1)).eraseDups.filter fun k => !thas s.safe.derived k && ownerOf s (k / 4096) == fn
  setsHeld s fn + new.length + (if fn = mgmt then (comingSets s).length else 0)

/-- A number is held by a derived set. -/
def derivedNum (s : State) (n : Nat) : Bool :=
  s.safe.derived.any (fun d => d.2.num == n) || s.safe.pendingCfg.any fun c => match c.change with
    | .tighten _ _ d => d.num == n
    | _ => false

/-- A free window set number for a new derived set of a chain. -/
def freeNum (s : State) (c : Nat) : Nat :=
  (freeId (isLocal c) 4096 (fun n => !thas s.safe.sets n && !derivedNum s n && !(comingSets s).contains n)).getD 0

/-! ### Password buffers (R347) -/

/-- The parts of a password buffer: `OP`, `BODY_LEN`, `PW_LEN`, password bytes, body words. -/
structure PwBuf where
  op : Nat
  len : Nat
  pwLen : Nat
  pw : List Nat
  body : List Word
  /-- Reserved bits are 0 and the bytes beyond the password are 0. -/
  ok : Bool
  deriving DecidableEq, Repr

/-- Read a password buffer. -/
def readPw (r : Req) : PwBuf :=
  let w (i : Nat) : Word := r.inb.getD i 0
  let len := bits (w 0) 15 0
  let pl := bits (w 1) 7 0
  let bytes := bytesOf ((List.range 16).map fun i => w (i + 2))
  { op := bits (w 0) 31 24, len := len, pwLen := pl, pw := bytes.take pl, body := (r.inb.drop 18).dropLast
    ok := bits (w 0) 23 16 == 0 && bits (w 1) 31 8 == 0 && decide (pl ≤ 64) && (bytes.drop pl).all (· == 0) && len % 4 == 0 }

/-- Bytes of a password buffer with its check word. -/
def pwBytes (b : PwBuf) : Nat := 72 + (b.len + 3) / 4 * 4 + 4

/-- Password checks are suspended (R347). -/
def pwSuspended (s : State) : Bool := s.safe.pwUntil.elim false (fun t => decide (s.spc < t))

/-- The password is established, checked and right. -/
def pwRight (s : State) (pw : List Nat) : Bool := s.safe.password.isSome && !pwSuspended s && s.safe.password == some pw

/-- Count a wrong password: after 5 in a row checks are suspended for 60 s and the failures are logged (R347). -/
def pwWrong (s : State) : State :=
  if s.safe.password.isNone || pwSuspended s then s
  else
    let n := s.safe.pwFails + 1
    if n < 5 then modSafe (fun u => { u with pwFails := n }) s
    else logChange 0x09 mgmt 0 [wd n] (modSafe (fun u => { u with pwFails := 0, pwUntil := some (s.spc + 6000000) }) s)

/-- Run a command that carries a password: the outcome of its check is counted. -/
def pwCommand (k : Checks) (r : Req) (s : State) (act : State → Reply) : State :=
  let route := routeOf k.op r s
  if !served r s || (route != .here && route != .both) || r.twin then command k r s act
  else
    let st := firstFail k r s
    let s1 := if st = some ST_AUTH then pwWrong s
      else if k.auth && (st.isNone || st == k.quota || st == k.pre) then modSafe (fun u => { u with pwFails := 0 }) s
      else s
    command k r s1 act

/-- Accept a configuration change: logged first, flipped at the next multiple of 200 (R350, R352). Answers the entry's number. -/
def acceptChange (r : Req) (kind wset : Nat) (detail : List Word) (c : CfgChange) (s : State) : Nat × State :=
  let n := s.safe.logSeq
  let s1 := logChange kind r.fn wset detail s
  (n, modSafe (fun u => { u with pendingCfg := u.pendingCfg ++ [{ change := c, flip := nextMult 200 (s.spc + 1), cmd := reqRef r }] }) s1)

/-! ### SAFE.CONFIG (R348) -/

/-- What a configuration buffer asks for: its log kind, the set concerned and the change; none when the body is malformed. -/
def readConfig (s : State) (b : PwBuf) : Option (Nat × Nat × CfgChange) :=
  let w (i : Nat) : Word := b.body.getD i 0
  let w0 := w 0
  match b.op with
  | 1 => if b.len = 64 then (readSet s b.body).map (fun x => (1, x.num, .writeSet x)) else none
  | 2 =>
    let n := bits w0 31 16
    let ps := (b.body.drop 1).map (posParam s)
    if b.len = 4 + 4 * n ∧ 1 ≤ n ∧ n ≤ 4096 ∧ bits w0 15 12 = 0 ∧ ps.all (·.isSome) then
      let num := bits w0 11 0
      some (2, if num = 4095 then 0 else num, .assign (if num = 0xFFF then none else some num) (ps.filterMap id))
    else none
  | 3 =>
    let ls := (List.range 4).map fun i => (w (5 + i)).toNat
    let ins := (List.range 4).map fun i => w (1 + i)
    let sum (k : Nat) : Nat := (ls.take k).sum
    let chains := (b.body.drop 9).map (chainParam s)
    if b.len = 36 + 4 * ls.sum ∧ bits w0 31 8 = 0 ∧ ls.all (fun l => decide (l ≤ 256)) ∧ chains.all (·.isSome)
        ∧ (List.range 4).all (fun i => bits (ins.getD i 0) 31 17 == 0 && decide (bits (ins.getD i 0) 7 0 ≤ 2)
          && (ls.getD i 0 == 0 || bits (ins.getD i 0) 7 0 == 2)) then
      some (3, 0, .io (bits w0 7 0) ((List.range 4).map fun i =>
        { scope := bits (ins.getD i 0) 7 0, mask := bits (ins.getD i 0) 15 8, latch := bits (ins.getD i 0) 16 16 == 1
          chains := ((chains.filterMap id).drop (sum i)).take (ls.getD i 0) }))
    else none
  | 4 =>
    if b.len = 8 ∧ bits w0 31 12 = 0 then
      if w 1 = 0xFFFFFFFF then some (5, bits w0 11 0, .release (bits w0 11 0) none)
      else (chainParam s (w 1)).map fun c => (5, bits w0 11 0, .release (bits w0 11 0) (some c))
    else none
  | 5 => if b.len = 4 ∧ bits w0 31 12 = 0 then some (0x0D, bits w0 11 0, .delete (bits w0 11 0)) else none
  | 6 => if b.len = 4 ∧ bits w0 31 1 = 0 then some (0x0E, 0, .settings (bits w0 0 0 == 1)) else none
  | _ => none

/-- The refusals of R348 that depend on the state. -/
def configPre (s : State) (c : CfgChange) : Option Nat :=
  let no (b : Bool) : Option Nat := if b then some ST_PRECONDITION else none
  match c with
  | .writeSet w => no (derivedNum s w.num)
  | .assign (some n) _ => no (!thas s.safe.sets n)
  | .release b none => no (!s.safe.derived.any (fun d => d.1 % 4096 == b))
  | .release b (some c) => no (!thas s.safe.derived (derivedKey c b))
  | .delete n =>
    no (s.safe.armed.contains n || s.safe.assign.any (fun a => a.2 == n) || s.safe.derived.any (fun d => d.1 % 4096 == n)
      || derivedNum s n || !thas s.safe.sets n)
  | _ => none

/-- The chains that a change names. -/
def configChains (c : CfgChange) : List Nat :=
  match c with
  | .assign _ ps => ps.map chainOfPos
  | .io _ ins => ins.flatMap (·.chains)
  | .release _ (some c) => [c]
  | _ => []

/-- A new base set needs room in the unreserved remainder (R323). -/
def configQuota (s : State) (c : CfgChange) : Option Nat :=
  if logFull s then some ST_TABLE_FULL
  else match c with
    | .writeSet w =>
      if thas s.safe.sets w.num || (comingSets s).contains w.num then none
      else poolCheck s mgmt (·.windowSets) 4096 (setsTaken s mgmt) 1
    | _ => none

/-- The checks of `SAFE.CONFIG` in the order of R397. -/
def checksSafeConfig (r : Req) (s : State) : Checks :=
  let b := readPw r
  let c := readConfig s b
  { op := 0x0B00, ready := 3, permitted := r.fn == mgmt, buf := .inb 5 (pwBytes b), long := true
    params := unusedZero r []
    fields := b.ok && c.isSome
    unit := c.elim none (fun c => chainsUnit s ((configChains c.2.2).filter (concerns r)))
    auth := pwRight s b.pw
    quota := c.elim none (fun c => configQuota s c.2.2)
    pre := c.elim none (fun c => configPre s c.2.2) }

/-- What `SAFE.CONFIG` does once its checks have passed. -/
def actSafeConfig (r : Req) (s : State) : State → Reply :=
  let b := readPw r
  let c := readConfig s b
  fun s =>
    match c with
    | some c =>
      let change : CfgChange := match c.2.2 with
        | .assign n ps => .assign n (ps.filter (fun p => concerns r (chainOfPos p)))
        | x => x
      let a := acceptChange r c.1 c.2.1 b.body change s
      .long 0 (wd64 a.1) a.2
    | none => .now ST_BAD_PARAM [] s

/-- SAFE.CONFIG (R347, R348, R352). -/
def execSafeConfig (r : Req) (s : State) : Host.Outcome State Fault Refusal :=
  .next (pwCommand (checksSafeConfig r s) r s (actSafeConfig r s))

/-- The checks of `SAFE.ARM` in the order of R397. -/
def checksSafeArm (r : Req) (s : State) : Checks :=
  let n := bits (reqWord r 4) 11 0
  let on := bits (reqWord r 4) 16 16 == 1
  let b := readPw r
  { op := 0x0B01, ready := 3, permitted := r.fn == mgmt, long := true
    buf := if on then .none else .inb 5 (pwBytes b)
    params := unusedZero r [4] && bits (reqWord r 4) 15 12 == 0 && bits (reqWord r 4) 31 17 == 0
    fields := on || (b.ok && b.op == 0 && b.len == 0)
    auth := on || pwRight s b.pw
    quota := if logFull s then some ST_TABLE_FULL else none
    pre := if thas s.safe.sets n then none else some ST_PRECONDITION }

/-- What `SAFE.ARM` does once its checks have passed. -/
def actSafeArm (r : Req) (_ : State) : State → Reply :=
  let n := bits (reqWord r 4) 11 0
  let on := bits (reqWord r 4) 16 16 == 1
  fun s =>
    .long n [] (acceptChange r (if on then 6 else 7) n [] (.arm n on) s).2

/-- SAFE.ARM (R325): disarming carries the password, arming does not. -/
def execSafeArm (r : Req) (s : State) : Host.Outcome State Fault Refusal :=
  let on := bits (reqWord r 4) 16 16 == 1
  .next ((if on then command else pwCommand) (checksSafeArm r s) r s (actSafeArm r s))

/-! ### SAFE.STATUS (R335, R410) -/

/-- Code of the island's state. -/
def islandCode : Island → Nat
  | .start => 0
  | .run => 1
  | .lockout => 2

/-- A status record, 32 bytes. -/
def statusRecord (chi mux cause wset id : Nat) (limit value : Int) (at_ : Nat) : List Word :=
  [chiWord chi mux, wd (cause + wset * 2 ^ 16), wd id, wdI limit, wdI value, 0] ++ wd64 at_

/-- The parked positions that `PARK_OK` exempts, which report `PARKED` (R337). -/
def parkedRecords (s : State) (mine : Nat → Bool) : List (List Word) :=
  (s.safe.assign.filter fun e => mine (chainOfPos e.1) && (posOf s e.1).state == .parked && (coverOf s e.1).elim false (fun c => exempt s e.1 c.2)).map
    fun e => statusRecord (e.1 * 16) 0 Config.parkedCause.toNat e.2 0 0 0 0

/-- The records of latched trips, foreign trips, stops, parked positions and, for the management function, latched inputs that a function
may read. -/
def statusRecords (s : State) (fn : Nat) (chain : Option Nat) : List (List Word) :=
  let mine (c : Nat) : Bool := owns s fn c && chain.elim true (· == c)
  let trips := (s.safe.trips.filter (fun t => mine (chainOfChi t.chi))).map fun t => statusRecord t.chi t.mux t.cause t.wset t.id t.limit t.value t.spc
  let foreign := s.safe.trips.filterMap fun t =>
    if ownerOf s (chainOfChi t.chi) = fn then none
    else some ((s.line.posns.filter (fun e => e.2.kind == .dt1 && inScope t.scope e.1 && mine (chainOfPos e.1))).map fun e =>
      statusRecord (e.1 * 16) 0 9 0 0 0 0 t.spc)
  let stops := (s.safe.stops.filter (fun x => mine x.1)).map fun x => statusRecord (x.1 * 128) 0 7 0 0 0 0 x.2.spc
  let ins := if fn = mgmt ∧ chain.isNone then
      ((List.range 4).filter (fun k => s.safe.latched.testBit k)).map fun k => statusRecord 0 0 8 0 k 0 0 0
    else []
  trips ++ foreign.flatten ++ stops ++ parkedRecords s mine ++ ins

/-- The chains that `SAFE.STATUS` is about: the function's, or one of them. -/
def statusChains (s : State) (fn : Nat) (all : Bool) (c : Nat) : List Nat :=
  (s.line.chains.map (·.1)).filter (fun x => owns s fn x && (all || x == c))

/-- The fast-path apsis trackers of covered channels, one section per chain, from the earliest reset point of its trackers; one that has taken
no sample is `EMPTY` (R159, R160, R335; log 41). -/
def fastSections (s : State) (chains : List Nat) : List (Nat × Section) :=
  chains.map fun x =>
    let ps := ((s.line.posns.map (·.1)).filter (fun p => chainOfPos p == x && (coverOf s p).isSome))
    let ts := (ps.flatMap (watched s)).map fun k => (k.1, tgetD s.acc.fast k.1 { point := s.spc })
    (x, { stype := 0x51, tag := x, start := ts.foldl (fun b t => min b t.2.point) s.spc, stop := s.spc
          records := ts.map fun t => apsisRecord 3 t.1 (genAt s x s.spc) t.2 })

/-- The checks of `SAFE.STATUS` in the order of R397. -/
def checksSafeStatus (r : Req) (s : State) : Checks :=
  let form := bits (reqWord r 4) 1 0
  let all := reqWord r 5 == 0xFFFFFFFF
  let c := (reqWord r 5).toNat
  { op := 0x0B02, ready := 3
    buf := if form = 2 then .none else .outb 32
    params := unusedZero r [4, 5] && bits (reqWord r 4) 31 2 == 0 && form != 3 && (all || (chainParam s (reqWord r 5)).isSome)
    owned := all || owns s r.fn c, unit := if all then none else chainUnit s c }

/-- What `SAFE.STATUS` does once its checks have passed. -/
def actSafeStatus (r : Req) (_ : State) : State → Reply :=
  let form := bits (reqWord r 4) 1 0
  let all := reqWord r 5 == 0xFFFFFFFF
  let c := (reqWord r 5).toNat
  fun s =>
    let chains := (statusChains s r.fn all c).filter (concerns r)
    match form with
    | 0 =>
      let o := emitStatus 0x0B02 r [statusRecords s r.fn (if all then none else some c)] s
      .now ST_OK [wd (islandCode s.safe.island + (if s.safe.island = .lockout then s.safe.causes.headD 0 else 0) * 2 ^ 8), wd o.1.records,
        wd (if r.fn = mgmt then s.safe.logLost else 0), wd (b2n s.safe.password.isSome + b2n (pwSuspended s) * 2)] o.2.2
    | 1 =>
      let secs := fastSections s chains
      let h : BufHead := { magic := 0x4B545346, cls := 0x51 }
      let sel := [form, (reqWord r 5).toNat]
      let mine := harvestLeft h r sel secs s
      let o := harvestOut h r sel secs s
      .now (harvestStatus (mine.map (·.2)) o.1.written) o.2.1 o.2.2
    | _ => .now ST_OK [] (modSafe (fun u => { u with apsisReset := u.apsisReset ++ [(nextMult 8 (s.spc + 1), chains)] }) s)

/-- SAFE.STATUS. -/
def execSafeStatus (r : Req) (s : State) : Host.Outcome State Fault Refusal :=
  .next (command (checksSafeStatus r s) r s (actSafeStatus r s))

/-! ### SAFE.ACK (R332, R346) -/

/-- The condition of a latched trip has been absent for 100 ms. -/
def tripCleared (s : State) (t : Trip) : Bool :=
  let p := posOfChi t.chi
  let blindNow := t.cause == 5 && (coverOf s p).isSome
    && (watched s p).any (fun k => k.1 / 8 == t.chi && (blindSince s k.1 k.2).isSome)
  let lost := t.cause == 6 && (coverOf s p).elim false (fun c => !(unmeasuredChis s p c.2).isEmpty)
  decide (t.lastBad + 10000 ≤ s.spc) && !blindNow && !lost

/-- The checks of `SAFE.ACK` in the order of R397. -/
def checksSafeAck (r : Req) (s : State) : Checks :=
  let form := bits (reqWord r 4) 1 0
  let x := (reqWord r 5).toNat
  let locked := s.safe.island == .lockout
  let t := (s.safe.trips.find? fun t => t.id == x && t.fn == r.fn && (r.fn == mgmt || owns s r.fn (chainOfChi t.chi))).orElse
    fun _ => s.safe.trips.find? fun t => t.id == x && (r.fn == mgmt || owns s r.fn (chainOfChi t.chi))
  { op := 0x0B03, ready := 3, permitted := r.fn == mgmt || decide (form ≤ 1)
    params := unusedZero r [4, 5] && bits (reqWord r 4) 31 2 == 0
      && (match form with
        | 1 => (chainParam s (reqWord r 5)).isSome
        | 2 => decide (x < 4)
        | 3 => x == 0
        | _ => true)
    owned := form != 1 || r.fn == mgmt || owns s r.fn x, unit := if form = 1 then chainUnit s x else none
    role := if locked && (form == 0 || form == 2) then some ST_SAFETY_LOCKOUT else none
    pre := match form with
      | 0 => (match t with
        | some t => if tripCleared s t then none else some ST_PRECONDITION
        | none => some ST_BAD_PARAM)
      | 1 => if thas s.safe.stops x && !locked then none else some ST_PRECONDITION
      | 2 =>
        if s.safe.latched.testBit x && s.safe.inA.testBit x && s.safe.inB.testBit x then none else some ST_PRECONDITION
      | _ => if locked && !s.safe.testing && s.safe.ackUntil.elim false (fun e => decide (s.spc < e)) then none else some ST_PRECONDITION }

/-- What `SAFE.ACK` does once its checks have passed. -/
def actSafeAck (r : Req) (s : State) : State → Reply :=
  let form := bits (reqWord r 4) 1 0
  let x := (reqWord r 5).toNat
  let t := (s.safe.trips.find? fun t => t.id == x && t.fn == r.fn && (r.fn == mgmt || owns s r.fn (chainOfChi t.chi))).orElse
    fun _ => s.safe.trips.find? fun t => t.id == x && (r.fn == mgmt || owns s r.fn (chainOfChi t.chi))
  fun s =>
    match form with
    | 0 => .now ST_OK [] (modSafe (fun u => { u with trips := u.trips.filter (fun y => some y != t) }) s)
    | 1 => .now ST_OK [] (modSafe (fun u => { u with stops := tdel u.stops x }) s)
    | 2 => .now ST_OK [] (modSafe (fun u => { u with latched := setBit u.latched x false }) s)
    | _ => .later .lockoutAck (modSafe (fun u => { u with testing := true, ackUntil := none }) s)

/-- SAFE.ACK. -/
def execSafeAck (r : Req) (s : State) : Host.Outcome State Fault Refusal :=
  .next (command (checksSafeAck r s) r s (actSafeAck r s))

/-! ### SAFE.LOG, SAFE.TIGHTEN, SAFE.PASSWD -/

/-- The checks of `SAFE.LOG` in the order of R397. -/
def checksSafeLog (r : Req) (s : State) : Checks :=
  let archive := bits (reqWord r 4) 0 0 == 1
  let n := (reqWord r 7).toNat
  let b := readPw r
  { op := 0x0B04, ready := 3, permitted := r.fn == mgmt
    buf := if archive then .inb 5 (pwBytes b) else .outb 64
    params := unusedZero r [4, 5, 6, 7] && bits (reqWord r 4) 31 1 == 0 && decide (n ≤ 4096) && (archive || decide (1 ≤ n))
    fields := !archive || (b.ok && b.op == 0 && b.len == 8)
    auth := !archive || pwRight s b.pw }

/-- What `SAFE.LOG` does once its checks have passed. -/
def actSafeLog (r : Req) (_ : State) : State → Reply :=
  let archive := bits (reqWord r 4) 0 0 == 1
  let first := of64 (reqWord r 5) (reqWord r 6)
  let n := (reqWord r 7).toNat
  let b := readPw r
  let last := of64 (b.body.getD 0 0) (b.body.getD 1 0)
  fun s =>
    if archive then
      let mine (e : LogEntry) : Bool := !e.archived && decide (first ≤ e.seq) && decide (e.seq ≤ last)
      let marked := (s.safe.log.filter mine).length
      let s1 := modSafe (fun u => { u with log := u.log.map (fun e => if mine e then { e with archived := true } else e) }) s
      let s2 := if unarchived s1 < 3584 then modSafe (fun u => { u with logWarned := false }) s1 else s1
      .now ST_OK [wd marked] (logChange 0x0F r.fn 0 (wd64 last) s2)
    else
      let recs := ((s.safe.log.reverse.filter (fun e => decide (first ≤ e.seq))).take n).map (·.words)
      let o := emitStatus 0x0B04 r [recs] s
      .now ST_OK [wd o.1.records] o.2.2

/-- SAFE.LOG (R350). -/
def execSafeLog (r : Req) (s : State) : Host.Outcome State Fault Refusal :=
  let archive := bits (reqWord r 4) 0 0 == 1
  .next ((if archive then pwCommand else command) (checksSafeLog r s) r s (actSafeLog r s))

/-- A tightening loosens nothing: every value is no looser than the effective limit, and the output mask and scopes are the base's
(R353). -/
def onlyTightens (b eff d : WSet) : Bool :=
  decide (d.vHi ≤ eff.vHi) && decide (eff.vLo ≤ d.vLo) && decide (d.tHi ≤ eff.tHi) && decide (eff.tLo ≤ d.tLo)
    && decide (d.iChg ≤ eff.iChg) && decide (d.iDis ≤ eff.iDis) && ((b.dir ||| d.dir) &&& eff.dir) == eff.dir
    && decide (d.dirTol ≤ eff.dirTol) && decide (d.nV ≤ eff.nV) && decide (d.nT ≤ eff.nT) && decide (d.tBlind ≤ eff.tBlind)
    && (!d.parkOk || eff.parkOk) && d.outMask == b.outMask && d.scopeW == b.scopeW && d.scopeC == b.scopeC

/-- The checks of `SAFE.TIGHTEN` in the order of R397. -/
def checksSafeTighten (r : Req) (s : State) : Checks :=
  let stop := bits (reqWord r 4) 0 0 == 1
  let n := bits (reqWord r 5) 11 0
  let c := (reqWord r 6).toNat
  let rec_ := r.inb.dropLast
  let d := readSet s rec_
  let base := tget s.safe.sets n
  let old := derivedOf s (derivedKey c n)
  let onChain := (List.range 8).any (fun i => tget s.safe.assign (c * 8 + i) == some n)
  let own := ownerOf s c
  { op := 0x0B05, ready := 3, long := !stop
    buf := if stop then .none else .inb 5 68
    params := unusedZero r [4, 5, 6] && bits (reqWord r 4) 31 1 == 0 && bits (reqWord r 5) 31 12 == 0 && (!stop || n == 0)
      && (chainParam s (reqWord r 6)).isSome
    owned := if stop then r.fn == mgmt || owns s r.fn c else owns s r.fn c && (r.fn == mgmt || onChain)
    unit := chainUnit s c
    fields := stop || d.isSome || !reservedClear rec_
    quota := if stop then none
      else if logFull s then some (if r.fn = mgmt then ST_TABLE_FULL else ST_NOT_READY)
      else poolCheck s own (·.windowSets) 4096 (setsTaken s own) (if old.isSome then 0 else 1)
    pre := if stop then none
      else if !reservedClear rec_ then some ST_SAFETY_DENIED
      else match base, effective s n c, d with
        | some b, some eff, some d => if onlyTightens b eff d then none else some ST_SAFETY_DENIED
        | _, _, _ => some ST_PRECONDITION }

/-- What `SAFE.TIGHTEN` does once its checks have passed. -/
def actSafeTighten (r : Req) (s : State) : State → Reply :=
  let stop := bits (reqWord r 4) 0 0 == 1
  let n := bits (reqWord r 5) 11 0
  let c := (reqWord r 6).toNat
  let rec_ := r.inb.dropLast
  let d := readSet s rec_
  let old := derivedOf s (derivedKey c n)
  fun s =>
    if stop then .now ST_OK [] (modSafe (fun u => { u with stops := tset u.stops c { spc := s.spc } }) s)
    else match d with
      | some d =>
        let num := match old with
          | some o => o.num
          | none => freeNum s c
        .long c [] (acceptChange r 4 num rec_ (.tighten n c { num := num, set := { d with num := num } }) s).2
      | none => .now ST_SAFETY_DENIED [] s

/-- SAFE.TIGHTEN (R334, R353, R354). -/
def execSafeTighten (r : Req) (s : State) : Host.Outcome State Fault Refusal :=
  .next (command (checksSafeTighten r s) r s (actSafeTighten r s))

/-- A new password: 8 to 64 bytes, each from 0x21 to 0x7E. -/
def pwValid (l : List Nat) : Bool := decide (8 ≤ l.length) && decide (l.length ≤ 64) && l.all (fun b => decide (0x21 ≤ b) && decide (b ≤ 0x7E))

/-- The checks of `SAFE.PASSWD` in the order of R397. -/
def checksSafePasswd (r : Req) (s : State) : Checks :=
  let w (i : Nat) : Word := r.inb.getD i 0
  let oldLen := (w 0).toNat
  let newLen := (w 17).toNat
  let oldB := bytesOf ((List.range 16).map fun i => w (1 + i))
  let newB := bytesOf ((List.range 16).map fun i => w (18 + i))
  { op := 0x0B06, ready := 3, permitted := r.fn == mgmt, buf := .inb 5 140
    params := unusedZero r []
    fields := decide (oldLen ≤ 64) && (oldB.drop oldLen).all (· == 0) && (newB.drop newLen).all (· == 0) && pwValid (newB.take newLen)
      && decide (newLen ≤ 64)
    auth := if s.safe.password.isNone then oldLen == 0 else pwRight s (oldB.take oldLen)
    quota := if logFull s then some ST_TABLE_FULL else none }

/-- What `SAFE.PASSWD` does once its checks have passed. -/
def actSafePasswd (r : Req) (_ : State) : State → Reply :=
  let w (i : Nat) : Word := r.inb.getD i 0
  let newLen := (w 17).toNat
  let newB := bytesOf ((List.range 16).map fun i => w (18 + i))
  fun s =>
    .now ST_OK [] (modSafe (fun u => { u with password := some (newB.take newLen) }) (logChange 8 r.fn 0 [] s))

/-- SAFE.PASSWD (R349). The device keeps a hash of the password; the model keeps the password it is the hash of. -/
def execSafePasswd (r : Req) (s : State) : Host.Outcome State Fault Refusal :=
  .next (pwCommand (checksSafePasswd r s) r s (actSafePasswd r s))

end Sys2Proof.Machine
end

