-- ==== Sys2Proof/Machine/Spec.lean ====
section
/-! DEFINITION. The spectral rows and commands (chapter 06, R405). -/

namespace Sys2Proof.Machine

/-- SPECTRAL_ROUND (R190): round k is at SPC 200k, once. -/
def execSpectralRound (round : Nat) (s : State) : Host.Outcome State Fault Refusal :=
  .next (if s.up && decide (s.spc = 200 * round) && decide (s.spec.round ≤ round) then
    let s1 := runRound s
    { s1 with spec := { s1.spec with round := round + 1 } }
  else s)

/-- The unit check of the SPEC class: no spectral tile is available (R192). -/
def specUnit (s : State) : Option Nat :=
  if (specTiles s).isEmpty then (if (List.range 16).any (fun u => ustate s 2 u == .testing) then some ST_NOT_READY else some ST_FENCED) else none

/-- The readiness that the SPEC class asks for: `SPEC`, or, once a test or a fault has taken every tile, so that `SPEC` is clear for good,
`LOOM`: what is wrong is then the fence (R192). -/
def specReady (s : State) : Nat := if specUnit s = some ST_FENCED then 4 else 8

/-- The checks of `SPEC.CONFIG` in the order of R397. -/
def checksSpecConfig (r : Req) (s : State) : Checks :=
  let c := (reqWord r 4).toNat
  let t := (reqWord r 5).toNat
  let i := (reqWord r 6).toNat
  let g := (reqWord r 7).toNat
  { op := 0x0600, ready := specReady s
    params := (chainParam s (reqWord r 4)).isSome && decide (t ≤ 3600) && decide (i ≤ 10000) && decide (g < 65536)
      && decide ((reqWord r 8).toNat ≤ 1) && unusedZero r [4, 5, 6, 7, 8]
    owned := owns s r.fn c, unit := (specUnit s).or (chainUnit s c) }

/-- What `SPEC.CONFIG` does once its checks have passed. -/
def actSpecConfig (r : Req) (_ : State) : State → Reply :=
  let c := (reqWord r 4).toNat
  let t := (reqWord r 5).toNat
  let i := (reqWord r 6).toNat
  let g := (reqWord r 7).toNat
  fun s =>
      let old := specChain s c
      let new : SpecChain :=
        { old with tMem := if t = 0 then old.tMem else t, iMin := if i = 0 then old.iMin else i, cohMin := if g = 0 then old.cohMin else g }
      let s1 := { s with spec := { s.spec with chains := tset s.spec.chains c new } }
      .now ST_OK [] (if (reqWord r 8).toNat = 1 then
        forEach ((occPosns s1 c).flatMap (voltChis s1)) s1 restartCtx else s1)

/-- SPEC.CONFIG (R405): a field given as 0 leaves its setting. -/
def execSpecConfig (r : Req) (s : State) : Host.Outcome State Fault Refusal :=
  .next (command (checksSpecConfig r s) r s (actSpecConfig r s))

/-- Focus sessions a function holds. -/
def focusHeld (s : State) (fn : Nat) : Nat := (s.spec.focus.filter (fun f => f.1 / 65536 == fn)).length

/-- The checks of `SPEC.FOCUS` in the order of R397. -/
def checksSpecFocus (r : Req) (s : State) : Checks :=
  let chi := bits (reqWord r 4) 31 9
  let fc := (reqWord r 5).toNat
  let z := bits (reqWord r 6) 3 0
  let running := bits (reqWord r 6) 8 8 == 1
  let n := (reqWord r 7).toNat
  let kind := (posOf s (posOfChi chi)).kind
  let scale := 512 * 2 ^ z
  { op := 0x0601, ready := specReady s
    params := (chiParam s (reqWord r 4)).isSome && bits (reqWord r 4) 8 6 == 0 && decide (chanOf chi < 12)
      && bits (reqWord r 6) 31 9 == 0 && bits (reqWord r 6) 7 4 == 0
      && (if running then decide (8 ≤ n) && decide (n ≤ 4096) else decide (1 ≤ n) && decide (n ≤ 65535))
      && decide (50 * scale + 128 * 12500000 ≤ fc * scale) && decide (fc * scale + 127 * 12500000 ≤ 5000000 * scale)
      && unusedZero r [4, 5, 6, 7]
    owned := owns s r.fn (chainOfChi chi), unit := (specUnit s).or (chainUnit s (chainOfChi chi))
    quota := poolCheck s r.fn (·.focus) 4096 (focusHeld s r.fn) 1
    pre := if kind == .dt1 && chanOf chi != 2 then some ST_BAD_PARAM
      else if kind == .ct12 && (driveOf s (posOfChi chi)).isNone then some ST_PRECONDITION else none }

/-- What `SPEC.FOCUS` does once its checks have passed. -/
def actSpecFocus (r : Req) (s : State) : State → Reply :=
  let chi := bits (reqWord r 4) 31 9
  let fc := (reqWord r 5).toNat
  let z := bits (reqWord r 6) 3 0
  let running := bits (reqWord r 6) 8 8 == 1
  let n := (reqWord r 7).toNat
  let id := (freeId (isLocal (chainOfChi chi)) 4096 (fun i => !thas s.spec.focus (focusKey r.fn i))).getD 0
  fun s =>
      .now ST_OK [wd id] { s with spec := { s.spec with
        focus := tset s.spec.focus (focusKey r.fn id) { chi := chi, fc := fc, zoom := z, running := running, n := n, start := s.spc } } }

/-- SPEC.FOCUS (R183, R184). -/
def execSpecFocus (r : Req) (s : State) : Host.Outcome State Fault Refusal :=
  .next (command (checksSpecFocus r s) r s (actSpecFocus r s))

/-- Sections of class 0x11: the owned chains of a range with their contexts, ascending (R181, R182). -/
def specSections (s : State) (fn a b : Nat) : List (Nat × Section) :=
  (tkeys s.line.chains (fun c _ => owns s fn c)).filterMap fun c =>
    let chis := ((occPosns s c).flatMap (voltChis s)).filter (fun x => decide (a ≤ x) && decide (x ≤ b))
    if chis.isEmpty then none
    else some (c, { stype := 0x11, tag := c, stop := s.spc, w6 := genAt s c s.spc, records := chis.map (specRecord s) })

/-- Status of a focus session in its section (R185). -/
def focusStatus (s : State) (f : Focus) : Nat := if f.complete then 1 else if 0 < s.therm.force then 2 else 0

/-- Sections of class 0x12: the function's sessions, or one of them. -/
def focusSections (s : State) (r : Req) (id : Nat) : List (Nat × Section) :=
  (s.spec.focus.filter (fun f => f.1 / 65536 == r.fn && concerns r (chainOfChi f.2.chi) && (id == 0xFFFF || f.1 % 65536 == id))).map fun f =>
    (f.1 % 65536,
      { stype := 0x12, tag := f.1 % 65536, start := f.2.start, stop := f.2.ctx.lastSpc
        w6 := focusStatus s f.2 * 2 ^ 16 + f.2.ctx.gen, w7 := f.2.admitted, records := [focusRecord s f.2] })

/-- The checks of `SPEC.HARVEST` in the order of R397. -/
def checksSpecHarvest (r : Req) (s : State) : Checks :=
  let cls := (reqWord r 4).toNat
  let rng := rangeParam s (reqWord r 5) (reqWord r 6)
  let id := (reqWord r 5).toNat
  let held := id == 0xFFFF || thas s.spec.focus (focusKey r.fn id)
  { op := 0x0602, ready := specReady s, buf := .outb (if cls = 0x12 then 4128 else 1056)
    params := if cls = 0x11 then rng.isSome && unusedZero r [4, 5, 6]
      else cls == 0x12 && decide (id < 65536) && unusedZero r [4, 5]
    unit := specUnit s
    pre := if cls == 0x12 && !held then some ST_BAD_PARAM else none }

/-- What `SPEC.HARVEST` does once its checks have passed. -/
def actSpecHarvest (r : Req) (s0 : State) : State → Reply :=
  let cls := (reqWord r 4).toNat
  let rng := rangeParam s0 (reqWord r 5) (reqWord r 6)
  let id := (reqWord r 5).toNat
  fun s =>
      let ab := rng.getD (0, 0)
      let secs := if cls = 0x11 then specSections s r.fn ab.1 ab.2 else focusSections s r id
      let h : BufHead := { magic := 0x4B545350, cls := cls }
      let sel := r.w.map (·.toNat)
      let mine := harvestLeft h r sel secs s
      let o := harvestOut h r sel secs s
      let s1 := o.2.2
      if cls = 0x11 then
        .now ST_OK o.2.1 (forEach (writtenRecords mine o.1) s1 fun w s => modCtx (bits (w.headD 0) 31 9) SpecCtx.harvested s)
      else
        .now ST_OK o.2.1 (forEach ((mine.zip o.1.written).filter (fun x => 0 < x.2)) s1 fun x s =>
          let k := focusKey r.fn x.1.1
          let left := if (tget s.spec.focus k).elim false (·.complete) then tdel s.spec.focus k
            else tupd s.spec.focus k (fun f => { f with ctx := f.ctx.harvested })
          { s with spec := { s.spec with focus := left } })

/-- SPEC.HARVEST (R181, R185): a written record's counts start again; a complete single session written whole leaves the table. -/
def execSpecHarvest (r : Req) (s : State) : Host.Outcome State Fault Refusal :=
  .next (command (checksSpecHarvest r s) r s (actSpecHarvest r s))

/-- Switch a drive tag's dither off (R186): the flag is clear from the next word, and the kept configuration is discarded (R61). -/
def ditherOff (p : Nat) (s : State) : State :=
  let s1 := { s with spec := { s.spec with dither := tupd s.spec.dither p (fun d => { d with on := false, applied := false }) } }
  modPos p (fun x => { x with kept := tdel x.kept 1 }) s1

/-- The checks of `SPEC.DITHER` in the order of R397. -/
def checksSpecDither (r : Req) (s : State) : Checks :=
  let p := bits (reqWord r 4) 31 13
  let on := (reqWord r 5).toNat == 1
  let seed := bits (reqWord r 6) 31 16
  let order := bits (reqWord r 7) 7 0
  let chip := bits (reqWord r 7) 15 8
  let x := posOf s p
  { op := 0x0603, ready := specReady s, long := on
    params := (posParam s (reqWord r 4)).isSome && decide ((reqWord r 5).toNat ≤ 1) && bits (reqWord r 7) 31 16 == 0
      && (!on || ((order == 23 || (order == 15 && seed % 2 ^ 15 != 0)) && seed != 0 && decide (1 ≤ chip)))
      && unusedZero r [4, 5, 6, 7]
    owned := owns s r.fn (chainOfPos p)
    role := plantRole s (chainOfPos p)
    unit := (specUnit s).or (chainUnit s (chainOfPos p))
    pre := if x.kind = .ct12 then some ST_BAD_PARAM
      else if on && (x.state != .released || x.cfg.any (fun f => f.cfgId == 1)) then some ST_PRECONDITION else none }

/-- What `SPEC.DITHER` does once its checks have passed. -/
def actSpecDither (r : Req) (_ : State) : State → Reply :=
  let p := bits (reqWord r 4) 31 13
  let on := (reqWord r 5).toNat == 1
  let ampl := bits (reqWord r 6) 15 0
  let seed := bits (reqWord r 6) 31 16
  let order := bits (reqWord r 7) 7 0
  let chip := bits (reqWord r 7) 15 8
  fun s =>
      if on then
        let body : BitVec 472 := BitVec.ofNat 472 ((ampl * 2 ^ 32 + seed * 2 ^ 16 + order * 2 ^ 8 + chip) * 2 ^ 424)
        let s1 := { s with spec := { s.spec with
          dither := tset s.spec.dither p { ampl := ampl, seed := seed, order := order, chip := chip, on := true } } }
        .long p [] (modPos p (fun x => { x with cfg := x.cfg ++ [{ cfgId := 1, body := body, cmd := some (reqRef r) }] }) s1)
      else .now ST_OK [] (ditherOff p s)

/-- SPEC.DITHER (R186, R187). -/
def execSpecDither (r : Req) (s : State) : Host.Outcome State Fault Refusal :=
  .next (command (checksSpecDither r s) r s (actSpecDither r s))

/-- The checks of `SPEC.STOP` in the order of R397. -/
def checksSpecStop (r : Req) (s : State) : Checks :=
  let form := (reqWord r 4).toNat
  let k := focusKey r.fn (reqWord r 5).toNat
  let c := (reqWord r 5).toNat
  { op := 0x0604, ready := specReady s
    params := decide (form ≤ 2) && decide ((reqWord r 6).toNat ≤ 1) && unusedZero r [4, 5, 6]
      && (if form = 0 then decide ((reqWord r 5).toNat < 65536) else (chainParam s (reqWord r 5)).isSome)
    owned := form == 0 || owns s r.fn c, unit := (specUnit s).or (if form = 0 then none else chainUnit s c)
    pre := if form == 0 && !thas s.spec.focus k then some ST_BAD_PARAM else none }

/-- What `SPEC.STOP` does once its checks have passed. -/
def actSpecStop (r : Req) (_ : State) : State → Reply :=
  let form := (reqWord r 4).toNat
  let k := focusKey r.fn (reqWord r 5).toNat
  let c := (reqWord r 5).toNat
  let discard := (reqWord r 6).toNat == 1
  fun s =>
      if form = 0 then
        let gone := discard || (tget s.spec.focus k).elim true (·.running)
        .now ST_OK [] { s with spec := { s.spec with
          focus := if gone then tdel s.spec.focus k else tupd s.spec.focus k (fun f => { f with complete := true }) } }
      else
        let s1 := { s with spec := { s.spec with chains := tmod s.spec.chains c {} (fun x => { x with stopped := form == 1 }) } }
        .now ST_OK [] (if form = 2 then forEach ((occPosns s1 c).flatMap (voltChis s1)) s1 restartCtx else s1)

/-- SPEC.STOP (R184, R405): a session, or a chain's baseline. -/
def execSpecStop (r : Req) (s : State) : Host.Outcome State Fault Refusal :=
  .next (command (checksSpecStop r s) r s (actSpecStop r s))

end Sys2Proof.Machine
end

