-- ==== Sys2Proof/Machine/TenOps.lean ====
section
/-! DEFINITION. What a change of owner and a tenant reset end (R361, R381 to R383), the pooled resources (R362), and the event
writer (R374 to R376). -/

namespace Sys2Proof.Machine

/-! ### Tenants -/

/-- Change the tenant unit. -/
def modTen (f : TenUnit → TenUnit) (s : State) : State := { s with ten := f s.ten }

/-- Change a tenant. -/
def modTenant (t : Nat) (f : Tenant → Tenant) (s : State) : State := modTen (fun u => { u with tenants := tupd u.tenants t f }) s

/-- VF t + 1 is enabled (R356, R357). -/
def vfOn (s : State) (t : Nat) : Bool := s.ten.vfEnable && decide (t < s.ten.numVfs)

/-- Codes of a tenant's state (R411, R514). -/
def tenantCode (s : State) (t : Nat) : Nat :=
  match tget s.ten.tenants t with
  | none => 0
  | some x => match x.state with
    | .active => 1
    | .resetting => 2
    | .detached => 3

/-- Chains that a function owns, of those that carry tags or are granted. -/
def ownedChains (s : State) (fn : Nat) : List Nat :=
  (((s.line.chains.map (·.1)) ++ s.ten.owner.map (·.1)).eraseDups.filter (fun c => owns s fn c)).mergeSort (fun a b => decide (a ≤ b))

/-- What a function holds of the pooled resources (R362). -/
def heldPools (s : State) (fn : Nat) : Pools :=
  { windows := windowsHeld s fn, entries := entriesHeld s fn, focus := focusHeld s fn, profiles := profilesHeld s fn
    programs := programsHeld s fn, windowSets := setsTaken s fn }

/-- The values of pools in the order of R362. -/
def Pools.list (p : Pools) : List Nat := [p.windows, p.entries, p.focus, p.profiles, p.programs, p.windowSets]

/-- Device limits in the order of R362. -/
def poolLimits : List Nat := [65536, 16777216, 4096, 1024, 16384, 4096]

/-- What the tenants reserve of each resource. -/
def reserved (s : State) (but : Nat) : List Nat :=
  ((s.ten.tenants.filter (fun e => e.1 != but)).map (fun e => e.2.pools.list)).foldl (fun a b => (a.zip b).map fun x => x.1 + x.2)
    [0, 0, 0, 0, 0, 0]

/-- The QoS weights of a function. -/
def weightsOf (s : State) (fn : Nat) : Weights := tgetD s.ten.weights fn {}

/-! ### What ends with an owner (R361) -/

/-- A program ends `ABORTED` by its ramp and is unloaded once its off is in force. -/
def endProgram (d : Nat) (s : State) : State :=
  if (driveRec s d).prog.isNone then s
  else if driveActive (driveRec s d) || (driveRec s d).offAt.isSome then
    modDrive d (fun x => { x with unload := true }) (endRamp d .aborted CC_STOP s)
  else groupChanged d (unloadProgram d s)

/-- A host setpoint ramps to 0 over 100 picks, then `OUT_EN` = 0. -/
def endSetpoint (d : Nat) (s : State) : State :=
  if (driveRec s d).setp.isSome && (driveRec s d).ramp.isNone then
    modDrive d (fun x =>
      { x with request := 0, ramp := some { s := s.spc, i0 := (forceAt x s.spc).1, on := (forceAt x s.spc).2, dn := 100, ending := .loaded, cause := 0 } }) s
  else s

/-- Drive tags whose program needs a chain: those on it, and those to which a CT12 on it is bound (R306). -/
def drivesNeeding (s : State) (c : Nat) : List Nat :=
  (s.chg.drives.map (·.1)).filter fun d =>
    chainOfPos d == c || (boundTo s d).any (fun p => chainOfPos p == c)

/-- Drive tags on a chain that the sequencer holds something of. -/
def driveRecsOn (s : State) (c : Nat) : List Nat := (s.chg.drives.map (·.1)).filter (fun d => chainOfPos d == c)

/-- Dithers of a chain are off (R186). -/
def dropDithers (c : Nat) (s : State) : State :=
  forEach ((s.spec.dither.map (·.1)).filter (fun p => chainOfPos p == c)) s ditherOff

/-- Limits of R212 return to the device's. -/
def resetLimits (c : Nat) (s : State) : State :=
  if thas s.cal.chains c then modChainCal c (fun x => { x with gainLim := 200, offLim := 1000 }) s else s

/-- Entries of a function's windows on a chain stop at boundary g (R167). -/
def leaveWindows (fn c g : Nat) (s : State) : State :=
  let on (w : Window) : Bool := w.entries.any (fun e => !isHk e.chi && chainOfChi e.chi == c) && !thas w.left c
  let leave (k : Nat) (w : Window) : Window := if k / 65536 == fn && on w then { w with left := tset w.left c g } else w
  { s with acc := { s.acc with windows := tmap s.acc.windows leave } }

/-- The running apsis trackers of a chain's channels are reset to boundary g (R167). -/
def resetTrackers (c g : Nat) (s : State) : State :=
  let reset (key : Nat) (a : Apsis) : Apsis := if !isHk (key / 8) && chainOfChi (key / 8) == c then { point := g } else a
  { s with acc := { s.acc with apsis := tmap s.acc.apsis reset, apsisWas := tdrop s.acc.apsisWas (fun k => chainOfChi (k / 8) == c) } }

/-- Contexts of a chain's positions restart, and those of the cells bound to its drive tags; its profile bindings end (R178, R283). -/
def restartChain (c : Nat) (s : State) : State :=
  let ps := (s.line.posns.map (·.1)).filter (fun p => chainOfPos p == c)
  forEach ps s fun p s =>
    let s1 := cutTag p s
    if (posOf s p).kind = .dt1 then forEach (boundTo s1 p) (restartString p s1) (restartCells true)
    else
      let s2 := restartCells true p s1
      { s2 with est := { s2.est with bound := tdel s2.est.bound p } }

/-- The leaving owner's resources on a chain end at boundary g (R361, R401). -/
def leaveChain (c fn g : Nat) (s : State) : State :=
  let s1 := forEach (drivesNeeding s c) s endProgram
  let s2 := dropDithers c (forEach (driveRecsOn s1 c) s1 endSetpoint)
  let s3 := resetTrackers c g (leaveWindows fn c g s2)
  let focus := s3.spec.focus.filter (fun f => !(f.1 / 65536 == fn && chainOfChi f.2.chi == c))
  let s4 := { s3 with spec := { s3.spec with focus := focus } }
  let s5 := resetBalancing c (resetLimits c (abortRuns (fun k r => k / 4 == fn && r.chain == c) s4))
  let s6 := restartChain c s5
  let s7 := { s6 with map := { s6.map with staged := s6.map.staged.filter (fun x => !(x.fn == fn && chainOfPos (bits x.target 31 13) == c)) } }
  endProc c ST_ABORTED s7

/-- A chain passes to another function at boundary g (R360, R361): its bindings, generation, wires and derived sets stay. -/
def passChain (c f g : Nat) (s : State) : State :=
  let s1 := leaveChain c (ownerOf s c) g s
  let s2 := if f = mgmt then s1 else modChainCal c (fun x => { x with granted := x.commits }) s1
  modTen (fun u =>
    { u with
      owner := if f = mgmt then tdel u.owner c else tset u.owner c f
      ownerHist := tmod u.ownerHist c [] (fun l => (g, f) :: l) }) s2

/-! ### Tenant reset (R381, R382) -/

/-- Start a reset of a tenant: it takes effect at the next boundary; one already started or running stands (R383). -/
def startTenantReset (t cause : Nat) (cmd : Option CmdRef) (s : State) : State :=
  modTenant t (fun x => if x.reset.isSome then x else { x with reset := some { r := s.spc + 1, cause := cause, cmd := cmd } }) s

/-- Reset every tenant whose VF is no longer enabled, with cause 2. -/
def resetDisabled (s : State) : State :=
  forEach (tkeys s.ten.tenants (fun t x => !vfOn s t && x.state != .detached)) s (fun t s => startTenantReset t 2 none s)

/-- Room of a completion ring: it holds P - C completions not yet taken (R386). -/
def ringUsed (g : Ring) : Nat := (g.prod + 2 ^ (g.log2 + 1) - g.head % 2 ^ (g.log2 + 1)) % 2 ^ (g.log2 + 1)

/-- Write ST_ABORTED for a command of a tenant, while its completion ring has room. -/
def abortCommand (ref : CmdRef) (accept : Nat) (s : State) : State :=
  let g := tgetD s.cmd.rings (ref.fn * 16 + ref.ring) {}
  if ringUsed g < 2 ^ g.log2 then writeCompletion ref ST_ABORTED [] accept s else s

/-- Ring pairs of a function. -/
def ringsOf (s : State) (fn : Nat) : List (Nat × Ring) := s.cmd.rings.filter (fun e => e.1 / 16 == fn)

/-- Packets of a function that wait to be started. -/
def waitingOf (s : State) (fn : Nat) : List Waiting := (ringsOf s fn).flatMap (·.2.waiting)

/-- Commands of a function in flight: waiting, started without a completion, or not finished (R382, R411). -/
def inFlight (s : State) (fn : Nat) : Nat :=
  (waitingOf s fn).length + (s.cmd.deferred.filter (fun d => d.ref.fn == fn)).length + unfinishedCount s fn

/-- Forget everything of a function in the command transport: rings, deferred and unfinished commands, continuations, check bindings and
read latches. -/
def clearTransport (fn : Nat) (s : State) : State :=
  { s with
    cmd := { s.cmd with
      rings := tdrop s.cmd.rings (fun k => k / 16 == fn), deferred := s.cmd.deferred.filter (fun d => d.ref.fn != fn)
      unfinished := s.cmd.unfinished.filter (fun u => u.ref.fn != fn), chk := tdrop s.cmd.chk (fun k => k / 8 == fn)
      conts := tdrop s.cmd.conts (fun k => k / 2 ^ 40 == fn) }
    regs := { s.regs with latch := tdrop s.regs.latch (fun k => k / 2 ^ 24 == fn) } }

/-- Clear a function's event queue, pending store and vectors. -/
def clearQueue (fn : Nat) (s : State) : State :=
  modTen (fun u => { u with queues := tdel u.queues fn, vecs := tdrop u.vecs (fun k => k / 256 == fn) }) s

/-- Clear a tenant's mailboxes, class table and scheduling state. -/
def clearTables (t : Nat) (s : State) : State :=
  modTen (fun u =>
    { u with
      mbx := tdrop u.mbx (fun k => k / 8 == t), clsTab := tdrop u.clsTab (fun k => k / 16 == t)
      credit := tdel u.credit t, nextRing := tdel u.nextRing t }) s

/-- What a tenant reset ends in the units: programs, setpoints, dithers, sessions, windows, trip sections and notices, runs and limits,
balancing, estimator commands, staged requests and chain procedures. Chains, contexts, trips and standard records stay. -/
def endTenantWork (t : Nat) (s : State) : State :=
  let cs := ownedChains s t
  let s1 := forEach (tkeys s.chg.drives (fun _ x => x.prog.isSome && x.fn == t)) s endProgram
  let s2 := forEach cs s1 fun c s =>
    endProc c ST_ABORTED (resetBalancing c (resetLimits c (dropDithers c (forEach (driveRecsOn s c) s endSetpoint))))
  let s3 := abortRuns (fun k _ => k / 4 == t) s2
  let s4 := wakeFn t s3
  { s4 with
    spec := { s4.spec with focus := tdrop s4.spec.focus (fun k => k / 65536 == t) }
    acc := { s4.acc with windows := tdrop s4.acc.windows (fun k => k / 65536 == t) }
    loom := { s4.loom with
      trips := s4.loom.trips.filter (fun x => x.fn != t), notices := s4.loom.notices.filter (fun x => x.fn != t)
      reanalyses := s4.loom.reanalyses.filter (fun x => x.fn != t), tripLost := tdel s4.loom.tripLost t }
    est := { s4.est with restores := s4.est.restores.filter (fun x => x.fn != t) }
    map := { s4.map with staged := s4.map.staged.filter (fun x => x.fn != t) } }

/-- A tenant reset takes effect (R382). -/
def effectReset (t : Nat) (x : TenReset) (s : State) : State :=
  let n := inFlight s t
  let s1 := if x.cause = 0 then
      let s0 := forEach (s.cmd.deferred.filter (fun d => d.ref.fn == t && !d.ref.twin)) s (fun d s => abortCommand d.ref d.accept s)
      forEach (waitingOf s t) s0 (fun w s => abortCommand (reqRef w.packet.req) s.spc s)
    else s
  let s2 := modTenant t (fun y =>
    { y with state := .resetting, reset := some { x with r := s.spc, done := true, aborted := min n 0xFFFFFF } }) s1
  clearTables t (clearQueue t (clearTransport t (endTenantWork t s2)))

/-- A tenant reset is complete (R357, R358, R381). -/
def completeReset (t : Nat) (x : TenReset) (s : State) : State :=
  let s1 :=
    if x.cause = 3 then
      modTen (fun u => { u with tenants := tdel u.tenants t, weights := tdel u.weights t })
        (forEach (ownedChains s t) s (fun c s => passChain c mgmt s.spc s))
    else
      raiseNow (0x100 + t) 0x00 (x.aborted * 2 ^ 8 + x.cause)
        (modTenant t (fun y => { y with reset := none, state := if vfOn s t then .active else .detached }) s)
  let s2 := completeDeferred (.tenReset t) ST_OK [] s1
  match x.cmd with
  | some ref => finish ref ST_OK s2
  | none => s2

/-! ### The event writer (R374 to R377) -/

/-- Records that a function's queue takes now. -/
def queueRoom (q : EvQueue) : Nat :=
  if q.enable then 2 ^ q.log2 - (q.prod + 2 ^ (q.log2 + 1) - q.cons % 2 ^ (q.log2 + 1)) % 2 ^ (q.log2 + 1) else 0

/-- The vector of a record: by its source for the management function, by its class for a tenant (R376). -/
def vectorOf (s : State) (fn : Nat) (e : EvRec) : Nat :=
  if fn = mgmt then bits (tgetD s.ten.srcTab e.source 1) 15 8 else bits (tgetD s.ten.clsTab (fn * 16 + e.kind / 16) 1) 13 8

/-- A mailbox record that is written makes its message readable (R512). -/
def deliverMail (e : EvRec) (s : State) : State :=
  if 0x800 ≤ e.source ∧ e.kind = 1 then
    modTen (fun u => { u with mbx := tmod u.mbx (e.source - 0x800) {} fun m => { m with value := wd e.arg, busy := false } }) s
  else s

/-- Write the oldest record of a function's pending store. -/
def writeEvent (fn : Nat) (s : State) : State :=
  let q := tgetD s.ten.queues fn {}
  match q.store with
  | [] => s
  | e :: r =>
    if queueRoom q = 0 then s
    else
      let w : EvOut := { fn := fn, index := q.prod, phase := q.prod / 2 ^ q.log2 % 2 == 0, lost := q.lostFlag, record := e }
      let q1 := { q with store := r, lostFlag := false, prod := (q.prod + 1) % 2 ^ (q.log2 + 1) }
      let s1 := modTen (fun u => { u with queues := tset u.queues fn q1 }) { s with out := { s.out with events := w :: s.out.events } }
      signal fn (vectorOf s fn e) (deliverMail e s1)

/-- Records of a function that can be written: pending, and with room in its queue. -/
def writable (s : State) (fn : Nat) : Nat :=
  let q := tgetD s.ten.queues fn {}
  min q.store.length (queueRoom q)

/-- The round of the event writer (R376): each function with pending records first receives one, and the other 1,343 are divided by the event
weights, what a function does not use passing to the others. -/
def eventPlan (s : State) : List Nat :=
  let fns := (s.ten.queues.map (·.1)).filter (fun fn => writable s fn != 0)
  let left := fns.filter (fun fn => decide (1 < writable s fn))
  let shares := waterFill (left.length + 1) 1343 (left.map fun fn => (fn, (weightsOf s fn).event, ((writable s fn - 1 : Nat) : Rat)))
  fns ++ shares.flatMap fun x => List.replicate x.2.floor.toNat x.1

/-- At most 16 records of the round in a pick, device-wide (R376). -/
def writePlanned (s : State) : State :=
  forEach (s.ten.plan.take 16) (modTen (fun u => { u with plan := u.plan.drop 16 }) s) writeEvent

/-- A round begins. -/
def eventRound (s : State) : State := writePlanned (modTen (fun u => { u with plan := eventPlan s }) s)

end Sys2Proof.Machine
end

