-- ==== Sys2Proof/Machine/Dev.lean ====
section
/-! DEFINITION. The commands of the DEV and CHK classes (R400, R414). -/

namespace Sys2Proof.Machine

/-- Code of the variant (R400, R497). -/
def variantCode : Variant → Nat
  | .f => 1
  | .m => 2
  | .l => 3

/-- The checks of `DEV.INFO` in the order of R397. -/
def checksDevInfo (r : Req) (_ : State) : Checks :=
  { op := 0x0100, ready := 0, params := unusedZero r [] }

/-- What `DEV.INFO` does once its checks have passed. -/
def actDevInfo (r : Req) (_ : State) : State → Reply :=
  fun s =>
    .now ST_OK ([wd (variantCode s.otp.variant * 2 ^ 24 + s.otp.stepping % 256 * 2 ^ 16 + s.boot.fwVersion % 2 ^ 16),
      wd (s.boot.safetyVersion % 2 ^ 16 * 2 ^ 16 + b2n s.boot.slotB)] ++ (if r.fn = mgmt then wd64 s.otp.dieUid.toNat else [0, 0])) s

/-- DEV.INFO (R400): a tenant reads 0 for the die identity. -/
def execDevInfo (r : Req) (s : State) : Host.Outcome State Fault Refusal :=
  .next (command (checksDevInfo r s) r s (actDevInfo r s))

/-- The readiness word of a function's status (R498, R514). -/
def readyWord (s : State) : Word := wd (b2n s.time.holdover * 2 ^ 16 + s.boot.fnReady.toNat)

/-- The checks of `DEV.READY` in the order of R397. -/
def checksDevReady (r : Req) (_ : State) : Checks :=
  { op := 0x0101, ready := 0, params := unusedZero r [] }

/-- What `DEV.READY` does once its checks have passed. -/
def actDevReady (_ : Req) (_ : State) : State → Reply :=
  fun s => .now ST_OK [readyWord s] s

/-- DEV.READY (R400). -/
def execDevReady (r : Req) (s : State) : Host.Outcome State Fault Refusal :=
  .next (command (checksDevReady r s) r s (actDevReady r s))

/-- Units of a class that the variant has. -/
def unitsOf (v : Variant) (cls : Nat) : List Nat := (List.range 128).filter (unitExists v cls)

/-- Bits of fenced units of a class among those that `p` shows. -/
def fenceBits (s : State) (cls : Nat) (p : Nat → Bool) : Nat :=
  (((unitsOf s.otp.variant cls).filter (fun u => fencedUnit s cls u && p u)).map (fun u => 2 ^ u)).sum

/-- The capability record (R400, R366). -/
def capRecord (s : State) (fn : Nat) : List Word :=
  let v := s.otp.variant
  let n (cls : Nat) : Nat := (unitsOf v cls).length
  let tiles := (List.range 65).filter (tileExists v)
  let cs := ownedChains s fn
  let all := fn == mgmt
  let tileShown (t : Nat) : Bool := all || cs.any (fun c => tileOf c == t)
  let physShown (p : Nat) : Bool := all || tiles.any (fun t => physOf s t == p && tileShown t)
  let laneShown (l : Nat) : Bool := all || cs.any (fun c => !isLocal c && laneOfChain c == l)
  let pools := if all then (poolLimits.zip (reserved s 256)).map (fun x => x.1 - x.2) else ((tget s.ten.tenants fn).getD {}).pools.list
  let use := (heldPools s fn).list
  let lanes := fenceBits s 4 laneShown
  let phys := fenceBits s 1 physShown
  let map (t : Nat) : Nat := if tiles.contains t && tileShown t then physOf s t else 0xFF
  [wd (variantCode v * 2 ^ 24 + (n 1 - tiles.length) * 2 ^ 16 + n 2 * 2 ^ 8 + n 3), wd (n 4 * 2 ^ 16 + n 5 * 2 ^ 8 + n 6),
    wd s.loom.depth, 0]
    ++ (pools.zip use).flatMap (fun x => [wd x.1, wd x.2])
    ++ wdN 4 lanes ++ [wd (fenceBits s 5 (fun _ => all))] ++ wdN 3 phys ++ [wd (fenceBits s 2 (fun _ => all)), wd (fenceBits s 3 (fun _ => all))]
    ++ (List.range 17).map (fun i => wd (map (4 * i) + map (4 * i + 1) * 2 ^ 8 + map (4 * i + 2) * 2 ^ 16 + map (4 * i + 3) * 2 ^ 24))
    ++ List.replicate 21 0

/-- The checks of `DEV.CAPS` in the order of R397. -/
def checksDevCaps (r : Req) (_ : State) : Checks :=
  { op := 0x0102, ready := 0, buf := .outb 256, params := unusedZero r [] }

/-- What `DEV.CAPS` does once its checks have passed. -/
def actDevCaps (r : Req) (_ : State) : State → Reply :=
  fun s =>
    let o := emitStatus 0x0102 r [[capRecord s r.fn]] s
    .now ST_OK [o.2.1.headD 0] o.2.2

/-- DEV.CAPS (R400). -/
def execDevCaps (r : Req) (s : State) : Host.Outcome State Fault Refusal :=
  .next (command (checksDevCaps r s) r s (actDevCaps r s))

/-- The checks of `DEV.TIME` in the order of R397. -/
def checksDevTime (r : Req) (_ : State) : Checks :=
  { op := 0x0103, ready := 0, params := unusedZero r [] }

/-- What `DEV.TIME` does once its checks have passed. -/
def actDevTime (_ : Req) (_ : State) : State → Reply :=
  fun s =>
    let s1 := s.takeFrac
    match s1.time.ptm with
    | some p =>
      .now ST_OK ([wd (2 ^ 31 + p.frac.toNat * 2 ^ 16 + s1.time.frac.toNat), wd (sat32 (s1.spc - p.spc))] ++ wd64 p.host.toNat) s1
    | none => .now ST_OK [wd s1.time.frac.toNat, wd (sat32 s1.spc), 0, 0] s1

/-- DEV.TIME (R22, R400). -/
def execDevTime (r : Req) (s : State) : Host.Outcome State Fault Refusal :=
  .next (command (checksDevTime r s) r s (actDevTime r s))

/-- The checks of `DEV.NOP` in the order of R397. -/
def checksDevNop (r : Req) (_ : State) : Checks :=
  { op := 0x0104, ready := 0, params := unusedZero r [] }

/-- What `DEV.NOP` does once its checks have passed. -/
def actDevNop (_ : Req) (_ : State) : State → Reply :=
  fun s => .now ST_OK [] s

/-- DEV.NOP (R400, R392). -/
def execDevNop (r : Req) (s : State) : Host.Outcome State Fault Refusal :=
  .next (command (checksDevNop r s) r s (actDevNop r s))

/-- PTM_RESPONSE (R22): the host time with the SPC and SPC_FRAC of the exchange. -/
def execPtmResponse (host : BitVec 64) (s : State) : Host.Outcome State Fault Refusal :=
  .next (if s.up && s.boot.linkUp then
    let s1 := s.takeFrac
    { s1 with time := { s1.time with ptm := some { host := host, spc := s1.spc, frac := s1.time.frac } } }
  else s)

/-! ### CHK (R395, R414) -/

/-- The checks of `CHK.BIND` in the order of R397. -/
def checksChkBind (r : Req) (_ : State) : Checks :=
  let c := (reqWord r 4).toNat
  let w := reqWord r 5
  { op := 0x0F00, ready := 0
    params := unusedZero r [4, 5] && decide (c < 8) && bits w 31 9 == 0 && bits w 7 2 == 0 }

/-- What `CHK.BIND` does once its checks have passed. -/
def actChkBind (r : Req) (_ : State) : State → Reply :=
  let c := (reqWord r 4).toNat
  let w := reqWord r 5
  fun s =>
    let bound := bits w 8 8 == 0
    .now ST_OK [] { s with cmd := { s.cmd with chk := tmod s.cmd.chk (r.fn * 8 + c) {} fun x =>
      { x with bound := bound, kind := if bound then bits w 1 0 else 0 } } }

/-- CHK.BIND (R395): one polynomial for a transfer class of the function, or none. -/
def execChkBind (r : Req) (s : State) : Host.Outcome State Fault Refusal :=
  .next (command (checksChkBind r s) r s (actChkBind r s))

/-- The checks of `CHK.STATUS` in the order of R397. -/
def checksChkStatus (r : Req) (_ : State) : Checks :=
  let c := (reqWord r 4).toNat
  { op := 0x0F01, ready := 0, params := unusedZero r [4] && decide (c < 8) }

/-- What `CHK.STATUS` does once its checks have passed. -/
def actChkStatus (r : Req) (_ : State) : State → Reply :=
  let c := (reqWord r 4).toNat
  fun s =>
    let x := chkOf s r.fn c
    .now ST_OK [wd x.appended, wd x.checked, wd x.mismatches, wd x.kind] s

/-- CHK.STATUS (R414). -/
def execChkStatus (r : Req) (s : State) : Host.Outcome State Fault Refusal :=
  .next (command (checksChkStatus r s) r s (actChkStatus r s))

end Sys2Proof.Machine
end

