-- ==== Sys2Proof/Machine/Chain.lean ====
section
/-! DEFINITION. The rows of tag chains (chapter 02): reception, resend, wrap, enumeration, selvedge, release, loss, park. -/

namespace Sys2Proof.Machine

/-! ### Filing blocks -/

/-- `FCRC` of a received frame: CRC-32C over frame bits 32 to 415 with `HOP` as 0 (R42). -/
def frameCrc (f : ChainFrame) : Nat :=
  let h := fieldBytes f.header
  crc32c (h.set 9 0 ++ fieldBytes f.cmds)

/-- The sync word (R40). -/
def syncWord : BitVec 32 := 0xF6281D4B

/-- A port's receiver finds `SYNC`, as it stands or complemented; the answer says whether it has to invert (R32). -/
def syncFound (f : ChainFrame) : Option Bool :=
  if !f.locked then none else if f.syncWord = syncWord then some false else if f.syncWord = ~~~syncWord then some true else none

/-- A frame as an interface that inverts reads it (R32). -/
def readFrame (inv : Bool) (f : ChainFrame) : ChainFrame :=
  if inv then
    { f with
      syncWord := ~~~f.syncWord, header := ~~~f.header, cmds := ~~~f.cmds, fcrc := ~~~f.fcrc
      blocks := f.blocks.map (~~~·), xblks := f.xblks.map (~~~·) }
  else f

/-- `HOP` as it arrived (R41): header bits 72 to 79, the count in the low four. -/
def frameHop (f : ChainFrame) : Nat := fieldOf f.header 76 4

/-- The SPC under which a frame is filed (R25, R76): its `PICK_NUM` extended against the device's own count, where a header that checks
arrives. An up-phase brings no header, and belongs to the running pick; none is the distance of ST_GAP. -/
def framePick (s : State) (wrapped : Bool) (f : ChainFrame) : Option Nat :=
  if wrapped || f.fcrc.toNat != frameCrc f then some s.spc else extend (fieldOf f.header 0 32) s.spc

/-- The bolt entry of a block for data pick `d` (R44, R124). -/
def blockEntry (d : Nat) (b : BitVec 544) (filled incChg mute : Bool) (raw : Bool := false) : BoltEntry :=
  { pick := d, payload := BitVec.ofNat 512 (fieldOf b 16 512), bstate := .live, filled := filled
    ovr := flagOf b 4, pwrLow := flagOf b 5, fault := flagOf b 7, incChg := incChg, mute := mute, raw := raw }

/-- A pick lies within the bolt (R124). -/
def inBolt (s : State) (d : Nat) : Bool := decide (d ≤ s.spc) && decide (s.spc < d + s.loom.depth)

/-- Insert or replace an entry, newest first, keeping only the bolt's depth. -/
def putEntry (depth now : Nat) (e : BoltEntry) (l : List BoltEntry) : List BoltEntry :=
  let l1 := l.filter (fun x => x.pick != e.pick && decide (now < x.pick + depth))
  l1.takeWhile (fun x => decide (e.pick < x.pick)) ++ [e] ++ l1.dropWhile (fun x => decide (e.pick < x.pick))

/-- Write an entry when its block arrives. A block older than the bolt is discarded (R24, R124). -/
def writeEntry (p : Nat) (e : BoltEntry) (s : State) : State :=
  if inBolt s e.pick then
    { s with loom := { s.loom with bolt := tset s.loom.bolt p (putEntry s.loom.depth s.spc e (boltOf s p)) } }
  else s

/-- Data picks of a position that is not measuring are gaps, whatever arrives (R132). -/
def mutePick (x : Posn) : Bool := x.state != .released || x.gapFrom.isSome

/-- The comparators take the bits of a position that is brought up once its identity is known (R54, log 10). -/
def rawPick (x : Posn) : Bool := x.state == .bringingUp && x.known

/-- Discard a fill and count it (R127). -/
def discardFill (p : Nat) (s : State) : State :=
  { s with loom := { s.loom with discarded := tmod s.loom.discarded (tileOf (chainOfPos p)) 0 (fun n => sat32 (n + 1)) } }

/-- The entry of a pick, which is `PENDING` while nothing has been written for it. -/
def entryOr (s : State) (p d : Nat) : BoltEntry :=
  (boltAt s p d).getD { pick := d, bstate := .pending, mute := mutePick (posOf s p) }

/-- Accept a fill only while the entry is `PENDING` and its pick is not yet final, and queue its delta replay (R127, R128). -/
def fillEntry (p : Nat) (e : BoltEntry) (s : State) : State :=
  let old := entryOr s p e.pick
  if old.bstate = .pending ∧ s.spc < e.pick + 64 ∧ inBolt s e.pick then
    let t := tileOf (chainOfPos p)
    let work := (List.range (lastSpan e.pick + 1 - firstSpan e.pick)).map
      (fun i => ({ pos := p, pick := e.pick, m := firstSpan e.pick + i } : Replay))
    modPos p (fun x => { x with filledPicks := sat32 (x.filledPicks + 1) })
      { s with loom := { s.loom with
          bolt := tset s.loom.bolt p (putEntry s.loom.depth s.spc { e with filled := true, mute := old.mute, raw := old.raw } (boltOf s p))
          replay := tmod s.loom.replay t [] (fun q => q ++ work) } }
  else discardFill p s

/-- Make a `PENDING` entry a gap (R63, R94, R115). -/
def gapEntry (p d : Nat) (s : State) : State :=
  let e := entryOr s p d
  if e.bstate = .pending ∧ inBolt s d then
    (if isLocal (chainOfPos p) then id else reportLocal [3, p, d]) <| modPos p (fun x => { x with gapPicks := sat32 (x.gapPicks + 1) })
      { s with loom := { s.loom with
          bolt := tset s.loom.bolt p (putEntry s.loom.depth s.spc { e with bstate := .gap } (boltOf s p)) } }
  else s

/-- Insert a missing block into the queue, oldest frame first and in slot order (R62). -/
def insertMissing (fp sl : Nat) : List (Nat × Nat) → List (Nat × Nat)
  | [] => [(fp, sl)]
  | (a, b) :: r =>
    if fp < a ∨ (fp = a ∧ sl < b) then (fp, sl) :: (a, b) :: r
    else if fp = a ∧ sl = b then (a, b) :: r
    else (a, b) :: insertMissing fp sl r

/-- A pick that is held is a gap all the same (R132). -/
def muteEntry (p d : Nat) (s : State) : State :=
  { s with loom := { s.loom with bolt := tupd s.loom.bolt p fun l => l.map fun e => if e.pick = d then { e with mute := true, raw := false } else e } }

/-- A block of frame `fp` is missing: its entry is `PENDING` and a resend is sought (R62). Nothing is asked of a lost position (R70). -/
def missBlock (fp p : Nat) (s : State) : State :=
  let x := posOf s p
  if x.state = .lost then s else
  let s1 := modPos p (fun x => { x with noLive := x.noLive + 1 }) s
  let s2 := writeEntry p { pick := fp - 1, bstate := .pending, mute := mutePick x, raw := rawPick x } s1
  modChain (chainOfPos p) (fun c => { c with missing := insertMissing fp (slotOf p) c.missing }) s2

/-- A changed `INC_LO` in the frame of pick `fp` (R72): a loss at that pick and a return at once. The last pick of the old incarnation is a gap
as well, and a new stream of up messages starts (R59). The return is reported with the new `INC_LO`; a bridge's blocks do not carry it, and the
return of a bridged position is reported with its identity (log 62). -/
def newIncarnation (fp p : Nat) (inc : Option Nat) (s : State) : State :=
  let s1 := muteEntry p (fp - 2) (modPos p (fun x =>
    { darken .bringingUp s x with incFrom := fp - 1, up := {}, upLast := {}, awaitBack := inc.isNone }) s)
  let s2 := posEvent p 0x11 0 (onIncarnation p s1)
  noteRing (chainOfPos p) 3 (inc.elim s2 (fun i => posEvent p 0x12 i s2))

/-- A valid `LIVE` block of frame `fp` (R45, R57, R70, R72). Of a lost position's block only the `USELV` bit is taken, which carries the
identity message that the position returns by. -/
def liveBlock (fp p : Nat) (b : BitVec 544) (s : State) : State :=
  let x := posOf s p
  if x.state = .lost then modPos p (noteUselv fp (flagOf b 0)) s
  else
    let inc := fieldOf b 8 8
    let changed := x.known && x.incLo != inc
    let s1 := if changed then newIncarnation fp p (some inc) s else s
    let s2 := modPos p (fun x =>
      { noteUselv fp (flagOf b 0) x with
        noLive := 0, incLo := inc, livePicks := sat32 (x.livePicks + 1)
        fault := flagOf b 7, pwrLow := flagOf b 5, cmdErr := flagOf b 6 }) s1
    let y := posOf s2 p
    onBlock p (flagOf b 7) (writeEntry p (blockEntry (fp - 1) b false changed (mutePick y) (rawPick y)) s2)

/-- One live position of a frame: a block that fails `BCRC` or arrives `EMPTY` is missing; an `ENUM` block carries nothing. -/
def fileBlock (fp p : Nat) (b : BitVec 544) (s : State) : State :=
  let t := fieldOf b 1 3
  if crc16Ok b && t == 0 then liveBlock fp p b s
  else if crc16Ok b && t == 3 then s
  else missBlock fp p s

/-- A resent block belongs to another incarnation than its pick, or its pick to none: data is not merged (R72). -/
def strayResend (x : Posn) (d : Nat) (b : BitVec 544) : Bool := x.incLo != fieldOf b 8 8 || decide (d < x.incFrom)

/-- One resend position: the answer to the request in its place (R62, R63). The resent block restores its `USELV` bit (R57); a lost
position's is ignored (R70). -/
def fileResend (c : Nat) (q : Nat × Nat) (b : BitVec 544) (s : State) : State :=
  let p := c * 8 + q.2
  let x := posOf s p
  let drop := modChain c (fun x => { x with missing := x.missing.filter (fun m => m != q) })
  if !crc16Ok b then s
  else if x.state = .lost then drop s
  else if fieldOf b 1 3 = 1 then
    let s1 := if strayResend x (q.1 - 1) b then gapEntry p (q.1 - 1) (drop s)
      else fillEntry p (blockEntry (q.1 - 1) b true false false) (modPos p (noteUselv q.1 (flagOf b 0)) (drop s))
    modPos p (fun x => { x with rsndServed := sat32 (x.rsndServed + 1) }) s1
  else if fieldOf b 1 3 = 2 then gapEntry p (q.1 - 1) (drop s)
  else s

/-- A list of missing blocks in the order in which port B asks for them: oldest frame first, and within a frame nearest tag first, which at
port B is descending slot order (R65, R67, R68). -/
def fromPortB : List (Nat × Nat) → List (Nat × Nat)
  | [] => []
  | q :: r => insertB q (fromPortB r)
where
  /-- Put a block in its place. -/
  insertB (q : Nat × Nat) : List (Nat × Nat) → List (Nat × Nat)
    | [] => [q]
    | a :: r => if a.1 < q.1 ∨ (a.1 = q.1 ∧ q.2 < a.2) then a :: insertB q r else q :: a :: r

/-- Requests of the next frame: at most two per port, oldest frame first, ages 0 to 31; in wrap mode from each half, and from both ends of the
ring while the broken hop is sought (R62, R66, R67). -/
def askResends (c : Nat) (s : State) : State :=
  let x := chainOf s c
  let young := x.missing.filter (fun m => decide (s.spc + 1 ≤ m.1 + 32))
  let half (b : Bool) := match x.brk with
    | some h => young.filter (fun m => decide (h ≤ m.2) == b)
    | none => young
  let a := if x.mode = .wrap then (half false).take 2 else young.take 2
  let b := if x.mode = .wrap then (fromPortB (half true)).take 2 else []
  modChain c (fun x => { x with asked := a, askedB := b, rsndReq := sat32 (x.rsndReq + a.length + b.length) }) s

/-- The half of the ring that a wrap frame comes from, in the order its blocks arrive: nearest tag first (R65). -/
def halfOf (x : Chain) (portB : Bool) : List Nat :=
  if portB then (x.occ.filter (fun i => decide (x.brk.getD 8 ≤ i))).reverse
  else x.occ.filter (fun i => decide (i < x.brk.getD 8))

/-- Slots of the blocks of a frame, in the order they stand in it. While the broken hop is sought, an up-phase of n blocks is that of the n
tags nearest to its port (R67). -/
def frameSlots (x : Chain) (portB : Bool) (n : Nat) : List Nat :=
  if x.mode != .wrap then x.occ
  else if x.brk.isSome then halfOf x portB
  else if portB then x.occ.reverse.take n else x.occ.take n

/-- The broken hop follows from the two halves' block counts: as many tags stand before it as port A has heard. The split hop moves to it, by
the power words of the next frame, and the break is reported (R67). -/
def findBreak (c : Nat) (s : State) : State :=
  match (chainOf s c).countA, (chainOf s c).countB with
  | some a, some _ =>
    ringEvent c 0x15 a (moveSplit c a (modChain c (fun x => { x with brk := some a, countA := none, countB := none }) s))
  | _, _ => s

/-- What a frame tells the line receiver of its port: `SYNC` and lock, polarity, `FCRC` and `HOP` (R32, R42, R56, R67). -/
def noteFrame (f : ChainFrame) (inv : Option Bool) (counted : Bool) (x : Chain) : Chain :=
  let seen := inv.isSome
  let wrapped := x.mode == .wrap
  let y := if f.portB || !wrapped then { x with invB := inv.getD false } else { x with invA := inv.getD false }
  { y with
    syncMiss := if seen then 0 else x.syncMiss + 1
    lockLost := !f.locked
    synced := x.synced || seen
    fcrcErr := if seen && !wrapped && f.fcrc.toNat != frameCrc f then sat32 (x.fcrcErr + 1) else x.fcrcErr
    hopMiss := if wrapped || !seen || !counted then x.hopMiss else if frameHop f = x.tags then 0 else x.hopMiss + 1 }

/-- A pick's frame reaches the device (R42 to R46, R56, R62 to R67). Its blocks and resend blocks are filed once the chain's enumeration, if
one runs, is counted; resend blocks answer the requests that the frame carried, in the order of `RSND0` and `RSND1`
(DESIGN CHOICE, log 61). -/
def receiveFrame (f0 : ChainFrame) (s : State) : State :=
  let c := f0.chain
  let x := chainOf s c
  let inv := syncFound f0
  let f := readFrame (inv.getD false) f0
  let wrapped := x.mode == .wrap
  let counted := x.proc.elim true (fun p => p.counted.isSome)
  let s1 := modChain c (noteFrame f inv counted) s
  if !counted then s1 else
    match framePick s (wrapped || inv.isNone) f with
    | none => askResends c s1
    | some fp =>
      let n := f.blocks.length
      let asked := if wrapped && f.portB then x.tx.rsndB else x.tx.rsndA
      let s2 := if x.hopFault then s1 else
        forEach (frameSlots x f.portB (if inv.isSome then n else 0)).zipIdx s1 fun i s =>
          if inv.isSome then fileBlock fp (c * 8 + i.1) (f.blocks.getD (if wrapped then i.2 else i.1) 0) s
          else missBlock fp (c * 8 + i.1) s
      let s3 := if inv.isSome then forEach (asked.zip f.xblks) s2 (fun q s => fileResend c q.1 q.2 s) else s2
      let s4 := if wrapped && x.brk.isNone && inv.isSome then
          findBreak c (modChain c (fun x => if f.portB then { x with countB := some n } else { x with countA := some n }) s3)
        else s3
      askResends c s4

/-- CHAIN_FRAME_RX (R42): every frame of a powered chain is received. -/
def execChainFrameRx (f : ChainFrame) (s : State) : Host.Outcome State Fault Refusal :=
  onObject (isLocal f.chain && chainExists s f.chain)
    (if s.up && powered (chainOf s f.chain) then receiveFrame f s else s)

/-- RESEND_AGE_EXPIRY (R63): the data pick becomes a gap once its frame has passed age 31 or its tag answered `NOT_HELD`. -/
def execResendAgeExpiry (pos pick : Nat) (notHeld : Bool) (s : State) : Host.Outcome State Fault Refusal :=
  onObject (posExists s pos)
    (if s.up && (notHeld || decide (pick + 34 ≤ s.spc)) then
      gapEntry pos pick (modChain (chainOfPos pos)
        (fun x => { x with missing := x.missing.filter (fun m => m != (pick + 1, slotOf pos)) }) s)
    else s)

/-! ### Break, unwrap, `HOP` fault -/

/-- Wrap a ring (R67): wrap frames go from both ports from the next boundary, and requests are shared between the ports. A power configuration
that waits is not sent (R76). The broken hop is sought from the block counts, or is that of a port that has turned off (R39), to which the
split hop moves at once. -/
def wrapRing (c : Nat) (hop : Option Nat) (delays : List Nat) (s : State) : State :=
  let s1 := modChain c (fun x =>
    { setMode .wrap s x with
      brk := hop, carrierA := !x.offA, carrierB := !x.offB, syncMiss := 0, lockLost := false, wrapAt := none
      countA := if x.offA then some 0 else none, countB := if x.offB then some 0 else none }) s
  let s2 := modOcc c (fun x => { x with posted := { x.posted with power := none } }) s1
  let s3 := noteRing c 0 (setDelays c delays s2)
  askResends c (hop.elim s3 (fun h => ringEvent c 0x15 h (moveSplit c h s3)))

/-- RING_BREAK_DECLARED (R67): two consecutive frames without `SYNC`, or a receiver out of lock, as the row or a frame has found it. During
enumeration the open-ring procedure follows, 200 picks after port B lost `SYNC` (R76). -/
def execRingBreakDeclared (chain : Nat) (outOfLock : Bool) (delays : List Nat) (s : State) : Host.Outcome State Fault Refusal :=
  let x := chainOf s chain
  onObject (isLocal chain && chainExists s chain)
    (if s.up && x.mode == .normal && (outOfLock || decide (2 ≤ x.syncMiss) || x.lockLost) then
      match x.proc with
      | some { counted := none, .. } =>
        if x.synced then
          let lost := s.spc + 1 - max 1 x.syncMiss
          modChain chain (fun x => { x with
            proc := x.proc.map (fun p => { p with p0 := lost, openAt := some (lost + 200), enumEnd := lost + 403 })
            syncMiss := 0, lockLost := false, synced := false }) s
        else s
      | _ => wrapRing chain none delays s
    else s)

/-- UNWRAP_BOUNDARY (R69): with a valid frame u the ring stays in normal mode and the command finishes; otherwise it sends wrap frames again
from pick u + 2. The boundary itself has switched the mode and restored the split hop (PICK_BOUNDARY). -/
def execUnwrapBoundary (chain : Nat) (valid : Bool) (delays : List Nat) (s : State) : Host.Outcome State Fault Refusal :=
  let x := chainOf s chain
  onObject (chainExists s chain)
    (match x.unwrapAt with
    | some (u, r) =>
      if s.up && decide (u ≤ s.spc) then
        let s1 := modChain chain (fun x => { x with unwrapAt := none }) s
        if valid then
          let s2 := setDelays chain delays (modChain chain (setMode .normal s) s1)
          finish r ST_OK (noteRing chain 1 (ringEvent chain 0x16 0 s2))
        else finish r ST_PRECONDITION (modChain chain (fun x => { x with wrapAt := if isLocal chain then some (u + 2) else none }) s1)
      else s
    | none => s)

/-- Put a chain into `HOP` fault (R52, R56): its drive tags are turned off and its positions deliver gaps until it is enumerated. -/
def hopFault (c : Nat) (s : State) : State :=
  let s1 := modChain c (fun x => { x with hopFault := true, hopMiss := 0 }) s
  let s2 := forEach (occPosns s1 c) s1 (fun p s => onSilent p (modPos p (fun x =>
    { x with
      state := .hopFault
      gapFrom := if x.gapFrom.isSome then x.gapFrom else some s.spc
      posted := { x.posted with outEn := false, ditherEn := false, iSet := 0 } }) s))
  ringEvent c 0x14 0 s2

/-- HOP_FAULT (R56): a wrong `HOP` in 2 consecutive frames that carry `SYNC`, in normal mode on an enumerated chain. -/
def execHopFault (chain : Nat) (hops : List Nat) (s : State) : Host.Outcome State Fault Refusal :=
  let x := chainOf s chain
  onObject (isLocal chain && chainExists s chain)
    (if s.up && x.mode == .normal && !x.hopFault && x.proc.elim true (fun p => p.counted.isSome)
        && (decide (2 ≤ x.hopMiss) || (decide (2 ≤ hops.length) && hops.all (fun h => h != x.tags))) then hopFault chain s
    else s)

/-- POSITION_LOST (R70): no valid `LIVE` block in 64 consecutive frames. -/
def losePosition (p : Nat) (s : State) : State :=
  let s1 := modPos p (fun x =>
    { darken .lost s x with cfg := [], repeats := [], awaitNew := false, incarnation := x.incarnation }) s
  onSilent p (noteRing (chainOfPos p) 3 (posEvent p 0x11 0 s1))

/-- POSITION_LOST (R70). -/
def execPositionLost (pos : Nat) (s : State) : Host.Outcome State Fault Refusal :=
  let x := posOf s pos
  onObject (posExists s pos)
    (if s.up && decide (64 ≤ x.noLive) && (x.state == .released || x.state == .bringingUp) then losePosition pos s else s)

/-! ### Enumeration -/

/-- Repeat requests for the identity and every coefficient part of a tag (R59). -/
def askAgain (parts : Nat) : List (Nat × Nat) := (1, 0) :: (List.range parts).map (fun i => (2, i))

/-- A position after a counted enumeration (R54, R59, R70, R401): a tag that kept slot and incarnation stays released or returns; a lost one stays
lost until its identity is accepted; every other one is brought up, and coefficients given up are asked for again. -/
def afterEnum (s : State) (x : Posn) : Posn :=
  if x.state = .lost then { x with noLive := 0 }
  else if x.known && x.coefOk && (x.state == .released || x.state == .hopFault) then { x with state := .released, gapFrom := none, noLive := 0 }
  else
    let y : Posn := { darken .bringingUp s x with coefBad := 0, known := x.known, parts := x.parts, coefOk := x.coefOk }
    if x.coefBad = 3 then { y with parts := [], repeats := askAgain x.coefParts } else y

/-- A counted enumeration: slots that no longer hold a tag are dropped, the others stand as `afterEnum` says (R52, R545). -/
def enumerated (c n : Nat) (occ : List Nat) (delays : List Nat) (s : State) : State :=
  let old := (chainOf s c).occ
  let s1 := modChain c (fun x => { x with
    tags := n, occ := occ, enumTry := 0, hopFault := false, hopMiss := 0
    proc := x.proc.map (fun p => { p with counted := some s.spc, c := nextMult 512 (s.spc + 1) }) }) s
  let s2 := forEach (old.filter (fun i => !occ.contains i)) s1 (fun i s => modPos (c * 8 + i) (unpower .lost s) s)
  let s3 := forEach occ s2 fun i s => modPos (c * 8 + i) (afterEnum s) s
  settleProc c (setDelays c delays s3)

/-- The count that four enumeration picks agree on (R52). -/
def agreed (hops : List (Option Nat)) : Option Nat :=
  match hops with
  | some n :: r => if r.length == 3 && r.all (fun h => h == some n) then some n else none
  | _ => none

/-- Counts that differ: the picks run again, up to three more times, then the chain is in `HOP` fault (R52). -/
def retryEnum (c : Nat) (s : State) : State :=
  if (chainOf s c).enumTry < 3 then
    modChain c (fun x => { x with
      enumTry := x.enumTry + 1, proc := x.proc.map (fun p => { p with enumEnd := s.spc + 4 }) }) s
  else endProc c ST_PRECONDITION (hopFault c s)

/-- A wrapped ring's enumeration (R55): tags of port A in slot `HOP`, tags of port B in slot 7 - `HOP`; the broken hop is known. A ring that was not
wrapped before is reported. -/
def countWrapped (c a b : Nat) (delays : List Nat) (s : State) : State :=
  let occ := List.range (min a 8) ++ (List.range 8).filter (fun i => decide (8 - min b (8 - min a 8) ≤ i))
  let s1 := enumerated c (a + b) occ delays s
  let s2 := moveSplit c a (modChain c (fun y => { y with brk := some a }) s1)
  if ((chainOf s c).proc.elim false (fun p => p.openAt.isSome)) then noteRing c 0 (ringEvent c 0x15 a s2) else s2

/-- CHAIN_ENUM_PICKS (R52): four equal counts at port B give N of a closed ring. One whose port B is off is broken at hop N (R39). -/
def execChainEnumPicks (chain : Nat) (hops : List (Option Nat)) (delays : List Nat) (s : State) :
    Host.Outcome State Fault Refusal :=
  let x := chainOf s chain
  onObject (isLocal chain && chainExists s chain)
    (match x.proc with
    | some { counted := none, enumEnd := e, .. } =>
      if s.up && x.mode == .normal && decide (e ≤ s.spc) then
        match agreed hops with
        | some n =>
          let s1 := moveSplit chain (splitHop n) (enumerated chain n (List.range (min n 8)) delays s)
          if x.offB then wrapRing chain (some n) [] s1 else s1
        | none => retryEnum chain s
      else s
    | _ => s)

/-- OPEN_RING_DETECTED (R55): no carrier at port B by p0 + 200. Port B starts its carrier, and the ring is enumerated in wrap mode in the four
picks from p0 + 400 on; the row is due again when the counts of those picks are known, at each port its own, and counts every enumeration
in wrap mode. -/
def execOpenRingDetected (chain : Nat) (countsA countsB : List (Option Nat)) (delays : List Nat) (s : State) :
    Host.Outcome State Fault Refusal :=
  let x := chainOf s chain
  onObject (isLocal chain && chainExists s chain)
    (match x.proc with
    | some { counted := none, p0 := p0, enumEnd := e, openAt := o, .. } =>
      if s.up && x.mode == .normal && o.isNone && decide (p0 + 200 ≤ s.spc) then
        modChain chain (fun x => { x with
          carrierB := !x.offB, enumTry := 0
          proc := x.proc.map (fun p => { p with openAt := some (p0 + 200), enumEnd := p0 + 403 }) }) s
      else if s.up && x.mode == .wrap && decide (e ≤ s.spc) then
        match agreed countsA, agreed countsB with
        | some a, some b => countWrapped chain a b delays s
        | _, _ => retryEnum chain s
      else s
    | _ => s)

/-! ### Selvedge messages -/

/-- An upstream message is valid: its `SCRC` checks and its `TYPE` is the one the row is about (R57). -/
def msgOk (msg : BitVec 512) (typ : Nat) : Bool := crc16Ok msg && fieldOf msg 8 8 == typ

/-- Tag type of `TAG_KIND`. -/
def kindOf (k : Nat) : TagKind := if k = 1 then .ct12 else if k = 2 then .dt1 else .none

/-- Take a new identity (R53, R60, R61, R72). -/
def takeIdentity (p : Nat) (msg : BitVec 512) (s : State) : State :=
  let x := posOf s p
  let serial := fieldOf msg 16 64
  let kind := kindOf (fieldOf msg 80 8)
  let inc := fieldOf msg 96 32
  let had := x.kind != .none
  let changed := had && (x.serial != serial || x.kind != kind)
  let fresh := !had || changed || x.incarnation != inc
  let back := x.state == .lost || x.awaitBack
  let kept := if changed then [] else x.kept
  let resend := kept.map (fun e => ({ cfgId := e.1, body := e.2, again := true } : CfgFlight))
  let s1 := modPos p (fun x =>
    { x with
      kind := kind, serial := serial, hwRev := fieldOf msg 88 8, incarnation := inc, romVer := fieldOf msg 128 16
      coefParts := fieldOf msg 144 8, coefCrc := fieldOf msg 152 32, incLo := inc % 256
      known := true, awaitNew := false, awaitBack := false, noLive := 0
      state := if x.state = .released && !fresh then .released else .bringingUp
      parts := if fresh || back then [] else x.parts
      coefOk := if fresh || back then false else x.coefOk
      coefBad := if fresh then 0 else x.coefBad
      aux := if fresh then 0 else x.aux
      kept := kept
      cfg := if fresh then resend else x.cfg
      upSeq := if fresh then none else x.upSeq
      gapFrom := if x.state = .released && !fresh then x.gapFrom else if x.gapFrom.isSome then x.gapFrom else some s.spc }) s
  let s2 := if back then noteRing (chainOfPos p) 3 (posEvent p 0x12 (inc % 256) s1) else s1
  let s3 := if changed then onTagChange p (posEvent p 0x13 0 s2) else if fresh && had then onIncarnation p s2 else s2
  holdMsg p 1 0 msg (if x.kind = kind then s3 else backGaps p s3)

/-- Take the complete message of a position. -/
def takeUpMsg (p : Nat) (s : State) : State := (upMessage (posOf s p)).elim s (fun u => modPos p (takeUp u.period) s)

/-- IDENTITY_RX (R60): a lost position's tag is accepted only with another incarnation; with the same one it is sent a reset word
(R71). -/
def execIdentityRx (pos : Nat) (msg : BitVec 512) (s : State) : Host.Outcome State Fault Refusal :=
  let x := posOf s pos
  let same := x.kind != .none && x.serial == fieldOf msg 16 64 && x.kind == kindOf (fieldOf msg 80 8)
    && x.incarnation == fieldOf msg 96 32
  onObject (posExists s pos)
    (if s.up && upIs x msg && msgOk msg 1 && kindOf (fieldOf msg 80 8) != .none && powered (chainOf s (chainOfPos pos)) then
      let s1 := takeUpMsg pos s
      if x.state = .lost && same then
        modPos pos (fun x => { x with awaitNew := true, posted := { x.posted with reset := true } }) s1
      else takeIdentity pos msg s1
    else s)

/-- CRC-32C of the coefficient bodies in part order (R57). -/
def partsCrc (x : Posn) : Nat := crc32c ((List.range x.coefParts).flatMap fun i => fieldBytes (tgetD x.parts i 0))

/-- Judge a complete set of coefficient parts (R59): consistent, or requested again, or given up at the third mismatch. -/
def judgeParts (p : Nat) (s : State) : State :=
  let x := posOf s p
  if !(List.range x.coefParts).all (fun i => thas x.parts i) || x.coefOk then s
  else if partsCrc x = x.coefCrc then onCoefficients p (modPos p (fun x => { x with coefOk := true }) s)
  else if x.coefBad < 2 then
    modPos p (fun x => { x with
      coefBad := x.coefBad + 1, parts := []
      repeats := x.repeats ++ askAgain x.coefParts }) s
  else
    let s1 := modPos p (fun x => { x with coefBad := 3 }) s
    settleProc (chainOfPos p) (posEvent p 0x1A 0 s1)

/-- COEF_RX (R59). -/
def execCoefRx (pos : Nat) (msg : BitVec 512) (s : State) : Host.Outcome State Fault Refusal :=
  let x := posOf s pos
  let part := fieldOf msg 16 8
  onObject (posExists s pos)
    (if s.up && upIs x msg && msgOk msg 2 && x.known && decide (part < x.coefParts) then
      let s1 := modPos pos (fun x => { x with parts := if x.coefOk then x.parts else tset x.parts part (BitVec.ofNat 480 (fieldOf msg 16 480)) })
        (takeUpMsg pos s)
      judgeParts pos (holdMsg pos 2 part msg s1)
    else s)

/-- The outcome of a configuration message (R58, R61, R186): applied, retried up to 3 times, or given up. -/
def judgeCfg (p : Nat) (f : CfgFlight) (result : Nat) (reported : Bool) (s : State) : State :=
  let last := if reported then result else f.lastResult
  let pop := modPos p (fun x => { x with cfg := x.cfg.drop 1 })
  if reported && result == 0 then
    let s1 := modPos p (fun x => { x with
      kept := tset x.kept f.cfgId f.body
      aux := if f.cfgId = 2 then fieldOf f.body 0 8 else x.aux }) (pop s)
    let s2 := if f.cfgId = 1 then onDither p true s1 else s1
    match f.cmd with
    | some r => finish r ST_OK s2
    | none => s2
  else if f.tries < 3 && (f.again || !(reported && result == 2)) then
    modPos p (fun x => { x with cfg := { f with seq := none, tries := f.tries + 1, lastResult := last } :: x.cfg.drop 1 }) s
  else
    let s1 := pop s
    let s2 := if f.again then posEvent p 0x19 (last * 256 + f.cfgId) s1 else s1
    let s3 := if f.cfgId = 1 then onDither p false s2 else s2
    match f.cmd with
    | some r => finish r ST_PRECONDITION s3
    | none => s3

/-- TAG_STATUS_RX (R58): the first valid status that the tag completes after a configuration message's last bit decides it: that of the period
after the one in which the message went, since both directions' periods are the same frames (R57). -/
def execTagStatusRx (pos : Nat) (msg : BitVec 512) (s : State) : Host.Outcome State Fault Refusal :=
  let x := posOf s pos
  onObject (posExists s pos)
    (if s.up && upIs x msg && msgOk msg 3 && x.known then
      let s1 := holdMsg pos 3 0 msg (modPos pos (fun x =>
        { x with feedB := flagOf msg 32, relayOff := flagOf msg 33, faultBits := fieldOf msg 128 32 }) (takeUpMsg pos s))
      match x.cfg with
      | f :: _ =>
        match f.seq with
        | some q =>
          if f.sentAt + 512 ≤ 512 * (upMessage x).elim 0 (·.period) then judgeCfg pos f (fieldOf msg 120 8) (fieldOf msg 112 8 == q) s1 else s1
        | none => s1
      | [] => s1
    else s)

/-- The next down message of a tag (R57, R59, R61): a repeat request, else a configuration message not yet sent, else idle. -/
def nextDown (p : Nat) (s : State) : State :=
  modPos p (fun x =>
    let seq := x.downSeq
    match x.repeats with
    | (t, part) :: r =>
      let body : BitVec 480 := BitVec.ofNat 480 ((slotOf p * 2 ^ 16 + t * 2 ^ 8 + part) * 2 ^ 456)
      { x with repeats := r, downSeq := (seq + 1) % 256, downMsg := selvMsg seq 0x11 body }
    | [] =>
      match x.cfg with
      | f :: r =>
        if f.seq.isNone then
          { x with
            cfg := { f with seq := some seq, sentAt := inForce s (chainOfPos p) - 1 } :: r
            downSeq := (seq + 1) % 256
            downMsg := selvMsg seq 0x10 (BitVec.ofNat 480 (f.cfgId * 2 ^ 472 + f.body.toNat)) }
        else { x with downSeq := (seq + 1) % 256, downMsg := selvMsg seq 0x00 0 }
      | [] => { x with downSeq := (seq + 1) % 256, downMsg := selvMsg seq 0x00 0 }) s

/-- SELVEDGE_DOWN_PERIOD (R57): every tag of a powered chain is sent its next message, in the 512 frames that begin with the one being
assembled, whose pick is a multiple of 512; a bridged chain's frame is assembled two picks ahead (R81). -/
def execSelvedgeDownPeriod (s : State) : Host.Outcome State Fault Refusal :=
  .next (if s.up then
    forEach (tkeys s.line.chains (fun c x => powered x && (inForce s c - 1) % 512 == 0)) s (fun c s => forEach (occPosns s c) s nextDown)
  else s)

/-- SELVEDGE_MESSAGE_SCRC_FAIL (R59): a lost identity or coefficient message is requested again in the next down period; a message of
another type is discarded without effect (R58). -/
def execSelvedgeMessageScrcFail (pos msgType part : Nat) (s : State) : Host.Outcome State Fault Refusal :=
  onObject (posExists s pos)
    (match upFailed s.spc (posOf s pos) with
    | some u =>
      if s.up && powered (chainOf s (chainOfPos pos)) then
        modPos pos (fun x => { takeUp u.period x with
          repeats := if (msgType != 1 && msgType != 2) || x.repeats.contains (msgType, part) then x.repeats else x.repeats ++ [(msgType, part)] }) s
      else s
    | none => s)

/-- POSITION_RELEASED (R54): identity, consistent coefficients and every kept configuration reported. -/
def execPositionReleased (pos : Nat) (s : State) : Host.Outcome State Fault Refusal :=
  let x := posOf s pos
  let c := chainOfPos pos
  onObject (posExists s pos)
    (if s.up && x.known && x.coefOk && x.state == .bringingUp && x.cfg.all (fun f => !f.again) && powered (chainOf s c) then
      let s1 := modPos pos (fun x => { x with
        state := .released, gapFrom := none, livePicks := 0, filledPicks := 0, gapPicks := 0, rsndServed := 0, coefBad := 0 }) s
      settleProc c (onRelease pos (posEvent pos 0x10 0 s1))
    else s)

/-- PARK_CARRIER_OFF (R73): at boundary p + 16 frames and carriers stop and the positions are parked. -/
def execParkCarrierOff (chain : Nat) (s : State) : Host.Outcome State Fault Refusal :=
  onObject (chainExists s chain)
    (match (chainOf s chain).parkAt with
    | some (b, r) =>
      if s.up && decide (b ≤ s.spc) then
        let ps := occPosns s chain
        let s1 := forEach ps (stopChain .parked .parked chain s) onSilent
        finish r ST_OK (ringEvent chain 0x18 0 s1)
      else s
    | none => s)

/-- PORT_OVERCURRENT (R39): the port's carrier and driver turn off, and the ring is treated as broken at that port's hop. -/
def execPortOvercurrent (t : PortTrip) (s : State) : Host.Outcome State Fault Refusal :=
  let c := chainKey 0xFF (t.port / 2)
  let x := chainOf s c
  let b := t.port % 2 == 1
  onObject (decide (t.port < 32))
    (if s.up && powered x && (if b then x.carrierB else x.carrierA) then
      let s1 := modChain c (fun x =>
        if b then { x with offB := true, carrierB := false, pwrB := 0 } else { x with offA := true, carrierA := false, pwrA := 0 }) s
      let s2 := noteRing c 2 (ringEvent c 0x17 0 s1)
      if x.proc.elim false (fun p => p.counted.isNone) then s2 else wrapRing c (some (if b then x.tags else 0)) t.delays s2
    else s)

/-- Wake the chains of one kind that were parked at the edge and still are (R75). -/
def wakeParked (local_ : Bool) (s : State) : State :=
  let mine := s.boot.wakeSet.filter (fun c => isLocal c == local_)
  let s1 : State := { s with boot := { s.boot with wakeSet := s.boot.wakeSet.filter (fun c => isLocal c != local_) } }
  forEach (mine.filter (fun c => (chainOf s c).mode == .parked)) s1 (fun c s => powerUp c 0 none s)

/-- Chains that are parked. -/
def parkedChains (s : State) : List Nat := tkeys s.line.chains (fun _ x => x.mode == .parked)

/-- Act on a latched WAKE_N edge: local rings once `LOCAL` is ready, bridged chains once `LANES` is (R75). An edge from before the parked chains
were read from NVM counts for those that the reading brought (R447). -/
def actOnWake (s : State) : State :=
  let s0 : State := if s.boot.wakeLatch && s.boot.nvmLoaded then
      { s with boot := { s.boot with wakeLatch := false, wakeSet := parkedChains s } }
    else s
  let s1 := if s0.boot.fnReady.getLsbD 5 then wakeParked true s0 else s0
  if s1.boot.fnReady.getLsbD 6 then wakeParked false s1 else s1

/-- WAKE_N_FALL (R75): the edge is latched in the always-on domain with the chains that are parked, and acted on once the chains' function is
ready. -/
def execWakeNFall (s : State) : Host.Outcome State Fault Refusal :=
  let s1 : State :=
    if !s.time.powered then s
    else if s.boot.nvmLoaded then
      { s with boot := { s.boot with wakeSet := s.boot.wakeSet ++ (parkedChains s).filter (fun c => !s.boot.wakeSet.contains c) } }
    else { s with boot := { s.boot with wakeLatch := true } }
  .next (if s.up then actOnWake s1 else s1)

end Sys2Proof.Machine
end

