-- ==== Sys2Proof/Machine/Frames.lean ====
section
/-! DEFINITION. The frames the device sends: what is latched for them at a pick boundary, and the chain frame header and the parts of the
down lane frame as they stand on the line (R40 to R42, R57, R64, R83, R86, R87). -/

namespace Sys2Proof.Machine

/-! ### What a boundary latches -/

/-- `FLAGS` of a frame without `DIR` (R41): `ENUM` in the four enumeration picks, `WRAP`, `PARK` in the 16 picks of the notice, `SPO_ALL`, the
validity of the two requests of port A, `UNWRAP` in the frame before the boundary of R69. -/
def frameFlags (x : Chain) (frame : Nat) : Nat :=
  let enum := x.proc.elim false (fun p => p.counted.isNone && decide (p.enumEnd ≤ frame + 3) && decide (frame ≤ p.enumEnd))
  let park := x.parkAt.elim false (fun a => decide (a.1 ≤ frame + 16))
  let unwrap := x.unwrapAt.elim false (fun a => a.1 == frame + 1)
  b2n enum * 2 ^ 15 + b2n (x.mode == .wrap) * 2 ^ 14 + b2n park * 2 ^ 13 + b2n x.spoAll * 2 ^ 12 + b2n unwrap * 2 ^ 9

/-- Latch the frame of a chain: `CCMD` stands in one down frame only (R86). -/
def latchFrame (c : Nat) (s : State) : State :=
  let frame := inForce s c - 1
  modChain c (fun x =>
    { x with
      ccmd := 0, ccmdSent := if x.ccmd = 0 then x.ccmdSent else some (x.ccmd, frame)
      tx := { frame := frame, epoch := s.pair.epoch % 2 ^ 16, flags := frameFlags x frame, ccmd := x.ccmd, rsndA := x.asked, rsndB := x.askedB } }) s

/-- Latch every chain's frame. -/
def latchFrames (s : State) : State := forEach (s.line.chains.map (·.1)) s latchFrame

/-- Request words that fit: at most n of them, asking for at most `room` blocks, oldest request first (R87, R94). -/
def fitRequests : Nat → Nat → List LaneReq → List LaneReq
  | 0, _, _ => []
  | _, _, [] => []
  | n + 1, room, q :: r =>
    let cost := if q.slot.isSome then 1 else 8
    if cost ≤ room then q :: fitRequests n (room - cost) r else []

/-- The blocks that a request word asks for (R87, R90). -/
def blocksOf (q : LaneReq) : List LaneReq :=
  match q.slot with
  | some _ => [q]
  | none => (List.range 8).map fun i => { q with slot := some i }

/-- The requests of a bridge's down frame (R94): none more than 32 picks old, no more than 64 blocks outstanding, and none for a pick that has
become final (R115). -/
def sendRequests (now : Nat) (x : Bridge) : Bridge :=
  let live := x.asked.filter (fun q => decide (now < q.pick + 63))
  let young := x.waiting.filter (fun q => decide (now ≤ q.pick + 32))
  let new := fitRequests 8 (64 - live.length) young
  { x with asked := live ++ new.flatMap blocksOf, waiting := young.drop new.length, reqTx := new }

/-- Assemble the request words of every bridge that is reached; every path carries the same (R98). -/
def sendAllRequests (s : State) : State :=
  let ask (pl : Nat) (x : Bridge) : Bridge := if reached s pl then sendRequests s.spc x else { x with reqTx := [] }
  let s1 : State := { s with lane := { s.lane with bridges := tmap s.lane.bridges ask } }
  let count (l : Nat) (x : Lane) : Lane :=
    if decide (l < 128) && hasPath s1 l then { x with reqSent := sat32 (x.reqSent + (bridgeOf s1 (placeLane s1 l)).reqTx.length) } else x
  { s1 with lane := { s1.lane with lanes := tmap s1.lane.lanes count } }

/-! ### The chain frame (R40 to R42, R64) -/

/-- A field of `len` bits appended to a frame that is being put together, first transmitted bit first. -/
def put (x : Nat) (len v : Nat) : Nat := x * 2 ^ len + v % 2 ^ len

/-- Down-selvedge bit of slot i in a frame (R57). -/
def dselvBit (s : State) (c frame i : Nat) : Bool :=
  (chainOf s c).occ.contains i && flagOf (posOf s (c * 8 + i)).downMsg (frame % 512)

/-- `DSELV[7:0]`. -/
def dselvOf (s : State) (c frame : Nat) : Nat := ((List.range 8).map fun i => if dselvBit s c frame i then 2 ^ i else 0).sum

/-- A request: slot, and the age that names its frame (R41). -/
def rsndField (frame : Nat) (q : Option (Nat × Nat)) : Nat := q.elim 0 (fun q => q.2 * 2 ^ 5 + (frame - 1 - q.1) % 2 ^ 5)

/-- The header of the frame of a chain as port A, or in wrap mode port B, sends it; `HOP` is 0 at the sending port. -/
def chainHeader (s : State) (c : Nat) (portB : Bool) : BitVec 128 :=
  let t := (chainOf s c).tx
  let q := if portB then t.rsndB else t.rsndA
  let flags := t.flags + b2n (!q.isEmpty) * 2 ^ 11 + b2n (decide (2 ≤ q.length)) * 2 ^ 10 + b2n portB * 2 ^ 8
  let ref := (if isLocal c then 0xFF else laneOfChain c) * 2 ^ 8 + ringOfChain c
  BitVec.ofNat 128 (put (put (put (put (put (put (put (put (put 0 32 t.frame) 16 t.epoch) 16 flags) 8 (dselvOf s c t.frame)) 8 0) 16 ref)
    8 (rsndField t.frame q[0]?)) 8 (rsndField t.frame q[1]?)) 16 0)

/-- Command word of a slot: the tag's, and no operation where no tag stands or none was assembled. -/
def slotWord (s : State) (c i : Nat) : Word :=
  let x := (posOf s (c * 8 + i)).posted
  if (chainOf s c).occ.contains i && x.wordPick == (chainOf s c).tx.frame then x.word else noopWord

/-- `CMD[0]` to `CMD[7]`. -/
def chainCmds (s : State) (c : Nat) : BitVec 256 := BitVec.ofNat 256 ((List.range 8).foldl (fun a i => put a 32 (slotWord s c i).toNat) 0)

/-- An `EMPTY` block: zero payload and a valid `BCRC` (R44). -/
def emptyBlock : BitVec 544 :=
  let h := 7 * 2 ^ 524
  BitVec.ofNat 544 (h * 2 ^ 16 + crcBits 16 0x1021 0xFFFF (bitsMsb 528 h))

/-- The frame a local ring's port sends in the running pick. In normal mode port A alone sends, with every block position and both resend
positions `EMPTY` (R40). In wrap mode a port sends the command phase, and the check word in the place of `FCRC` (R64). -/
def chainFrameSent (s : State) (r : Nat) (portB : Bool) : Option ChainFrame :=
  let c := chainKey 0xFF r
  let x := chainOf s c
  let wrap := x.mode == .wrap
  if powered x && (if portB then x.carrierB && wrap else x.carrierA) then
    let h := chainHeader s c portB
    let cmds := chainCmds s c
    some
      { chain := c, portB := portB, syncWord := 0xF6281D4B, header := h, cmds := cmds
        fcrc := BitVec.ofNat 32 (crc32c (fieldBytes h ++ fieldBytes cmds))
        blocks := if wrap then [] else List.replicate 8 emptyBlock, xblks := if wrap then [] else List.replicate 2 emptyBlock }
  else none

/-- The 6,144 bits of a normal-mode frame, bit 0 the most significant (R40): `SYNC`, header, command words, eight blocks, `FCRC`, two resend
blocks and the guard. -/
def frameBits (f : ChainFrame) : BitVec 6144 :=
  let head := put (put (put 0 32 f.syncWord.toNat) 128 f.header.toNat) 256 f.cmds.toNat
  let live := (List.range 8).foldl (fun a i => put a 544 (f.blocks.getD i emptyBlock).toNat) head
  let resent := (List.range 2).foldl (fun a i => put a 544 (f.xblks.getD i emptyBlock).toNat) (put live 32 f.fcrc.toNat)
  BitVec.ofNat 6144 (put resent 256 0)

/-- The bits that a port drives in wrap mode, bit 0 the most significant: the command phase and the check word that begins the turnaround
(R64). -/
def wrapBits (f : ChainFrame) : BitVec 448 :=
  BitVec.ofNat 448 (put (put (put (put 0 32 f.syncWord.toNat) 128 f.header.toNat) 256 f.cmds.toNat) 32 f.fcrc.toNat)

/-! ### The down lane frame (R83, R86, R87) -/

/-- A lane header with its check (R83): the pick, `EPOCH`, `SRC_UID`, `LTYPE`, the byte of flags, `LANE_REF`, `ECHO` and `TURN`. -/
def makeHeader (pick epoch uid ltype flags ref echo turn : Nat) : BitVec 256 :=
  let h := put (put (put (put (put (put (put (put 0 32 pick) 32 epoch) 64 uid) 8 ltype) 8 flags) 8 ref) 16 echo) 24 turn
  BitVec.ofNat 256 (put (put 0x3C5A96E1 192 h) 32 (crc32c (fieldBytes (BitVec.ofNat 192 h))))

/-- The header of a down lane frame. `EPOCH` is the proposed epoch while the lane is being claimed (R424). -/
def laneHeader (s : State) (l : Nat) : BitVec 256 :=
  makeHeader (s.spc + 2) (laneEpoch s l (s.spc + 2)) s.otp.dieUid.toNat 2 (b2n (!commands s l (s.spc + 2)) * 2 ^ 3) (placeLane s l) (Config.echoSeq (s.spc + 2)).toNat 0

/-- The header of a frame that this device originates on a twin lane (R83). -/
def twinLaneHeader (s : State) (ltype : Nat) : BitVec 256 := makeHeader s.spc s.pair.epoch s.otp.dieUid.toNat ltype 0 0 (Config.echoSeq s.spc).toNat 0

/-- Bytes of zeros. -/
def zeroBytes (n : Nat) : List Nat := List.replicate n 0

/-- The training words of a lane end (R224): `INIT`, `RX_DONE`, `TAP_REQ`, `BAND` and `TAP_STS`, frame bits 256 to 319. -/
def trainingWord (x : Training) (band : Nat) : BitVec 64 :=
  let taps (l : List Nat) (a : Nat) : Nat := (List.range 5).foldl (fun a i => put a 2 (l.getD i 0)) a
  BitVec.ofNat 64 (taps x.sts (put (put (put (taps x.req (put (put (put 0 1 (b2n x.init)) 1 (b2n x.done)) 20 0)) 2 0) 2 band) 18 0))

/-- The training frame of a lane in its adapt phase. -/
def trainingFrame (s : State) (l : Nat) : TrainingFrame :=
  let w := trainingWord (laneOf s l).train (laneOf s l).band
  { lane := l, word := w, header := makeHeader s.spc s.pair.epoch s.otp.dieUid.toNat 6 0 (if isTwin l then 0 else placeLane s l) (Config.echoSeq s.spc).toNat 0
    tcrc := BitVec.ofNat 32 (crc32c (fieldBytes w ++ zeroBytes 135406)) }

/-- Every lane in its adapt phase sends a training frame; `INIT` stands in the first one. -/
def sendTraining (s : State) : State :=
  let ls := tkeys s.lane.lanes (fun _ x => x.lstate == .adapt)
  { s with
    out := { s.out with training := ls.map (trainingFrame s) ++ s.out.training }
    lane := { s.lane with lanes := tmap s.lane.lanes fun _ x => if x.lstate == .adapt then { x with train := { x.train with init := false, req := [] } } else x } }

/-- The alignment marker before the lane frame of a pick (R79). -/
def markerSent (pick : Nat) : BitVec 560 :=
  let p := 0xC16A0F3D5E92B7A4
  let pat := put (put (put (put 0 64 p) 64 p) 64 (2 ^ 64 - 1 - p)) 64 (2 ^ 64 - 1 - p)
  let body := put (put 0 32 pick) 240 0
  BitVec.ofNat 560 (put (put pat 272 body) 32 (crc32c (fieldBytes (BitVec.ofNat 272 body))))

/-- Down sub-block of a chain: the control header with `DCRC`, then the command words. -/
def downSub (s : State) (c : Nat) : BitVec 320 :=
  let t := (chainOf s c).tx
  let h := put (put (put (put (put 0 8 (ringOfChain c)) 8 (dselvOf s c t.frame)) 8 t.ccmd) 1 (t.flags / 2 ^ 12)) 7 0
  let cmds := (chainCmds s c).toNat
  let crc := crc32c (fieldBytes (BitVec.ofNat 288 (put h 256 cmds)))
  BitVec.ofNat 320 (put (put h 32 crc) 256 cmds)

/-- A request word. -/
def requestWord (q : LaneReq) : BitVec 64 :=
  BitVec.ofNat 64 (put (put (put (put (put (put 0 1 1) 1 (b2n q.slot.isNone)) 3 (q.slot.getD 0)) 8 (ringOfChain q.chain)) 19 0) 32 q.pick)

/-- `TCRC` of a down frame: over the request words, both lease records and the fill (R86). -/
def downCheck (requests : List (BitVec 64)) (lease0 lease1 : BitVec 128) : BitVec 32 :=
  BitVec.ofNat 32 (crc32c (requests.flatMap fieldBytes ++ zeroBytes (64 - 8 * requests.length) ++ fieldBytes lease0 ++ fieldBytes lease1
    ++ zeroBytes 125078))

/-- The down frame of a bridge lane in the running pick (R81, R86), over its own lane or over the twin (R99): without command content where the
lane is not commanded (R427). -/
def downFrameSent (s : State) (l : Nat) : Option DownFrame :=
  let pl := placeLane s l
  let requests := (bridgeOf s pl).reqTx.map requestWord
  let lease := tgetD s.pair.leaseTx l 0
  if !isTwin l && hasPath s l then
    some
      { lane := l, header := laneHeader s l
        subs := (List.range 256).map fun c => if commands s l (s.spc + 2) then downSub s (chainKey pl c) else 0
        requests := requests, lease0 := lease, tcrc := downCheck requests lease 0 }
  else none

/-! ### Backfill (R84, R100) -/

/-- `CSTATE` of a chain. -/
def chainCode (x : Chain) : Nat :=
  if x.hopFault then 5
  else if x.proc.isSome then 4
  else match x.mode with
    | .normal => 0
    | .wrap => 1
    | .parked => 2
    | .unpowered => 3

/-- The stripped block of a slot for a data pick, from the bolt: `VOID` where no tag stands, `GAP` where the bolt holds no data. The bolt keeps
neither `USELV` nor `CMD_ERR`, which are 0. -/
def backfillBlock (s : State) (c i d : Nat) : BitVec 520 :=
  if !(chainOf s c).occ.contains i then BitVec.ofNat 520 (2 * 2 ^ 517)
  else match (boltAt s (c * 8 + i) d).filter (fun e => e.bstate == .live) with
    | some e =>
      let flags := b2n e.ovr * 2 ^ 4 + b2n e.pwrLow * 2 ^ 3 + b2n e.fault * 2 + b2n e.incChg
      BitVec.ofNat 520 (put flags 512 e.payload.toNat)
    | none => BitVec.ofNat 520 (3 * 2 ^ 517)

/-- The sub-block of a chain, rebuilt for chain frame `fp`. -/
def backfillSubOf (s : State) (c fp : Nat) : SubBlock :=
  let x := chainOf s c
  let occ := (x.occ.map fun i => 2 ^ i).sum
  let h := put (put (put (put (put 0 8 (ringOfChain c)) 3 (chainCode x)) 8 occ) 4 (x.brk.getD 15)) 9 0
  let blocks := (List.range 8).map fun i => backfillBlock s c i (fp - 1)
  { place := ringOfChain c, header := BitVec.ofNat 64 (put h 32 (crc32c (fieldBytes (BitVec.ofNat 32 h) ++ blocks.flatMap fieldBytes))), blocks := blocks }

/-- The backfill frame of an own lane for chain frame `fp`: the remainder area is zero apart from `TCRC`. -/
def backfillFrame (s : State) (l fp : Nat) : UpFrame :=
  { lane := l, header := makeHeader fp s.pair.epoch s.otp.dieUid.toNat 4 0 (placeLane s l) 0 0
    subs := (tkeys s.line.chains (fun c _ => laneOfChain c == placeLane s l)).map (fun c => backfillSubOf s c fp)
    entries := [0, 0], tcrc := BitVec.ofNat 32 (crc32c (zeroBytes 246)) }

/-- Send one backfill frame per pick on each twin lane that the twin has asked it on, oldest request first (R101). -/
def sendBackfill (s : State) : State :=
  let runs (k : Nat) : Bool := (laneOf s (0x100 + k)).lstate == .run
  let due := (List.range 8).filterMap fun k => if runs k then s.lane.backfills.find? (fun b => b.tl == k) else none
  let step (b : Backfill) : Option Backfill :=
    if !due.contains b then some b else if b.left ≤ 1 then none else some { b with pick := b.pick + 1, left := b.left - 1 }
  { s with
    lane := { s.lane with backfills := s.lane.backfills.filterMap step }
    out := { s.out with forwarded := due.map (fun b => (b.tl, backfillFrame s b.lane b.pick)) ++ s.out.forwarded } }

/-! ### Twin control frames (R100, R101, R423) -/

/-- Working twin lanes, highest number first: the first carries control, the second backfill, and the rest below TL6 forward (R101). -/
def workingTwins (s : State) : List Nat := (List.range 8).reverse.filter (fun k => (laneOf s (0x100 + k)).lstate == .run)

/-- Code of a message kind. -/
def pairCode : PairKind → Nat
  | .heartbeat => 1
  | .mirror => 2
  | .mirrorAck => 3
  | .seqState => 4
  | .safeState => 5
  | .demand => 6
  | .yield => 7
  | .handover => 8
  | .resync => 9
  | .image => 10
  | .localFault => 11

/-- The bytes of a pair-channel message: header, then body words (R423). -/
def messageBytes (m : PairOut) : List Nat :=
  let h := put (put (put 0 8 (pairCode m.kind)) 24 m.body.length) 32 m.mseq
  fieldBytes (BitVec.ofNat 64 h) ++ m.body.flatMap (fun w => fieldBytes (wd w))

/-- The control frame that goes out at a boundary: up to eight forwarding-control words, then a heartbeat and the messages sent since the
boundary before. A `PAD` is a header of zeros, as is the rest of the channel. -/
def controlFrame (s : State) (tl : Nat) (words : List (BitVec 64)) (beat : PairOut) : ControlFrame :=
  let msgs := beat :: (s.pair.unacked.filter (fun m => m.sent + 1 == s.spc)).map (·.msg)
  let bytes := words.flatMap fieldBytes ++ zeroBytes (64 - 8 * words.length) ++ msgs.flatMap messageBytes
  { tl := tl, header := twinLaneHeader s 5, words := words, msgs := msgs
    tcrc := BitVec.ofNat 32 (crc32c (bytes ++ zeroBytes (135414 - bytes.length))) }

end Sys2Proof.Machine
end

