-- ==== Sys2Proof/Machine/Lanes.lean ====
section
/-! DEFINITION. The rows of bridge lanes and twin lanes (chapter 03) and the LANE commands (R402). -/

namespace Sys2Proof.Machine

/-- Chains with tags behind a lane field. -/
def chainsOfLane (s : State) (pl : Nat) : List Nat := tkeys s.line.chains (fun c _ => laneOfChain c == pl)

/-- A lane event: chains of the receiving function affected (R370). -/
def laneEvent (l kind : Nat) (s : State) : State := unitEvent (laneSource l) kind (chainsOfLane s (placeLane s l)) s

/-! ### Up frames -/

/-- CRC-32C over whole bytes of a field from bit `off`. -/
def crcSpan {n : Nat} (x : BitVec n) (off len : Nat) : List Nat := (List.range (len / 8)).map (fun i => fieldOf x (off + 8 * i) 8)

/-- The lane header checks: `LSYNC`, `LHCRC`, and the `LTYPE` expected (R83). -/
def headerOk (h : BitVec 256) (ltype : Nat) : Bool :=
  fieldOf h 0 32 == 0x3C5A96E1 && fieldOf h 160 8 == ltype && fieldOf h 224 32 == crc32c (crcSpan h 32 192)

/-- `SBCRC` of a sub-block (R84). -/
def subOk (b : SubBlock) : Bool :=
  b.blocks.length == 8 && fieldOf b.header 32 32 == crc32c (crcSpan b.header 0 32 ++ b.blocks.flatMap fieldBytes)

/-- The remainder area checks: `TCRC` over lease record, status page, both resend entries and the reserved bits (R82). -/
def tailOk (f : UpFrame) : Bool :=
  f.entries.length == 2
    && f.tcrc.toNat == crc32c (fieldBytes f.lease ++ fieldBytes f.page ++ f.entries.flatMap fieldBytes ++ zeroBytes 48)

/-- `AMCRC` of an alignment marker (R79). -/
def amOk (m : BitVec 560) : Bool := fieldOf m 528 32 == crc32c (crcSpan m 256 272)

/-- Take a marker: lock after 2 consecutive ones that check, lock lost after 3 consecutive ones that fail (R79). -/
def noteMarker (m : BitVec 560) (now : Nat) (x : Lane) : Lane :=
  if amOk m then
    { x with marks := min 2 (x.marks + 1), markBad := 0, spanOk := true, spanPick := extend (fieldOf m 256 32) now
             marker := x.marker || decide (2 ≤ x.marks + 1) }
  else { x with marks := 0, markBad := x.markBad + 1, spanOk := false, marker := x.marker && decide (x.markBad + 1 < 3) }

/-- The bolt entry of a stripped tag block (R84). -/
def strippedEntry (d : Nat) (b : BitVec 520) (st : BState) (filled mute : Bool) (raw : Bool := false) : BoltEntry :=
  { pick := d, payload := BitVec.ofNat 512 (fieldOf b 8 512), bstate := st, filled := filled
    ovr := flagOf b 3, pwrLow := flagOf b 4, fault := flagOf b 6, incChg := flagOf b 7, mute := mute, raw := raw }

/-- A bridged position's block with `INC_CHG` begins another incarnation (R72, R84). -/
def bridgedIncarnation (fp p : Nat) (b : BitVec 520) (s : State) : State :=
  if flagOf b 7 && (posOf s p).known then newIncarnation fp p none s else s

/-- File one stripped block of chain frame `fp` (R57, R70, R72, R84, R94). A pick already held as live is left as it stands, and a pick held as
pending or as a gap is not counted again. -/
def fileStripped (fp p : Nat) (b : BitVec 520) (s : State) : State :=
  let st := fieldOf b 1 2
  let x := posOf s p
  let old := boltAt s p (fp - 1)
  let lack (e : BState) (s : State) : State :=
    if old.isSome then s
    else modPos p (fun x => { x with noLive := x.noLive + 1, gapPicks := if e = .gap then sat32 (x.gapPicks + 1) else x.gapPicks })
      (writeEntry p (strippedEntry (fp - 1) b e false (mutePick x) (rawPick x)) s)
  if old.any (fun e => e.bstate == .live) then s
  else if st = 0 then
    if x.state = .lost then modPos p (noteUselv fp (flagOf b 0)) s
    else
      let s1 := bridgedIncarnation fp p b s
      let s2 := modPos p (fun x =>
        { noteUselv fp (flagOf b 0) x with
          noLive := 0, livePicks := sat32 (x.livePicks + 1)
          fault := flagOf b 6, pwrLow := flagOf b 4, cmdErr := flagOf b 5 }) s1
      let y := posOf s2 p
      onBlock p (flagOf b 6) (writeEntry p (strippedEntry (fp - 1) b .live false (mutePick y) (rawPick y)) s2)
  else if x.state = .lost then s
  else if st = 1 then lack .pending s
  else if st = 3 then (if old.isSome then gapEntry p (fp - 1) s else lack .gap s)
  else s

/-- `CSTATE`, `OCC` and `BRK_HOP` of a chain header (R84): the bridge's report of a chain. The reserved code 0b110 is taken as normal operation
(DESIGN CHOICE, log 63). -/
def takeChainState (c : Nat) (h : BitVec 64) (s : State) : State :=
  let cs := fieldOf h 8 3
  let occ := (List.range 8).filter (fun i => fieldOf h (18 - i) 1 == 1)
  let brk := fieldOf h 19 4
  let x := chainOf s c
  if cs = 7 then s
  else if cs = 2 then
    match x.mode with
    | .parked => s
    | _ => forEach (occPosns s c) (stopChain .parked .parked c s) onSilent
  else if cs = 3 then
    match x.mode with
    | .unpowered => s
    | _ => forEach (occPosns s c) (stopChain .unpowered .unpowered c s) onSilent
  else if cs = 5 then
    if x.hopFault then s else
      let s1 := modChain c (fun x => { x with hopFault := true }) s
      ringEvent c 0x14 0 (forEach (occPosns s c) s1 (fun p s => onSilent p (modPos p (darken .hopFault s) s)))
  else
    let m : CMode := if cs = 1 then .wrap else .normal
    let s1 := modChain c (fun x =>
      { setMode m s x with
        brk := if brk = 15 then none else some brk
        hopFault := if cs = 4 then x.hopFault else false }) s
    let s2 := if cs = 1 && x.mode == .normal then ringEvent c 0x15 brk s1
      else if cs = 0 && x.mode == .wrap then ringEvent c 0x16 0 s1 else s1
    if cs = 4 || occ == x.occ then s2
    else
      let s3 := modChain c (fun x =>
        { x with
          occ := occ, tags := occ.length
          proc := x.proc.map (fun p => if p.counted.isSome then p else { p with counted := some s.spc, c := nextMult 512 (s.spc + 1) }) }) s2
      forEach occ s3 fun i s => modPos (c * 8 + i) (fun x =>
        if x.state = .released || x.state = .bringingUp then x
        else if x.state = .lost && x.kind != .none then x else darken .bringingUp s x) s

/-- File a sub-block that checked: state of the chain, then its eight blocks (R94). -/
def fileSub (fp c : Nat) (b : SubBlock) (s : State) : State :=
  let s1 := takeChainState c b.header s
  if fieldOf b.header 8 3 = 7 then s1
  else forEach b.blocks.zipIdx s1 (fun e s => fileStripped fp (c * 8 + e.2) e.1 s)

/-- Ask a bridge for a block or sub-block; the device never asks twice for one (R87, R94). -/
def requestBlock (q : LaneReq) (s : State) : State :=
  modBridge (laneOfChain q.chain) (fun x =>
    if x.waiting.contains q || (blocksOf q).all (fun b => x.asked.contains b) then x else { x with waiting := x.waiting ++ [q] }) s

/-- The partner of a lane in a lane pair. -/
def partnerLane (l : Nat) : Nat := if l % 2 = 0 then l + 1 else l - 1

/-- A lane of a lane pair whose partner runs: each sub-block comes twice (R98). -/
def twofold (s : State) (l : Nat) : Bool := (laneOf s l).mode == 1 && !isTwin l && (laneOf s (partnerLane l)).lstate == .run

/-- The lane is home to the chain: in a lane pair chains 0 to 127 are homed on the even lane and 128 to 255 on the odd one, and every chain on
the lane that is left when the other has failed (R96, R98). -/
def isHome (s : State) (l c : Nat) : Bool := !twofold s l || decide (ringOfChain c < 128) == (l % 2 == 0)

/-- Occupied positions of a chain have no block of a frame: their entries are `PENDING` (R94). -/
def markMissing (fp c : Nat) (s : State) : State :=
  forEach (occPosns s c) s fun p s =>
    if (boltAt s p (fp - 1)).isSome || (posOf s p).state == .lost then s
    else writeEntry p { pick := fp - 1, bstate := .pending, mute := mutePick (posOf s p), raw := rawPick (posOf s p) }
      (modPos p (fun x => { x with noLive := x.noLive + 1 }) s)

/-- Mark a sub-block missing and ask for it (R94). -/
def missSub (fp c : Nat) (s : State) : State :=
  if (occPosns s c).isEmpty then s else requestBlock { chain := c, slot := none, pick := fp } (markMissing fp c s)

/-- A sub-block of chain frame `fp` as one lane brings it, `none` when it failed or its frame did. A chain is filed from its home lane, and the
partner's copy is taken where that failed: whichever of the two comes first waits for the other. Only when both copies fail is the
sub-block asked for (R94, R98). -/
def takeSub (l fp c : Nat) (b : Option SubBlock) (s : State) : State :=
  let pl := laneOfChain c
  let copy := (bridgeOf s pl).copies.find? (fun x => x.1 == fp && x.2.1 == c)
  if isHome s l c then
    match b, copy with
    | some b, _ => fileSub fp c b s
    | none, some (_, _, some b) => fileSub fp c b s
    | none, some (_, _, none) => missSub fp c s
    | none, none =>
      if twofold s l then modBridge pl (fun x => { x with absent_ := x.absent_ ++ [(fp, c)] }) (markMissing fp c s) else missSub fp c s
  else if (bridgeOf s pl).absent_.contains (fp, c) then
    let s1 := modBridge pl (fun x => { x with absent_ := x.absent_.filter (· != (fp, c)) }) s
    match b with
    | some b => fileSub fp c b s1
    | none => missSub fp c s1
  else modBridge pl (fun x => { x with copies := x.copies.filter (fun y => decide (fp < y.1 + 2)) ++ [(fp, c, b)] }) s

/-- The chains behind a lane, by the lane field of its bridge. -/
def chainsBehind (s : State) (l : Nat) : List Nat := (chainsOfLane s (placeLane s l)).filter (fun c => powered (chainOf s c))

/-- A whole frame of a lane did not arrive (R94, R97). -/
def missFrame (l fp : Nat) (s : State) : State := forEach (chainsBehind s l) s (fun c s => takeSub l fp c none s)

/-- Frames between the last one held and the one that arrives did not arrive; those too old to be asked for are left out. -/
def missFrames (l fp : Nat) (s : State) : State :=
  let first := max ((laneOf s l).lastPick + 1) (s.spc - 32)
  forEach ((List.range (fp - first)).map (first + ·)) s (missFrame l)

/-- A resend entry (R85, R94): a late fill or answer fills its pick, a `GAP_FINAL` makes it a gap. In a lane pair both lanes bring it, and the
second is left. The block restores its `USELV` bit (R57). -/
def fileEntry (l : Nat) (e : BitVec 600) (s : State) : State :=
  if fieldOf e 568 32 != crc32c (crcSpan e 0 568) then s
  else
    match extend (fieldOf e 0 32) s.spc with
    | none => s
    | some fp =>
      let pl := placeLane s l
      let c := chainKey pl (fieldOf e 32 8)
      let i := fieldOf e 40 3
      let p := c * 8 + i
      let t := fieldOf e 43 2
      let done := modBridge pl (fun x => { x with asked := x.asked.filter (fun q => !(q.pick == fp && q.chain == c && q.slot == some i)) })
      if t = 1 || t = 2 then
        let b : BitVec 520 := BitVec.ofNat 520 (fieldOf e 48 520)
        let s1 := if t = 2 then done s else s
        if fieldOf b 1 2 != 0 || (posOf s p).state == .lost || (twofold s l && (boltAt s p (fp - 1)).any (·.filled)) then s1
        else fillEntry p (strippedEntry (fp - 1) b .live true false) (modPos p (noteUselv fp (flagOf b 0)) s1)
      else if t = 3 then gapEntry p (fp - 1) (done s)
      else s

/-- Position delay of a bridged tag in 0.1 ns: the lane part and the chain part, the latter in 1/16 chain bit times of 0.101725 ns (R18, R93). -/
def bridgedDelay (base part : Nat) : Nat := base + part * 1000000 / 983040

/-- Give a bridge the lane part of the delays behind it, and every position behind it its delay (R18). -/
def setBase (pl base : Nat) (s : State) : State :=
  forEach (chainsOfLane s pl) (modBridge pl (fun x => { x with base := base }) s) fun c s =>
    modOcc c (fun x => setDelay s.spc (bridgedDelay base x.part) x) s

/-- The uplink from which the bridge takes its timing gives the lane part of the delays. When the bridge moves to another uplink because the
former has failed, it keeps its pick phase, and the delays stand (R88). -/
def noteTiming (l : Nat) (s : State) : State :=
  let pl := placeLane s l
  let b := bridgeOf s pl
  if !(laneOf s l).timing || b.timing == some l then s
  else
    let kept := b.timing.elim false (fun t => (laneOf s t).lstate != .run)
    let s1 := modBridge pl (fun x => { x with timing := some l }) s
    if kept then s1 else setBase pl (laneOf s l).delay s1

/-- A status page (R93): held for `BRIDGE.STATUS`; a chain's page gives delays, counters and powers. -/
def takePage (l : Nat) (g : BitVec 256) (s : State) : State :=
  let n := fieldOf g 0 16
  let pl := placeLane s l
  if 0x0103 < n then s
  else
    let s1 := modLane l (fun x => { x with pages := tset x.pages n g }) s
    if 0x00FF < n then s1
    else
      let c := chainKey pl n
      let base := (bridgeOf s pl).base
      let s2 := modChain c (fun x =>
        { x with
          split := fieldOf g 112 4
          fcrcErr := fieldOf g 176 16, pwrA := fieldOf g 192 16, pwrB := fieldOf g 208 16 }) s1
      forEach (occPosns s c) s2 (fun p s => modPos p (fun x =>
        let part := fieldOf g (16 + 12 * slotOf p) 12
        { setDelay s.spc (bridgedDelay base part) x with part := part }) s)

/-- Count codewords: uncorrectable ones of the last 1,000 picks one by one, and both kinds by the second (R95, R103, R503). -/
def noteCodewords (corr unc now : Nat) (x : Lane) : Lane :=
  let ended := decide (x.secFrom + 100000 ≤ now)
  { x with
    uncs := (if unc = 0 then [] else [(now, unc)]) ++ x.uncs.filter (fun e => decide (now < e.1 + 1000))
    corrected := if ended then x.secCorr else x.corrected, uncorrected := if ended then x.secUnc else x.uncorrected
    secCorr := if ended then corr else x.secCorr + corr, secUnc := if ended then unc else x.secUnc + unc
    secFrom := if ended then now else x.secFrom }

/-- Take the figures of the shadow sampler (R103). -/
def takeFigures (f : LaneFigures) (x : Lane) : Lane := { x with eyeW := f.eyeW, eyeH := f.eyeH, ber := f.ber, berBits := f.berBits }

/-- What a lane end makes of a frame before its content: marker, codewords, figures, and the header where it checks (R79, R83, R95). -/
def noteUpFrame (good : Bool) (f : UpFrame) (now : Nat) (x : Lane) : Lane :=
  let y := noteCodewords f.corrected f.uncorrectable now (f.marker.elim x (fun m => noteMarker m now x))
  let z := f.figures.elim y (fun m => takeFigures m y)
  let bad := if good || f.subs.any subOk then 0 else z.badFrames + 1
  if good then
    { z with
      badFrames := bad
      peerUid := fieldOf f.header 96 64, epoch := fieldOf f.header 64 32, stale := flagOf f.header 171
      uplink := fieldOf f.header 168 1, timing := flagOf f.header 169, laneRef := fieldOf f.header 176 8
      echo := fieldOf f.header 184 16, turn := fieldOf f.header 200 24 }
  else { z with badFrames := bad, lhcrcErr := sat32 (z.lhcrcErr + 1) }

/-- File a frame that holds chain frame `fp` (R94). -/
def fileFrame (l fp : Nat) (f : UpFrame) (s : State) : State :=
  let pl := placeLane s l
  let held := headerOk f.header (fieldOf f.header 160 8) || f.subs.any subOk
  let s1 := modLane l (fun x =>
    { x with
      lastPick := fp, heldPick := if held then fp else x.heldPick, heldAt := if held then s.spc else x.heldAt
      sbcrcErr := sat32 (x.sbcrcErr + (f.subs.filter (fun b => !subOk b)).length) }) s
  let s2 := forEach f.subs s1 (fun b s => takeSub l fp (chainKey pl b.place) (if subOk b then some b else none) s)
  if tailOk f then takePage l f.page (startUncopied (takeLease l f.lease (forEach f.entries s2 (fileEntry l)))) else s2

/-- Receive an up frame of a lane, its own or forwarded (R94, R95, R97, R100). A frame whose header fails inside a span whose marker checked
holds the pick after the last; outside such a span it is lost whole. One whose pick is at the distance of ST_GAP is discarded (R24). -/
def receiveUp (l ltype : Nat) (f : UpFrame) (s : State) : State :=
  let good := headerOk f.header ltype
  let s1 := modLane l (noteUpFrame good f s.spc) s
  let next := (laneOf s1 l).lastPick + 1
  if good then
    match extend (fieldOf f.header 32 32) s.spc with
    | none => s1
    | some fp => fileFrame l fp f (missFrames l fp (hearEpoch (fieldOf f.header 64 32) (flagOf f.header 171) (noteTiming l s1)))
  else if (laneOf s1 l).spanOk then fileFrame l next f s1
  else missFrame l next (modLane l (fun x => { x with lastPick := next }) s1)

/-- The header of a frame that a twin lane carries: `LTYPE` rewritten and `LHCRC` made again (R100). -/
def twinHeader (ltype : Nat) (h : BitVec 256) : BitVec 256 :=
  let h1 := BitVec.ofNat 256 ((fieldOf h 0 160 * 2 ^ 8 + ltype) * 2 ^ 88 + fieldOf h 168 56 * 2 ^ 32)
  BitVec.ofNat 256 (h1.toNat + crc32c (crcSpan h1 32 192))

/-- Forward a bridge's up frame that checks over the twin lanes that the twin has asked for (R99, R100). -/
def forwardUp (f : UpFrame) (s : State) : State :=
  let tls := (tkeys s.lane.uses (fun k u => k % 4 == 1 && u == .forward f.lane)).map (· / 4)
  if headerOk f.header 1 then
    { s with out := { s.out with forwarded := tls.map (fun tl => (tl, { f with header := twinHeader 3 f.header })) ++ s.out.forwarded } }
  else s

/-- Transmit FIR presets by band (R223). -/
def presetTaps (band : Nat) : List Int :=
  match band with
  | 0 => [0, -4, 54, -6, 0]
  | 1 => [0, -4, 53, -7, 0]
  | 2 => [0, -5, 51, -8, 0]
  | _ => [0, -5, 50, -9, 0]

/-- Ranges of the transmit taps (R222). -/
def tapRange (i : Nat) : Int × Int := [(-8, 0), (-16, 0), (32, 64), (-24, 0), (-8, 0)].getD i (0, 0)

/-- Preset plus offsets within the ranges of the taps, c0 lowered by what takes the sum of magnitudes above 64 (R222, R223). -/
def bandTaps (band : Nat) (offsets : List Int) : List Int :=
  let l := (presetTaps band).zipIdx.map fun t => clampI (tapRange t.2).1 (tapRange t.2).2 (t.1 + offsets.getD t.2 0)
  let sum := (l.map Int.natAbs).sum
  l.set 2 (l.getD 2 0 - (sum - 64 : Nat))

/-- A receiver setting within its range: DFE tap 1, taps 2 to 16 (R222). -/
def dfeTap (i : Nat) (v : Int) : Int := if i = 0 then clampI (-127) 127 v else clampI (-63) 63 v

/-- One step of a transmit tap that the other end asks for (R222, R224): 1 increments, 2 decrements. Answers the taps and the status: 1
updated, 2 at the limit, 0 not updated. -/
def requestTap (taps : List Int) (i req : Nat) : List Int × Nat :=
  let v := geti taps i + (if req = 1 then 1 else -1)
  let new := taps.set i v
  if req ≠ 1 ∧ req ≠ 2 then (taps, 0)
  else if v < (tapRange i).1 ∨ (tapRange i).2 < v ∨ 64 < (new.map Int.natAbs).sum then (taps, 2)
  else (new, 1)

/-- Take the training words of the other end (R224). -/
def takeTraining (w : BitVec 64) (x : Lane) : Lane :=
  let start := if flagOf w 0 then bandTaps x.band [] else x.set.taps
  let r := (List.range 5).foldl (fun (a : List Int × List Nat) i =>
    let y := requestTap a.1 i (fieldOf w (22 + 2 * i) 2)
    (y.1, a.2 ++ [y.2])) (start, [])
  { x with
    set := { x.set with taps := r.1 }
    train := { x.train with
      sts := r.2, peerDone := flagOf w 1, peerBand := fieldOf w 34 2, peerSts := (List.range 5).map (fun i => fieldOf w (54 + 2 * i) 2) } }

/-- The settings that adaptation reached: the taps' offsets from the preset, and the settings that service starts from (R222 to R224). -/
def adapted (x : Lane) : Lane :=
  { x with offsets := (List.range 5).map (fun i => geti x.set.taps i - geti (presetTaps x.band) i), target := x.set, back := false }

/-- UP_LANE_FRAME_RX (R94, R100, R224): a training frame in the adapt phase of a lane, else an up frame of a bridge lane. -/
def execUpLaneFrameRx (f : UpFrame) (s : State) : Host.Outcome State Fault Refusal :=
  onObject (laneExists s f.lane && (!isTwin f.lane || fieldOf f.header 160 8 == 6))
    (if s.up && (laneOf s f.lane).lstate == .adapt && headerOk f.header 6 then modLane f.lane (takeTraining f.training) s
    else if s.up && (laneOf s f.lane).lstate == .run && !isTwin f.lane then forwardUp f (receiveUp f.lane 1 f s) else s)

/-- PICK_FINAL_GAP (R115): at boundary p + 64 every entry of pick p that is still `PENDING` becomes `GAP`. -/
def execPickFinalGap (pick : Nat) (s : State) : Host.Outcome State Fault Refusal :=
  .next (if s.up && decide (pick + 64 ≤ s.spc) then
    forEach (tkeys s.line.chains (fun _ x => powered x)) s
      (fun c s => forEach (occPosns s c) s (fun p s => gapEntry p pick s))
  else s)

/-! ### Failure and failover -/

/-- The twin lanes that forward: the working ones but for the two that carry control and backfill, and never TL6 or TL7 (R101). -/
def poolTwins (s : State) : List Nat := ((workingTwins s).drop 2).filter (fun k => decide (k < 6))

/-- A free twin lane of the forwarding pool. -/
def freeTwin (s : State) : Option Nat :=
  (poolTwins s).reverse.find? fun k => !s.lane.forwarded.any (fun e => e.2 == k) && !s.lane.uses.any (fun e => e.1 / 4 == k)

/-- A forwarding-control word (R100). -/
def controlWord (op tl lane count pick : Nat) : BitVec 64 :=
  BitVec.ofNat 64 ((((2 ^ 2 + op) * 2 ^ 3 + tl) * 2 ^ 8 + lane) * 2 ^ 50 + count * 2 ^ 32 + pick % 2 ^ 32)

/-- Lane number that the twin gives a bridge, from the pair's map. -/
def twinLaneOf (s : State) (l : Nat) : Nat := tgetD s.lane.twinMap l l

/-- The pair event of an uplink that the forwarding pool cannot cover: R101 names no kind for it, so the kind is a free value
(log 6). -/
def excessUplink (l : Nat) (s : State) : State := raiseNow 0x60B Config.excessKind l s

/-- Ask the twin to forward a lane's up frames, relay its down frames and backfill the frames missed, up to the last one due before the
first forwarded frame (R99, R100). -/
def forwardLane (l tl : Nat) (s : State) : State :=
  let peer := twinLaneOf s l
  let x := laneOf s l
  let count := s.spc + 2 - x.heldAt
  let fill := (workingTwins s)[1]?.toList.map fun k => controlWord 3 k peer count (x.heldPick + 1)
  modLane l (fun x => { x with lastPick := x.heldPick + count })
    { s with lane := { s.lane with
        forwarded := tset s.lane.forwarded l tl
        words := s.lane.words ++ [controlWord 1 tl peer 0 0, controlWord 2 tl peer 0 0] ++ fill } }

/-- A failed twin lane: its uses end, and lanes that it forwarded, or that the lane now carrying control or backfill did, move to another of the
pool (R101). -/
def failTwin (k : Nat) (s : State) : State :=
  let moved := s.lane.forwarded.filter (fun e => e.2 == k || !(poolTwins s).contains e.2)
  let s1 := { s with lane := { s.lane with
      uses := tdrop s.lane.uses (fun i => i / 4 == k), backfills := s.lane.backfills.filter (fun b => b.tl != k)
      forwarded := s.lane.forwarded.filter (fun e => !moved.contains e) } }
  forEach moved s1 fun e s =>
    match freeTwin s with
    | some tl => forwardLane e.1 tl s
    | none => excessUplink e.1 s

/-- A chain command whose `CCMD` went out in a down frame that the failed uplink no longer carried is issued again, its procedure from the frame
that carries it now (R104). -/
def reissue (l c : Nat) (s : State) : State :=
  match (chainOf s c).ccmdSent with
  | some (code, frame) =>
    let p := frameAfter s c
    if (laneOf s l).heldAt + 3 ≤ frame ∧ inProcedure (chainOf s c) then
      modChain c (fun x => { x with
        ccmd := code, proc := x.proc.map (fun q => { q with p0 := p, enumEnd := q.enumEnd + p - q.p0 }) }) s
    else s
  | none => s

/-- What the failover of an uplink puts right: chain commands and request words that its down frames lost go out again on the path that is left
(R104). -/
def repeatLost (l : Nat) (s : State) : State :=
  let s1 := forEach (chainsOfLane s (placeLane s l)) s (reissue l)
  modBridge (placeLane s l) (fun x =>
    { x with asked := [], waiting := x.asked.filter (fun q => !x.waiting.contains q) ++ x.waiting }) s1

/-- What follows a lane's failure in its deployment (R97, R98, R99). -/
def failover (l : Nat) (s : State) : State :=
  let pl := placeLane s l
  if isTwin l then failTwin (l - 0x100) s
  else match (laneOf s l).mode with
    | 1 =>
      if (laneOf s (partnerLane l)).lstate = .run then
        let s1 := forEach (bridgeOf s pl).absent_ s (fun e s => missSub e.1 e.2 s)
        noteLane l 4 (laneEvent l 0x21 (modBridge pl (fun x => { x with copies := [], absent_ := [] }) s1))
      else s
    | 2 =>
      match freeTwin s with
      | some tl => noteLane l 4 (laneEvent l 0x21 (repeatLost l (forwardLane l tl s)))
      | none => excessUplink l s
    | _ => s

/-- LANE_FAILED (R95): lock or marker lock lost, or 2 consecutive frames failing `LHCRC` with no sub-block passing. The delays behind the bridge
are measured again after the failover (R18). -/
def execLaneFailed (lane : Nat) (e : LaneFault) (s : State) : Host.Outcome State Fault Refusal :=
  let x := laneOf s lane
  onObject (laneExists s lane)
    (if s.up && x.lstate == .run && (e.lockLost || !x.marker || decide (2 ≤ x.badFrames)) then
      let s1 := modLane lane (fun x => { x with lstate := .failed, cdr := if e.lockLost then false else x.cdr, badFrames := 0 }) s
      let s2 := failover lane (laneEvent lane 0x20 (noteLane lane 1 (noteLane lane 0 s1)))
      refreshReady (match e.delay with
        | some d => if isTwin lane then s2 else setBase (placeLane s lane) d s2
        | none => s2)
    else s)

/-- The eye or the pre-FEC ratio is below the service limits (R103): 100 mUI, 10 mV, 2.4 × 10^-4. -/
def poorEye (x : Lane) : Bool :=
  x.eyeW.any (fun w => decide (w < 100)) || x.eyeH.any (fun h => decide (h < 10)) || decide (240000 < x.ber)

/-- Uncorrectable codewords of the last 1,000 picks. -/
def recentUnc (now : Nat) (x : Lane) : Nat := ((x.uncs.filter (fun e => decide (now < e.1 + 1000))).map (·.2)).sum

/-- LANE_DEGRADED (R95): more than one uncorrectable codeword in 1,000 picks, or a poor eye by the figures of the latest second. -/
def execLaneDegraded (r : LaneReading) (s : State) : Host.Outcome State Fault Refusal :=
  let lane := r.lane
  let s1 := if s.up && (laneOf s lane).lstate == .run then modLane lane (fun x => r.figures.elim x (fun f => takeFigures f x)) s else s
  let x := laneOf s1 lane
  onObject (laneExists s lane)
    (if s.up && x.lstate == .run && (decide (2 ≤ recentUnc s.spc x) || poorEye x) then
      laneEvent lane 0x22 (noteLane lane 2 (modLane lane (fun x => { x with degraded := true }) s1))
    else s1)

/-! ### Bring-up -/

/-- Take the figures a lane end measures (R103). -/
def takeMeasure (m : LaneMeasure) (x : Lane) : Lane :=
  { takeFigures m.figures x with corrected := m.corrected, uncorrected := m.uncorrectable }

/-- The minima of R103 for a lane to come up: three eyes of 150 mUI and 15 mV, a ratio of at most 10^-5. -/
def eyeMinima (m : LaneMeasure) : Bool :=
  let f := m.figures
  f.eyeW.length == 3 && f.eyeH.length == 3 && f.eyeW.all (fun w => decide (150 ≤ w)) && f.eyeH.all (fun h => decide (15 ≤ h))
    && decide (f.ber ≤ 10000)

/-- Lane delay in 0.1 ns: half of the round trip less `TURN`, in symbol periods of 17.44 ps, averaged over the 64 echoes (R83, R102). -/
def echoDelay (m : LaneMeasure) : Nat := (m.echoes.map (fun e => e.1 * 10000 - e.2 * 1744)).sum / (64 * 20000)

/-- The limits of R80 in 0.1 ns: 8.0 µs of delay each way (2.0 µs on a twin lane), 10 ns between directions, 5.0 µs between the uplinks of one
bridge, which are the lanes of a pair, or one on each device of a binary pair. -/
def reachOk (s : State) (l : Nat) (m : LaneMeasure) : Bool :=
  let lim := if isTwin l then 20000 else 80000
  let d := echoDelay m
  let partner := laneOf s (partnerLane l)
  let other : Option Nat := match (laneOf s l).mode with
    | 1 => if partner.lstate = .run then some partner.delay else none
    | 2 => m.otherDelay
    | _ => none
  m.echoes.length == 64 && decide (2 * d + m.skew ≤ 2 * lim) && decide (m.skew ≤ 100)
    && (isTwin l || other.elim true (fun o => decide (d ≤ o + 50000) && decide (o ≤ d + 50000)))

/-- End a lane's bring-up with a status. -/
def endBringUp (l status : Nat) (s : State) : State :=
  let x := laneOf s l
  let s1 := modLane l (fun x => { x with cmd := none, lstate := if status = ST_OK then .run else .down }) s
  match x.cmd with
  | some r => finish r status s1
  | none => s1

/-- LANE_PHASE_COMPLETE (R102): lock, adapt and identify in turn. A single device claims the bridge's lease at the identify phase, and
adopts its proposed epoch with the grant (R424, R426). -/
def execLanePhaseComplete (lane : Nat) (m : LaneMeasure) (s : State) : Host.Outcome State Fault Refusal :=
  let x := laneOf s lane
  onObject (laneExists s lane)
    (if !s.up then s
    else match x.lstate with
      | .lock =>
        if m.locked then
          modLane lane (fun x => { x with lstate := .adapt, cdr := true, train := {}, set := { taps := bandTaps x.band [], dfe := List.replicate 16 0 } }) s
        else endBringUp lane ST_PRECONDITION s
      | .adapt =>
        if m.locked && eyeMinima m && x.train.done && x.train.peerDone then modLane lane (fun x => { takeMeasure m x with lstate := .identify, marker := true, marks := 2, markBad := 0, spanOk := true }) s
        else endBringUp lane ST_PRECONDITION s
      | .identify =>
        if m.locked && m.peerModeOk && reachOk s lane m then
          let d := echoDelay m
          let first := !reached s (placeLane s lane)
          let s0 := modLane lane (fun x =>
            { adapted x with
              delay := d, peerUid := m.peerUid, lastPick := s.spc, heldPick := s.spc, heldAt := s.spc
              badFrames := 0, uncs := [], secCorr := 0, secUnc := 0, secFrom := s.spc }) s
          let s1 := if isTwin lane || !first then s0 else setBase (placeLane s lane) d s0
          let s2 := if s.pair.role = .single && !isTwin lane then setEpoch (nextEpoch s1) s1 else s1
          actOnWake (refreshReady (laneEvent lane 0x23 (noteLane lane 3 (endBringUp lane ST_OK s2))))
        else endBringUp lane ST_PRECONDITION s
      | _ => s)

/-! ### Twin lanes -/

/-- TWIN_FORWARD_FRAME_RX (R100): the bridge's up frame as the twin received it. -/
def execTwinForwardFrameRx (tl : Nat) (f : UpFrame) (s : State) : Host.Outcome State Fault Refusal :=
  onObject (decide (tl < 8) && laneExists s f.lane)
    (if s.up && (laneOf s (0x100 + tl)).lstate == .run && tget s.lane.forwarded f.lane == some tl then receiveUp f.lane 3 f s else s)

/-- File a backfill frame: its live blocks fill picks still sought, its `GAP` blocks end the search (R100, R127). -/
def backfillSub (fp pl : Nat) (b : SubBlock) (s : State) : State :=
  let c := chainKey pl b.place
  if fieldOf b.header 8 3 = 7 then s
  else forEach b.blocks.zipIdx s fun e s =>
    let p := c * 8 + e.2
    if !(occPosns s c).contains p then s
    else if fieldOf e.1 1 2 = 0 then fillEntry p (strippedEntry (fp - 1) e.1 .live true false) s
    else if fieldOf e.1 1 2 = 3 then gapEntry p (fp - 1) s
    else s

/-- TWIN_BACKFILL_FRAME_RX (R100). -/
def execTwinBackfillFrameRx (tl : Nat) (f : UpFrame) (s : State) : Host.Outcome State Fault Refusal :=
  onObject (decide (tl < 8) && laneExists s f.lane)
    (if s.up && (laneOf s (0x100 + tl)).lstate == .run && headerOk f.header 4 then
      match extend (fieldOf f.header 32 32) s.spc with
      | some fp => forEach f.subs s (fun b s => if subOk b then backfillSub fp (placeLane s f.lane) b s else s)
      | none => s
    else s)

/-- The header of a relayed down frame: `RELAYED` set and `LHCRC` made again (R83, R99). -/
def relayHeader (h : BitVec 256) : BitVec 256 :=
  let h1 := h ||| BitVec.ofNat 256 (2 ^ 85)
  BitVec.ofNat 256 (h1.toNat / 2 ^ 32 * 2 ^ 32 + crc32c (crcSpan h1 32 192))

/-- A down frame as this device relays it: its own record in `LEASE1` (R86, R99). -/
def relayFrame (s : State) (f : DownFrame) : DownFrame :=
  let lease := tgetD s.pair.leaseTx f.lane 0
  { f with header := relayHeader f.header, lease1 := lease, tcrc := downCheck f.requests f.lease0 lease }

/-- RELAY_DOWN_FRAME_RX (R99): the twin's down frame goes out on this device's uplink to the bridge. -/
def execRelayDownFrameRx (tl : Nat) (f : DownFrame) (s : State) : Host.Outcome State Fault Refusal :=
  onObject (decide (tl < 8) && laneExists s f.lane)
    (if s.up && (laneOf s f.lane).lstate == .run && tget s.lane.uses (tl * 4 + 2) == some (.relay f.lane) && headerOk f.header 2 then
      { s with out := { s.out with relayed := relayFrame s f :: s.out.relayed } }
    else s)

/-- What a forwarding-control word asks of twin lane `tl` (R100): 0 stop, 1 forward a lane, 2 relay a lane, 3 rebuild `n` picks of a lane from
`pick` on, unless that is at the distance of ST_GAP (R24). -/
def askTwin (op tl lane n : Nat) (pick : Option Nat) (s : State) : State :=
  match op with
  | 0 => { s with lane := { s.lane with
      uses := tdrop s.lane.uses (fun i => i / 4 == tl), backfills := s.lane.backfills.filter (fun b => b.tl != tl) } }
  | 1 => { s with lane := { s.lane with uses := tset s.lane.uses (tl * 4 + 1) (.forward lane) } }
  | 2 => { s with lane := { s.lane with uses := tset s.lane.uses (tl * 4 + 2) (.relay lane) } }
  | _ =>
    match pick with
    | some p => { s with lane := { s.lane with
        backfills := s.lane.backfills ++ (if n = 0 then [] else [{ tl := tl, lane := lane, pick := p, left := n }]) } }
    | none => s

/-- FORWARDING_CONTROL_WORD (R100): stop, forward up frames, relay down frames, or backfill. A backfill from a pick at the distance of ST_GAP is
discarded (R24, R25). -/
def execForwardingControlWord (w : BitVec 64) (s : State) : Host.Outcome State Fault Refusal :=
  .next (if s.up && flagOf w 0 then
    askTwin (fieldOf w 1 2) (fieldOf w 3 3) (fieldOf w 6 8) (fieldOf w 14 18) (extend (fieldOf w 32 32) s.spc) s
  else s)

/-! ### Commands (R402) -/

/-- The lane a word names: [7:0] the lane, [8] = 1 a twin lane in [2:0]. -/
def laneParam (s : State) (w : Word) : Option Nat :=
  let l := if bits w 8 8 = 1 then 0x100 + bits w 7 0 else bits w 7 0
  if bits w 31 9 = 0 ∧ laneExists s l then some l else none

/-- The unit class and number of a lane (R451). -/
def laneUnit (s : State) (l : Nat) : Option Nat :=
  let u := if isTwin l then ustate s 5 (l - 0x100) else ustate s 4 l
  if u = .fenced || u = .failed || (!isTwin l && s.loom.fenced.contains (l / 2)) then some ST_FENCED
  else if u = .testing then some ST_NOT_READY else none

/-- Checks that the LANE commands share: the management function's, a lane of the variant. -/
def laneChecks (op : Nat) (r : Req) (s : State) (used : List Nat) : Checks :=
  { op := op, ready := 0, permitted := r.fn == mgmt
    params := (laneParam s (reqWord r 4)).isSome && unusedZero r (4 :: used) }

/-- The lane named in word 4. -/
def laneArg (s : State) (r : Req) : Nat := (laneParam s (reqWord r 4)).getD 0

/-- A lane is up, or coming up. -/
def laneBusy (x : Lane) : Bool := x.lstate != .down && x.lstate != .failed

/-- The mode fits the lane's deployment (R96). -/
def modeFits (s : State) (l m : Nat) : Bool :=
  match m with
  | 0 => !s.lane.pairs.contains (l / 2) || isTwin l
  | 1 => s.lane.pairs.contains (l / 2)
  | _ => thas s.lane.pairMap l

/-- The checks of `LANE.UP` in the order of R397. -/
def checksLaneUp (r : Req) (s : State) : Checks :=
  let l := laneArg s r
  let m := bits (reqWord r 5) 1 0
  let k0 := laneChecks 0x0300 r s [5]
  { k0 with
    params := k0.params && bits (reqWord r 5) 31 2 == 0 && decide (m ≤ 2) && (!isTwin l || m == 0)
    unit := laneUnit s l, long := true
    pre := if laneBusy (laneOf s l) || !modeFits s l m then some ST_PRECONDITION else none }

/-- What `LANE.UP` does once its checks have passed. -/
def actLaneUp (r : Req) (s : State) : State → Reply :=
  let l := laneArg s r
  let m := bits (reqWord r 5) 1 0
  fun s =>
    let s1 := modLane l (fun x =>
      { x with
        lstate := .lock, mode := m, band := s.therm.band, cmd := some (reqRef r), degraded := false, cdr := false, marker := false, marks := 0
        lhcrcErr := 0, sbcrcErr := 0, reqSent := 0, badFrames := 0, pages := [] }) s
    .long l [] (if isTwin l || reached s1 (placeLane s1 l) then s1
      else modBridge (placeLane s1 l) (fun _ => {}) s1)

/-- LANE.UP (R102). -/
def execLaneUp (r : Req) (s : State) : Host.Outcome State Fault Refusal :=
  .next (command (checksLaneUp r s) r s (actLaneUp r s))

/-- `LSTATE` code: 6 for a fenced lane (R402, R503). -/
def lstateCode (s : State) (l : Nat) : Nat :=
  if laneUnit s l = some ST_FENCED then 6
  else match (laneOf s l).lstate with
    | .down => 0
    | .lock => 1
    | .adapt => 2
    | .identify => 3
    | .run => 4
    | .failed => 5

/-- The smallest of a list of figures, 0 when none is held. -/
def least : List Nat → Nat
  | [] => 0
  | x :: r => r.foldl min x

/-- The checks of `LANE.STATUS` in the order of R397. -/
def checksLaneStatus (r : Req) (s : State) : Checks :=
  (laneChecks 0x0301 r s [])

/-- What `LANE.STATUS` does once its checks have passed. -/
def actLaneStatus (r : Req) (s : State) : State → Reply :=
  let l := laneArg s r
  let x := laneOf s l
  fun s =>
    .now ST_OK
      [wd (lstateCode s l + x.mode * 2 ^ 4 + x.band * 2 ^ 6 + b2n x.degraded * 2 ^ 8), wd x.delay, wd x.uncorrected,
       wd (least x.eyeW + least x.eyeH * 2 ^ 16)] s

/-- LANE.STATUS (R402). -/
def execLaneStatus (r : Req) (s : State) : Host.Outcome State Fault Refusal :=
  .next (command (checksLaneStatus r s) r s (actLaneStatus r s))

/-- The checks of `LANE.PAIR` in the order of R397. -/
def checksLanePair (r : Req) (s : State) : Checks :=
  let k := (reqWord r 4).toNat
  let on := (reqWord r 5).toNat == 1
  let other (l : Nat) : Bool := laneBusy (laneOf s l) && ((laneOf s l).mode == 1) != on
  { op := 0x0302, ready := 0, permitted := r.fn == mgmt, unit := (laneUnit s (2 * k)).or (laneUnit s (2 * k + 1))
    params := decide (2 * k + 1 < lanesOf s.otp.variant) && decide ((reqWord r 5).toNat ≤ 1) && unusedZero r [4, 5]
    pre := if other (2 * k) || other (2 * k + 1) then some ST_PRECONDITION else none }

/-- What `LANE.PAIR` does once its checks have passed. -/
def actLanePair (r : Req) (_ : State) : State → Reply :=
  let k := (reqWord r 4).toNat
  let on := (reqWord r 5).toNat == 1
  fun s =>
      .now ST_OK [] { s with lane := { s.lane with
        pairs := if on then k :: s.lane.pairs.filter (· != k) else s.lane.pairs.filter (· != k) } }

/-- LANE.PAIR (R402): refused while either lane is up in another mode. -/
def execLanePair (r : Req) (s : State) : Host.Outcome State Fault Refusal :=
  .next (command (checksLanePair r s) r s (actLanePair r s))

/-- The eye record of a lane, 64 bytes (R402). -/
def eyeRecord (s : State) (l : Nat) (word : Word) : List Word :=
  let x := laneOf s l
  [word] ++ (List.range 3).map (fun i => wd (x.eyeW.getD i 0 + x.eyeH.getD i 0 * 2 ^ 16)) ++ [x.berBits]
    ++ wd64 x.corrected ++ wd64 x.uncorrected ++ [wd 100000] ++ List.replicate 6 0

/-- The checks of `LANE.EYE` in the order of R397. -/
def checksLaneEye (r : Req) (s : State) : Checks :=
  { laneChecks 0x0303 r s [] with buf := .outb 64 }

/-- What `LANE.EYE` does once its checks have passed. -/
def actLaneEye (r : Req) (s : State) : State → Reply :=
  let l := laneArg s r
  fun s =>
    let o := emitStatus 0x0303 r [[eyeRecord s l (reqWord r 4)]] s
    .now ST_OK [wd o.1.records] o.2.2

/-- LANE.EYE (R103). -/
def execLaneEye (r : Req) (s : State) : Host.Outcome State Fault Refusal :=
  .next (command (checksLaneEye r s) r s (actLaneEye r s))

/-- The lane is the only live path of an unparked chain (R102). -/
def onlyPath (s : State) (l : Nat) : Bool :=
  let x := laneOf s l
  let chains := (chainsOfLane s (placeLane s l)).any (fun c => powered (chainOf s c))
  !isTwin l && x.lstate == .run && chains &&
    (match x.mode with
    | 1 => (laneOf s (partnerLane l)).lstate != .run
    | 2 => (freeTwin s).isNone
    | _ => true)

/-- The checks of `LANE.DOWN` in the order of R397. -/
def checksLaneDown (r : Req) (s : State) : Checks :=
  let l := laneArg s r
  let force := bits (reqWord r 5) 0 0 == 1
  let k0 := laneChecks 0x0304 r s [5]
  { k0 with
    params := k0.params && bits (reqWord r 5) 31 1 == 0, unit := laneUnit s l
    pre := if onlyPath s l && !force then some ST_PRECONDITION else none }

/-- What `LANE.DOWN` does once its checks have passed. -/
def actLaneDown (r : Req) (s : State) : State → Reply :=
  let l := laneArg s r
  fun s =>
    let x := laneOf s l
    if x.lstate = .down then .now ST_OK [] s
    else
      let s1 := modLane l (fun x => { x with lstate := .down, cmd := none, cdr := false, marker := false, marks := 0 }) s
      let s2 := match x.cmd with
        | some c => finish c ST_ABORTED s1
        | none => s1
      let s3 := if x.lstate = .run then failover l (laneEvent l 0x20 (noteLane l 0 s2)) else s2
      .now ST_OK [] (refreshReady s3)

/-- LANE.DOWN (R102). -/
def execLaneDown (r : Req) (s : State) : Host.Outcome State Fault Refusal :=
  .next (command (checksLaneDown r s) r s (actLaneDown r s))

/-- The checks of `BRIDGE.STATUS` in the order of R397. -/
def checksBridgeStatus (r : Req) (s : State) : Checks :=
  let l := laneArg s r
  let a := bits (reqWord r 5) 15 0
  let b := bits (reqWord r 5) 31 16
  let k0 := laneChecks 0x0305 r s [5]
  { k0 with buf := .outb 36, params := k0.params && !isTwin l && decide (a ≤ b) && decide (b ≤ 0x0103), unit := laneUnit s l }

/-- What `BRIDGE.STATUS` does once its checks have passed. -/
def actBridgeStatus (r : Req) (s : State) : State → Reply :=
  let l := laneArg s r
  let a := bits (reqWord r 5) 15 0
  let b := bits (reqWord r 5) 31 16
  fun s =>
    let page (n : Nat) : List Word :=
      let g := tgetD (laneOf s l).pages n (BitVec.ofNat 256 (n * 2 ^ 240))
      reqWord r 4 :: (List.range 8).map (fun i => wd (fieldOf g (32 * i) 32))
    let o := emitStatus 0x0305 r [(List.range (b + 1 - a)).map (fun i => page (a + i))] s
    .now ST_OK [wd o.1.records] o.2.2

/-- BRIDGE.STATUS (R93, R402): the latest page of each number; one not yet received is zero after its `PAGE` field. -/
def execBridgeStatus (r : Req) (s : State) : Host.Outcome State Fault Refusal :=
  .next (command (checksBridgeStatus r s) r s (actBridgeStatus r s))

end Sys2Proof.Machine
end

