-- ==== Sys2Proof/Machine/ThermOps.lean ====
section
/-! DEFINITION. The housekeeping round, the thermal states, wear and trace storage, as the rows of chapter 16 use them. -/

namespace Sys2Proof.Machine

/-- Change the thermal unit. -/
def modTherm (f : ThermUnit → ThermUnit) (s : State) : State := { s with therm := f s.therm }

/-! ### Housekeeping (R471 to R473) -/

/-- The recommended range of a rail position in 100 nV (R473); none for positions that are no rail. -/
def railRange (h : Nat) : Option (Int × Int) :=
  if 3 ≤ h ∧ h ≤ 6 then some (6790000, 7210000)
  else if h = 7 ∨ h = 8 then some (7280000, 7730000)
  else if h = 9 then some (7600000, 8400000)
  else if h = 10 ∨ h = 11 then some (7760000, 8240000)
  else if h = 12 ∨ h = 13 then some (11640000, 12360000)
  else if 14 ≤ h ∧ h ≤ 17 then some (10670000, 11330000)
  else if h = 18 then some (3800000, 4200000)
  else if h = 19 ∨ h = 20 then some (17100000, 18900000)
  else if h = 21 then some (114000000, 126000000)
  else none

/-- Latest value of a position. -/
def hkValue (s : State) (h : Nat) : Int := (tgetD s.therm.values h { round := 0, value := 0 }).value

/-- The checks of a round, as key (position * 4 + code) and failure (R473): `RAIL` 0, `HK_REF` 1, `HK_ZERO` 2, `HK_DIV` 3. Rails of stacks that
the variant does not have are not checked. -/
def hkChecks (s : State) : List (Nat × Bool) :=
  let v (h : Nat) := hkValue s h
  let rails := (List.range 24).filterMap fun h =>
    match railRange h with
    | some r =>
      if 14 ≤ h ∧ h ≤ 17 ∧ !unitExists s.otp.variant 6 (h - 14) then none
      else some (h * 4, decide (v h < r.1) || decide (r.2 < v h))
    | none => none
  let trim : Int := s.otp.bandgap
  rails ++
    [(1 * 4 + 1, decide (2000 * trim * v 2 < (v 1 * 1000000 - trim * v 2).natAbs * 1000000) || decide (v 2 ≤ 0)),
     (22 * 4 + 2, decide (2000 < (v 22).natAbs)),
     (23 * 4 + 3, decide (v 1 < (2 * v 23 - v 1).natAbs * 1000))]

/-- One check of a round: an alarm after 2 consecutive failures, cleared after 10 consecutive passes. -/
def hkCheck (e : Nat × Bool) (s : State) : State :=
  let c := tgetD s.therm.checks e.1 {}
  let c1 : HkCheck := if e.2 then { c with failing := c.failing + 1, passing := 0 } else { c with failing := 0, passing := c.passing + 1 }
  let alarm := if 2 ≤ c1.failing then true else if 10 ≤ c1.passing then false else c.alarm
  let s1 := modTherm (fun u => { u with checks := tset u.checks e.1 { c1 with alarm := alarm } }) s
  if alarm = c.alarm then s1
  else raiseNow 0x702 0xC4 (e.1 / 4 + e.1 % 4 * 2 ^ 8 + b2n alarm * 2 ^ 10) (if alarm then setAlert 5 s1 else s1)

/-- The round before the decision boundary of round k is checked once its last position is in, and the first whole one sets `HK`
(R449, R473, R502). -/
def closeRound (k : Nat) (s : State) : State :=
  match tget s.therm.values 23 with
  | some v =>
    if v.round + 1 != k || !(List.range 24).all (fun i => thas s.therm.values i) then s
    else
      let s1 := forEach (hkChecks s) s hkCheck
      if s1.boot.releasedAt ≤ 10000 * v.round && s1.up then refreshReady { s1 with boot := { s1.boot with hkRound := true } } else s1
  | none => s

/-- The round whose value of position h is final at the latest, if one has begun. -/
def hkRoundOf (s : State) (h : Nat) : Option Nat := if 400 * h + 420 ≤ s.spc then some ((s.spc - 400 * h - 420) / 10000) else none

/-- Housekeeping runs in every state from the release of cold reset on (R472). -/
def hkRuns (s : State) : Bool := s.boot.phase == .running || s.boot.phase == .shutdown

/-! ### Thermal states and bands (R474 to R481) -/

/-- The reading of the latest value of position 0, and why it is unknown (R474): 0 `OVR`, 1 out of range, 2 `HK_REF`. -/
def dieReading (s : State) : Option Int × Nat :=
  match tget s.therm.values 0 with
  | none => (none, 1)
  | some v =>
    if v.ovr then (none, 0)
    else if v.value < -40000 ∨ 150000 < v.value then (none, 1)
    else if (tgetD s.therm.checks 5 {}).alarm then (none, 2)
    else (some v.value, s.therm.why)

/-- A reading as the 16-bit field of 0.01 °C; 0x8000 for unknown. -/
def reading16 (r : Option Int) : Nat :=
  match r with
  | some x => ofSigned 16 (tdivI x 10)
  | none => 0x8000

/-- The band for a reading: it rises to the highest bound reached, and falls band by band below the column of R481; a reading that jumps passes
through several bands at one decision (DEDUCED, log 78). -/
def bandFor (band : Nat) (r : Int) : Nat :=
  let up : Nat := if 105000 ≤ r then 3 else if 90000 ≤ r then 2 else if 70000 ≤ r then 1 else 0
  let down : Nat := if r < 67000 then 0 else if r < 87000 then 1 else if r < 102000 then 2 else 3
  max up (min band down)

/-- HBM refresh interval of a band, ns, at most (R481). -/
def bandRefresh (band : Nat) : Nat := if band ≤ 1 then 3900 else if band = 2 then 1950 else 975

/-- A band change steps the transmit FIR of every lane towards the new preset, and changes the refresh of the HBM stacks (R225, R481). -/
def setBand (b : Nat) (s : State) : State :=
  if b = s.therm.band then s
  else
    let s1 := raiseNow 0x701 0xC3 (b + s.therm.band * 4) (modTherm (fun u => { u with band := b, refresh := bandRefresh b }) s)
    { s1 with lane := { s1.lane with lanes := tmap s1.lane.lanes fun _ x =>
        { x with band := b, target := if x.lstate = .run then { x.target with taps := bandTaps b x.offsets } else x.target } } }

/-- Thermal shutdown is decided (R478): kill line, readiness, programs, `YIELD`. -/
def decideShutdown (cause : Nat) (s : State) : State :=
  let s1 := yieldPair 2 (modTherm (fun u => { u with shutAt := some (s.spc, cause), shutReady := s.boot.fnReady }) s)
  let s2 := forEach (s1.chg.drives.map (·.1)) s1 (fun d s => offUsing d CC_SHUTDOWN s)
  let s3 := clearReady (setAlert 0 (modSafe (fun u => { u with kill := true }) s2))
  { s3 with boot := { s3.boot with phase := .shutdown } }

/-- The shed steps of R475 after a reading. -/
def nextSteps (steps last k : Nat) (r : Option Int) : Nat × Nat :=
  let hot := r.elim true (fun x => decide (105000 ≤ x))
  if hot && (steps == 0 || (decide (steps < 4) && decide (last + 20 ≤ k))) then (steps + 1, k)
  else if !hot && decide (0 < steps) && r.elim false (fun x => decide (x < 100000)) && decide (last + 50 ≤ k) then (steps - 1, k)
  else (steps, last)

/-- The thermal state of R475. -/
def nextTState (steps : Nat) (old : TempState) (r : Option Int) : TempState :=
  if 0 < steps then .throttle
  else if r.elim false (fun x => decide (98000 ≤ x) || (old != .normal && decide (94000 ≤ x))) then .warning
  else .normal

/-- Code of a thermal state. -/
def tstateCode : TempState → Nat
  | .normal => 0
  | .warning => 1
  | .throttle => 2

/-- A reading among the turning points: it goes on with the run in progress, or turns it. -/
def addTurn (x : Int) (l : List Int) : List Int :=
  match l with
  | a :: b :: r => if (decide (b ≤ a) && decide (a ≤ x)) || (decide (x ≤ a) && decide (a ≤ b)) then x :: b :: r else x :: a :: b :: r
  | [a] => if x = a then [a] else [x, a]
  | [] => [x]

/-- Close rainflow cycles: a swing between its neighbours that neither falls short of is a cycle. The turning points left, and the swings closed,
in m°C (R482; log 15). -/
def closeCycles : Nat → List Int → List Int × List Nat
  | n + 1, d :: c :: b :: a :: r =>
    if (c - b).natAbs ≤ (b - a).natAbs ∧ (c - b).natAbs ≤ (d - c).natAbs then
      let x := closeCycles n (d :: a :: r)
      (x.1, (c - b).natAbs :: x.2)
    else (d :: c :: b :: a :: r, [])
  | _, l => (l, [])

/-- A round reading enters the thermal cycles: cycles with a swing of 20 K or more count. -/
def countCycles (x : Int) (w : WearUnit) : WearUnit :=
  let l := addTurn x w.turns
  let y := closeCycles l.length l
  { w with turns := y.1, swings := w.swings + ((y.2.filter (20000 ≤ ·)).map (fun d => d * d)).sum }

/-- Equivalent thermal cycles: each counts (ΔT / 40 K)². -/
def equivalentCycles (w : WearUnit) : Nat := w.swings / (40000 * 40000)

/-- The smallest eye width of the running lanes, with its lane. -/
def smallestEye (s : State) : Option (Nat × Nat) :=
  (s.lane.lanes.filterMap fun e =>
    match e.2.eyeW with
    | x :: r => if e.2.lstate = .run then some (r.foldl min x, e.1) else none
    | [] => none).foldl (fun best x => match best with
      | some b => if x.1 < b.1 then some x else some b
      | none => some x) none

/-- Once a second the smallest eye width of the running lanes is noted for the day's median (R103, R482). -/
def noteEyes (s : State) : State :=
  if s.spc % 100000 != 0 then s
  else match smallestEye s with
    | some x => { s with wear := { s.wear with eyes := tmod s.wear.eyes x.1 (0, 0) (fun e => (e.1 + 1, x.2)) } }
    | none => s

/-- The median of the day's eye widths, with a lane that showed it. -/
def medianEye (w : WearUnit) : Option (Nat × Nat) :=
  let n := (w.eyes.map (fun e => e.2.1)).sum
  let rec find (seen : Nat) : List (Nat × (Nat × Nat)) → Option (Nat × Nat)
    | [] => none
    | e :: r => if n ≤ 2 * (seen + e.2.1) then some (e.1, e.2.2) else find (seen + e.2.1) r
  find 0 w.eyes

/-- The decision of round k. -/
def decideRound (k : Nat) (s : State) : State :=
  let d := dieReading s
  let r := d.1
  let u := s.therm
  let unk := if r.isNone then u.unk + 1 else 0
  let peak : Option Int := match r with
    | some x => some (max x (u.peak.getD x))
    | none => u.peak
  let s1 := modTherm (fun u =>
    { u with reading := r, why := d.2, decided := some k, unk := unk, peak := peak, hist := (r :: u.hist).take 16 })
    { s with wear := r.elim s.wear (countCycles · s.wear) }
  let s2 := if r.isNone = u.reading.isNone || (u.decided.isNone && r.isSome) then s1
    else raiseNow 0x700 0xC2 (b2n r.isNone + d.2 * 2) s1
  if s.boot.phase = .shutdown then s2
  else if 30 ≤ unk then decideShutdown 2 s2
  else if r.elim false (fun x => decide (118000 ≤ x)) then decideShutdown 1 s2
  else
    let n := nextSteps u.steps u.last k r
    let st := nextTState n.1 u.tstate r
    let force := max n.1 (if s.pair.link then u.twin else 0)
    let s3 := modTherm (fun u =>
      { u with
        steps := n.1, last := n.2, force := force, tstate := st
        thrSpc := if st = .throttle ∧ u.tstate ≠ .throttle then s.spc else u.thrSpc
        warnSpc := if st = .warning ∧ u.tstate ≠ .warning then s.spc else u.warnSpc }) s2
    let s4 := if st = u.tstate ∧ force = u.force then s3
      else raiseNow 0x700 0xC0 (tstateCode st + force * 4 + reading16 r * 2 ^ 16)
        (if st ≠ u.tstate ∧ st ≠ .normal then setAlert 4 s3 else s3)
    match r with
    | some x => setBand (bandFor u.band x) s4
    | none => s4

/-! ### Units fenced, wear (R482 to R484) -/

/-- Units in `FENCED` or `FAILED`. -/
def fencedCount (s : State) : Nat := (s.boot.units.filter (fun e => e.2.ustate == .fenced || e.2.ustate == .failed)).length

/-- The limit of an indicator (R482). -/
def wearLimit (wind : Nat) : Nat := [100000, 10000, 150, 50000, 20000].getD (wind - 1) 0

/-- A value at or past its limit; the SerDes margin falls to its own. -/
def atLimit (wind v : Nat) : Bool := if wind = 3 then decide (v ≤ 150) else decide (wearLimit wind ≤ v)

/-- A prediction: days, uncertainty, change per 1,000 days. -/
structure Fit where
  days : Nat
  u : Nat
  rate : Int
  deriving DecidableEq, Repr

/-- The least-squares line through the daily samples and its crossing of the limit (R484; log 15), days counted from the latest sample. -/
def linearFit (wind : Nat) (l : List Nat) : Fit :=
  let n : Rat := (l.length : Nat)
  let free := Config.wearFit wind l
  let at_ := l.zipIdx
  let x (e : Nat × Nat) : Rat := (-(e.2 : Int) : Int)
  let y (e : Nat × Nat) : Rat := (e.1 : Nat)
  let mx := (at_.map x).sum / n
  let my := (at_.map y).sum / n
  let sxx := (at_.map fun e => (x e - mx) * (x e - mx)).sum
  let sxy := (at_.map fun e => (x e - mx) * (y e - my)).sum
  let syy := (at_.map fun e => (y e - my) * (y e - my)).sum
  if sxx = 0 then { days := 36500, u := free.2.1, rate := 0 }
  else
    let b := sxy / sxx
    let rate := tdivI (b * 1000).num (b * 1000).den
    if (if wind = 3 then decide (b < 0) else decide (0 < b)) then
      let d := ((wearLimit wind : Nat) - (my - b * mx)) / b
      let days := max 0 d.floor
      if 36500 ≤ days then { days := 36500, u := free.2.1, rate := rate }
      else
        let var := (syy - b * sxy) / (n - 2) / (b * b) * (1 / n + (d - mx) * (d - mx) / sxx)
        { days := days.toNat, u := isqrt var.floor.toNat, rate := rate }
    else { days := 36500, u := free.2.1, rate := rate }

/-- The prediction of an indicator with 30 samples or more (R483). -/
def wearFitOf (wind : Nat) (x : WearInd) : Option Fit :=
  if x.samples.length < 30 then none
  else
    let free := Config.wearFit wind x.samples
    let f : Fit := if wind = 2 ∨ wind = 4 then { days := min 36500 free.1, u := free.2.1, rate := free.2.2 } else linearFit wind x.samples
    some (if atLimit wind (x.samples.headD 0) then { f with days := 0 } else f)

/-- The device's prediction: the smallest, with its indicator. -/
def wearPrediction (s : State) : Option (Nat × Fit) :=
  let l := (List.range 5).filterMap fun i => (wearFitOf (i + 1) (tgetD s.wear.inds (i + 1) {})).map (fun f => (i + 1, f))
  l.foldl (fun best x => match best with
    | none => some x
    | some b => if x.2.days < b.2.days then some x else some b) none

/-- Raise the events of crossings of 365, 90 and 0 days (R484). -/
def noteWear (s : State) : State :=
  match wearPrediction s with
  | none => s
  | some p =>
    let set : Nat := b2n (decide (p.2.days ≤ 365)) + b2n (decide (p.2.days ≤ 90)) * 2 + b2n (p.2.days == 0) * 4
    let new := (List.range 3).filter (fun i => set.testBit i && !s.wear.crossed.testBit i)
    let s1 := { s with wear := { s.wear with crossed := set } }
    if new.isEmpty then s1
    else raiseNow 0x710 0xC5 (p.1 + min p.2.days 0xFFFFFF * 2 ^ 8) (if new.any (fun i => decide (0 < i)) then setAlert 6 s1 else s1)

/-- Write the counters and samples to NVM, once they have been read from it (R483). -/
def writeWear (s : State) : State :=
  let w := { s.wear with written := s.spc }
  if !s.boot.nvmLoaded then s else
  raiseNow 0x710 0xC6 0 { s with wear := w, nvm := { s.nvm with wear := w } }

/-- The write that a warm reset asks for: one that was made in the last 50 ms serves it (R483, R491). -/
def wearForReset (s : State) : State := if s.wear.written ≠ 0 ∧ s.wear.written ≤ s.spc ∧ s.spc ≤ s.wear.written + 5000 then s else writeWear s

/-! ### Trace storage (R487) -/

/-- Raise the events of storage 90 % full and of records lost, each once until a dump makes room (R490). -/
def noteTrace (s : State) : State :=
  let s1 := if 9 * traceRoom s.trace ≤ 10 * s.trace.recs.length && !s.trace.warned then
      raiseNow 0x720 0xC7 0 { s with trace := { s.trace with warned := true } }
    else s
  if 0 < s1.trace.sinceEvent && !s1.trace.lostWarned then
    raiseNow 0x720 0xC7 (1 + min s1.trace.sinceEvent 0x7FFFFFFF * 2) { s1 with trace := { s1.trace with lostWarned := true, sinceEvent := 0 } }
  else s1

/-- Release the oldest n records; the lost marker is written as soon as one has left. -/
def traceRelease (n : Nat) (s : State) : State :=
  if n = 0 then s
  else
    let l := s.trace.recs.take (s.trace.recs.length - n)
    let lost := s.trace.sinceMark
    let s1 := { s with trace := { s.trace with recs := l, warned := false, lostWarned := false, sinceMark := 0 } }
    if lost = 0 then s1 else traceMarker 3 0xC 0 [wd lost] s1

/-- The words of a trace record. -/
def traceWords (e : TraceRec) : List Word :=
  [wd (e.cls * 2 ^ 28 + e.code % 2 ^ 8 * 2 ^ 20 + e.uclass * 2 ^ 8 + e.unit), wd (b2n e.late * 2 ^ 31 + e.frac.toNat * 2 ^ 16)]
    ++ wd64 e.spc ++ (List.range 4).map (fun i => e.words.getD i 0)

end Sys2Proof.Machine
end

