-- ==== Sys2Proof/Machine/UnitOps.lean ====
section
/-! DEFINITION. Units that fail or are fenced: records, spares and what follows for chains (R131, R455 to R458). -/

namespace Sys2Proof.Machine

/-- A record with its number and check: words, then sequence, then CRC-32C of what stands before it (R458, R480, R469). -/
def sealRecord (ws : List Word) : List Word := ws ++ [wd (crc32c (bytesOf ws))]

/-- Write a fence record (R458): 1 BIST failure, 2 service fault, 3 cleared. -/
def recordFence (cls u fkind result : Nat) (s : State) : State :=
  let n := s.nvm.bseq
  let ws := [wd (cls * 2 ^ 24 + u * 2 ^ 16 + fkind * 2 ^ 8 + result), wd s.nvm.aonRun, wd s.nvm.coldRun, 0] ++ wd64 s.spc ++ [wd n]
  (if cls = 2 ∧ fkind ≠ 3 then loseTile u else id) <| (if fkind = 3 then id else reportLocal [1, cls, u]) <| raiseNow 0x740 0xC9 (cls * 2 ^ 16 + u * 2 ^ 8 + fkind)
    { s with nvm := { s.nvm with fences := s.nvm.fences ++ [sealRecord ws], bseq := n + 1 } }

/-- The latest record about a unit is one of kind k. -/
def lastFence (s : State) (cls u : Nat) : Option Nat :=
  (s.nvm.fences.reverse.find? (fun r => bits (r.headD 0) 31 24 == cls && bits (r.headD 0) 23 16 == u)).map (fun r => bits (r.headD 0) 15 8)

/-- A unit fails in service: it is recorded and fenced until the next cold reset. -/
def failService (cls u : Nat) (s : State) : State :=
  recordFence cls u 2 1 (setUnit cls u (fun x => { x with ustate := .failed, fenceSrc := 2, result := 1 }) s)

/-- Chains of a logical tile. -/
def chainsOfTile (s : State) (t : Nat) : List Nat := tkeys s.line.chains (fun c _ => tileOf c == t)

/-- Drive tags of a chain. -/
def drivesOn (s : State) (c : Nat) : List Nat := (occPosns s c).filter (fun p => (posOf s p).kind == .dt1)

/-- Fence a logical tile (R131, R455): `OUT_EN` = 0 to every drive tag of its chains. -/
def fenceTile (t : Nat) (s : State) : State :=
  if s.loom.fenced.contains t then s
  else
    let cs := chainsOfTile s t
    let s1 := unitEvent (tileSource s t) 0x31 cs { s with loom := { s.loom with fenced := (t :: s.loom.fenced).mergeSort (fun a b => decide (a ≤ b)) } }
    forEach (cs.flatMap (drivesOn s1)) s1 fun d s =>
      modPos d (fun x => { x with posted := { x.posted with outEn := false, ditherEn := false, iSet := 0 } }) (offUsing d CC_LOST s)

/-- The lowest-numbered spare that stands by. -/
def freeSpare (s : State) : Option Nat := (List.range 68).find? (fun u => ustate s 1 u == .spare)

/-- Put a logical tile on a spare. -/
def useSpare (t u : Nat) (s : State) : State :=
  let s1 := setUnit 1 u (fun x => { x with ustate := .ready }) s
  { s1 with loom := { s1.loom with tileMap := tset s1.loom.tileMap t u } }

/-- The logical tile that runs on a physical tile. -/
def logicalOf (s : State) (phys : Nat) : Option Nat :=
  (List.range 65).find? (fun t => tileExists s.otp.variant t && physOf s t == phys && !s.loom.fenced.contains t)

/-! ### Non-volatile memory (R447, R459, R460) -/

/-- What the configuration partition holds of a state (R447). -/
def configOf (s : State) : Kept :=
  { bind := s.map.bind, depth := s.loom.depth, lanePairs := s.lane.pairs, groups := s.chg.groups, pid := s.pair.pid, laneMap := s.pair.laneMap
    parked := tkeys s.line.chains (fun _ x => x.mode == .parked), traceMask := s.trace.mask, traceSpill := s.trace.spill
    srcTab := s.ten.srcTab }

/-- What the safety partition, the password partition and the change log hold of a state (R325, R347, R350). -/
def safetyOf (s : State) : KeptSafety :=
  { sets := s.safe.sets, armed := s.safe.armed, assign := s.safe.assign, ioEn := s.safe.ioEn, inputs := s.safe.inputs
    startLocked := s.safe.startLocked, password := s.safe.password, log := s.safe.log, logSeq := s.safe.logSeq, logLost := s.safe.logLost
    written := s.nvm.safety.written || !s.safe.bad.contains 4096 }

/-- Generation x is later than y, counted around 32 bits. -/
def laterGen (x y : BitVec 32) : Bool := decide (0 < (x - y).toNat) && decide ((x - y).toNat < 2 ^ 31)

/-- A copy, by its side. -/
def Copies.side {α : Type} (c : Copies α) (b : Bool) : Option (NvmCopy α) := if b then c.b else c.a

/-- The side of the valid copy with the later generation (R461). -/
def Copies.newest {α : Type} (c : Copies α) : Option Bool :=
  match c.a.filter (·.good), c.b.filter (·.good) with
  | some x, some y => some (laterGen y.gen x.gen)
  | some _, none => some false
  | none, some _ => some true
  | none, none => none

/-- What a partition holds: the content of that copy. -/
def Copies.held {α : Type} (c : Copies α) : Option α := c.newest.bind fun b => (c.side b).map (·.value)

/-- Put a copy on a side. -/
def Copies.put {α : Type} (c : Copies α) (b : Bool) (x : NvmCopy α) : Copies α := if b then { c with b := some x } else { c with a := some x }

/-- Begin to write a partition whole (R460): the older copy, or one that is not valid, is replaced with the next generation; the other is not
touched. The copy written is not valid until it has been verified. -/
def Copies.begin_ {α : Type} (c : Copies α) (v : α) (due : Nat) : Copies α :=
  let b := c.newest.elim false (!·)
  let gen := (c.newest.bind fun n => (c.side n).map (·.gen + 1)).getD 0
  { c.put b { gen := gen, value := v, good := false } with writing := some (b, due) }

/-- A copy written has been verified at its boundary. -/
def Copies.verify {α : Type} (c : Copies α) (spc : Nat) : Copies α :=
  match c.writing with
  | some (b, due) =>
    if due ≤ spc then
      match c.side b with
      | some x => { c.put b { x with good := true } with writing := none }
      | none => { c with writing := none }
    else c
  | none => c

/-- A reset or a power loss ends a write: the copy being written stays invalid, and the other stands (R460, R470). -/
def Copies.cut {α : Type} (c : Copies α) : Copies α := { c with writing := none }

/-- Keep a content: written whole and verified where the partition does not hold it yet. -/
def Copies.keep {α : Type} [DecidableEq α] (c : Copies α) (v : α) : Copies α :=
  if c.held = some v then c else (c.cut.begin_ v 0).verify 0

/-- Begin to write a content that the partition does not hold and is not receiving. -/
def Copies.store {α : Type} [DecidableEq α] (c : Copies α) (v : α) (due : Nat) : Copies α :=
  if c.writing.isSome || c.held = some v then c else c.begin_ v due

/-- The copies of the password partition once the key that wraps them is gone: neither can be unwrapped (R467). -/
def unwrapped (c : Copies (Option (List Nat))) : Copies (Option (List Nat)) :=
  let f (x : NvmCopy (Option (List Nat))) : NvmCopy (Option (List Nat)) := { x with value := none }
  { c with a := c.a.map f, b := c.b.map f }

/-- What the safety partition holds beside the password and the change log, which have partitions of their own (R459). -/
def safePart (k : KeptSafety) : KeptSafety := { k with password := none, log := [], logSeq := 0, logLost := 0 }

/-- Boot selector, password and wear counters are in NVM when the command or the reset that writes them goes on (DESIGN CHOICE, log 18). -/
def storeSmall (n : NvmUnit) : NvmUnit :=
  { n with copies := { n.copies with
      selector := n.copies.selector.keep (n.prefB, n.trialFlag, n.trialFailed), password := n.copies.password.keep n.safety.password
      wear := n.copies.wear.keep n.wear } }

/-- What NVM is to hold of what is in force. -/
def workingNvm (s : State) : NvmUnit := { s.nvm with kept := configOf s, safety := safetyOf s }

/-- At a boundary, once the partitions have been read: copies are verified, and a partition whose content has changed begins to be written, the
configuration and the safety records for a time that the manual leaves open (R447, R460). -/
def storeNvm (s : State) : State :=
  if !s.boot.nvmLoaded then s
  else
    let n := storeSmall (workingNvm s)
    let due := s.spc + 1 + Config.nvmWrite s.fresh
    let safety := n.copies.safety.verify s.spc
    { s with
      fresh := s.fresh + 1
      nvm := { n with copies := { n.copies with
        config := (n.copies.config.verify s.spc).store n.kept due
        safety := if n.safety.written then safety.store (safePart n.safety) due else safety } } }

/-- The wear counters of a partition that has restarted (R461). -/
def wearRestarted : WearUnit := { inds := (List.range 5).map fun i => (i + 1, { restarted := true }) }

/-- What a device takes from the copies at a start (R461): the defaults where a partition has no valid copy. -/
def takeCopies (n : NvmUnit) : NvmUnit :=
  let c := n.copies
  let sel := c.selector.held.getD (false, false, false)
  { n with
    kept := c.config.held.getD {}
    safety := { c.safety.held.getD {} with
      password := c.password.held.getD none, log := n.safety.log, logSeq := n.safety.logSeq, logLost := n.safety.logLost }
    prefB := sel.1, trialFlag := sel.2.1, trialFailed := sel.2.2
    wear := c.wear.held.getD wearRestarted }

/-- NVM at a reset or a power loss: what has been written stands, and a write in progress is lost (R444, R460, R470). -/
def keepNvm (s : State) : State :=
  if s.boot.nvmLoaded then
    let n := storeSmall (workingNvm s)
    { s with nvm := takeCopies { n with copies := { n.copies with config := n.copies.config.cut, safety := n.copies.safety.cut } } }
  else { s with nvm := { s.nvm with copies := { s.nvm.copies with
    selector := s.nvm.copies.selector.keep (s.nvm.prefB, s.nvm.trialFlag, s.nvm.trialFailed) } } }

/-! ### Image slots (R462, R463) -/

/-- Words of an image header. -/
def headWords : Nat := 128

/-- Check 1 of R463 on the words of a header: `MAGIC`, `FORMAT`, and the reserved fields. -/
def headForm (h : List Word) : Bool :=
  let w (i : Nat) : Word := h.getD i 0
  h.length == headWords && w 0 == 0x4B544657 && w 1 == 1 && w 5 == 0 && bits (w 48) 31 8 == 0 && w 49 == 0 && (h.drop 74).all (· == 0)

/-- `SAFETY_DIGEST` of a header. -/
def headDigest (h : List Word) : Nat := ((List.range 12).map fun i => (h.getD (12 + i) 0).toNat * 2 ^ (32 * i)).sum

/-- Checks 1 to 4 of R463, in a device with the signing-key hash given. -/
def imageSound (keyHash : Nat) (k : ImageChecks) (h : List Word) : Bool :=
  headForm h && k.keyDigest == keyHash && k.sig && k.safetyDigest == headDigest h

/-- The image that a header describes. -/
def imageOf (h : List Word) (p : ImageParts) : FwImage :=
  let w (i : Nat) : Word := h.getD i 0
  { version := bits (w 2) 15 0, safetyVersion := bits (w 2) 31 16, secVer := (w 3).toNat, variants := (w 4).toNat, mgmtPart := p.mgmt, cmdPart := p.cmd }

/-- Checks 5 and 6 of an image (R463): the die's variant, and the OTP minimum security version. -/
def imageFits (s : State) (img : FwImage) : Bool :=
  img.variants.testBit (match s.otp.variant with
    | .f => 0
    | .m => 1
    | .l => 2) && decide (s.otp.minSecVer ≤ img.secVer)

/-- Put an image into a slot. -/
def putSlot (b : Bool) (img : Option FwImage) (s : State) : State :=
  if b then { s with nvm := { s.nvm with slotB := img } } else { s with nvm := { s.nvm with slotA := img } }

/-- The image in a slot. -/
def slotImage (s : State) (b : Bool) : Option FwImage := if b then s.nvm.slotB else s.nvm.slotA

end Sys2Proof.Machine
end

