-- ==== Sys2Proof/Machine/Therm.lean ====
section
/-! DEFINITION. The rows of housekeeping, thermal management and wear, and the HK commands about them (chapter 16, R413). -/

namespace Sys2Proof.Machine

/-- Thermal shutdown has power-gated every domain but the always-on one and housekeeping (R478). -/
def gatedOff (s : State) : Bool := s.boot.phase == .shutdown && s.therm.shutAt.isNone

/-! ### Rows -/

/-- A pick from a to b elapsed in holdover (R16). -/
def heldOverIn (s : State) (a b : Nat) : Bool :=
  (s.time.holdover && decide (s.time.holdoverFrom ≤ b)) || s.time.heldOver.any (fun e => decide (e.1 ≤ b) && decide (a ≤ e.2))

/-- HK_SLOT_VALUE_FINAL (R472): a value enters accumulators and trackers. Picks of its round, up to its last, that elapsed in holdover make it a
gap (R16). -/
def execHkSlotValueFinal (h : Nat) (value : Int) (ovr : Bool) (s : State) : Host.Outcome State Fault Refusal :=
  onObject (decide (h < 24))
    (match hkRoundOf s h with
    | none => s
    | some k =>
      let old := tget s.therm.values h
      if !hkRuns s || decide (10000 * k + 400 * h < s.boot.releasedAt) || old.elim false (fun v => decide (k ≤ v.round)) then s
      else
        let s1 := modTherm (fun u => { u with values := tset u.values h { round := k, value := value, ovr := ovr } }) s
        let x : Sample := { m := k, value := value, flags := { ovr := ovr, gap := heldOverIn s (10000 * k) (10000 * k + 400 * h + 399) } }
        if gatedOff s then s1 else feedAcc (hkChi + h) 0 (10000 * k) (10000 * k + 400 * h + 240) 0 x s1)

/-- HK_ROUND_DECISION (R473, R475): at the decision boundary of a round, once; the checks of the round before it come first. -/
def execHkRoundDecision (s : State) : Host.Outcome State Fault Refusal :=
  .next (match tget s.therm.values 0 with
  | some v =>
    if hkRuns s && decide (10000 * v.round + 420 ≤ s.spc) && s.therm.decided != some v.round then decideRound v.round (closeRound v.round s) else s
  | none => s)

/-- A daily sample of an indicator. -/
def takeSample (x : WearSample) (s : State) : State :=
  { s with wear := { s.wear with inds := tmod s.wear.inds x.wind {} fun i =>
      { i with samples := (x.value :: i.samples).take 90, uclass := x.uclass, unit := x.unit } } }

/-- The samples of a day: what erase counts, HBM and ring oscillators show, and the margin and the cycles that the device has followed. -/
def daySamples (samples : List WearSample) (s : State) : List WearSample :=
  samples.filter (fun x => x.wind == 1 || x.wind == 2 || x.wind == 4)
    ++ ((medianEye s.wear).map fun e =>
        ({ wind := 3, value := e.1, uclass := if isTwin e.2 then 5 else 4, unit := if isTwin e.2 then e.2 - 0x100 else e.2 } : WearSample)).toList
    ++ [{ wind := 5, value := equivalentCycles s.wear }]

/-- WEAR_DAILY_SAMPLE (R482): every 8,640,000,000 picks. -/
def execWearDailySample (samples : List WearSample) (s : State) : Host.Outcome State Fault Refusal :=
  .next (if s.up && s.spc % 8640000000 == 0 && s.therm.sampledAt != some s.spc then
    let s1 := modTherm (fun u => { u with sampledAt := some s.spc }) (forEach (daySamples samples s) s takeSample)
    noteWear { s1 with wear := { s1.wear with eyes := [] } }
  else s)

/-- WEAR_COUNTER_WRITE (R483): every 2,160,000,000 picks. -/
def execWearCounterWrite (s : State) : Host.Outcome State Fault Refusal :=
  .next (if s.up && s.spc % 2160000000 == 0 then writeWear s else s)

/-- The thermal-shutdown record (R480). -/
def thermalRecord (s : State) (d cause lost : Nat) : List Word :=
  let u := s.therm
  let hist := (List.range 16).map fun i => reading16 ((u.hist.getD (15 - i) none))
  sealRecord ([wd (2 ^ 24 + cause * 2 ^ 16), wd s.nvm.tseq] ++ wd64 d ++ [wd s.nvm.aonRun, wd s.nvm.coldRun,
    wd (u.shutReady.toNat + u.force * 2 ^ 16 + u.band * 2 ^ 20 + roleCode s.pair.role * 2 ^ 22), wd (reading16 u.peak)]
    ++ wd64 u.thrSpc ++ wd64 u.warnSpc
    ++ (List.range 8).map (fun i => wd (hist.getD (2 * i) 0 + hist.getD (2 * i + 1) 0 * 2 ^ 16))
    ++ [wd (fencedCount s), wdI (tdivI (hkValue s 3) 100), wd lost] ++ List.replicate 8 0)

/-- SHUTDOWN_POWER_GATE (R478): the record and the wear counters are written, then every domain but the always-on one and housekeeping is
power-gated, and the link goes down. -/
def execShutdownPowerGate (s : State) : Host.Outcome State Fault Refusal :=
  .next (match s.therm.shutAt with
  | some (d, cause) =>
    if s.boot.phase = .shutdown && decide (d < s.spc) then
      let full := decide (8192 ≤ s.nvm.thermal.length)
      let lost := s.nvm.overwritten + b2n full
      let x := thermalRecord s d cause lost
      let l := (if full then s.nvm.thermal.drop 1 else s.nvm.thermal) ++ [x]
      let k := keepNvm s
      let w := if s.boot.nvmLoaded then { s.wear with written := s.spc } else k.nvm.wear
      let b : Boot :=
        { phase := .shutdown, releasedAt := s.boot.releasedAt, units := s.boot.units, readyChg := s.boot.readyChg
          alertStat := s.boot.alertStat, alertEn := s.boot.alertEn, rstCause := s.boot.rstCause, scratch := s.boot.scratch
          aonCounted := s.boot.aonCounted, wakeLatch := s.boot.wakeLatch, wakeSet := s.boot.wakeSet, vlineOk := s.boot.vlineOk, heldCold := s.boot.heldCold
          scan := s.boot.scan, zeroising := s.boot.zeroising, zeroised := s.boot.zeroised, sessionKeys := s.boot.sessionKeys }
      { time := s.time, otp := s.otp, out := s.out, pending := s.pending, fresh := s.fresh, boot := b
        therm := { s.therm with shutAt := none }
        wear := w
        nvm := storeSmall { k.nvm with thermal := l, tseq := s.nvm.tseq + 1, overwritten := lost, wear := w } }
    else s
  | none => s)

/-! ### HK.THERMAL, HK.WEAR, HK.TRACE -/

/-- The checks of `HK.THERMAL` in the order of R397. -/
def checksHkThermal (r : Req) (_ : State) : Checks :=
  { op := 0x0E00, ready := 2, permitted := r.fn == mgmt, params := unusedZero r [] }

/-- What `HK.THERMAL` does once its checks have passed. -/
def actHkThermal (_ : Req) (_ : State) : State → Reply :=
  fun s =>
    .now ST_OK [wdI (hkValue s 0), wd (s.therm.band + tstateCode s.therm.tstate * 2 ^ 4), wd s.therm.force] s

/-- HK.THERMAL (R413). -/
def execHkThermal (r : Req) (s : State) : Host.Outcome State Fault Refusal :=
  .next (command (checksHkThermal r s) r s (actHkThermal r s))

/-- The record of an indicator (R484). -/
def wearRecord (s : State) (wind : Nat) : List Word :=
  let x := tgetD s.wear.inds wind {}
  let f := wearFitOf wind x
  let v := x.samples.headD 0
  let free := Config.wearFit wind x.samples
  let cls := if wind = 1 ∨ wind = 5 then 0 else x.uclass
  [wd (wind * 2 ^ 24 + cls * 2 ^ 16 + x.unit * 2 ^ 8 + b2n (!x.samples.isEmpty && atLimit wind v) * 4 + b2n x.restarted * 2 + b2n f.isSome),
   wd v, wd (wearLimit wind), wdI (f.elim free.2.2 (·.rate)), wd (f.elim 0xFFFFFFFF (·.days)), wd (f.elim 0xFFFFFFFF (·.u)),
   wd x.samples.length, 0]

/-- The checks of `HK.WEAR` in the order of R397. -/
def checksHkWear (r : Req) (_ : State) : Checks :=
  { op := 0x0E01, ready := 15, permitted := r.fn == mgmt, buf := .outb 32, params := unusedZero r [] }

/-- What `HK.WEAR` does once its checks have passed. -/
def actHkWear (r : Req) (_ : State) : State → Reply :=
  fun s =>
    let o := emitStatus 0x0E01 r [(List.range 5).map (fun i => wearRecord s (i + 1))] s
    let p := wearPrediction s
    .now ST_OK [wd (p.elim 0xFFFFFFFF (fun x => x.2.days)), wd (p.elim 0xFFFFFFFF (fun x => x.2.u))] o.2.2

/-- HK.WEAR (R484). -/
def execHkWear (r : Req) (s : State) : Host.Outcome State Fault Refusal :=
  .next (command (checksHkWear r s) r s (actHkWear r s))

/-- The checks of `HK.TRACE` in the order of R397. -/
def checksHkTrace (r : Req) (_ : State) : Checks :=
  let form := bits (reqWord r 4) 1 0
  let spill := (reqWord r 5).toNat
  let mask := (reqWord r 6).toNat
  { op := 0x0E02, ready := 14, permitted := r.fn == mgmt, buf := if form = 1 then .outb 32 else .none
    params := unusedZero r (if form = 0 then [4, 5, 6] else [4]) && bits (reqWord r 4) 31 2 == 0 && decide (form ≤ 2)
      && (form != 0 || (decide (spill ≤ 4096) && decide (mask < 2 ^ 16))) }

/-- What `HK.TRACE` does once its checks have passed. -/
def actHkTrace (r : Req) (_ : State) : State → Reply :=
  let form := bits (reqWord r 4) 1 0
  let spill := (reqWord r 5).toNat
  let mask := (reqWord r 6).toNat
  fun s =>
      let counts (s : State) : List Word := [wd s.trace.recs.length, wd s.trace.lost]
      if form = 0 then
        .now ST_OK (counts s)
          { s with
            trace := { s.trace with mask := mask, spill := spill }
            nvm := { s.nvm with kept := { s.nvm.kept with traceMask := mask, traceSpill := spill } } }
      else if form = 2 then .now ST_OK (counts s) s
      else
        let all := s.trace.recs.reverse
        let sec : Section :=
          { stype := 0x61, start := (all.head?.map (·.spc)).getD 0, stop := s.spc
            w7 := (s.trace.next - all.length) % 2 ^ 32, records := all.map traceWords }
        let o := emitBuffer { magic := 0x4B545452, cls := 0x61, chkClass := 2 } r [sec] s
        let s1 := traceRelease o.1.records o.2.2
        .now ST_OK (counts s1) s1

/-- HK.TRACE (R487, R489): configure, dump, status. -/
def execHkTrace (r : Req) (s : State) : Host.Outcome State Fault Refusal :=
  .next (command (checksHkTrace r s) r s (actHkTrace r s))

end Sys2Proof.Machine
end

