-- ==== Sys2Proof/Machine/Hk.lean ====
section
/-! DEFINITION. HK.RECORDS, HK.FW and HK.BIST with the rows that end them, and the record window of the I²C view (R413, R453, R463,
R517). -/

namespace Sys2Proof.Machine

/-! ### Records (R413, R459, R480, R484) -/

/-- Offsets and sizes of the partitions (R459). -/
def partitions : List (Nat × Nat) :=
  [(0x00000000, 48 * 2 ^ 20), (0x03000000, 48 * 2 ^ 20), (0x06000000, 128 * 2 ^ 10), (0x06020000, 8 * 2 ^ 20), (0x06820000, 2 * 2 ^ 20),
   (0x06A20000, 2 ^ 20), (0x06B20000, 128 * 2 ^ 10), (0x06B40000, 2 ^ 20), (0x06C40000, 2 * 2 ^ 20), (0x06E40000, 256 * 2 ^ 10),
   (0x06E80000, 256 * 2 ^ 10), (0x06EC0000, 17664 * 2 ^ 10)]

/-- A partition's row: offset, size, erase count and state, the last two free values (log 17). -/
def partitionRecord (x : (Nat × Nat) × Nat) : List Word :=
  [wd x.1.1, wd x.1.2, Config.lifeCount (16 + x.2), Config.lifeCount (32 + x.2)]

/-- The lifetime counters, in the order that R484 names them (log 17). -/
def lifeRecord (s : State) : List Word :=
  (List.range 5).map Config.lifeCount ++ [wd (equivalentCycles s.wear)] ++ (List.range 4).map (fun i => wd (s.wear.bands.getD i 0 / 360000000))
    ++ [Config.lifeCount 6, Config.lifeCount 7]

/-- The records of a kind, oldest first. -/
def recordsOf (s : State) (kind : Nat) : List (List Word) :=
  match kind with
  | 1 => s.nvm.thermal
  | 2 => s.nvm.fences
  | 3 => [lifeRecord s]
  | 4 => partitions.zipIdx.map partitionRecord
  | 5 => s.nvm.zero
  | _ => []

/-- Bytes of a record of a kind. -/
def recordBytes (kind : Nat) : Nat := [0, 128, 32, 48, 16, 32].getD kind 32

/-- The checks of `HK.RECORDS` in the order of R397. -/
def checksHkRecords (r : Req) (_ : State) : Checks :=
  let kind := (reqWord r 4).toNat
  { op := 0x0E03, ready := 1, permitted := r.fn == mgmt, buf := .outb (recordBytes kind)
    params := unusedZero r [4] && decide (1 ≤ kind) && decide (kind ≤ 5) }

/-- What `HK.RECORDS` does once its checks have passed. -/
def actHkRecords (r : Req) (_ : State) : State → Reply :=
  let kind := (reqWord r 4).toNat
  fun s =>
    let o := emitStatus 0x0E03 r [recordsOf s kind] s
    .now ST_OK [wd o.1.records] o.2.2

/-- HK.RECORDS (R413). -/
def execHkRecords (r : Req) (s : State) : Host.Outcome State Fault Refusal :=
  .next (command (checksHkRecords r s) r s (actHkRecords r s))

/-! ### Firmware (R463 to R465) -/

/-- The checks of `HK.FW` in the order of R397. -/
def checksHkFw (r : Req) (s : State) : Checks :=
  let form := (reqWord r 4).toNat
  let b := (reqWord r 5).toNat == 1
  let n := (reqWord r 6).toNat
  let img := slotImage s b
  { op := 0x0E04, ready := 1, permitted := r.fn == mgmt, buf := if form = 0 then .inb 7 (n + 4) else .none
    long := form == 0 || form == 2
    params := decide (form ≤ 3) && decide ((reqWord r 5).toNat ≤ 1)
      && (if form = 0 then unusedZero r [4, 5, 6] && decide (1 ≤ n) && decide (n ≤ 48 * 2 ^ 20) else unusedZero r [4, 5])
    role := if form = 0 ∧ s.therm.force ≠ 0 then some ST_THERMAL else none
    pre := match form with
      | 0 => if s.boot.staging.isSome then some ST_PRECONDITION else none
      | 1 => if img.isNone || s.pair.updating.isSome then some ST_PRECONDITION else none
      | 2 => match img with
        | some i => if i.safetyVersion != s.boot.safetyVersion || i.mgmtPart != s.boot.mgmtPart || s.boot.activating.isSome
            then some ST_PRECONDITION else none
        | none => some ST_PRECONDITION
      | _ => none }

/-- What `HK.FW` does once its checks have passed. -/
def actHkFw (r : Req) (s : State) : State → Reply :=
  let form := (reqWord r 4).toNat
  let b := (reqWord r 5).toNat == 1
  let img := slotImage s b
  fun s =>
    let res : List Word := [wd ((img.elim 0 (·.version)) % 2 ^ 16 + (if form = 3 then b2n s.boot.trial.isSome * 2 ^ 16 else 0))]
    match form with
    | 0 =>
      if b = s.boot.slotB ∧ ¬ s.boot.romOnly then .longNow ST_PRECONDITION res s
      else
        let s1 := putSlot b none s
        .long (b2n b) res { s1 with boot := { s1.boot with staging := some (b, reqRef r), stageHead := r.inb.take headWords } }
    | 1 =>
      let s1 := { s with nvm := { s.nvm with prefB := b, trialFlag := true, trialFailed := false } }
      if (img.elim 0 (·.safetyVersion)) = s.boot.safetyVersion then .now ST_OK res s1
      else .now ST_OK res (enterLockout LC_FW_SAFETY (logChange 0x0E r.fn 0 [] s1))
    | 2 => .long (b2n b) res { s with boot := { s.boot with activating := some (b, reqRef r) } }
    | _ => .now ST_OK res s

/-- HK.FW (R463 to R465, R413). -/
def execHkFw (r : Req) (s : State) : Host.Outcome State Fault Refusal :=
  .next (command (checksHkFw r s) r s (actHkFw r s))

/-- The event of an image staged (0) or activated (1), or of the minimum security version raised (2) (R469). -/
def imageEvent (what : Nat) (b : Bool) (secVer : Nat) (s : State) : State :=
  raiseNow 0x741 0xCB (what + b2n b * 2 ^ 8 + secVer % 64 * 2 ^ 16) s

/-- FW_STAGING_DONE (R463, R465): the header staged is read, `checks` are what its cryptographic checks find and `parts` the parts that follow
it. Without a staging in progress it ends an activation: the firmware cores run the slot's command-processor part. -/
def execFwStagingDone (checks : ImageChecks) (parts : ImageParts) (s : State) : Host.Outcome State Fault Refusal :=
  .next (if !s.up then s
  else match s.boot.staging, s.boot.activating with
    | some (b, ref), _ =>
      let img := imageOf s.boot.stageHead parts
      let s1 := { s with boot := { s.boot with staging := none, stageHead := [] } }
      if !imageSound s.otp.keyHash checks s.boot.stageHead then finish ref ST_CHECK_FAIL s1
      else if !imageFits s img then finish ref ST_PRECONDITION s1
      else finish ref ST_OK (imageEvent 0 b img.secVer (putSlot b (some img) s1))
    | none, some (b, ref) =>
      let s1 := { s with boot := { s.boot with activating := none } }
      match slotImage s b with
      | some i => finish ref ST_OK (imageEvent 1 b i.secVer { s1 with boot := { s1.boot with cpPart := i.cmdPart } })
      | none => finish ref ST_PRECONDITION s1
    | none, none => s)

/-! ### BIST runs (R453) -/

/-- Code of a unit's state (R454). -/
def ustateCode : UState → Nat
  | .absent => 0
  | .testing => 1
  | .ready => 2
  | .spare => 3
  | .fenced => 4
  | .failed => 5

/-- Every unit of the variant, class by class. -/
def allUnits (v : Variant) : List (Nat × Nat) := (List.range 12).flatMap fun c => (unitsOf v (c + 1)).map fun u => (c + 1, u)

/-- The unit record of `HK.BIST`. -/
def unitRecord (s : State) (x : Nat × Nat) : List Word :=
  let u := unitOf s x.1 x.2
  [wd (x.1 * 2 ^ 24 + x.2 * 2 ^ 16 + ustateCode u.ustate * 2 ^ 12 + u.fenceSrc * 2 ^ 8 + u.result % 256), wd u.run] ++ wd64 u.spc

/-- The checks of `HK.BIST` in the order of R397. -/
def checksHkBist (r : Req) (s : State) : Checks :=
  let run := (reqWord r 4).toNat == 1
  let cls := bits (reqWord r 5) 7 0
  let u := bits (reqWord r 5) 15 8
  { op := 0x0E05, ready := 2, permitted := r.fn == mgmt, buf := if run then .none else .outb 16, long := run
    params := decide ((reqWord r 4).toNat ≤ 1) && unusedZero r (if run then [4, 5] else [4]) && bits (reqWord r 5) 31 16 == 0
      && (!run || unitExists s.otp.variant cls u)
    role := if run && s.therm.force != 0 then some ST_THERMAL else none
    unit := if run && ustate s cls u == .testing then some ST_NOT_READY else none
    pre := if run && !(fencedUnit s cls u || ustate s cls u == .spare) then some ST_PRECONDITION else none }

/-- What `HK.BIST` does once its checks have passed. -/
def actHkBist (r : Req) (_ : State) : State → Reply :=
  let run := (reqWord r 4).toNat == 1
  let cls := bits (reqWord r 5) 7 0
  let u := bits (reqWord r 5) 15 8
  fun s =>
    if run then
      let spare := ustate s cls u == .spare
      .long 0 [] (setUnit cls u (fun x => { x with ustate := .testing })
        { s with boot := { s.boot with bistRuns := s.boot.bistRuns ++ [(cls, u, spare, reqRef r)] } })
    else
      let o := emitStatus 0x0E05 r [(allUnits s.otp.variant).map (unitRecord s)] s
      .now ST_OK [wd o.1.records] o.2.2

/-- HK.BIST (R453): read the units, or run BIST on a fenced unit or a spare. -/
def execHkBist (r : Req) (s : State) : Host.Outcome State Fault Refusal :=
  .next (command (checksHkBist r s) r s (actHkBist r s))

/-- BIST_RUN_DONE (R453): a pass clears the unit's record, and a fenced unit stays fenced until the next cold reset; a spare that passes
stands by again. Of several runs the oldest ends (DESIGN CHOICE, log 17: the row names no unit). -/
def execBistRunDone (result : Nat) (s : State) : Host.Outcome State Fault Refusal :=
  .next (match s.boot.bistRuns with
  | (cls, u, spare, ref) :: runs =>
    if !s.up then s
    else
      let pass := result == 0
      let st : UState := if spare && pass then .spare else .fenced
      let note (x : UnitRec) : UnitRec :=
        { x with
          ustate := st, result := result, run := s.nvm.coldRun, spc := s.spc
          fenceSrc := if spare then (if pass then 0 else 1) else x.fenceSrc }
      let s1 := setUnit cls u note { s with boot := { s.boot with bistRuns := runs } }
      let s2 := if pass then (if spare then s1 else recordFence cls u 3 result s1)
        else if lastFence s1 cls u = some 1 then s1 else recordFence cls u 1 result s1
      finishOn 0x740 ref ST_OK s.spc s2
  | [] => s)

/-! ### The record window (R517) -/

/-- Cut words into chunks of 32 words. -/
def chunks32 : Nat → List Word → List (List Word)
  | 0, _ => []
  | n + 1, l => if l.isEmpty then [] else l.take 32 :: chunks32 n (l.drop 32)

/-- The records that a window of a kind counts: the records themselves, or 128-byte chunks of the buffer for kinds 3 and 4. -/
def windowRecords (s : State) (kind : Nat) : List (List Word) :=
  if kind = 3 ∨ kind = 4 then
    let r : Req := { fn := mgmt, ring := 0, size := 40 }
    let sec : Section := { stype := 0x03, start := s.spc, stop := s.spc, records := recordsOf s kind }
    let b := buildBuffer { magic := 0x4B545354, cls := 0x0E } r [sec] s
    chunks32 b.1.length b.1
  else recordsOf s kind

/-- NVR_REQ_WRITE (R517): ignored while busy; not available before `NVM` and during thermal shutdown. -/
def requestRecord (value : Word) (s : State) : State :=
  let kind := bits value 7 0
  let b := s.boot
  if b.nvrState = 1 then s
  else if !s.up || !b.fnReady.getLsbD 1 then
    { s with boot := { b with nvrReq := value, nvrState := 4, nvrLen := 0, nvrHeld := 0, nvrWin := [] } }
  else { s with boot := { b with nvrReq := value, nvrState := 1, nvrLen := 0, nvrHeld := min (windowRecords s kind).length 0xFFFF, nvrWin := [] } }

/-- NVR_REQ_WRITE (R517). -/
def execNvrReqWrite (value : Word) (s : State) : Host.Outcome State Fault Refusal :=
  .next (if s.up || s.boot.phase == .shutdown then requestRecord value s else s)

/-- NVR_READ_DONE (R517). -/
def execNvrReadDone (s : State) : Host.Outcome State Fault Refusal :=
  .next (if s.up && s.boot.nvrState == 1 then
    let b := s.boot
    match (windowRecords s (bits b.nvrReq 7 0))[bits b.nvrReq 31 8]? with
    | some ws => { s with boot := { b with nvrState := 2, nvrLen := ws.length, nvrWin := (List.range 32).map fun i => ws.getD i 0 } }
    | none => { s with boot := { b with nvrState := 3 } }
  else s)

end Sys2Proof.Machine
end

