-- ==== Sys2Proof/Machine/RingOps.lean ====
section
/-! DEFINITION. The registers that act: ring pairs, event queues, moderation, source and class tables, MSI-X entries, mailboxes, alert
and reset control (R384, R385, R499 to R501, R507 to R512). -/

namespace Sys2Proof.Machine

/-- A BAR of the device answers (R495). -/
def barLive (s : State) : Bool := s.up && s.boot.fnReady.getLsbD 0

/-- Writes to a function's registers act: the management function's, and those of a tenant that is not being reset (R381, R493, R514). -/
def writesAct (s : State) (fn : Nat) : Bool := barLive s && fnActive s fn

/-! ### Ring pairs (R384, R385, R507) -/

/-- A ring pair. -/
def ringAt (s : State) (fn q : Nat) : Ring := tgetD s.cmd.rings (fn * 16 + q) {}

/-- Change a ring pair. -/
def modRing (fn q : Nat) (f : Ring → Ring) (s : State) : State :=
  { s with cmd := { s.cmd with rings := tmod s.cmd.rings (fn * 16 + q) {} f } }

/-- A write that sets `ENABLE`: the configuration is validated and the indices restart, or `CFG_ERR` is set. -/
def enableRing (fn : Nat) (g : Ring) : Ring :=
  if g.enable then g
  else if 4 ≤ g.log2 ∧ g.log2 ≤ 12 ∧ g.sqBase.toNat % (64 * 2 ^ g.log2) = 0 ∧ g.cqBase.toNat % (32 * 2 ^ g.log2) = 0
      ∧ g.vector < vecCount fn ∧ ¬ g.ringErr then
    { g with enable := true, fetch := 0, prod := 0, tail := 0, head := 0, waiting := [] }
  else { g with cfgErr := true }

/-- A write that clears `ENABLE`: packets not started are discarded without completions. -/
def disableRing (g : Ring) : Ring := if g.enable then { g with enable := false, waiting := [] } else g

/-- A doorbell that breaks a rule: the ring pair is disabled and its waiting packets are never started (R385, R393). -/
def breakRing (g : Ring) : Ring := { g with enable := false, ringErr := true, waiting := [] }

/-- A write to the configuration word (R507): the RW1C bits, the fields while disabled, then `ENABLE`. -/
def writeRingCfg (fn : Nat) (v : Word) (g : Ring) : Ring :=
  let vec := bits v 23 16
  let n := bits v 11 8
  let g0 : Ring := { g with ringErr := g.ringErr && bits v 31 31 == 0, cfgErr := g.cfgErr && bits v 30 30 == 0 }
  let g1 : Ring :=
    if g.enable then (if vec ≠ g.vector ∨ n ≠ g.log2 then { g0 with cfgErr := true } else g0)
    else if vec < vecCount fn then { g0 with vector := vec, log2 := n }
    else { g0 with log2 := n, cfgErr := true }
  if bits v 0 0 = 1 then enableRing fn g1 else disableRing g1

/-- Put one word of a 64-bit base. -/
def putBase (x : BitVec 64) (high : Bool) (v : Word) : BitVec 64 :=
  if high then v ++ x.extractLsb' 0 32 else x.extractLsb' 32 32 ++ v

/-- A write to word i of a ring's configuration block (R506). -/
def writeRing (fn q i : Nat) (v : Word) (s : State) : State :=
  let base (f : Ring → Ring) : State := modRing fn q (fun g => if g.enable then { g with cfgErr := true } else f g) s
  match i with
  | 0 => base (fun g => { g with sqBase := putBase g.sqBase false v })
  | 1 => base (fun g => { g with sqBase := putBase g.sqBase true v })
  | 2 => base (fun g => { g with cqBase := putBase g.cqBase false v })
  | 3 => base (fun g => { g with cqBase := putBase g.cqBase true v })
  | 4 => modRing fn q (writeRingCfg fn v) s
  | _ => s

/-- Index of the oldest command of a ring without a completion; the tail when there is none. -/
def oldestOpen (g : Ring) : Nat :=
  match g.started with
  | e :: _ => e.1
  | [] => match g.waiting with
    | w :: _ => w.index
    | [] => g.tail

/-- Distance from one ring index to another. -/
def ringDist (g : Ring) (a b : Nat) : Nat := (b + 2 ^ (g.log2 + 1) - a % 2 ^ (g.log2 + 1)) % 2 ^ (g.log2 + 1)

/-- A submission tail T with the packets of its new slots (R385): more than 2^n beyond the oldest command without a completion disables the
pair. A tail that lies before the device's copy brings nothing. -/
def writeTail (fn q t : Nat) (packets : List Packet) (g : Ring) : Ring :=
  let t := t % 2 ^ (g.log2 + 1)
  let o := oldestOpen g
  if !g.enable then g
  else if 2 ^ g.log2 < ringDist g o t then breakRing g
  else
    let n := ringDist g o t - ringDist g o g.tail
    let new := (packets.take n).zipIdx.map fun x =>
      ({ index := (g.tail + x.2) % 2 ^ (g.log2 + 1)
         packet := { x.1 with req := { x.1.req with fn := fn, ring := q, twin := false } } } : Waiting)
    if n = 0 then g else { g with tail := t, fetch := t, waiting := g.waiting ++ new }

/-- A completion head C (R385): beyond P it disables the pair. -/
def writeHead (c : Nat) (g : Ring) : Ring :=
  let c := c % 2 ^ (g.log2 + 1)
  if !g.enable then g
  else if ringDist g g.head g.prod < ringDist g g.head c then breakRing g
  else { g with head := c }

/-! ### Event queues (R374, R508) -/

/-- Change a function's event queue. -/
def modQueue (fn : Nat) (f : EvQueue → EvQueue) (s : State) : State :=
  modTen (fun u => { u with queues := tmod u.queues fn {} f }) s

/-- A write that sets `EQ_ENABLE`. -/
def enableQueue (q : EvQueue) : EvQueue :=
  if q.enable then q
  else if 6 ≤ q.log2 ∧ q.log2 ≤ 16 ∧ q.base.toNat % (16 * 2 ^ q.log2) = 0 ∧ ¬ q.evqErr then { q with enable := true, prod := 0, cons := 0 }
  else { q with cfgErr := true }

/-- A write to the configuration word of an event queue. -/
def writeQueueCfg (v : Word) (q : EvQueue) : EvQueue :=
  let n := bits v 12 8
  let q0 : EvQueue := { q with evqErr := q.evqErr && bits v 31 31 == 0, cfgErr := q.cfgErr && bits v 30 30 == 0 }
  let q1 : EvQueue := if q.enable then (if n ≠ q.log2 then { q0 with cfgErr := true } else q0) else { q0 with log2 := n }
  if bits v 0 0 = 1 then enableQueue q1 else { q1 with enable := false }

/-- A consumer index C (R374, R383): beyond P the queue is disabled and `EVQ_ERR` set. -/
def writeCons (c : Nat) (q : EvQueue) : EvQueue :=
  let m := 2 ^ (q.log2 + 1)
  let c := c % m
  if (q.prod + m - q.cons % m) % m < (c + m - q.cons % m) % m then { q with enable := false, evqErr := true } else { q with cons := c }

/-- A write to word i of an event queue block (R508). -/
def writeQueue (fn i : Nat) (v : Word) (s : State) : State :=
  let base (f : EvQueue → EvQueue) : State := modQueue fn (fun q => if q.enable then { q with cfgErr := true } else f q) s
  match i with
  | 0 => base (fun q => { q with base := putBase q.base false v })
  | 1 => base (fun q => { q with base := putBase q.base true v })
  | 2 => modQueue fn (writeQueueCfg v) s
  | 4 => modQueue fn (writeCons (bits v 16 0)) s
  | _ => s

/-! ### Tables and vectors (R509 to R511) -/

/-- Set the moderation interval of a vector. -/
def writeModeration (fn v : Nat) (x : Word) (s : State) : State :=
  modTen (fun u => { u with vecs := tmod u.vecs (fn * 256 + v) {} fun y => { y with mdr := bits x 7 0 } }) s

/-- A write to word i of an MSI-X table entry: a vector that is unmasked sends its pending message (R377). -/
def writeVector (fn v i : Nat) (x : Word) (s : State) : State :=
  let y := tgetD s.ten.vecs (fn * 256 + v) {}
  let put (y : Vec) : State := modTen (fun u => { u with vecs := tset u.vecs (fn * 256 + v) y }) s
  match i with
  | 0 => put { y with addr := putBase y.addr false x }
  | 1 => put { y with addr := putBase y.addr true x }
  | 2 => put { y with data := x }
  | _ =>
    let s1 := put { y with masked := bits x 0 0 == 1 }
    if y.pend && bits x 0 0 == 0 then sendMsix fn v s1 else s1

/-- A write to the source table (R510): `SRC_VEC` and `SRC_EN` of a source of the management function, `MIRROR` of a tenant's summary. -/
def writeSource (src : Nat) (v : Word) (s : State) : State :=
  let w : Option Word :=
    if 0x100 ≤ src ∧ src ≤ 0x1FF then some (wd (bits v 1 1 * 2 + 1))
    else if sourceFn src = mgmt then some (wd (bits v 15 8 * 2 ^ 8 + bits v 0 0))
    else none
  match w with
  | some x => modTen (fun u => { u with srcTab := tset u.srcTab src x }) s
  | none => s

/-- A write to a tenant's class table (R511): its vector is always within the tenant's 64. -/
def writeClass (t c : Nat) (v : Word) (s : State) : State :=
  modTen (fun u => { u with clsTab := tset u.clsTab (t * 16 + c) (wd (bits v 13 8 * 2 ^ 8 + bits v 0 0)) }) s

/-! ### Mailboxes (R373, R512) -/

/-- The message of a mailbox is still in its receiver's pending store. -/
def mailPending (s : State) (src : Nat) : Bool :=
  (tgetD s.ten.queues (sourceFn src) {}).store.any (fun e => e.source == src && e.kind == 1)

/-- Raise the `MAILBOX` record of mailbox k of a tenant, unless the previous message still waits. -/
def sendMail (t k : Nat) (v : Word) (s : State) : State :=
  let src := 0x800 + 8 * t + k
  if (tgetD s.ten.mbx (t * 8 + k) {}).busy then s
  else
    let s1 := raiseNow src 0x01 (k % 4 * 2 ^ 32 + v.toNat) s
    if mailPending s1 src then modTen (fun u => { u with mbx := tmod u.mbx (t * 8 + k) {} fun m => { m with busy := true } }) s1 else s1

/-- The management function writes mailbox 0 to 3 of a tenant: dropped for one that is `RESETTING` or `ABSENT`, discarded for one that is
`DETACHED` (R383, R512). -/
def mgmtMail (t k : Nat) (v : Word) (s : State) : State :=
  match (tget s.ten.tenants t).map Tenant.state with
  | some .active => sendMail t k v s
  | some .detached => s
  | _ => modTen (fun u => { u with mbx := tmod u.mbx (t * 8 + k) {} fun m => { m with drop := true } }) s

/-- A write of `MBX_STAT` of a tenant's management mailbox block: bits 8 to 11 clear `MBX_DROP`. -/
def clearDrops (t : Nat) (v : Word) (s : State) : State :=
  forEach ((List.range 4).filter (fun k => v.getLsbD (8 + k))) s fun k s =>
    modTen (fun u => { u with mbx := tupd u.mbx (t * 8 + k) fun m => { m with drop := false } }) s

/-! ### Readiness, reset and lane status blocks (R498 to R501, R503, R504) -/

/-- A write of 1 clears bits of `ALERT_STAT` (R499), but those that the device has set in this pick (R518). -/
def clearAlert (v : Word) (s : State) : State :=
  let stays := if s.boot.alertAt = s.spc then s.boot.alertNew else 0
  { s with boot := { s.boot with alertStat := s.boot.alertStat &&& (~~~(v.setWidth 9) ||| stays) } }

/-- A write of `ALERT_EN`: bits 1 and 0 are fixed. -/
def writeAlertEn (v : Word) (s : State) : State := { s with boot := { s.boot with alertEn := (v.setWidth 9 &&& 0x1FC) ||| 3 } }

/-- `WARM_REQ` with the key (R501): the wear counters are written, the primary yields, and the reset comes at the next pick boundary. -/
def requestWarm (v : Word) (s : State) : State :=
  if bits v 31 16 = 0x5A17 ∧ bits v 0 0 = 1 ∧ s.boot.warmReq.isNone then
    let s1 := yieldPair 3 (wearForReset s)
    { s1 with boot := { s1.boot with warmReq := some 3 } }
  else s

end Sys2Proof.Machine
end

