-- ==== Sys2Proof/Machine/BootOps.lean ====
section
/-! DEFINITION. What the resets, the stops of the plant and the start of the device share (R16, R442 to R470, R529). -/

namespace Sys2Proof.Machine

/-- Change the bring-up unit. -/
def modBoot (f : Boot → Boot) (s : State) : State := { s with boot := f s.boot }

/-! ### Stopping chains and lanes -/

/-- Stop a powered chain at once: its procedures and pending changes end with ST_ABORTED, a power-off that waits is done (R74). -/
def cutChain (c : Nat) (s : State) : State :=
  let x := chainOf s c
  let s1 := endProc c ST_ABORTED s
  let s2 := match x.parkAt with
    | some (_, r) => finish r ST_ABORTED s1
    | none => s1
  let s3 := match x.unwrapAt with
    | some (_, r) => finish r ST_ABORTED s2
    | none => s2
  let s4 := if x.offAt.isSome then completeDeferred (.powerOff c) ST_OK [] s3 else s3
  forEach (occPosns s4 c) (stopChain .unpowered .unpowered c s4) onSilent

/-- Powered chains. -/
def poweredChains (s : State) : List Nat := tkeys s.line.chains (fun _ x => powered x)

/-- Stop every frame and carrier of the chains given. -/
def cutChains (l : List Nat) (s : State) : State := forEach l s cutChain

/-- A lane stops sending and receiving: its bring-up ends with ST_ABORTED, a running lane goes down (R16, R478). -/
def cutLane (l : Nat) (s : State) : State :=
  let x := laneOf s l
  if x.lstate = .down || x.lstate = .failed then s
  else
    let s1 := modLane l (fun x => { x with lstate := .down, cmd := none, cdr := false, marker := false, marks := 0 }) s
    let s2 := match x.cmd with
      | some c => finish c ST_ABORTED s1
      | none => s1
    if x.lstate = .run then laneEvent l 0x20 (noteLane l 0 s2) else s2

/-- Stop every lane; twin lanes carry nothing for the twin any more. -/
def cutLanes (s : State) : State :=
  let s1 := forEach (s.lane.lanes.map (·.1)) s cutLane
  { s1 with lane := { s1.lane with bridges := [], forwarded := [], uses := [], backfills := [], words := [] } }

/-- Carriers and drivers of every local port go off: a powered ring is broken at both ports, its positions are lost, and it returns by
`CHAIN.POWER` or `CHAIN.RESET`; a parked ring stays parked (R39, R529, R544). -/
def dropPorts (s : State) : State :=
  forEach ((poweredChains s).filter isLocal) s fun c s =>
    let ps := occPosns s c
    let s1 := forEach ps (cutChain c s) losePosition
    let s2 := modChain c (fun x => { x with offA := true, offB := true }) s1
    noteRing c 2 (ringEvent c 0x17 1 (ringEvent c 0x17 0 s2))

/-! ### Resets (R444, R445, R493) -/

/-- The island at a reset: cleared but for the levels of its input lines, whose low lines are demands again (R321, R339); a scan that is still
in force keeps it from `RUN` (R467). -/
def freshIsland (s : State) (scan : Bool) : SafeUnit :=
  let low := (List.range 4).filter (fun k => !(s.safe.inA.testBit k && s.safe.inB.testBit k))
  { inA := s.safe.inA, inB := s.safe.inB, demand := (low.map (2 ^ ·)).sum, startCauses := if scan then [LC_SCAN] else [] }

/-- Set a bit of `RST_CAUSE` (R500). -/
def withCause (bit : Nat) (x : BitVec 9) : BitVec 9 := x ||| BitVec.ofNat 9 (2 ^ bit)

/-- A cold reset is recognised: the primary yields, and every unit is cleared but the always-on domain, NVM and OTP. The PCIe link's reset
pin keeps its level. The RWS registers are cleared, `ALERT_STAT` is not. -/
def coldReset (bit : Nat) (s : State) : State :=
  let k := keepNvm (yieldPair 3 s)
  let b : Boot :=
    { rstCause := withCause bit k.boot.rstCause, alertStat := k.boot.alertStat, wakeLatch := k.boot.wakeLatch
      wakeSet := k.boot.wakeSet, vlineOk := k.boot.vlineOk
      linkUp := k.boot.linkUp, aonCounted := k.boot.aonCounted, zeroising := k.boot.zeroising }
  { time := { k.time with ptm := none }, otp := k.otp, nvm := k.nvm, boot := b, safe := freshIsland k false, out := k.out
    pending := k.pending, fresh := k.fresh }

/-- A reading from which a cold reset proceeds after a thermal shutdown (R479). -/
def coolEnough (s : State) : Bool := s.therm.reading.elim false (fun x => decide (x < 108000))

/-- A cold reset in thermal shutdown is held until the reading is known and below 108.0 °C (R479, R544); one in force goes on. -/
def raiseCold (bit : Nat) (s : State) : State :=
  match s.boot.phase with
  | .running => coldReset bit s
  | .shutdown => if coolEnough s then coldReset bit s else modBoot (fun b => { b with heldCold := true, rstCause := withCause bit b.rstCause }) s
  | .coldHeld => modBoot (fun b => { b with releaseWaits := false }) s
  | .off => s

/-- Units under `HK.BIST` at a warm reset are what they were before: fenced, or spares. -/
def settleUnits (b : Boot) : Tbl UnitRec :=
  forEach b.bistRuns b.units fun x t => tupd t (x.1 * 256 + x.2.1) (fun y => { y with ustate := if x.2.2.1 then .spare else .fenced })

/-- A warm reset: as a cold reset, but BIST does not run, and the PCIe link, the configuration space, the RWS registers and the fence map
are kept. An update of a pair goes on after it (R436). -/
def warmReset (bit : Nat) (s : State) : State :=
  let k := keepNvm s
  let b : Boot :=
    { phase := .running, releasedAt := k.spc, units := settleUnits k.boot, alertStat := k.boot.alertStat, alertEn := k.boot.alertEn
      rstCause := withCause bit k.boot.rstCause, scratch := k.boot.scratch, linkUp := k.boot.linkUp, aonCounted := k.boot.aonCounted
      wakeLatch := k.boot.wakeLatch, wakeSet := k.boot.wakeSet, vlineOk := k.boot.vlineOk, scan := k.boot.scan, zeroising := k.boot.zeroising, zeroised := k.boot.zeroised, sessionKeys := k.boot.sessionKeys }
  let upd := k.cmd.unfinished.filter (fun u => u.op == 0x0D03 && k.pair.updating == some (some u.ref))
  let s1 : State :=
    { time := k.time, otp := k.otp, boot := b, out := k.out, pending := k.pending, fresh := k.fresh
      nvm := { k.nvm with coldRun := k.nvm.coldRun + 1 }
      safe := freshIsland k k.boot.scan
      loom := { tileMap := k.loom.tileMap, fenced := k.loom.fenced }
      trace := { gating := tkeys b.units (fun u x => u / 256 == 1 && x.ustate == .spare) |>.map (fun u => (u, true)) }
      ten := { vfEnable := k.ten.vfEnable, numVfs := k.ten.numVfs }
      cmd := { unfinished := upd }
      pair := { updating := k.pair.updating, step := k.pair.step, imageWords := k.pair.imageWords, imageHead := k.pair.imageHead } }
  traceMarker 6 0xC 0 [wd s1.nvm.coldRun] s1

/-- Ask for a warm reset with a cause: the wear counters are written, the primary yields, and the reset comes at the next pick boundary
(R444, R445, R501). -/
def askWarm (bit : Nat) (s : State) : State :=
  if s.boot.warmReq.isSome then s else modBoot (fun b => { b with warmReq := some bit }) (yieldPair 3 (wearForReset s))

/-! ### Self-test, fences and spares (R451 to R458) -/

/-- The logical tiles of the variant, ascending. -/
def logicalTiles (s : State) : List Nat := (List.range 65).filter (tileExists s.otp.variant)

/-- Fence the logical tiles homed on a fenced stack; tile 64 moves to the next working stack while there is one (R457). -/
def fenceHomes (s : State) : State :=
  forEach ((logicalTiles s).filter (fun t => fencedUnit s 6 (stackOf s t))) s fenceTile

/-- After tile BIST, in ascending order, each logical tile whose physical tile is not in use moves to the lowest spare, or is fenced (R455). -/
def assignTiles (s : State) : State :=
  if !classTested s 1 68 then s
  else forEach (logicalTiles s) s fun t s =>
    if s.loom.fenced.contains t || ustate s 1 (physOf s t) == .ready then s
    else match freeSpare s with
      | some u => useSpare t u s
      | none => fenceTile t s

/-- A fenced chiplet fences all 32 ports (R456). -/
def fencePorts (src : Nat) (s : State) : State :=
  if fencedUnit s 8 32 then forEach (List.range 32) s (fun u s => setUnit 8 u (fun x => { x with ustate := .fenced, fenceSrc := src }) s) else s

/-- What follows a change of readiness: WAKE_N acts, and the island leaves `START` (R75, R321). -/
def settleReady (s : State) : State := leaveStart (actOnWake (refreshReady s))

/-- Every unit of the variant, class by class, the physical tiles and the chiplet among them. -/
def bistUnits (s : State) : List (Nat × Nat) :=
  (List.range 12).flatMap fun c => ((List.range 128).filter (unitExists s.otp.variant (c + 1))).map fun u => (c + 1, u)

/-- Units fenced by a BIST record in force are not tested (R458). -/
def fenceRecorded (s : State) : State :=
  forEach ((bistUnits s).filter (fun x => lastFence s x.1 x.2 == some 1)) s fun x s =>
    setUnit x.1 x.2 (fun y => { y with ustate := .fenced, fenceSrc := 3 }) s

/-- The device leaves reset (R448, R449, R451, R458): the run counts are incremented, BIST begins, and units fenced by a BIST record are not
tested. -/
def releaseCold (s : State) : State :=
  let hot := s.nvm.thermal.any (fun x => x.getD 5 0 == wd s.nvm.coldRun)
  let n := { s.nvm with aonRun := s.nvm.aonRun + b2n (!s.boot.aonCounted), coldRun := s.nvm.coldRun + 1 }
  let b : Boot :=
    { s.boot with
      phase := .running, releaseWaits := false, releasedAt := s.spc, aonCounted := true
      rstCause := if hot then withCause 8 s.boot.rstCause else s.boot.rstCause }
  let s1 := traceMarker 6 0xC 0 [wd n.coldRun] { s with nvm := n, boot := b }
  settleReady (assignTiles (fenceHomes (fencePorts 3 (fenceRecorded s1))))

/-- A release that waited for REFCLK takes effect once REFCLK has been back for 1 ms (R470). -/
def releaseWaiting (s : State) : State :=
  if s.boot.phase == .coldHeld && s.boot.releaseWaits && s.time.refclkOk && s.time.heldOver.head?.elim true (fun e => decide (e.2 + 100 ≤ s.spc))
  then releaseCold s else s

/-- A unit that passed its test is in use; physical tiles above logical tile 64 are spares (R107). -/
def passUnit (cls u : Nat) (s : State) : State :=
  let st : UState := if cls = 1 ∧ 64 < u then .spare else .ready
  setUnit cls u (fun x => { x with ustate := st, fenceSrc := 0, result := 0, run := s.nvm.coldRun, spc := s.spc }) s

/-- A unit that failed its test is fenced and recorded (R458), with what follows for its class. -/
def failUnit (cls u result : Nat) (s : State) : State :=
  let s1 := recordFence cls u 1 result
    (setUnit cls u (fun x => { x with ustate := .fenced, fenceSrc := 1, result := result, run := s.nvm.coldRun, spc := s.spc }) s)
  let s2 := if cls = 12 then setAlert 1 s1 else s1
  if cls = 8 ∧ u = 32 then fencePorts 1 s2 else if cls = 6 then fenceHomes s2 else s2

/-- BIST waits for VLINE at a local port (R544). -/
def awaitsVline (s : State) (cls u : Nat) : Bool := cls == 8 && decide (u < 32) && !s.boot.vlineOk

/-! ### What a start takes from NVM (R447, R461, R468) -/

/-- Offsets of the partitions of R459. -/
def P_SELECTOR : Nat := 0x06000000
def P_CONFIG : Nat := 0x06020000
def P_SAFETY : Nat := 0x06820000
def P_PASSWORD : Nat := 0x06B20000
def P_WEAR : Nat := 0x06C40000
def P_FENCES : Nat := 0x06E40000
def P_ZERO : Nat := 0x06E80000
def P_LOG : Nat := 0x06A20000

/-- The partition that an offset lies in. -/
def partitionOf (x : Nat) : Nat := ((partitions.filter (fun p => decide (p.1 ≤ x))).map (·.1)).foldl max 0

/-- The copies of a partition of a size, in its two halves, that a start finds failing their check (DEDUCED, log 18). -/
def failCopies {α : Type} (bad : List Nat) (base size : Nat) (c : Copies α) : Copies α :=
  let f (off : Nat) (x : NvmCopy α) : NvmCopy α := if bad.contains off then { x with good := false } else x
  { c with a := c.a.map (f base), b := c.b.map (f (base + size / 2)) }

/-- The copies as a start finds them. -/
def foundCopies (bad : List Nat) (c : NvmCopies) : NvmCopies :=
  { selector := failCopies bad P_SELECTOR (128 * 2 ^ 10) c.selector, config := failCopies bad P_CONFIG (8 * 2 ^ 20) c.config
    safety := failCopies bad P_SAFETY (2 * 2 ^ 20) c.safety, password := failCopies bad P_PASSWORD (128 * 2 ^ 10) c.password
    wear := failCopies bad P_WEAR (2 * 2 ^ 20) c.wear }

/-- A partition fell back: it has no valid copy, or a copy later than the one it takes is not valid (R461, R469). -/
def fellBack {α : Type} (c : Copies α) : Bool :=
  match c.newest with
  | none => true
  | some b => (c.side (!b)).elim false fun x => !x.good && (c.side b).elim false (fun y => laterGen x.gen y.gen)

/-- The partitions of two copies that fell back. -/
def fallen (c : NvmCopies) : List Nat :=
  (if fellBack c.selector then [P_SELECTOR] else []) ++ (if fellBack c.config then [P_CONFIG] else [])
    ++ (if fellBack c.safety then [P_SAFETY] else []) ++ (if fellBack c.password then [P_PASSWORD] else [])
    ++ (if fellBack c.wear then [P_WEAR] else [])

/-- Partitions of single records of which one is bad. -/
def badRecords (bad : List Nat) : List Nat :=
  ((bad.map partitionOf).filter (fun p => p == P_FENCES || p == P_ZERO || p == P_LOG)).eraseDups

/-- Drop the records of a list that lie at bad offsets of a partition of 32-byte records. -/
def dropRecords {α : Type} (base : Nat) (bad : List Nat) (l : List α) : List α :=
  (l.zipIdx.filter (fun x => !bad.contains (base + 32 * x.2))).map (·.1)

/-- A change-log entry at a bad offset breaks the chain there and reads back as it may (R461; log 18). -/
def breakEntry (bad : List Nat) (e : LogEntry) : LogEntry :=
  if bad.contains (P_LOG + 64 * (e.seq % 4096)) then
    { e with broken := true, words := (List.range 16).map (Config.logWord e.seq) }
  else e

/-- NVM as a start takes it (R461): of each partition the valid copy with the later generation, else its defaults; single records that fail are
ignored. -/
def dropBad (bad : List Nat) (n : NvmUnit) : NvmUnit :=
  let k := takeCopies { n with copies := foundCopies bad n.copies }
  { k with
    safety := { k.safety with log := k.safety.log.map (breakEntry bad) }
    fences := dropRecords P_FENCES bad n.fences, zero := dropRecords P_ZERO bad n.zero }

/-- Restore the configuration (R447). -/
def restoreConfig (k : Kept) (s : State) : State :=
  { s with
    map := { s.map with bind := k.bind }
    loom := { s.loom with depth := k.depth }
    lane := { s.lane with pairs := k.lanePairs }
    chg := { s.chg with groups := tmap k.groups fun _ g =>
      { g with a := g.aInit, state := .hold, changed := true, vref := 0, tEnd := 0, demand := 0 } }
    pair := { s.pair with pid := k.pid, laneMap := k.laneMap }
    line := { s.line with chains := forEach k.parked s.line.chains (fun c t => tmod t c {} fun x => { x with mode := .parked }) }
    trace := { s.trace with mask := k.traceMask, spill := k.traceSpill }
    ten := { s.ten with srcTab := k.srcTab } }

/-- Load the island: window sets, assignments, armed state, I/O configuration, device settings, password, change log (R325). Without a valid
safety partition it starts in lockout with cause `CFG` and nothing is armed. -/
def restoreSafety (k : KeptSafety) (s : State) : State :=
  modSafe (fun u =>
    { u with
      sets := k.sets, armed := if k.written then k.armed else [], assign := k.assign, ioEn := k.ioEn, inputs := k.inputs, startLocked := k.startLocked
      password := k.password, log := k.log, logSeq := k.logSeq, logLost := k.logLost
      startCauses := if k.written then u.startCauses else u.startCauses ++ [LC_CFG], bad := if k.written then u.bad else [4096] }) s

/-- A zeroisation that this start is the first to follow is reported, and the island starts in lockout with cause `SCAN` (R468, R469). -/
def reportZero (s : State) : State :=
  if s.nvm.zeroPending && !s.boot.scan then
    let run := ((s.nvm.zero.getLast?.getD []).getD 1 0).toNat
    raiseNow 0x744 0xCE run { modSafe (fun u => { u with startCauses := u.startCauses ++ [LC_SCAN] }) s with nvm := { s.nvm with zeroPending := false } }
  else s

/-! ### Images and trials (R464 to R466) -/

/-- The slot that the boot ROM chooses: the preferred one, else the other, else none. -/
def chooseSlot (s : State) (validA validB : Bool) : Option Bool :=
  let ok (b : Bool) : Bool := (if b then validB else validA) && (slotImage s b).elim false (imageFits s)
  if ok s.nvm.prefB then some s.nvm.prefB else if ok (!s.nvm.prefB) then some (!s.nvm.prefB) else none

/-- The event of a trial passed or failed, or of a fallback to the other slot (R469). -/
def trialEvent (passed fell b : Bool) (s : State) : State :=
  raiseNow 0x741 0xCA (b2n passed + b2n fell * 2 + b2n b * 2 ^ 8) s

/-- Run the image of a slot. -/
def runImage (b : Bool) (img : FwImage) (s : State) : State :=
  let fell := b != s.nvm.prefB
  let trial := s.nvm.trialFlag && !fell
  let changed := img.safetyVersion != s.nvm.safetyRun && s.pair.updating.isNone
  let s1 := modBoot (fun x =>
    { x with
      imageVerified := true, slotB := b, fallback := fell, fwVersion := img.version, safetyVersion := img.safetyVersion
      cpPart := img.cmdPart, mgmtPart := img.mgmtPart, trial := if trial then some x.releasedAt else none, trialJudged := false }) s
  let s2 := modSafe (fun u => { u with startCauses := if changed then u.startCauses ++ [LC_FW_SAFETY] else u.startCauses }) s1
  let failed := s.nvm.trialFlag && fell
  let s3 := { s2 with nvm := { s2.nvm with
    safetyRun := img.safetyVersion, trialFlag := s2.nvm.trialFlag && !failed, trialFailed := s2.nvm.trialFailed || failed
    prefB := if failed then b else s2.nvm.prefB } }
  if fell then trialEvent false true b s3 else s3

/-- The readiness bits that a trial needs: those that the variant and the fences allow, `LANES` and `PAIR` apart (R464). -/
def trialBits (s : State) : BitVec 16 :=
  let some_ (cls n : Nat) : Bool := (List.range n).any (fun u => unitExists s.otp.variant cls u && !fencedUnit s cls u)
  let loom := (logicalTiles s).any (fun t => !s.loom.fenced.contains t)
  let loc := loom && !s.loom.fenced.contains 64 && !fencedUnit s 8 32 && some_ 8 32
  let safety := !fencedUnit s 11 0
  let l : List Bool :=
    [true, true, true, safety, loom, loc, false, loom, loom && some_ 2 16, loom, loom && some_ 3 32, loom && safety, some_ 7 8, false, true, true]
  BitVec.ofNat 16 (ofBits l.reverse)

/-- A trial fails: the other slot is preferred and the device resets onto it. -/
def failTrial (s : State) : State :=
  let s1 := trialEvent false false s.boot.slotB
    (modBoot (fun b => { b with trial := none }) { s with nvm := { s.nvm with prefB := !s.boot.slotB, trialFlag := false, trialFailed := true } })
  askWarm 5 s1

/-- Raise the OTP minimum security version to the lower of the two slots', when both hold valid images (R466). -/
def raiseMinimum (s : State) : State :=
  match s.nvm.slotA, s.nvm.slotB with
  | some a, some b =>
    let n := min a.secVer b.secVer
    if s.otp.minSecVer < n then
      imageEvent 2 s.boot.slotB n (traceMarker 7 0xC 0 [wd n] { s with otp := { s.otp with minSecVer := n } })
    else s
  | _, _ => s

/-- A trial passes. -/
def passTrial (s : State) : State :=
  raiseMinimum (trialEvent true false s.boot.slotB
    (modBoot (fun b => { b with trial := none, trialJudged := false }) { s with nvm := { s.nvm with trialFlag := false, trialFailed := false } }))

end Sys2Proof.Machine
end

