-- ==== Sys2Proof/Machine/Boot.lean ====
section
/-! DEFINITION. The rows of power, resets, self-test, images, REFCLK, VLINE and scan (chapters 01, 15, 18). -/

namespace Sys2Proof.Machine

/-! ### Power and resets (R20, R442 to R445, R479) -/

/-- VDD_AON_APPLIED (R20): a power-on reset; NVM and OTP keep their content. -/
def execVddAonApplied (s : State) : Host.Outcome State Fault Refusal :=
  let k := keepNvm s
  .next { State.reset with otp := k.otp, nvm := k.nvm, out := k.out, pending := k.pending, fresh := k.fresh }

/-- VDD_AON_REMOVED (R20): the SPC and every state of the device end. -/
def execVddAonRemoved (s : State) : Host.Outcome State Fault Refusal :=
  let k := keepNvm s
  .next { time := { powered := false }, otp := k.otp, nvm := k.nvm, boot := { phase := .off }, out := k.out, pending := k.pending, fresh := k.fresh }

/-- COLD_RESET (R442, R445): COLD_RST_N is recognised. -/
def execColdReset (s : State) : Host.Outcome State Fault Refusal := .next (raiseCold 1 s)

/-- SUPPLY_MONITOR_TRIP (R442): VDD_CORE, VDD_SRAM, AVDD_SER or an HBM rail, by its housekeeping position. -/
def execSupplyMonitorTrip (rail : Nat) (s : State) : Host.Outcome State Fault Refusal :=
  onObject (decide (3 ≤ rail) && decide (rail ≤ 19) && rail != 9) (raiseCold 2 s)

/-- HELD_COLD_RESET_PROCEEDS (R479). -/
def execHeldColdResetProceeds (s : State) : Host.Outcome State Fault Refusal :=
  .next (if s.boot.phase == .shutdown && s.boot.heldCold && coolEnough s then coldReset 1 s else s)

/-- COLD_RST_RELEASE (R448, R449, R470). Without REFCLK the device stays in reset. -/
def execColdRstRelease (s : State) : Host.Outcome State Fault Refusal :=
  .next (if s.boot.phase != .coldHeld then s
  else if s.time.refclkOk then releaseCold s
  else modBoot (fun b => { b with releaseWaits := true }) s)

/-- MGMT_CORE_WATCHDOG (R444, R470): a warm reset; in the 600 s of a trial the trial fails. -/
def execMgmtCoreWatchdog (s : State) : Host.Outcome State Fault Refusal :=
  .next (if s.up then
    if s.boot.trial.isSome && s.boot.trialJudged then failTrial (askWarm 4 s) else askWarm 4 s
  else s)

/-- WARM_RESET_RECOGNISED (R444, R445, R501). -/
def execWarmResetRecognised (s : State) : Host.Outcome State Fault Refusal :=
  .next (match s.boot.warmReq with
  | some bit => if s.up then warmReset bit s else s
  | none => s)

/-- PCIE_RESET (R444, R493): the PCIe controller, the management function's transport and event queue are cleared without completions, and
every tenant is reset with cause 2. -/
def execPcieReset (kind : PcieResetKind) (s : State) : Host.Outcome State Fault Refusal :=
  let bit : Nat := match kind with
    | .perst => 6
    | _ => 7
  .next (if s.boot.phase == .off then s
  else
    let s1 := if s.boot.fnReady.getLsbD 0 then setAlert 8 s else s
    let s2 := modBoot (fun b => { b with linkUp := false, rstCause := withCause bit b.rstCause }) { s1 with time := { s1.time with ptm := none } }
    let s3 := resetDisabled (modTen (fun u => { u with vfEnable := false, numVfs := 0 }) s2)
    refreshReady (clearQueue mgmt (clearTransport mgmt s3)))

/-- PERST_N_RELEASE (R450): the link trains, and `HOST` is set once its other conditions hold. It stands for the release of any PCIe reset. -/
def execPerstNRelease (s : State) : Host.Outcome State Fault Refusal :=
  .next (if s.boot.phase == .off || s.boot.phase == .shutdown then s else settleReady (modBoot (fun b => { b with linkUp := true }) s))

/-- TEST_LOGIC_RESET (R445): it acts on the test access port alone, which holds no state of the block. -/
def execTestLogicReset (s : State) : Host.Outcome State Fault Refusal := .next s

/-! ### Self-test, NVM and images (R451 to R468) -/

/-- BIST_UNIT_DONE (R451, R455 to R458). A test that ends after a thermal shutdown is not recorded (R470). -/
def execBistUnitDone (cls unit result : Nat) (s : State) : Host.Outcome State Fault Refusal :=
  let rerun : Bool := s.boot.bistRuns.any (fun x => x.1 == cls && x.2.1 == unit)
  onObject (unitExists s.otp.variant cls unit)
    (if s.up && ustate s cls unit == .testing && !rerun && !awaitsVline s cls unit then
      settleReady (assignTiles (if result = 0 then passUnit cls unit s else failUnit cls unit result s))
    else s)

/-- NVM_PARTITIONS_LOADED (R447, R460, R461): `bad` are the offsets of the copies of partitions, and of the single records, that fail their check. -/
def execNvmPartitionsLoaded (bad : List Nat) (s : State) : Host.Outcome State Fault Refusal :=
  .next (if s.up && !s.boot.nvmLoaded then
    let k := keepNvm s
    let s1 := { s with nvm := dropBad bad k.nvm }
    let s2 := forEach (fallen s1.nvm.copies ++ badRecords bad) s1 (fun b s => raiseNow 0x742 0xCC b (setAlert 7 s))
    let s3 := if s1.nvm.copies.wear.held.isNone then raiseNow 0x710 0xC6 1 s2 else s2
    let s4 := restoreSafety s3.nvm.safety (restoreConfig s3.nvm.kept { s3 with wear := { s3.nvm.wear with written := 0 } })
    let s5 := reportZero (modPair (fun u => { u with key := s4.nvm.pairKey }) s4)
    settleReady (modBoot (fun b => { b with nvmLoaded := true }) s5)
  else s)

/-- BOOT_IMAGE_VERIFIED (R463 to R465): the ROM runs the preferred image, else the other, else stays in its ROM. -/
def execBootImageVerified (validA validB : Bool) (s : State) : Host.Outcome State Fault Refusal :=
  .next (if s.up && !s.boot.imageVerified && !s.boot.romOnly && !fencedUnit s 12 0 then
    match chooseSlot s validA validB with
    | some b => settleReady (runImage b ((slotImage s b).getD {}) s)
    | none => settleReady (setAlert 1 (modBoot (fun x => { x with romOnly := true }) s))
  else s)

/-- TRIAL_BOOT_DEADLINE (R464): 30 s after the reset. -/
def execTrialBootDeadline (s : State) : Host.Outcome State Fault Refusal :=
  .next (match s.boot.trial with
  | some t =>
    if s.up && !s.boot.trialJudged && decide (t + 3000000 ≤ s.spc) then
      if trialBits s &&& ~~~s.boot.fnReady = 0 then modBoot (fun b => { b with trialJudged := true }) s else failTrial s
    else s
  | none => s)

/-- TRIAL_BOOT_PASSED (R464, R466): 600 s more without a firmware watchdog. -/
def execTrialBootPassed (s : State) : Host.Outcome State Fault Refusal :=
  .next (match s.boot.trial with
  | some t => if s.up && s.boot.trialJudged && decide (t + 63000000 ≤ s.spc) then passTrial s else s
  | none => s)

/-! ### REFCLK and VLINE (R16, R529, R544) -/

/-- REFCLK_LOSS (R16). -/
def execRefclkLoss (s : State) : Host.Outcome State Fault Refusal :=
  let s1 := { s with time := { s.time with refclkOk := false, holdover := true, holdoverFrom := s.spc } }
  .next (if s.boot.phase == .off || !s.time.refclkOk then s
  else if s.up then refreshReady (enterLockout LC_REFCLK (cutLanes (cutChains (poweredChains s1) s1)))
  else s1)

/-- REFCLK_RELOCK (R16): the next boundary follows the holdover count, with a step of less than one pick. -/
def execRefclkRelock (step : Nat) (s : State) : Host.Outcome State Fault Refusal :=
  onObject (decide (step < 1024))
    (if s.boot.phase == .off || s.time.refclkOk then s
    else traceMarker 5 0xC 0 [wd step] { s with time := { s.time with 
      refclkOk := true, holdover := false, relockStep := step
      heldOver := (s.time.holdoverFrom, s.spc) :: s.time.heldOver.filter (fun e => decide (s.spc < e.2 + 10000)) } })

/-- VLINE_OUT_OF_RANGE (R529). -/
def execVlineOutOfRange (s : State) : Host.Outcome State Fault Refusal :=
  .next (if s.boot.phase == .off then s
  else
    let s1 := modBoot (fun b => { b with vlineOk := false }) s
    if s.up then dropPorts s1 else s1)

/-- VLINE_BACK_IN_RANGE (R529, R544). -/
def execVlineBackInRange (s : State) : Host.Outcome State Fault Refusal :=
  .next (if s.boot.phase == .off then s else modBoot (fun b => { b with vlineOk := true }) s)

/-! ### Scan (R467 to R470) -/

/-- A firmware staging in progress is given up: its slot is already invalid. -/
def dropStaging (s : State) : State :=
  match s.boot.staging with
  | some (_, ref) => finish ref ST_ABORTED (modBoot (fun b => { b with staging := none, stageHead := [] }) s)
  | none => s

/-- SCAN_INSTRUCTION (R467): any instruction but IDCODE, BYPASS and SAMPLE/PRELOAD. A second one after the zeroisation writes nothing
again (R470). -/
def execScanInstruction (opcode : Nat) (s : State) : Host.Outcome State Fault Refusal :=
  .next (if s.boot.phase == .off then s
  else
    let b := fun (x : Boot) => { x with scan := true, zeroising := if x.zeroised then x.zeroising else some (x.zeroising.getD opcode) }
    let s1 := modBoot b s
    let s2 := modSafe (fun u => { u with kill := true }) s1
    if s.up then dropStaging (enterLockout LC_SCAN (cutChains (poweredChains s2) s2)) else s2)

/-- ZEROISATION_DONE (R467): keys and password are gone, and the record and the log entry are written. -/
def execZeroisationDone (s : State) : Host.Outcome State Fault Refusal :=
  .next (match s.boot.zeroising with
  | some op =>
    if s.boot.phase == .off then s
    else
      let x := sealRecord ([wd s.nvm.aonRun, wd s.nvm.coldRun] ++ wd64 s.spc ++ [wd op, wd s.nvm.zseq, 0])
      let s1 := modPair (fun u => { u with key := false }) (modSafe (fun u => { u with password := none }) s)
      let s2 := { s1 with nvm := { s1.nvm with
        zero := s1.nvm.zero ++ [x], zseq := s1.nvm.zseq + 1, pairKey := false, zeroPending := true
        safety := { s1.nvm.safety with password := none }
        copies := { s1.nvm.copies with password := unwrapped s1.nvm.copies.password } } }
      modBoot (fun b => { b with zeroising := none, zeroised := true, sessionKeys := false }) (if s.boot.nvmLoaded then logChange 0x0C mgmt 0 [wd op] s2 else s2)
  | none => s)

end Sys2Proof.Machine
end

