-- ==== Sys2Proof/Machine/CalStats.lean ====
section
/-! DEFINITION. The statistics of calibration runs and the candidates that they give (R204 to R207, R210, R211). -/

namespace Sys2Proof.Machine

/-! ### Linear equations -/

/-- Gauss–Jordan elimination of n columns from column c on: the rows done, and the rows left; none when the matrix is singular. -/
def eliminate : Nat → Nat → List (List Rat) → List (List Rat) → Option (List (List Rat))
  | 0, _, done, _ => some done
  | n + 1, c, done, rest =>
    match rest.find? (fun r => r.getD c 0 != 0) with
    | none => none
    | some r =>
      let p := r.map (fun x => x / r.getD c 0)
      let clear (x : List Rat) : List Rat := (x.zip p).map fun y => y.1 - x.getD c 0 * y.2
      eliminate n (c + 1) (done.map clear ++ [p]) ((rest.erase r).map clear)

/-- The inverse of an n by n matrix. -/
def inverse (n : Nat) (a : List (List Rat)) : Option (List (List Rat)) :=
  (eliminate n 0 [] (a.zipIdx.map fun r => r.1 ++ (List.range n).map (fun j => if j = r.2 then 1 else 0))).map (·.map (·.drop n))

/-! ### References (R204) -/

/-- ρ of a run: the mean of its position-0 dwell values, which read reference A in units of 0.1 µV at the factory value of reference B. -/
def rhoMean (t : TagCal) (x : CalStat) : Rat := prodMean x.rho 0 / (t.refB * 10 : Nat)

/-- ρ less the factory ratio, in 0.01 ppm of it. -/
def rhoMove (t : TagCal) (x : CalStat) : Int := nearestInt ((rhoMean t x * (t.refB : Nat) / (t.refA : Nat) - 1) * 100000000)

/-- V_A over `REF_A_UV`: sqrt(REF_A REF_B ρ) / REF_A; V_B over `REF_B_UV` is its inverse. -/
def scaleA (t : TagCal) (x : CalStat) : Rat := sqrtRat (rhoMean t x * (t.refB : Nat) / (t.refA : Nat))
def scaleB (t : TagCal) (x : CalStat) : Rat := 1 / scaleA t x

/-! ### What a run takes (R204, R205) -/

/-- A sample that a procedure may take. -/
def takesSample (x : Sample) : Bool := !x.flags.gap && !x.flags.ovr && !x.flags.trans

/-- A run goes on, and a period of 200 picks lies within it. -/
def inRunTime (s : State) (r : CalRun) (k : Nat) : Bool :=
  runGoes r && decide (r.start ≤ 200 * k) && decide (s.spc ≤ r.start + 100000 * r.deadline)

/-- Primary periods of a run so far. -/
def periodsOf (s : State) (r : CalRun) : Nat :=
  (min s.spc (r.start + 100000 * r.deadline) - 1600) / 200 + 1 - (r.start + 199) / 200

/-- Primary samples of one period of several channels, once each has come; none while one has not. -/
def jointSample (s : State) (chis : List Nat) (k : Nat) : Option (List Sample) :=
  let l := chis.filterMap (fun c => (primaryOf s c).filter (fun x => x.m == k))
  if l.length = chis.length then some l else none

/-- The channels whose primary samples a procedure takes together: the merged current first for the drive voltage. -/
def jointChannels (s : State) (proc p : Nat) : List Nat :=
  match proc with
  | 1 => (List.range 13).map (p * 16 + ·)
  | 3 => [p * 16, p * 16 + 1]
  | 4 => mergedKey p :: (p * 16 + 2) :: (boundTo s p).map (· * 16 + 12)
  | _ => []

/-- `OUT_EN` = 0 has been sent throughout a period and for 100 ms before it (R210). -/
def zeroCurrent (s : State) (p k : Nat) : Bool :=
  (posOf s p).posted.outRuns.all fun e => decide (e.2 + 10000 < 200 * k) || decide (200 * k + 211 < e.1)

/-- Standard deviation of ch0 over the samples of a block is at most 0.9 µV. -/
def quietBlock (l : List (List Int)) : Bool :=
  let n : Int := l.length
  let s1 := (l.map (fun x => geti x 0)).sum
  let s2 := (l.map (fun x => geti x 0 * geti x 0)).sum
  decide (n * s2 - s1 * s1 ≤ 810000 * n * n)

/-- Take one period into the zero-current windows: 200 ms at a time, admitted when its deviation is small enough (R210). -/
def CalStat.takeZero (k : Nat) (zero : Bool) (x : Option (List Int)) (t : CalStat) : CalStat :=
  if !zero then { t with block := [], blockFrom := 0 }
  else
    let t1 : CalStat := if t.blockFrom = 0 ∨ t.blockFrom + 100 ≤ k then { t with block := [], blockFrom := k } else t
    let t2 : CalStat := { t1 with block := t1.block ++ x.toList }
    if k < t2.blockFrom + 99 then t2
    else { t2 with block := [], blockFrom := 0, zero := if quietBlock t2.block then t2.block.foldl (fun m v => addProducts v m) t2.zero else t2.zero }

/-- Take the primary samples of one period of the drive tag into the overlap of ch0 and ch1: ch0 between 4 mV and 36 mV. -/
def CalStat.takeOverlap (x : List Int) (t : CalStat) : CalStat :=
  let a := geti x 0
  if a.natAbs < 4000000 ∨ 36000000 < a.natAbs then t
  else if prodCount t.main = 0 then { t with main := addProducts x t.main, lo := a, hi := a }
  else { t with main := addProducts x t.main, lo := min t.lo a, hi := max t.hi a }

/-- A run takes the primary samples of period k of a tag. -/
def takePrimary (s : State) (r : CalRun) (p k : Nat) (l : List Sample) (t : CalStat) : CalStat :=
  let vs := l.map (·.value)
  let good := l.all takesSample
  match r.proc with
  | 1 => if good then { t with main := addProducts vs t.main } else t
  | 3 =>
    let t1 := t.takeZero k (zeroCurrent s p k) (if good then some vs else none)
    if good then t1.takeOverlap vs else t1
  | 4 =>
    if good && decide ((geti vs 0).natAbs ≤ 2000000) then { t with main := addProducts [(vs.drop 2).sum, geti vs 1] t.main } else t
  | _ => t

/-- Change what the runs that take part have gathered of a position. -/
def modStats (p : Nat) (takes : CalRun → Bool) (f : CalRun → CalStat → CalStat) (s : State) : State :=
  let runs := tmap s.cal.runs fun _ r =>
    if takes r && r.posns.contains p && !thas r.failed p then { r with stats := tmod r.stats p {} (f r) } else r
  { s with cal := { s.cal with runs := runs } }

/-- A primary sample of period k has come: the runs whose samples of the period are complete with it take them. -/
def calPrimary (chi k : Nat) (s : State) : State :=
  let tags := s.cal.runs.flatMap fun e => if inRunTime s e.2 k then e.2.posns.map (fun p => (e.2.proc, p)) else []
  forEach ((tags.filter (fun x => (jointChannels s x.1 x.2).contains chi)).eraseDups) s fun x s =>
    match jointSample s (jointChannels s x.1 x.2) k with
    | some l => modStats x.2 (fun r => r.proc == x.1 && inRunTime s r k) (fun r => takePrimary s r x.2 k l) s
    | none => s

/-! ### Dwells and injections (R204, R207, R208) -/

/-- Mean of the samples of a channel in a dwell that may be taken; none when more than 10 of the 20 may not. -/
def dwellMean (s : State) (chi k : Nat) : Option Rat :=
  let l := (settledOf s chi).filter (fun x => decide (25 * k + 3 ≤ x.m) && decide (x.m ≤ 25 * k + 22) && takesSample x)
  if l.length < 10 then none else some (((l.map (·.value)).sum : Rat) / (l.length : Nat))

/-- K and O of an entry at a tag temperature, K as a factor. -/
def entryK (e : Entry) (t : Int) : Rat := ((e.k - tdivI (e.kt * t) 1000 : Int) : Rat) / 2 ^ 30
def entryO (e : Entry) (t : Int) : Int := e.o + tdivI (e.ot * t) 64000

/-- Value LSB of a unit of ones density on a cell or stack channel, and the density behind a corrected value. -/
def densityUnit (ch : Nat) : Rat := let r := rangeOf .ct12 ch 0; (4 / 3 : Rat) * ((r.2 - r.1 : Int) : Rat)
def densityOf (s : State) (chi : Nat) (v : Rat) : Rat :=
  let e := entryNow s .step chi
  let t := tagTemp s (posOfChi chi)
  (v / entryK e t + (entryO e t : Rat) - ((rangeOf .ct12 (chanOf chi) 0).1 : Rat)) / densityUnit (chanOf chi) + 1 / 8

/-- The injection whose window ends before dwell k: the densities of ch0 to ch12 in its two dwells, those of the cells under reference B as
the tag sent them. None when a mean is wanting, or a cell's means before and after reference B differ by more than 20 µV (R205). -/
def injectionOf (s : State) (p k : Nat) : Option (List (Rat × Rat)) :=
  let rho := rhoOf s p
  let rows := (List.range 13).filterMap fun ch =>
    let chi := p * 16 + ch
    match dwellMean s chi (k - 2), dwellMean s chi (k - 1), dwellMean s chi k with
    | some a, some b, some c =>
      if ch < 12 ∧ (200 < a - c ∨ a - c < -200) then none
      else some (densityOf s chi a, densityOf s chi b * (if ch < 12 then ((rho.1 : Nat) : Rat) / (rho.2 : Nat) else 1))
    | _, _, _ => none
  if rows.length = 13 then some rows else none

/-- Dwell k follows the window of an injection in which the rest has held. -/
def injectionEnded (s : State) (p k : Nat) : Bool :=
  match (diagOf s p).quiet with
  | some (w, .injection) => decide (w + 400 = 200 * k) && !(diagOf s p).spoilt
  | _ => false

/-- A dwell value of a housekeeping position has become final: runs take ρ and the shorted input from it, and the offset procedure the injection
whose window ended before the dwell. -/
def calDwell (p pos k : Nat) (x : Sample) (s : State) : State :=
  let good := takesSample x
  let s1 := if good && pos == 0 then modStats p (fun r => inRunTime s r k) (fun _ t => { t with rho := addProducts [x.value] t.rho }) s
    else if good && pos == 4 then modStats p (fun r => inRunTime s r k && r.proc == 2) (fun _ t => { t with short := addProducts [x.value] t.short }) s
    else s
  if injectionEnded s p k then
    match injectionOf s p k with
    | some l => modStats p (fun r => inRunTime s r (k - 2) && takesInjection r p) (fun _ t => { t with injections := l :: t.injections }) s1
    | none => s1
  else s1

/-! ### Preconditions (R205) -/

/-- Least-squares β of ch12 on ch0 to ch11, and the partial variances of the cells; none when the cells do not vary apart (R206). -/
def gainFit (t : CalStat) : Option (List Rat × List Rat) :=
  (inverse 12 ((List.range 12).map fun i => (List.range 12).map fun j => prodCov t.main i j)).map fun inv =>
    (inv.map (fun r => (r.zipIdx.map (fun x => x.1 * prodCov t.main x.2 12)).sum), inv.zipIdx.map (fun r => 1 / r.1.getD r.2 0))

/-- The cause for which a tag has not met the precondition of its procedure, but for ρ; none once it has. -/
def wants (s : State) (r : CalRun) (p : Nat) : Option Nat :=
  let t := tgetD r.stats p {}
  let time := decide (r.start + 100000 * r.window ≤ s.spc)
  let n := prodCount t.main
  let base := prodCount t.rho != 0 && (tagCal s p).refA != 0 && (tagCal s p).refB != 0
  match r.proc with
  | 1 =>
    if n * 10 < periodsOf s r * 9 ∨ n = 0 then some 7
    else if prodCov t.main 12 12 < 10000 ^ 2 then some 5
    else if !((gainFit t).elim false (fun f => f.2.all (fun v => decide (500 ^ 2 ≤ v)))) then some 5
    else if base && time then none else some 4
  | 2 =>
    if t.injections.length < r.window then some 8
    else if base && decide (16 ≤ prodCount t.short) then none else some 4
  | 3 =>
    if prodCount t.zero < 500 * r.window then some 8
    else if t.hi - t.lo < 20000000 then some 5
    else if base && decide (5000 ≤ n) then none else some 4
  | _ =>
    if n ≠ 0 ∧ prodCov t.main 0 0 < 20000 ^ 2 then some 5
    else if base && time && decide (5000 ≤ n) && (boundTo s p).all (covered s) then none else some 4

/-- A run may finish: every tag has failed or met its precondition, or the deadline has come. -/
def runDone (s : State) (r : CalRun) : Bool :=
  decide (r.start + 100000 * r.deadline ≤ s.spc) || r.posns.all (fun p => thas r.failed p || (wants s r p).isNone)

/-! ### Candidates and residuals (R206, R207, R211) -/

/-- What a procedure makes of one channel: its candidate, and the mean squares of its residual under the entries in force and under the
candidate, in 0.01 µV or 0.01 µA; none where the procedure has no residual for it. -/
structure Finding where
  cand : Candidate
  square : Option (Rat × Rat) := none

/-- A candidate from K and O as they come out, K times a factor, O plus an amount. -/
def finding (s : State) (chi : Nat) (times plus ref : Rat) (square : Option (Rat × Rat)) : Finding :=
  let e := restEntry s chi
  { cand := { chi := chi, k := clampI 0 0xFFFFFFFF (nearestInt ((e.k : Rat) * times)), ref := ref
              o := clampI (-0x80000000) 0x7FFFFFFF (nearestInt ((e.o : Rat) + plus)) }
    square := square }

/-- Gain: the stack channel's K takes the change of reference B, each cell's K is multiplied by its β and by the same factor (R206). -/
def gainFindings (s : State) (p : Nat) (t : CalStat) : List Finding :=
  let g := tagCal s p
  let beta := ((gainFit t).map (·.1)).getD []
  let stack := scaleB g t / (restEntry s (p * 16 + 12)).ref
  let b (i : Nat) : Rat := beta.getD i 1
  let now := meanSquare t.main (0 :: ((List.range 12).map (fun _ => (-1 : Rat)) ++ [1]))
  let new := meanSquare t.main (0 :: ((List.range 12).map (fun i => -(stack * b i)) ++ [stack]))
  (List.range 13).map fun ch =>
    finding s (p * 16 + ch) (if ch = 12 then stack else stack * b ch) 0 (if ch = 12 then scaleB g t else scaleA g t) (some (now * 100, new * 100))

/-- Offset: the two equations of R207, d_A = d + e and d_B = ρ d + e, solved for e in the mean of the injections. The residual is the
disagreement of A and B once the offset is taken off and ρ is scaled. ch12 runs from reference B in both dwells, so the equations leave its
offset open: it is a free value (log 58). ch14 takes the mean of the shorted input. -/
def offsetFindings (s : State) (p : Nat) (t : CalStat) : List Finding :=
  let rho := rhoMean (tagCal s p) t
  let temp := tagTemp s p
  let cells := (List.range 12).map fun ch =>
    let chi := p * 16 + ch
    let e := restEntry s chi
    let n : Rat := (t.injections.length : Nat)
    let u := densityUnit ch
    let off := (t.injections.map (fun l => let x := l.getD ch (0, 0); (rho * x.1 - x.2) / (rho - 1))).sum / n
    let square (o : Rat) : Rat :=
      (t.injections.map (fun l => let x := l.getD ch (0, 0); let d := ((x.1 - o) - (x.2 - o) / rho) * u * entryK e temp * 10; d * d)).sum / n
    finding s chi 1 (off * u - (entryO e temp : Rat)) e.ref (some (square ((entryO e temp : Rat) / u), square off))
  let stack :=
    let chi := p * 16 + 12
    let e := restEntry s chi
    let sq := (t.injections.map (fun l => let x := l.getD 12 (0, 0); let d := (x.1 - x.2) * densityUnit 12 * entryK e temp * 10; d * d)).sum
      / (t.injections.length : Nat)
    finding s chi 1 ((Config.stackOffset p s.spc : Int) - (e.o : Rat)) e.ref (some (sq, sq))
  let short :=
    let chi := p * 16 + 14
    let e := restEntry s chi
    let m := prodMean t.short 0
    finding s chi 1 (m / entryK e temp) e.ref (some (meanSquare t.short [0, 1] * 100, meanSquare t.short [-m, 1] * 100))
  cells ++ [stack, short]

/-- Current: offsets from the means of the zero-current windows, K of ch1 from its regression on ch0, every K with the change of its
reference. Residuals are in current through the bound shunt. -/
def currentFindings (s : State) (p : Nat) (t : CalStat) : List Finding :=
  let g := tagCal s p
  let e (ch : Nat) := restEntry s (p * 16 + ch)
  let temp := tagTemp s p
  let amp : Rat := 100000 / (((shuntOf s p).elim 1 (fun x => max 1 x.rsh) : Nat) : Rat)
  let slope := prodCov t.main 0 1 / prodCov t.main 0 0
  let a := scaleA g t / (e 0).ref
  let m0 := prodMean t.zero 0
  let m1 := prodMean t.zero 1
  let sq (m : List (List Int)) (w : List Rat) : Rat := meanSquare m w * amp * amp
  [finding s (p * 16) a (m0 / entryK (e 0) temp) (scaleA g t) (some (sq t.zero [0, 1, 0], sq t.zero [-(a * m0), a, 0])),
   finding s (p * 16 + 1) (a / slope) (m1 / entryK (e 1) temp) (scaleA g t)
     (some (sq t.main [0, -1, 1], sq t.main [a * m0 - a * m1 / slope, -a, a / slope])),
   finding s (p * 16 + 2) (scaleB g t / (e 2).ref) 0 (scaleB g t) none,
   finding s (p * 16 + 3) (scaleB g t / (e 3).ref) 0 (scaleB g t) none]

/-- Drive voltage: K and O of ch2 from its regression on the sum of ch12. -/
def driveFindings (s : State) (p : Nat) (t : CalStat) : List Finding :=
  let slope := prodCov t.main 0 1 / prodCov t.main 0 0
  let c := prodMean t.main 1 - slope * prodMean t.main 0
  let e := restEntry s (p * 16 + 2)
  [finding s (p * 16 + 2) (1 / slope) (c / entryK e (tagTemp s p)) (scaleB (tagCal s p) t)
    (some (meanSquare t.main [0, -1, 1] * 100, meanSquare t.main [-(c / slope), -1, 1 / slope] * 100))]

/-- What a procedure makes of a tag. -/
def findingsOf (s : State) (proc p : Nat) (t : CalStat) : List Finding :=
  match proc with
  | 1 => gainFindings s p t
  | 2 => offsetFindings s p t
  | 3 => currentFindings s p t
  | _ => driveFindings s p t

/-- A residual as it is reported. -/
def residualOf (x : Rat) : Nat := min 0xFFFFFFFF (isqrt (x + 1 / 4).floor.toNat)

/-- A tag's candidate is accepted: every move within the limits, no residual higher, one strictly lower (R211). -/
def acceptTag (s : State) (proc : Nat) (l : List Finding) : Bool :=
  let sq := l.filterMap (·.square)
  l.all (fun f => plausible s proc f.cand.chi (candidateEntry s proc f.cand.chi f.cand))
    && sq.all (fun x => decide (x.2 ≤ x.1)) && sq.any (fun x => decide (x.2 < x.1))

end Sys2Proof.Machine
end

