-- ==== Sys2Proof/Machine/Map.lean ====
section
/-! DEFINITION. The channel map: staging, building and flipping bindings (R219 to R221, R125, R403). -/

namespace Sys2Proof.Machine

/-! ### Binding records (R403) -/

/-- A binding record of 16 words as it is staged. -/
def stagedOf (fn : Nat) (ws : List Word) : Staged :=
  { fn := fn, btype := bits (ws.getD 0 0) 31 24, target := ws.getD 1 0, body := (List.range 13).map fun i => ws.getD (i + 2) 0 }

/-- Split a buffer into records of 16 words. -/
def records16 : Nat → List Word → List (List Word)
  | 0, _ => []
  | n + 1, l => l.take 16 :: records16 n (l.drop 16)

/-- Position of a staged record, and the multiplexer position it names. -/
def Staged.pos (x : Staged) : Nat := bits x.target 31 13
def Staged.mux (x : Staged) : Nat := bits x.target 8 6

/-- The drive tag that a drive binding names; word 2 = 0 unbinds. -/
def Staged.drive (x : Staged) : Option Nat := if x.body.getD 0 0 = 0 then none else some (bits (x.body.getD 0 0) 31 13)

/-- A record is in form and its values within their ranges (R230, R403). -/
def recordOk (s : State) (ws : List Word) : Bool :=
  let x := stagedOf 0 ws
  let b (i : Nat) : Nat := (x.body.getD i 0).toNat
  let plain := (posParam s x.target).isSome
  let ch := bits x.target 12 9
  bits (ws.getD 0 0) 23 0 == 0 && ws.getD 15 0 == 0 && posExists s x.pos &&
  (match x.btype with
    | 1 => plain && (b 0 == 0 || (posParam s (x.body.getD 0 0)).isSome)
    | 2 => plain && decide (1 ≤ b 0) && decide (b 2 ≤ 1)
    | 3 => bits x.target 12 9 == 0 && bits x.target 5 0 == 0 && decide (x.mux < 4) && decide (100 ≤ b 0) && decide (b 0 ≤ 1000000)
        && decide (1000 ≤ b 1) && decide (b 1 ≤ 10000)
    | 4 => bits x.target 5 0 == 0 && ([4, 5, 13, 14].contains ch) && ((ch != 4 && ch != 13) || decide (x.mux < 4))
    | 5 => plain && (List.range 12).all (fun i => decide (25000 ≤ b i) && decide (b i ≤ 1000000))
    | 6 => plain && (List.range 13).all (fun i => decide (b i ≤ 2000000))
    | _ => false)

/-- The types of the tags at a record's positions suit it; a position with no tag known suits every record. -/
def kindsOk (s : State) (x : Staged) : Bool :=
  let is (p : Nat) (k : TagKind) : Bool := (posOf s p).kind == .none || (posOf s p).kind == k
  match x.btype with
  | 1 => is x.pos .ct12 && x.drive.elim true (fun d => is d .dt1)
  | 2 => is x.pos .dt1
  | 3 => true
  | 4 => is x.pos (if bits x.target 12 9 ≤ 5 then .dt1 else .ct12)
  | _ => is x.pos .ct12

/-- Every chain that a record names belongs to the function (R364). -/
def recordOwned (s : State) (r : Req) (x : Staged) : Bool :=
  ownsHere s r (chainOfPos x.pos) && (x.btype != 1 || x.drive.elim true (fun d => ownsHere s r (chainOfPos d)))

/-- A record concerns this device. -/
def recordHere (r : Req) (x : Staged) : Bool := concerns r (chainOfPos x.pos)

/-- The checks of `MAP.BIND` in the order of R397. -/
def checksMapBind (r : Req) (s : State) : Checks :=
  let n := (reqWord r 4).toNat
  let recs := records16 (min n 4096) r.inb.dropLast
  let xs := recs.map (stagedOf r.fn)
  { op := 0x0400, ready := 4, buf := .inb 6 (n * 64 + 4)
    params := unusedZero r [4] && decide (1 ≤ n) && decide (n ≤ 4096)
    fields := recs.all (recordOk s)
    quota := if xs.all (recordOwned s r) then chainsUnit s ((xs.filter (recordHere r)).map (fun x => chainOfPos x.pos)) else some ST_NOT_OWNER
    pre := if xs.all (fun x => !recordHere r x || kindsOk s x) then none else some ST_BAD_PARAM }

/-- What `MAP.BIND` does once its checks have passed. -/
def actMapBind (r : Req) (_ : State) : State → Reply :=
  let n := (reqWord r 4).toNat
  let recs := records16 (min n 4096) r.inb.dropLast
  let xs := recs.map (stagedOf r.fn)
  fun s => .now ST_OK [wd n] { s with map := { s.map with staged := s.map.staged ++ xs.filter (recordHere r) } }

/-- MAP.BIND (R403, R364): all of the buffer is staged, or none of it. -/
def execMapBind (r : Req) (s : State) : Host.Outcome State Fault Refusal :=
  .next (command (checksMapBind r s) r s (actMapBind r s))

/-! ### Builds and flips -/

/-- The largest depth that an armed window set needs for its re-analysis (R125, R134). -/
def depthNeed (s : State) : Nat :=
  ((s.safe.armed.filterMap (tget s.safe.sets) ++ s.safe.derived.map (·.2.set)).map (fun w => w.tripPre + w.tripPost + 160)).foldl max 0

/-- The checks of `MAP.COMMIT` in the order of R397. -/
def checksMapCommit (r : Req) (s : State) : Checks :=
  let set := bits (reqWord r 4) 0 0 == 1
  let d := (reqWord r 5).toNat
  { op := 0x0401, ready := 4, long := true, permitted := r.fn == mgmt
    params := unusedZero r [4, 5] && decide ((reqWord r 4).toNat ≤ 1)
      && (if set then d % 8 == 0 && decide (200 ≤ d) && decide (d ≤ 1600) else d == 0)
    pre := if s.map.build.isSome then some ST_PRECONDITION
      else if set && (decide (d < depthNeed s) || (decide (d < s.loom.depth) && !s.loom.reanalyses.isEmpty)) then some ST_PRECONDITION
      else none }

/-- What `MAP.COMMIT` does once its checks have passed. -/
def actMapCommit (r : Req) (_ : State) : State → Reply :=
  let set := bits (reqWord r 4) 0 0 == 1
  let d := (reqWord r 5).toNat
  fun s =>
    let s1 := if set && decide (d < s.loom.depth) then
        { s with loom := { s.loom with
            depth := d, bolt := tmap s.loom.bolt fun _ l => l.filter (fun e => decide (s.spc < e.pick + d)) } }
      else s
    .long 0 [] { s1 with map := { s1.map with
      staged := s1.map.staged.filter (fun x => !recordHere r x)
      build := some { cmd := reqRef r, staged := s1.map.staged.filter (recordHere r), depth := if set then some d else none } } }

/-- MAP.COMMIT (R219, R125). A smaller depth takes effect at once, a larger one at the flip. -/
def execMapCommit (r : Req) (s : State) : Host.Outcome State Fault Refusal :=
  .next (command (checksMapCommit r s) r s (actMapCommit r s))

/-- MAP_BUILD_COMPLETE (R219): the flip falls at the first multiple of 200 after it. -/
def execMapBuildComplete (s : State) : Host.Outcome State Fault Refusal :=
  .next (match s.map.build with
    | some b =>
      if b.flip.isNone && s.up then { s with map := { s.map with build := some { b with flip := some (nextMult 200 (s.spc + 1)) } } }
      else s
    | none => s)

/-- One staged record put into the bindings. -/
def applyBinding (b : Bindings) (x : Staged) : Bindings :=
  let w (i : Nat) : Nat := (x.body.getD i 0).toNat
  match x.btype with
  | 1 => { b with drive := match x.drive with
      | some d => tset b.drive x.pos d
      | none => tdel b.drive x.pos }
  | 2 => { b with shunt := tset b.shunt x.pos { rsh := w 0, lsh := w 1, inverted := w 2 == 1 } }
  | 3 => { b with therm := tset b.therm (x.pos * 4 + x.mux) (w 0, w 1) }
  | 4 => { b with std := tset b.std (bits x.target 31 9) x.mux }
  | 5 => { b with rbal := tset b.rbal x.pos ((List.range 12).map w) }
  | 6 => { b with rwire := tset b.rwire x.pos ((List.range 13).map w) }
  | _ => b

/-- Chains whose bindings a record touches. -/
def touches (x : Staged) : List Nat := chainOfPos x.pos :: (if x.btype = 1 then (x.drive.map chainOfPos).toList else [])

/-- What one record means to what runs on its position, against the bindings that were in force: records of the accumulators carry
`GENCHG` (R152, R168), spectral contexts restart (R178), a cell counts its string anew, and a standard position changes with the next
interval (R168). -/
def bindingEffects (old : Bindings) (x : Staged) (s : State) : State :=
  let p := x.pos
  let now := s.map.bind
  match x.btype with
  | 1 =>
    if tget old.drive p = tget now.drive p then s
    else
      forEach (List.range 12) s fun j s =>
        let chi := p * 16 + j
        let s1 := restartFocus chi (cutCtx chi s)
        { s1 with est := { s1.est with cells := tupd s1.est.cells chi (fun c => { c with countAt := none }) } }
  | 2 => if tget old.shunt p = tget now.shunt p then s else cutTag p s
  | 3 =>
    if tget old.therm (p * 4 + x.mux) = tget now.therm (p * 4 + x.mux) then s
    else markBinding (entryKey (p * 16 + thermCh (posOf s p).kind) x.mux) s
  | 4 =>
    let chi := bits x.target 31 9
    let before := stdPos { s with map := { s.map with bind := old } } chi
    if before = stdPos s chi then s
    else
      markStdPos chi { s with map := { s.map with
        stdWas := (chi, before, s.spc) :: s.map.stdWas.filter (fun w => decide (s.spc < w.2.2 + 12000000)) } }
  | 5 => if tget old.rbal p = tget now.rbal p then s else forEach (List.range 13) s (fun j => markBinding (entryKey (p * 16 + j) 0))
  | 6 => if tget old.rwire p = tget now.rwire p then s else forEach (List.range 13) s (fun j => markBinding (entryKey (p * 16 + j) 0))
  | _ => s

/-- Both scopes together (R355). -/
def joinScope (a b : Scope) : Scope :=
  match a, b with
  | .all, _ => .all
  | _, .all => .all
  | .drives x, .drives y => .drives (x ++ y.filter (fun d => !x.contains d))

/-- Scopes of latched trips are applied again under the bindings now in force; old drive tags stay off (R355). -/
def rescopeTrips (s : State) : State :=
  { s with safe := { s.safe with
      trips := s.safe.trips.map fun t => { t with scope := joinScope t.scope (scopeOf s t.code t.wset (posOfChi t.chi)) } } }

/-- MAP_FLIP (R219, R364): the bindings of the build take effect, and the functions whose chains change are told. -/
def flipMap (b : Build) (s : State) : State :=
  let old := s.map.bind
  let s0 : State := { s with
    map := { s.map with bind := b.staged.foldl applyBinding old, build := none, lastFlip := s.spc }
    loom := { s.loom with depth := b.depth.getD s.loom.depth } }
  let s1 := rescopeTrips (forEach b.staged s0 (bindingEffects old))
  let chains := (b.staged.flatMap touches).eraseDups
  let fns := mgmt :: s1.ten.tenants.map (·.1)
  let s2 := forEach fns s1 fun fn s =>
    let n := (chains.filter (fun c => ownerOf s c == fn)).length
    if n = 0 then s else raiseNow (summaryOf fn) 0xD0 n s
  finish b.cmd ST_OK s2

/-- MAP_FLIP at its boundary. -/
def execMapFlip (s : State) : Host.Outcome State Fault Refusal :=
  .next (match s.map.build with
    | some b => match b.flip with
      | some f => if f ≤ s.spc && s.up then flipMap b s else s
      | none => s
    | none => s)

/-- Staged requests about a chain are discarded (R361). -/
def dropStaged (p : Staged → Bool) (s : State) : State :=
  { s with map := { s.map with
      staged := s.map.staged.filter (fun x => !p x)
      build := s.map.build.map (fun b => { b with staged := b.staged.filter (fun x => !p x) }) } }

/-! ### Reading -/

/-- A binding record as words. -/
def bindingWords (btype : Nat) (target : Word) (body : List Nat) : List Word :=
  [wd (btype * 2 ^ 24), target] ++ (List.range 13).map (fun i => wd (body.getD i 0)) ++ [0]

/-- The records in force for a position, by `BTYPE`. -/
def inForceRecords (s : State) (p : Nat) : List (List Word) :=
  let b := s.map.bind
  ((tget b.drive p).map (fun d => bindingWords 1 (posWord p) [d * 8192])).toList
    ++ ((tget b.shunt p).map (fun x => bindingWords 2 (posWord p) [x.rsh, x.lsh, b2n x.inverted])).toList
    ++ (List.range 4).filterMap (fun i => (tget b.therm (p * 4 + i)).map (fun x => bindingWords 3 (chiWord (p * 16) i) [x.1, x.2]))
    ++ (List.range 16).filterMap (fun ch => (tget b.std (p * 16 + ch)).map (fun x => bindingWords 4 (chiWord (p * 16 + ch) x) []))
    ++ ((tget b.rbal p).map (bindingWords 5 (posWord p))).toList
    ++ ((tget b.rwire p).map (bindingWords 6 (posWord p))).toList

/-- The records staged for a position, those of a build in progress first. -/
def stagedRecords (s : State) (p : Nat) : List (List Word) :=
  ((s.map.build.elim [] (·.staged) ++ s.map.staged).filter (fun x => x.pos == p)).map fun x =>
    bindingWords x.btype x.target (x.body.map (·.toNat))

/-- The checks of `MAP.READ` in the order of R397. -/
def checksMapRead (r : Req) (s : State) : Checks :=
  let p := bits (reqWord r 4) 31 13
  { op := 0x0402, ready := 4, buf := .outb 64
    params := unusedZero r [4] && (posParam s (reqWord r 4)).isSome, owned := owns s r.fn (chainOfPos p)
    unit := chainUnit s (chainOfPos p) }

/-- What `MAP.READ` does once its checks have passed. -/
def actMapRead (r : Req) (_ : State) : State → Reply :=
  let p := bits (reqWord r 4) 31 13
  fun s =>
    let a := inForceRecords s p
    let b := stagedRecords s p
    let o := emitStatus 0x0402 r [a ++ b] s
    .now ST_OK [wd a.length, wd b.length] o.2.2

/-- MAP.READ (R403). -/
def execMapRead (r : Req) (s : State) : Host.Outcome State Fault Refusal :=
  .next (command (checksMapRead r s) r s (actMapRead r s))

/-- A chain of the map: tags are counted on it, or it is granted. -/
def mapChains (s : State) : List Nat :=
  ((tkeys s.line.chains (fun _ x => !x.occ.isEmpty) ++ s.ten.owner.map (·.1)).eraseDups).mergeSort (fun a b => decide (a ≤ b))

/-- The checks of `MAP.RANGE` in the order of R397. -/
def checksMapRange (r : Req) (s : State) : Checks :=
  let a := bits (reqWord r 4) 7 0
  let b := bits (reqWord r 4) 15 8
  let lane (l : Nat) : Bool := decide (l < lanesOf s.otp.variant) || l == 0xFF
  { op := 0x0403, ready := 4, permitted := r.fn == mgmt, buf := .outb 16
    params := unusedZero r [4] && bits (reqWord r 4) 31 16 == 0 && decide (a ≤ b) && lane a && lane b }

/-- What `MAP.RANGE` does once its checks have passed. -/
def actMapRange (r : Req) (_ : State) : State → Reply :=
  let a := bits (reqWord r 4) 7 0
  let b := bits (reqWord r 4) 15 8
  fun s =>
    let recs := ((mapChains s).filter (fun c => decide (a ≤ laneOfChain c) && decide (laneOfChain c ≤ b))).map fun c =>
      [chainWord c, wd (ownerOf s c + (chainCal s c).commits % 65536 * 65536)] ++ wd64 (max (chainCal s c).lastFlip s.map.lastFlip)
    let o := emitStatus 0x0403 r [recs] s
    .now ST_OK [wd o.1.records] o.2.2

/-- MAP.RANGE (R403). -/
def execMapRange (r : Req) (s : State) : Host.Outcome State Fault Refusal :=
  .next (command (checksMapRange r s) r s (actMapRange r s))

end Sys2Proof.Machine
end

