-- ==== Sys2Proof/Machine/Cal.lean ====
section
/-! DEFINITION. The rows of calibration and lane adaptation (chapter 07) and the commands of the CAL class (R406). -/

namespace Sys2Proof.Machine

/-! ### Runs -/

/-- Cause of R406 for which a tag fails its precondition, 0 for none: one noted during the run, one that its statistics give, or REF_DIVERGED
when ρ is more than 500 ppm from the factory ratio (R204). -/
def failCause (s : State) (r : CalRun) (p : Nat) : Nat :=
  match tget r.failed p with
  | some c => c
  | none => (wants s r p).getD (if 50000 < (rhoMove (tagCal s p) (tgetD r.stats p {})).natAbs then 1 else 0)

/-- ρ of a tag as it is reported, less the factory ratio. -/
def rhoShown (s : State) (r : CalRun) (p : Nat) : Int :=
  let t := tgetD r.stats p {}
  if prodCount t.rho = 0 then 0 else clampI (-0x80000000) 0x7FFFFFFF (rhoMove (tagCal s p) t)

/-- Judge one tag of a run (R202): its cause, or plausibility. -/
def judgeTag (s : State) (r : CalRun) (p : Nat) : TagOutcome × List Candidate :=
  if failCause s r p ≠ 0 then ({ pos := p, status := ST_PRECONDITION, cause := failCause s r p, rho := rhoShown s r p }, [])
  else
    let l := findingsOf s r.proc p (tgetD r.stats p {})
    let res := l.filterMap fun f => f.square.map fun x => (chanOf f.cand.chi, residualOf x.1, residualOf x.2)
    if acceptTag s r.proc l then ({ pos := p, status := ST_OK, rho := rhoShown s r p, residuals := res }, l.map (·.cand))
    else ({ pos := p, status := ST_CAL_REJECTED, rho := rhoShown s r p, residuals := res }, [])

/-- The targets of a commit, and the residuals that it keeps. -/
def targetsOf (s : State) (proc : Nat) (l : List Candidate) : Tbl Entry := l.map fun c => (c.chi, candidateEntry s proc c.chi c)
def keptResiduals (l : List TagOutcome) : Tbl (List (Nat × Nat × Nat)) := (l.filter (fun t => t.status == ST_OK)).map fun t => (t.pos, t.residuals)

/-- Outcome of a run (R202). -/
def runOutcome (l : List TagOutcome) : Nat :=
  if l.all (fun t => t.status == ST_OK) then ST_OK
  else if l.any (fun t => t.status == ST_PRECONDITION) then ST_PRECONDITION else ST_CAL_REJECTED

/-- End a run (R202, R203): candidates held, committed, or none. -/
def finishRun (fn slot : Nat) (r : CalRun) (s : State) : State :=
  let l := r.posns.map (judgeTag s r)
  let out := l.map (·.1)
  let cands := l.flatMap (·.2)
  let st := runOutcome out
  let diverged := out.filter (fun t => t.cause == 1)
  let s1 := forEach diverged s (fun t s => raisePos t.pos (calSource mgmt (some slot)) 0x60 0 s)
  let put (busy : Bool) (held : List Candidate) (gen b : Nat) (s : State) : State :=
    putRun (runKey fn slot)
      { r with finished := some s.spc, outcome := st, tags := out, busy := busy, held := held, generation := gen, flip := b } s
  let fin (s : State) : State := match r.cmd with
    | some ref => finishOn (calSource fn (some slot)) ref st s.spc s
    | none => s
  if cands.isEmpty then fin (put false [] 0 0 s1)
  else if r.hold then fin (put true cands 0 0 s1)
  else
    let done := (out.filter (fun t => t.status == ST_OK)).map (·.pos)
    let q : Commit :=
      { targets := targetsOf s r.proc cands, proc := r.proc, posns := done, slot := some (runKey fn slot), cmd := r.cmd, status := st
        residuals := keptResiduals out }
    let d := decideCommit r.chain q s1
    put true [] (d.1 % 65536) d.2.1 d.2.2

/-- CAL_RUN_FINISH (R202, R205): the run that began at an SPC finishes when every tag has met or failed its precondition, or at its
deadline. -/
def execCalRunFinish (fn slot start : Nat) (s : State) : Host.Outcome State Fault Refusal :=
  .next (match runOf s fn slot with
    | some r => if s.up && r.busy && runGoes r && r.start == start && runDone s r then finishRun fn slot r s else s
    | none => s)

/-- A map flip that is due at this boundary comes first (R221). -/
def mapFirst (s : State) : State :=
  match s.map.build with
  | some b => if b.flip.elim false (fun f => decide (f ≤ s.spc)) then flipMap b s else s
  | none => s

/-- CAL_FLIP (R213, R221): the first commit of the chain flips at its boundary. -/
def execCalFlip (chain : Nat) (s : State) : Host.Outcome State Fault Refusal :=
  onObject (chainExists s chain)
    (match (chainCal s chain).queue with
    | q :: _ =>
      match q.flip with
      | some b => if s.up && decide (b ≤ s.spc) then flipCommit chain q b (mapFirst s) else s
      | none => s
    | [] => s)

/-- CAL_SLEW_STEP (R216): the step of the present primary period comes into force. -/
def execCalSlewStep (chi : Nat) (s : State) : Host.Outcome State Fault Refusal :=
  onObject (posExists s (posOfChi chi))
    (if s.up then
      modTagCal (posOfChi chi) (fun t => { t with slews := tupd t.slews (chanOf chi) fun w => { w with i := max w.i (w.stepAt s.spc) } }) s
    else s)

/-- CAL_CANDIDATE_EXPIRY (R203): 60 s after the run finished. -/
def execCalCandidateExpiry (fn slot : Nat) (s : State) : Host.Outcome State Fault Refusal :=
  .next (match runOf s fn slot with
    | some r =>
      match r.finished with
      | some e =>
        if s.up && !r.held.isEmpty && decide (e + 6000000 ≤ s.spc) then
          putRun (runKey fn slot) { r with held := [], busy := false } s
        else s
      | none => s
    | none => s)

/-! ### Lanes -/

/-- One increment of a setting toward a target. -/
def towards (a b : Int) : Int := if a < b then a + 1 else if b < a then a - 1 else a

/-- The next tap to step (R225): first one whose magnitude falls, in tap order, then one whose magnitude rises. -/
def nextTap (now goal : List Int) : Option Nat :=
  let falls := (List.range 5).find? fun i => decide ((towards (geti now i) (geti goal i)).natAbs < (geti now i).natAbs)
  let rises := (List.range 5).find? fun i => decide ((geti now i).natAbs < (towards (geti now i) (geti goal i)).natAbs)
  if falls.isSome then falls else rises

/-- One increment of a receiver setting within its range (R222): 1 peaking, 2 gain, 3 to 18 DFE taps 1 to 16. -/
def stepReceiver (rx : Nat) (up : Bool) (x : LaneSet) : LaneSet :=
  let d : Int := if up then 1 else -1
  if rx = 1 then { x with ctle := (clampI 0 31 (x.ctle + d)).toNat }
  else if rx = 2 then { x with vga := (clampI 0 63 (x.vga + d)).toNat }
  else if 3 ≤ rx ∧ rx ≤ 18 then
    { x with dfe := ((List.range 16).map (geti x.dfe)).set (rx - 3) (dfeTap (rx - 3) (geti x.dfe (rx - 3) + d)) }
  else x

/-- A lane calibration run is in progress on a lane. -/
def laneRunGoes (s : State) (l : Nat) : Bool :=
  match tget s.cal.laneRuns l with
  | some r => !r.finished
  | none => false

/-- A step that a lane end takes in the adapt phase (R224): of its receiver, or, from 19 to 23, a request to the other end's transmit tap; 24 says
that its receiver has finished (DESIGN CHOICE, log 75). -/
def trainStep (rx : Nat) (up : Bool) (x : Lane) : Lane :=
  if rx = 24 then { x with train := { x.train with done := true } }
  else if 19 ≤ rx ∧ rx ≤ 23 then
    { x with train := { x.train with req := ((List.range 5).map (fun i => x.train.req.getD i 0)).set (rx - 19) (if up then 1 else 2) } }
  else { x with set := stepReceiver rx up x.set }

/-- LANE_ADAPT_STEP (R224, R225): in the adapt phase, a step of the end's own adaptation; in service, at most one setting by one increment in 100 picks: a transmit tap on its way to the band's preset, then a
receiver setting stepping back after a rejected run, else the receiver setting that the data asks for. -/
def execLaneAdaptStep (lane rx : Nat) (up : Bool) (s : State) : Host.Outcome State Fault Refusal :=
  let x := laneOf s lane
  onObject (laneExists s lane)
    (if s.up && x.lstate == .adapt then modLane lane (trainStep rx up) s
    else if s.up && x.lstate == .run && decide (x.adaptAt + 100 ≤ s.spc) then
      let tap := if laneRunGoes s lane then none else nextTap x.set.taps x.target.taps
      match tap with
      | some i =>
        let taps := x.set.taps.set i (towards (geti x.set.taps i) (geti x.target.taps i))
        modLane lane (fun x => { x with set := { x.set with taps := taps }, adaptAt := s.spc }) s
      | none =>
        if x.back && x.set.ctle != x.target.ctle then
          modLane lane (fun x => { x with set := { x.set with ctle := (towards x.set.ctle x.target.ctle).toNat }, adaptAt := s.spc }) s
        else if x.back && x.set.vga != x.target.vga then
          modLane lane (fun x => { x with set := { x.set with vga := (towards x.set.vga x.target.vga).toNat }, adaptAt := s.spc }) s
        else if 1 ≤ rx && rx ≤ 18 then
          modLane lane (fun x => { x with set := stepReceiver rx up x.set, adaptAt := s.spc, back := false }) s
        else modLane lane (fun x => { x with back := false }) s
    else s)

/-- CAL_LANE_RUN_FINISH (R226): accepted when the smallest eye width has not fallen and the error ratio has not risen. -/
def execCalLaneRunFinish (lane : Nat) (m : LaneMeasure) (s : State) : Host.Outcome State Fault Refusal :=
  onObject (laneExists s lane)
    (match tget s.cal.laneRuns lane with
    | some r =>
      if s.up && !r.finished then
        let ok := decide (least r.eyeW ≤ least m.figures.eyeW) && decide (m.figures.ber ≤ r.ber)
        let st := if ok then ST_OK else ST_CAL_REJECTED
        let s1 := putLaneRun lane { r with finished := true, outcome := st, eyeW1 := m.figures.eyeW, eyeH1 := m.figures.eyeH, berBits1 := m.figures.berBits } s
        let s2 := modLane lane (fun x =>
          if ok then { takeMeasure m x with target := { x.target with ctle := x.set.ctle, vga := x.set.vga } }
          else { takeMeasure m x with target := { x.target with ctle := r.set.ctle, vga := r.set.vga }, back := true }) s1
        match r.cmd with
        | some ref => finishOn (laneSource lane) ref st s.spc s2
        | none => s2
      else s
    | none => s)

/-! ### Commands -/

/-- Range and default of a procedure's window, and default of its deadline (R205). -/
def procWindow : Nat → Nat × Nat × Nat × Nat
  | 1 => (10, 600, 60, 600)
  | 2 => (16, 1024, 64, 3600)
  | 3 => (1, 60, 1, 3600)
  | _ => (10, 600, 60, 600)

/-- Tag type that a procedure runs on. -/
def procKind (proc : Nat) : TagKind := if proc ≤ 2 then .ct12 else .dt1

/-- Positions that a slot mask names. -/
def maskPosns (c mask : Nat) : List Nat := ((List.range 8).filter (fun i => mask.testBit i)).map (c * 8 + ·)

/-- A free run slot of a function. -/
def freeSlot (s : State) (fn : Nat) (here : Bool) : Option Nat :=
  freeId here 4 fun k => match runOf s fn k with
    | some r => !r.busy
    | none => true

/-- A build in progress holds a binding of a drive tag, of its shunt or of a string, that has not flipped (R220). -/
def unflipped (s : State) (btype p : Nat) : Bool :=
  (s.map.build.elim [] (·.staged)).any fun x => x.btype == btype && (if btype = 1 then x.drive == some p || (boundTo s p).contains x.pos else x.pos == p)

/-- Tags that fail their precondition at the start of a run: a drive tag whose procedure depends on a string or a shunt that is not bound, or on
a binding not yet flipped (R220), a tag with a confirmed break (R205). -/
def failedAtStart (s : State) (proc : Nat) (ps : List Nat) : Tbl Nat :=
  ps.filterMap fun p =>
    if proc = 4 ∧ ((boundTo s p).isEmpty ∨ unflipped s 1 p) then some (p, CAUSE_UNBOUND)
    else if proc = 3 ∧ ((shuntOf s p).isNone ∨ unflipped s 2 p) then some (p, CAUSE_UNBOUND)
    else if proc ≤ 2 ∧ ¬ (tgetD s.bal.tags p {}).broken.isEmpty then some (p, CAUSE_WIRE) else none

/-- Discard the candidates of a function's earlier runs that share a tag (R203). -/
def dropHeld (fn : Nat) (ps : List Nat) (s : State) : State :=
  let runs := tmap s.cal.runs fun k r =>
    if k / 4 == fn && !r.held.isEmpty && r.posns.any (fun p => ps.contains p) then { r with held := [], busy := false } else r
  { s with cal := { s.cal with runs := runs } }

/-- The slot a new run of a function would take once held candidates on its tags are discarded. -/
def slotFor (s : State) (fn : Nat) (ps : List Nat) : Option Nat := freeSlot (dropHeld fn ps s) fn (ps.all (fun p => isLocal (chainOfPos p)))

/-- A position is in a run of the function. -/
def inRun (s : State) (fn p : Nat) : Bool := s.cal.runs.any fun e => e.1 / 4 == fn && runGoes e.2 && e.2.posns.contains p

/-- The checks of `CAL.RUN` in the order of R397. -/
def checksCalRun (r : Req) (s : State) : Checks :=
  let proc := (reqWord r 4).toNat
  let lane := proc == 0x10
  let l := (laneParam s (reqWord r 5)).getD 0
  let c := (reqWord r 5).toNat
  let ps := maskPosns c (bits (reqWord r 6) 7 0)
  let w := procWindow proc
  let win := if (reqWord r 7).toNat = 0 then w.2.2.1 else (reqWord r 7).toNat
  let dead := if (reqWord r 8).toNat = 0 then w.2.2.2 else (reqWord r 8).toNat
  { op := 0x0700, ready := 9, long := true
    permitted := !(bits (reqWord r 4) 7 0 == 0x10) || r.fn == mgmt
    params := unusedZero r [4, 5, 6, 7, 8] && bits (reqWord r 6) 31 9 == 0
      && (if lane then (laneParam s (reqWord r 5)).isSome
          else decide (1 ≤ proc) && decide (proc ≤ 4) && (chainParam s (reqWord r 5)).isSome
            && decide (w.1 ≤ win) && decide (win ≤ w.2.1) && decide (dead ≤ 3600))
    owned := lane || owns s r.fn c
    unit := if lane then laneUnit s l else chainUnit s c
    quota := if lane || (slotFor s r.fn ps).isSome then none else some ST_QUOTA
    pre :=
      if lane then (if (laneOf s l).lstate != .run || laneRunGoes s l then some ST_PRECONDITION else none)
      else if ps.any (fun p => (posOf s p).kind != procKind proc) then some ST_BAD_PARAM
      else if ps.any (fun p => inRun s r.fn p || (posOf s p).state != .released) then some ST_PRECONDITION
      else none }

/-- What `CAL.RUN` does once its checks have passed. -/
def actCalRun (r : Req) (s : State) : State → Reply :=
  let proc := (reqWord r 4).toNat
  let lane := proc == 0x10
  let l := (laneParam s (reqWord r 5)).getD 0
  let c := (reqWord r 5).toNat
  let ps := maskPosns c (bits (reqWord r 6) 7 0)
  let w := procWindow proc
  let win := if (reqWord r 7).toNat = 0 then w.2.2.1 else (reqWord r 7).toNat
  let dead := if (reqWord r 8).toNat = 0 then w.2.2.2 else (reqWord r 8).toNat
  fun s =>
    if lane then
      let x := laneOf s l
      .long l [0xFF] (putLaneRun l
        { cmd := some (reqRef r), eyeW := x.eyeW, eyeH := x.eyeH, ber := x.ber, berBits := x.berBits, set := x.set } s)
    else
      let n := (slotFor s r.fn ps).getD 0
      let s1 := dropHeld r.fn ps s
      .long c [wd n] (putRun (runKey r.fn n)
        { proc := proc, chain := c, posns := ps, hold := bits (reqWord r 6) 8 8 == 1, window := win, deadline := dead
          start := s.spc, cmd := some (reqRef r), failed := failedAtStart s1 proc ps } s1)

/-- CAL.RUN (R200, R205, R226). -/
def execCalRun (r : Req) (s : State) : Host.Outcome State Fault Refusal :=
  .next (command (checksCalRun r s) r s (actCalRun r s))

/-- A tag record of `CAL.STATUS`, 144 bytes. -/
def calTagRecord (t : TagOutcome) : List Word :=
  [posWord t.pos, wd (t.status + t.cause * 2 ^ 16), wdI t.rho, 0]
    ++ (List.range 16).flatMap fun c =>
      match t.residuals.find? (fun r => r.1 == c) with
      | some r => [wd r.2.1, wd r.2.2]
      | none => [0, 0]

/-- A lane record of `CAL.STATUS`, 48 bytes. -/
def calLaneRecord (word : Word) (r : LaneRun) : List Word :=
  let eye (w h : List Nat) := (List.range 3).map (fun i => wd (w.getD i 0 + h.getD i 0 * 2 ^ 16))
  [word, wd r.outcome, r.berBits, r.berBits1] ++ eye r.eyeW r.eyeH ++ eye r.eyeW1 r.eyeH1 ++ [0, 0]

/-- The checks of `CAL.STATUS` in the order of R397. -/
def checksCalStatus (r : Req) (s : State) : Checks :=
  let lane := bits (reqWord r 4) 8 8 == 1
  let n := bits (reqWord r 4) 7 0
  { op := 0x0701, ready := 9, permitted := !lane || r.fn == mgmt
    buf := .outb (if lane then 48 else 144)
    params := unusedZero r [4] && bits (reqWord r 4) 31 9 == 0 && (if lane then laneExists s n else decide (n < 4)) }

/-- What `CAL.STATUS` does once its checks have passed. -/
def actCalStatus (r : Req) (_ : State) : State → Reply :=
  let lane := bits (reqWord r 4) 8 8 == 1
  let n := bits (reqWord r 4) 7 0
  fun s =>
    if lane then
      let x := tgetD s.cal.laneRuns n {}
      let o := emitStatus 0x0701 r [if thas s.cal.laneRuns n then [calLaneRecord (wd n) x] else []] s
      .now ST_OK [wd (x.outcome + b2n x.finished * 2 ^ 16), 0, 0, 0] o.2.2
    else
      match runOf s r.fn n with
      | some x =>
        let o := emitStatus 0x0701 r [x.tags.map calTagRecord] s
        .now ST_OK ([wd (x.outcome + b2n x.finished.isSome * 2 ^ 16), wd x.generation] ++ wd64 x.flip) o.2.2
      | none =>
        let o := emitStatus 0x0701 r [[]] s
        .now ST_OK [0, 0, 0, 0] o.2.2

/-- CAL.STATUS (R406). The lane form is the management function's, as lane runs are (R226, R364). -/
def execCalStatus (r : Req) (s : State) : Host.Outcome State Fault Refusal :=
  .next (command (checksCalStatus r s) r s (actCalStatus r s))

/-- The checks of `CAL.APPLY` in the order of R397. -/
def checksCalApply (r : Req) (s : State) : Checks :=
  let n := (reqWord r 4).toNat
  let discard := bits (reqWord r 5) 0 0 == 1
  let x := runOf s r.fn n
  let fresh := match x with
    | some x => !x.held.isEmpty && (match x.finished with
      | some e => decide (s.spc < e + 6000000)
      | none => false)
    | none => false
  { op := 0x0702, ready := 9, long := !discard
    params := unusedZero r [4, 5] && decide (n < 4) && bits (reqWord r 5) 31 1 == 0
    pre := if fresh then none else some ST_PRECONDITION }

/-- What `CAL.APPLY` does once its checks have passed. -/
def actCalApply (r : Req) (s : State) : State → Reply :=
  let n := (reqWord r 4).toNat
  let discard := bits (reqWord r 5) 0 0 == 1
  let x := runOf s r.fn n
  fun s =>
    match x with
    | some x =>
      if discard then
        .now ST_OK [] (putRun (runKey r.fn n) { x with held := [], busy := false } s)
      else
        let targets := targetsOf s x.proc x.held
        let done := (x.tags.filter (fun t => t.status == ST_OK)).map (·.pos)
        let d := decideCommit x.chain
          { targets := targets, proc := x.proc, posns := done, slot := some (runKey r.fn n), cmd := some (reqRef r)
            residuals := keptResiduals x.tags } s
        .long x.chain [] (putRun (runKey r.fn n) { x with held := [], generation := d.1 % 65536, flip := d.2.1 } d.2.2)
    | none => .now ST_PRECONDITION [] s

/-- CAL.APPLY (R203). -/
def execCalApply (r : Req) (s : State) : Host.Outcome State Fault Refusal :=
  .next (command (checksCalApply r s) r s (actCalApply r s))

/-- A generation named by its low 16 bits (R214): ST_GAP past half the range, ST_BAD_PARAM when not retained, ST_NOT_OWNER for a
tenant before its grant. -/
def findGen (s : State) (fn c g : Nat) : Nat ⊕ GenRec :=
  let x := chainCal s c
  let d := (x.commits + 65536 - g % 65536) % 65536
  if 32768 ≤ d then .inl ST_GAP
  else if x.commits < d then .inl ST_BAD_PARAM
  else if fn ≠ mgmt ∧ x.commits - d < x.granted then .inl ST_NOT_OWNER
  else match x.history.find? (fun h => h.commit == x.commits - d) with
    | some h => .inr h
    | none => .inl ST_BAD_PARAM

/-- The status with which a named generation is refused. -/
def genFails (s : State) (fn c g : Nat) : Option Nat :=
  match findGen s fn c g with
  | .inl e => some e
  | .inr _ => none

/-- The checks of `CAL.REVERT` in the order of R397. -/
def checksCalRevert (r : Req) (s : State) : Checks :=
  let c := (reqWord r 4).toNat
  let g := bits (reqWord r 5) 15 0
  let factory := bits (reqWord r 5) 16 16 == 1
  { op := 0x0703, ready := 9, long := true
    params := (chainParam s (reqWord r 4)).isSome && unusedZero r [4, 5] && bits (reqWord r 5) 31 17 == 0
    owned := owns s r.fn c && (factory || genFails s r.fn c g != some ST_NOT_OWNER)
    unit := chainUnit s c
    pre := if factory then none else genFails s r.fn c g }

/-- What `CAL.REVERT` does once its checks have passed. -/
def actCalRevert (r : Req) (_ : State) : State → Reply :=
  let c := (reqWord r 4).toNat
  let g := bits (reqWord r 5) 15 0
  let factory := bits (reqWord r 5) 16 16 == 1
  fun s =>
    let targets : Tbl Entry :=
      if factory then
        (occPosns s c).flatMap fun p => (List.range (channelsOf (posOf s p).kind)).map fun ch => (p * 16 + ch, factoryEntry s (p * 16 + ch))
      else match findGen s r.fn c g with
        | .inr h => h.entries.flatMap fun e => e.2.map fun x => (e.1 * 16 + x.1, x.2)
        | .inl _ => []
    let q : Commit :=
      { targets := targets, proc := if factory then 0xFF else 0, posns := if factory then occPosns s c else []
        cmd := some (reqRef r)
        residuals := if factory then [] else match findGen s r.fn c g with
          | .inr h => h.residuals
          | .inl _ => [] }
    let d := decideCommit c q s
    .long c [wd (d.1 % 65536)] d.2.2

/-- CAL.REVERT (R214): a retained generation's entries, or the factory entries, committed again. -/
def execCalRevert (r : Req) (s : State) : Host.Outcome State Fault Refusal :=
  .next (command (checksCalRevert r s) r s (actCalRevert r s))

/-- The words of an entry (R196). -/
def entryWords (e : Entry) : List Word := [wdI e.k, wdI e.o, wdI e.kt, wdI e.ot]

/-- The checks of `CAL.READ` in the order of R397. -/
def checksCalRead (r : Req) (s : State) : Checks :=
  let c := (reqWord r 4).toNat
  let g := bits (reqWord r 5) 15 0
  { op := 0x0704, ready := 9, buf := .outb 260
    params := (chainParam s (reqWord r 4)).isSome && unusedZero r [4, 5] && bits (reqWord r 5) 31 16 == 0
    owned := owns s r.fn c && genFails s r.fn c g != some ST_NOT_OWNER
    unit := chainUnit s c
    pre := genFails s r.fn c g }

/-- What `CAL.READ` does once its checks have passed. -/
def actCalRead (r : Req) (_ : State) : State → Reply :=
  let c := (reqWord r 4).toNat
  let g := bits (reqWord r 5) 15 0
  fun s =>
    match findGen s r.fn c g with
    | .inr h =>
      let recs := h.entries.map fun e => posWord e.1 :: (List.range 16).flatMap fun ch => entryWords (tgetD e.2 ch { k := 0 })
      let o := emitStatus 0x0704 r [recs] s
      .now ST_OK ([wd o.1.records, wd h.commit] ++ wd64 h.flip) o.2.2
    | .inl e => .now e [] s

/-- CAL.READ (R214). -/
def execCalRead (r : Req) (s : State) : Host.Outcome State Fault Refusal :=
  .next (command (checksCalRead r s) r s (actCalRead r s))

/-- The checks of `CAL.LIMITS` in the order of R397. -/
def checksCalLimits (r : Req) (s : State) : Checks :=
  let c := (reqWord r 4).toNat
  let g := (reqWord r 5).toNat
  let o := (reqWord r 6).toNat
  { op := 0x0705, ready := 9
    params := (chainParam s (reqWord r 4)).isSome && unusedZero r [4, 5, 6] && decide (g ≤ 200)
      && (o == 0 || (decide (10 ≤ o) && decide (o ≤ 1000)))
    owned := owns s r.fn c
    unit := chainUnit s c }

/-- What `CAL.LIMITS` does once its checks have passed. -/
def actCalLimits (r : Req) (_ : State) : State → Reply :=
  let c := (reqWord r 4).toNat
  let g := (reqWord r 5).toNat
  let o := (reqWord r 6).toNat
  fun s =>
    let s1 := modChainCal c (fun x =>
      { x with gainLim := if g = 0 then x.gainLim else g, offLim := if o = 0 then x.offLim else o }) s
    .now ST_OK [wd (chainCal s1 c).gainLim, wd (chainCal s1 c).offLim] s1

/-- CAL.LIMITS (R212). -/
def execCalLimits (r : Req) (s : State) : Host.Outcome State Fault Refusal :=
  .next (command (checksCalLimits r s) r s (actCalLimits r s))

end Sys2Proof.Machine
end

