-- ==== Sys2Proof/Machine/ChainCmd.lean ====
section
/-! DEFINITION. The commands of the CHAIN class (R401). -/

namespace Sys2Proof.Machine

/-- Checks that a command naming a chain in word 4 shares: the chain of the variant, its owner, its readiness, its units. -/
def chainChecks (op : Nat) (r : Req) (s : State) (used : List Nat) : Checks :=
  let c := (reqWord r 4).toNat
  { op := op, ready := chainReady c
    params := (chainParam s (reqWord r 4)).isSome && unusedZero r (4 :: used)
    owned := owns s r.fn c
    unit := chainUnit s c }

/-- VLINE keeps local rings from being started: out of 10.8 to 13.5 V, or out of 11.4 to 12.6 V as housekeeping has read it (R529). -/
def vlineStop (s : State) (c : Nat) : Bool :=
  isLocal c && (!s.boot.vlineOk || (tget s.therm.values 21).elim false (fun v => decide (v.value < 114000000) || decide (126000000 < v.value)))

/-- A bridged chain is commanded over any path to its bridge (R98, R99). -/
def laneRuns (s : State) (c : Nat) : Bool := isLocal c || reached s (laneOfChain c)

/-- The checks of `CHAIN.POWER` in the order of R397. -/
def checksChainPower (r : Req) (s : State) : Checks :=
  let c := (reqWord r 4).toNat
  let on := bits (reqWord r 5) 0 0 == 1
  let x := chainOf s c
  let k0 := chainChecks 0x0200 r s [5]
  { k0 with
    params := k0.params && bits (reqWord r 5) 31 1 == 0
    role := plantRole s c, long := on
    pre := if on && (powered x || inProcedure x || vlineStop s c || !laneRuns s c) then some ST_PRECONDITION else none }

/-- What `CHAIN.POWER` does once its checks have passed. -/
def actChainPower (r : Req) (s : State) : State → Reply :=
  let c := (reqWord r 4).toNat
  let on := bits (reqWord r 5) 0 0 == 1
  let x := chainOf s c
  fun s =>
    if on then .long c [] (powerUp c 0x0200 (some (reqRef r)) s)
    else if x.mode = .parked || x.mode = .unpowered then .now ST_OK [] s
    else .later (.powerOff c) (modChain c (fun x => { x with
      offAt := some (frameAfter s c), ccmd := if isLocal c then 0 else 2 }) s)

/-- CHAIN.POWER (R401, R74). -/
def execChainPower (r : Req) (s : State) : Host.Outcome State Fault Refusal :=
  .next (command (checksChainPower r s) r s (actChainPower r s))

/-- The checks of `CHAIN.ENUM` in the order of R397. -/
def checksChainEnum (r : Req) (s : State) : Checks :=
  let c := (reqWord r 4).toNat
  let x := chainOf s c
  { chainChecks 0x0201 r s [] with
    long := true
    pre := if !powered x || inProcedure x then some ST_PRECONDITION else none }

/-- What `CHAIN.ENUM` does once its checks have passed. -/
def actChainEnum (r : Req) (_ : State) : State → Reply :=
  let c := (reqWord r 4).toNat
  fun s =>
    .long c [] (modChain c (fun x => { x with ccmd := if isLocal c then 0 else 3 }) (startProc c 0x0201 (some (reqRef r)) s))

/-- CHAIN.ENUM (R401): the four enumeration picks on a powered chain. -/
def execChainEnum (r : Req) (s : State) : Host.Outcome State Fault Refusal :=
  .next (command (checksChainEnum r s) r s (actChainEnum r s))

/-- Code of a chain mode in `CHAIN.STATUS`. -/
def modeCode : CMode → Nat
  | .normal => 0
  | .wrap => 1
  | .parked => 2
  | .unpowered => 3

/-- Code of a position state. -/
def pstateCode : PState → Nat
  | .released => 0
  | .bringingUp => 1
  | .lost => 2
  | .parked => 3
  | .hopFault => 4
  | .unpowered => 5

/-- Code of a tag type. -/
def kindCode : TagKind → Nat
  | .none => 0
  | .ct12 => 1
  | .dt1 => 2

/-- The ring record of `CHAIN.STATUS`, 32 bytes. -/
def ringRecord (s : State) (c : Nat) : List Word :=
  let x := chainOf s c
  [chainWord c, wd (modeCode x.mode + x.split * 2 ^ 4 + x.brk.getD 15 * 2 ^ 8 + x.tags % 16 * 2 ^ 12)] ++ wd64 x.since
    ++ [wd x.fcrcErr, wd x.rsndReq, wd (x.pwrA + x.pwrB * 2 ^ 16), 0]

/-- A position record of `CHAIN.STATUS`, 32 bytes. -/
def posRecord (s : State) (p : Nat) : List Word :=
  let x := posOf s p
  [posWord p,
   wd (kindCode x.kind + pstateCode x.state * 2 ^ 2 + b2n x.feedB * 2 ^ 5 + b2n x.relayOff * 2 ^ 6 + b2n (uncovered s p) * 2 ^ 7),
   wd x.incarnation, wd x.delay] ++ wd64 x.serial ++ [wd x.gapPicks, wd x.rsndServed]

/-- The checks of `CHAIN.STATUS` in the order of R397. -/
def checksChainStatus (r : Req) (s : State) : Checks :=
  { chainChecks 0x0202 r s [] with buf := .outb 32 }

/-- What `CHAIN.STATUS` does once its checks have passed. -/
def actChainStatus (r : Req) (_ : State) : State → Reply :=
  let c := (reqWord r 4).toNat
  fun s =>
    let o := emitStatus 0x0202 r [ringRecord s c :: (List.range 8).map (fun i => posRecord s (c * 8 + i))] s
    .now ST_OK [wd o.1.records] o.2.2

/-- CHAIN.STATUS (R401). -/
def execChainStatus (r : Req) (s : State) : Host.Outcome State Fault Refusal :=
  .next (command (checksChainStatus r s) r s (actChainStatus r s))

/-- A drive tag keeps a chain from being parked (R73): a running program, or `OUT_EN` = 1 in the last 100 picks. -/
def chainDriven (s : State) (c : Nat) : Bool :=
  (occPosns s c).any fun p =>
    (posOf s p).kind == .dt1 && (driveRunning s p ||
      (match (posOf s p).posted.outPick with
      | some q => decide (s.spc < q + 100)
      | none => false))

/-- The checks of `CHAIN.PARK` in the order of R397. A chain that is not powered, or in the notice of an earlier park, answers ST_PRECONDITION as
well (DESIGN CHOICE, log 43: R73 gives no status for either). -/
def checksChainPark (r : Req) (s : State) : Checks :=
  let c := (reqWord r 4).toNat
  let x := chainOf s c
  { chainChecks 0x0203 r s [] with
    role := plantRole s c, long := true
    pre := if chainDriven s c || !powered x || x.parkAt.isSome then some ST_PRECONDITION else none }

/-- What `CHAIN.PARK` does once its checks have passed. -/
def actChainPark (r : Req) (_ : State) : State → Reply :=
  let c := (reqWord r 4).toNat
  fun s =>
    .long c [] (modChain c (fun x => { x with
      parkAt := some (frameAfter s c + 16, reqRef r), ccmd := if isLocal c then 0 else 4 }) (endProc c ST_ABORTED s))

/-- CHAIN.PARK (R73): the notice of 16 picks begins at p. -/
def execChainPark (r : Req) (s : State) : Host.Outcome State Fault Refusal :=
  .next (command (checksChainPark r s) r s (actChainPark r s))

/-- The checks of `CHAIN.WAKE` in the order of R397. -/
def checksChainWake (r : Req) (s : State) : Checks :=
  let c := (reqWord r 4).toNat
  let x := chainOf s c
  { chainChecks 0x0204 r s [] with
    role := plantRole s c, long := true
    pre := if x.mode != .parked || vlineStop s c || !laneRuns s c then some ST_PRECONDITION else none }

/-- What `CHAIN.WAKE` does once its checks have passed. -/
def actChainWake (r : Req) (_ : State) : State → Reply :=
  let c := (reqWord r 4).toNat
  fun s => .long c [] (powerUp c 0x0204 (some (reqRef r)) s)

/-- CHAIN.WAKE (R75). -/
def execChainWake (r : Req) (s : State) : Host.Outcome State Fault Refusal :=
  .next (command (checksChainWake r s) r s (actChainWake r s))

/-- The checks of `CHAIN.SELV_READ` in the order of R397. -/
def checksChainSelvRead (r : Req) (s : State) : Checks :=
  let p := bits (reqWord r 4) 31 13
  let w5 := reqWord r 5
  let typ := bits w5 7 0
  let part := bits w5 15 8
  let refresh := bits w5 16 16 == 1
  let x := posOf s p
  let held := tget x.msgs (typ * 256 + (if typ = 2 then part else 0))
  { op := 0x0205, ready := chainReady (chainOfPos p), buf := .outb 96
    params := (posParam s (reqWord r 4)).isSome && bits w5 31 17 == 0 && decide (1 ≤ typ) && decide (typ ≤ 3) && unusedZero r [4, 5]
    owned := owns s r.fn (chainOfPos p)
    unit := chainUnit s (chainOfPos p)
    long := refresh
    pre := if refresh then if x.known then none else some ST_PRECONDITION
      else match held with
        | some h => if h.gap then some ST_GAP else none
        | none => some ST_PRECONDITION }

/-- What `CHAIN.SELV_READ` does once its checks have passed. -/
def actChainSelvRead (r : Req) (s : State) : State → Reply :=
  let p := bits (reqWord r 4) 31 13
  let w5 := reqWord r 5
  let typ := bits w5 7 0
  let part := bits w5 15 8
  let refresh := bits w5 16 16 == 1
  let x := posOf s p
  let held := tget x.msgs (typ * 256 + (if typ = 2 then part else 0))
  fun s =>
    if refresh then
      let i := if typ = 2 then part else 0
      .long p [] (modPos p (fun x =>
        { x with
          refresh := x.refresh ++ [(typ, i, reqRef r)]
          repeats := if typ = 3 then x.repeats else x.repeats ++ [(typ, i)] }) s)
    else match held with
      | some h =>
        let rec_ := (List.range 16).map (fun i => wd (fieldOf h.msg (32 * i) 32)) ++ wd64 h.spc ++ List.replicate 6 0
        let o := emitStatus 0x0205 r [[rec_]] s
        .now ST_OK [] o.2.2
      | none => .now ST_PRECONDITION [] s

/-- CHAIN.SELV_READ (R401): the held message, or a fresh one asked for. -/
def execChainSelvRead (r : Req) (s : State) : Host.Outcome State Fault Refusal :=
  .next (command (checksChainSelvRead r s) r s (actChainSelvRead r s))

/-- The checks of `CHAIN.SELV_WRITE` in the order of R397. -/
def checksChainSelvWrite (r : Req) (s : State) : Checks :=
  let p := bits (reqWord r 4) 31 13
  let x := posOf s p
  let range := (reqWord r 6).toNat
  { op := 0x0206, ready := chainReady (chainOfPos p)
    params := (posParam s (reqWord r 4)).isSome && (reqWord r 5).toNat == 2 && decide (range ≤ 1) && unusedZero r [4, 5, 6]
    owned := owns s r.fn (chainOfPos p)
    role := plantRole s (chainOfPos p)
    unit := chainUnit s (chainOfPos p)
    long := true
    pre := if x.kind = .dt1 then some ST_BAD_PARAM
      else if x.state != .released || x.cfg.any (fun f => f.cfgId == 2 && f.seq.isSome) then some ST_PRECONDITION else none }

/-- What `CHAIN.SELV_WRITE` does once its checks have passed. -/
def actChainSelvWrite (r : Req) (_ : State) : State → Reply :=
  let p := bits (reqWord r 4) 31 13
  let range := (reqWord r 6).toNat
  fun s =>
    .long p [] (modPos p (fun x => { x with
      cfg := x.cfg ++ [{ cfgId := 2, body := BitVec.ofNat 472 (range * 2 ^ 464), cmd := some (reqRef r) }] }) s)

/-- CHAIN.SELV_WRITE (R401): an auxiliary-input configuration, `CFG_ID` 0x02 with `AUX_RANGE` 0x00 or 0x01 (R105). -/
def execChainSelvWrite (r : Req) (s : State) : Host.Outcome State Fault Refusal :=
  .next (command (checksChainSelvWrite r s) r s (actChainSelvWrite r s))

/-- The checks of `CHAIN.RESET` in the order of R397. -/
def checksChainReset (r : Req) (s : State) : Checks :=
  let c := (reqWord r 4).toNat
  let unwrap := bits (reqWord r 5) 0 0 == 1
  let x := chainOf s c
  let k0 := chainChecks 0x0207 r s [5]
  { k0 with
    params := k0.params && bits (reqWord r 5) 31 1 == 0
    role := plantRole s c, long := true
    pre := if !(powered x || (x.offA && x.offB && !unwrap)) || inProcedure x || x.unwrapAt.isSome || vlineStop s c
        || (unwrap && x.mode == .normal)
      then some ST_PRECONDITION else none }

/-- A tag that is sent a reset word in frame p (R401). A lost position stays lost until another incarnation is accepted (R71). -/
def reboot (s : State) (x : Posn) : Posn :=
  let y := darken (if x.state = .lost then .lost else .bringingUp) s x
  { y with posted := { y.posted with reset := true } }

/-- What `CHAIN.RESET` does once its checks have passed. A ring that is off is brought up anew (R53). -/
def actChainReset (r : Req) (_ : State) : State → Reply :=
  let c := (reqWord r 4).toNat
  let unwrap := bits (reqWord r 5) 0 0 == 1
  fun s =>
    if unwrap then
      .long c [] (modChain c (fun x => { x with
        unwrapAt := some (frameAfter s c + 1, reqRef r), ccmd := if isLocal c then 0 else 6 }) s)
    else
      if powered (chainOf s c) then
        let s1 := startProc c 0x0207 (some (reqRef r)) s
        let s2 := modChain c (fun x =>
          { x with
            offA := portFenced s c false, offB := portFenced s c true
            carrierA := !portFenced s c false, carrierB := x.carrierB || (x.offB && !portFenced s c true), ccmd := if isLocal c then 0 else 5 }) s1
        .long c [] (modOcc c (reboot s) s2)
      else .long c [] (powerUp c 0x0207 (some (reqRef r)) s)

/-- CHAIN.RESET (R401): reboot every tag and enumerate, or unwrap (R69). It also starts a ring whose two ports have turned off (R529). -/
def execChainReset (r : Req) (s : State) : Host.Outcome State Fault Refusal :=
  .next (command (checksChainReset r s) r s (actChainReset r s))

end Sys2Proof.Machine
end

