-- ==== Sys2Proof/Machine/Pair.lean ====
section
/-! DEFINITION. The rows of the pair channel, of handover, merge and update, and the PAIR commands (chapter 14, R412). -/

namespace Sys2Proof.Machine

/-! ### Messages (R423) -/

/-- The state with a message's sequence number accepted, when it is authentic and next in sequence. -/
def acceptMsg (m : PairMsg) (s : State) : Option State :=
  if s.up && s.pair.role != .single && s.pair.key && m.authentic && m.mseq == (s.pair.lastSeq + 1) % 2 ^ 32 then
    some (modPair (fun u => { u with lastSeq := m.mseq }) s)
  else none

/-- Run `f` on an accepted message; any other has no effect. -/
def onMsg (m : PairMsg) (s : State) (f : State → State) : State := (acceptMsg m s).elim s f

/-- Entries of a table about local rings stay the device's own; the rest is the twin's (R416). -/
def joinTbl {α : Type} (chain : Nat → Nat) (own twin : Tbl α) : Tbl α :=
  forEach (twin.filter (fun e => !isLocal (chain e.1))) (own.filter (fun e => isLocal (chain e.1))) (fun e t => tset t e.1 e.2)

/-- The same for a table whose entries themselves say whether they are about local rings. -/
def joinBy {α : Type} (here : α → Bool) (own twin : Tbl α) : Tbl α :=
  forEach (twin.filter (fun e => !here e.2)) (own.filter (fun e => here e.2)) (fun e t => tset t e.1 e.2)

/-- What a window of the twin holds about the pair: its entries but those of local rings (R416). -/
def pairWindow (w : Window) : Window := { w with entries := w.entries.filter (fun e => isHk e.chi || !isLocal (chainOfChi e.chi)) }

/-- A supply group that lies wholly on local rings (R310). -/
def localGroup (g : Group) : Bool := g.members.all (fun p => isLocal (chainOfPos p))

/-- Groups of the pair from the twin, own local ones kept. -/
def joinGroups (own twin : Tbl Group) : Tbl Group := joinBy localGroup own twin

/-- SEQ_STATE (R310): the companion adopts the sequencer state of the pair's bridged chains. -/
def execSeqState (m : PairMsg) (drives : Tbl Drive) (groups : Tbl Group) (s : State) : Host.Outcome State Fault Refusal :=
  .next (onMsg m s fun s =>
    if s.pair.role != .companion then s
    else { s with chg := { s.chg with
      drives := joinTbl chainOfPos s.chg.drives drives, groups := joinGroups s.chg.groups groups } })

/-- The chain that a comparator count is about. -/
def chainOfCount (k : Nat) : Nat := chainOfChi (k % 2 ^ 26 / 8)

/-- Latched trips of both devices: the union, less those acknowledged (R355). -/
def joinTrips (own twin : List Trip) (acked : List (Nat × Nat)) : List Trip :=
  (own ++ twin.filter (fun t => !own.any (fun o => !isLocal (chainOfChi o.chi) && o.fn == t.fn && o.id == t.id))).filter fun t =>
    isLocal (chainOfChi t.chi) || !acked.contains (t.fn, t.id)

/-- SAFE_STATE (R355): counts, latches and acknowledgements of bridged chains that changed in the pick. -/
def execSafeState (m : PairMsg) (counts : Tbl Count) (latched : List Trip) (acked : List (Nat × Nat)) (stops : List (Nat × Bool))
    (s : State) : Host.Outcome State Fault Refusal :=
  let stopOf (spc : Nat) (e : Nat × Bool) (t : Tbl Stop) : Tbl Stop :=
    if e.2 then (if thas t e.1 then t else tset t e.1 { spc := spc }) else tdel t e.1
  .next (onMsg m s fun s =>
    modSafe (fun u =>
      { u with
        counts := forEach (counts.filter (fun e => !isLocal (chainOfCount e.1))) u.counts (fun e t => tset t e.1 e.2)
        trips := joinTrips u.trips (latched.filter (fun t => !isLocal (chainOfChi t.chi))) acked
        stops := forEach (stops.filter (fun e => !isLocal e.1)) u.stops (stopOf s.spc) }) s)

/-- DEMAND (R343): the leaseholder acts on a demand that its twin alone has found. -/
def execDemand (m : PairMsg) (t : Trip) (s : State) : Host.Outcome State Fault Refusal :=
  .next (onMsg m s fun s =>
    let c := chainOfChi t.chi
    if isLocal c || s.safe.trips.any (fun x => x.cause == t.cause && x.chi == t.chi && x.mux == t.mux && x.wset == t.wset) then s
    else
      let fn := ownerOf s c
      let id := (tgetD s.safe.lastId fn 0 + 1) % 2 ^ 32
      let s1 := modSafe (fun u =>
        { u with
          trips := u.trips ++ [{ t with fn := fn, id := id, since := s.spc + 1, lastBad := s.spc }]
          lastId := tset u.lastId fn id }) s
      raiseNow (tripSource s c) 0xA0 (t.cause * 2 ^ 32 + id) s1)

/-- HANDOVER (R429, R433): the pick X and the new epoch. A device that holds leases gives them, any other takes them. -/
def execHandover (m : PairMsg) (s : State) : Host.Outcome State Fault Refusal :=
  .next (onMsg m s fun s =>
    let h : Handing :=
      { x := of64 (m.body.getD 0 0) (m.body.getD 1 0), epoch := (m.body.getD 2 0).toNat, take := (heldLanes s).isEmpty }
    modPair (fun u => { u with handing := some h }) s)

/-- LOCAL_FAULT (R423): what the twin reports is held for the management function. -/
def execLocalFault (m : PairMsg) (s : State) : Host.Outcome State Fault Refusal :=
  .next (onMsg m s (modPair (fun u => { u with twinFaults := m.body :: u.twinFaults })))

/-- IMAGE (R436): a block of an image is received; its header is kept for the checks. -/
def execImage (m : PairMsg) (s : State) : Host.Outcome State Fault Refusal :=
  .next (onMsg m s (modPair (fun u =>
    { u with
      updating := some (u.updating.getD none), step := if u.updating.isNone then 1 else u.step
      imageWords := (if u.updating.isNone then 0 else u.imageWords) + m.body.length
      imageHead := ((if u.updating.isNone then [] else u.imageHead) ++ m.body).take headWords })))

/-- PAIR_MESSAGE_RESEND (R423): after 4 picks without an acknowledgement, from the first unacknowledged message on. -/
def execPairMessageResend (s : State) : Host.Outcome State Fault Refusal :=
  .next (if s.up && s.pair.unacked.any (fun m => decide (m.sent + 4 ≤ s.spc)) then
    { s with
      out := { s.out with pair := (s.pair.unacked.map (·.msg)).reverse ++ s.out.pair }
      pair := { s.pair with unacked := s.pair.unacked.map (fun m => { m with sent := s.spc }) } }
  else s)

/-! ### Resynchronisation (R435) -/

/-- Number of a block: 0 to 8 are the tables of the first part. -/
def blockNumber : ResyncBlock → Nat
  | .tenants .. => 0
  | .map .. => 1
  | .coefficients .. => 2
  | .windows .. => 3
  | .windowSets .. => 4
  | .profiles .. => 5
  | .programs .. => 6
  | .balancing .. => 7
  | .armed .. => 8
  | .records .. => 9
  | .safety .. => 10
  | .estimator .. => 11
  | .spectral .. => 12
  | .results .. => 13

/-- Bindings of the pair from the twin, those of local rings kept. -/
def joinBindings (own twin : Bindings) : Bindings :=
  { drive := joinTbl chainOfPos own.drive twin.drive
    shunt := joinTbl chainOfPos own.shunt twin.shunt
    therm := joinTbl (fun k => chainOfPos (k / 4)) own.therm twin.therm
    std := joinTbl chainOfChi own.std twin.std
    rbal := joinTbl chainOfPos own.rbal twin.rbal
    rwire := joinTbl chainOfPos own.rwire twin.rwire }

/-- The chain of an entry key. -/
def chainOfKey (k : Nat) : Nat := chainOfChi (k / 8)

/-- Apply a block. What concerns local rings stays the device's own (R416). -/
def applyBlock (b : ResyncBlock) (s : State) : State :=
  match b with
  | .tenants t w o g =>
    { s with ten := { s.ten with
        tenants := t, weights := w, owner := joinTbl id s.ten.owner o, grants := joinTbl id s.ten.grants g } }
  | .map x st =>
    { s with map := { s.map with
        bind := joinBindings s.map.bind x
        staged := s.map.staged.filter (fun e => isLocal (chainOfPos (bits e.target 31 13)))
          ++ st.filter (fun e => !isLocal (chainOfPos (bits e.target 31 13))) } }
  | .coefficients t c => { s with cal := { s.cal with tags := joinTbl chainOfPos s.cal.tags t, chains := joinTbl id s.cal.chains c } }
  | .windows w => { s with acc := { s.acc with windows := joinBy ownWindow s.acc.windows (tmap w (fun _ x => if ownWindow x then x else pairWindow x)) } }
  | .windowSets x a d => modSafe (fun u =>
      { u with sets := x, assign := joinTbl chainOfPos u.assign a, derived := joinTbl (· / 4096) u.derived d }) s
  | .profiles p x t => { s with est := { s.est with
      profiles := p, bound := joinTbl chainOfPos s.est.bound x, therm := joinTbl chainOfPos s.est.therm t } }
  | .programs d g => { s with chg := { s.chg with drives := joinTbl chainOfPos s.chg.drives d, groups := joinGroups s.chg.groups g } }
  | .balancing c x => { s with bal := { s.bal with cells := joinTbl chainOfChi s.bal.cells c, chains := joinTbl id s.bal.chains x } }
  | .armed l p => modSafe (fun u => { u with armed := l, password := p }) s
  | .records one sixty ap => { s with acc := { s.acc with
      one := joinTbl chainOfKey s.acc.one one, sixty := joinTbl chainOfKey s.acc.sixty sixty, apsis := joinTbl chainOfKey s.acc.apsis ap } }
  | .safety c t x => modSafe (fun u =>
      { u with
        counts := joinTbl chainOfCount u.counts c, stops := joinTbl id u.stops x
        trips := joinTrips u.trips (t.filter (fun e => !isLocal (chainOfChi e.chi))) [] }) s
  | .estimator st c h f => { s with est := { s.est with
      strs := joinTbl chainOfPos s.est.strs st, cells := joinTbl chainOfChi s.est.cells c, half := joinTbl chainOfChi s.est.half h, fns := f } }
  | .spectral c x i g d => { s with spec := { s.spec with
      ctxs := joinTbl chainOfChi s.spec.ctxs c, casc := joinTbl chainOfChi s.spec.casc x, cur := joinTbl chainOfPos s.spec.cur i
      chains := joinTbl id s.spec.chains g, dither := joinTbl chainOfPos s.spec.dither d } }
  | .results t f x =>
    { s with
      loom := { s.loom with trips := s.loom.trips.filter (fun e => isLocal (chainOfChi e.chi)) ++ t.filter (fun e => !isLocal (chainOfChi e.chi)) }
      spec := { s.spec with focus := joinBy (fun y => isLocal (chainOfChi y.chi)) s.spec.focus f }
      chg := { s.chg with
        drives := forEach (x.filter (fun e => !isLocal (chainOfPos e.1))) s.chg.drives (fun e t => tupd t e.1 (fun y => { y with sets := e.2 })) } }

/-- Progress in permille: the tables are the first half. -/
def resyncProgress (taken : List Nat) : Nat :=
  (taken.filter (fun i => decide (i < 9))).length * 500 / 9 + (taken.filter (fun i => decide (9 ≤ i))).length * 100

/-- RESYNC (R435). -/
def execResync (m : PairMsg) (b : ResyncBlock) (s : State) : Host.Outcome State Fault Refusal :=
  .next (onMsg m s fun s =>
    if s.pair.role != .companion || !s.pair.resync then s
    else
      let l := if s.pair.taken.contains (blockNumber b) then s.pair.taken else blockNumber b :: s.pair.taken
      modPair (fun u => { u with taken := l, progress := resyncProgress l }) (applyBlock b s))

/-- RESYNC_COMPLETE (R424, R435): every block is in; the companion adopts the primary's epoch. -/
def execResyncComplete (s : State) : Host.Outcome State Fault Refusal :=
  .next (if s.up && s.pair.role == .companion && s.pair.resync && (List.range 14).all (fun i => s.pair.taken.contains i) then
    leaveStart (raiseNow 0x60C 0xB7 0 (setEpoch s.pair.twin.epoch (modPair (fun u => { u with resync := false, progress := 1000 }) s)))
  else s)

/-! ### Link, leases and roles -/

/-- Start both directions of the pair channel anew (log 14). -/
def freshChannel (s : State) : State := modPair (fun u => { u with nextSeq := 1, lastSeq := 0, unacked := [], resyncSent := false }) s

/-- TWIN_LINK_RESTORED (R423, R433): heartbeats in 8 consecutive picks. A device that has restarted since it joined merges as companion. -/
def execTwinLinkRestored (s : State) : Host.Outcome State Fault Refusal :=
  .next (if s.up && !s.pair.link && decide (8 ≤ s.pair.beats) && (s.pair.role != .single || s.pair.pid != 0) && s.pair.key then
    let s1 := raiseNow 0x60B 0xB4 (twinMask s) (freshChannel (modPair (fun u => { u with link := true, lostAt := 0 }) s))
    if s1.pair.offsetOut then s1 else startUncopied (mergePair s1)
  else s)

/-- LEASE_ASSESSMENT (R431): while the twin link is lost, at each multiple of 200. -/
def execLeaseAssessment (s : State) : Host.Outcome State Fault Refusal :=
  .next (if s.up && s.pair.role != .single && !mirrors s && s.spc % 200 == 0 then
    let leased := (bridgeLanes s).filter (fun l => !noLease s l)
    let own := (heldLanes s).length
    let twin := leased.length - own
    let healthy := leased.all (fun l => flagOf (laneOf s l).lease 101 && flagOf (laneOf s l).lease 102)
    let s1 := raiseNow 0x60A 0xB5 (b2n (!healthy) + own * 2 ^ 16) s
    let minority := decide (own < twin) || (own == twin && decide (s.pair.twin.pid < s.pair.pid))
    let free := (bridgeLanes s).filter (noLease s)
    if healthy && minority then
      modPair (fun u => { u with releasing := heldLanes s }) (setRole .companion 4 (stopClaims s1))
    else
      let kept := s.pair.claims.filter (noLease s)
      let e := if kept.isEmpty then none else s.pair.proposed
      startClaims free 4 (modPair (fun u => { u with claims := kept, proposed := e }) s1)
  else s)

/-- DEMOTION_BOUNDARY (R434). -/
def execDemotionBoundary (s : State) : Host.Outcome State Fault Refusal :=
  .next (match s.pair.stale with
  | some b =>
    if s.up && decide (b ≤ s.spc) then
      startResync (raiseNow 0x609 0xB0 (2 + 6 * 2 ^ 8) (setRole .companion 6 (modPair (fun u => { u with stale := none }) s)))
    else s
  | none => s)

/-- HANDOVER_PICK (R429, R433): from X the taker is primary and claims the bridges that did not commit; the other is companion. -/
def execHandoverPick (s : State) : Host.Outcome State Fault Refusal :=
  .next (match s.pair.handing with
  | some h =>
    if s.up && decide (h.x ≤ s.spc) then
      if h.take then
        let s1 := setEpoch h.epoch (setRole .primary 1 (stopClaims s))
        let s2 := modPair (fun u => { u with handing := none, stale := none }) s1
        startUncopied (startClaims ((bridgeLanes s2).filter (fun l => !holdsLease s2 l)) 1 s2)
      else
        let s1 := setEpoch h.epoch (setRole .companion 1 (stopClaims s))
        settleHandover s1
    else s
  | none => s)

/-- REFCLK_OFFSET_OUT (R19, R432): more than 0.2 ppm from the twin; the pair runs as two devices. -/
def execRefclkOffsetOut (offset : Int) (s : State) : Host.Outcome State Fault Refusal :=
  let s1 := modPair (fun u => { u with offset := offset }) s
  .next (if s.up && decide (200 < offset.natAbs) then
    if s.pair.role = .single || s.pair.offsetOut then modPair (fun u => { u with offsetOut := true }) s1
    else raiseNow 0x60E 0xB9 1 (stopMirroring (modPair (fun u => { u with offsetOut := true }) s1))
  else s)

/-- REFCLK_OFFSET_BACK (R432, R433). -/
def execRefclkOffsetBack (offset : Int) (s : State) : Host.Outcome State Fault Refusal :=
  let s1 := modPair (fun u => { u with offset := offset }) s
  .next (if s.up && decide (offset.natAbs ≤ 200) then
    if !s.pair.offsetOut then s1
    else
      let s2 := modPair (fun u => { u with offsetOut := false }) s1
      if s.pair.role = .single then s2
      else
        let s3 := raiseNow 0x60E 0xB9 0 s2
        if s3.pair.link then startUncopied (mergePair (freshChannel s3)) else s3
  else s)

/-! ### Formation (R417, R418) -/

/-- A device in service in the sense of R21: tenants, open windows, running programs or armed safety functions. -/
def inService (s : State) : Bool :=
  !s.ten.tenants.isEmpty || !s.acc.windows.isEmpty || s.chg.drives.any (fun e => driveActive e.2) || !s.safe.armed.isEmpty

/-- End a formation. -/
def endForming (status : Nat) (s : State) : State :=
  match s.pair.forming with
  | some f => finishOn 0x608 f.cmd status s.spc (modPair (fun u => { u with forming := none }) s)
  | none => s

/-- PAIR_FORMATION_TIMEOUT (R417): the two commands have not met within 10 s. -/
def execPairFormationTimeout (s : State) : Host.Outcome State Fault Refusal :=
  .next (if s.up && s.pair.forming.elim false (fun f => decide (f.deadline ≤ s.spc)) then endForming ST_PRECONDITION s else s)

/-- The lane map of the pair, own lane to pair lane: the form-0 device's lanes are the pair lanes. -/
def pairLanes (f : Forming) (v : PeerView) : Tbl Nat :=
  if f.join then forEach f.laneMap [] (fun e t => tset t e.1 e.2) else forEach v.laneMap [] (fun e t => tset t e.2 e.2)

/-- The twin's lane to the bridge of an own lane. -/
def twinLanes (f : Forming) (v : PeerView) : Tbl Nat :=
  if f.join then forEach f.laneMap [] (fun e t => tset t e.1 e.2) else forEach v.laneMap [] (fun e t => tset t e.2 e.1)

/-- Formation fails (R417): no twin lane runs, the offset is out, variants differ, identifiers are equal, a mapped lane reaches another
bridge, or the joining device is in service. -/
def formationFails (f : Forming) (v : PeerView) (s : State) : Bool :=
  let own : Nat := match s.otp.variant with
    | .f => 1
    | .m => 2
    | .l => 3
  twinMask s == 0 || s.pair.offsetOut || own != v.variant || f.pid == s.pair.twin.pid
    || (twinLanes f v).any (fun e => (laneOf s e.1).peerUid != tgetD v.uids e.2 0)
    || (if f.join then inService s else v.inService)

/-- The two commands have met (R417): formation fails, or the roles are taken. A joining device adopts the SPC of one that is in service; else
the higher of the two is the pair's (R21), and a step is recorded in the trace. -/
def meetTwin (f : Forming) (v : PeerView) (s : State) : State :=
  if formationFails f v s then endForming ST_PRECONDITION s
  else
    let spc := if f.join && v.inService then s.pair.twin.spc else if !f.join && inService s then s.spc else max s.spc s.pair.twin.spc
    let s1 := if spc = s.spc then s
      else
        let s0 := { s with time := { s.time with spc := spc } }
        traceMarker 4 0xC 0 (wd64 s.spc ++ wd64 spc) s0
    let s2 := { s1 with
      lane := { s1.lane with pairMap := pairLanes f v, twinMap := twinLanes f v }
      pair := { s1.pair with
        pid := f.pid, laneMap := f.laneMap, link := true, lostAt := 0, key := s1.pair.key || f.join
        twin := { s1.pair.twin with uid := v.dieUid, fwVersion := v.fwVersion, safetyVersion := v.safetyVersion } }
      nvm := { s1.nvm with
        pairKey := s1.nvm.pairKey || f.join, kept := { s1.nvm.kept with pid := f.pid, laneMap := f.laneMap } } }
    let s3 := setRole (if f.join then .companion else .primary) 0 (freshChannel s2)
    let s4 := if f.join then setEpoch s3.pair.twin.epoch (startResync s3) else s3
    refreshReady (endForming ST_OK s4)

/-! ### PAIR.CONFIG, PAIR.HANDOVER, PAIR.UPDATE -/

/-- Entries of a lane map (R412): own lane and primary's lane. -/
def mapEntries (r : Req) : List (Nat × Nat) := (r.inb.dropLast).map (fun w => (bits w 7 0, bits w 15 8))

/-- The entries name lanes of the variant, each once. -/
def mapValid (s : State) (r : Req) : Bool :=
  let l := mapEntries r
  let n := lanesOf s.otp.variant
  r.inb.dropLast.all (fun w => bits w 31 16 == 0) && l.all (fun e => decide (e.1 < n) && decide (e.2 < n))
    && decide ((l.map (·.1)).Nodup) && decide ((l.map (·.2)).Nodup)

/-- Leave a pair (R418): on the companion at once; on a primary whose link is down it keeps its leases. -/
def leavePair (s : State) : State :=
  let comp := s.pair.role == .companion
  let s1 := releaseMirrored (setRole .single 7 s)
  let s2 := { s1 with
    pair := { s1.pair with
      pid := 0, laneMap := [], link := false, beats := 0, claims := [], proposed := none, handing := none, stale := none, resync := false
      progress := 0, unacked := [], twin := {}, releasing := [], held := [] }
    therm := { s1.therm with twin := 0, force := s1.therm.steps }
    nvm := { s1.nvm with kept := { s1.nvm.kept with pid := 0, laneMap := [] } } }
  if comp then forEach (bridgeLanes s2) s2 (fun l s => modLane l (fun x => { x with lease := 0 }) s) else s2

/-- The checks of `PAIR.CONFIG` in the order of R397. -/
def checksPairConfig (r : Req) (s : State) : Checks :=
  let form := bits (reqWord r 4) 1 0
  let pid := (reqWord r 5).toNat
  let n := (reqWord r 6).toNat
  { op := 0x0D00, ready := 13, permitted := r.fn == mgmt
    buf := if n = 0 then .none else .inb 6 (4 * n + 4)
    params := unusedZero r [4, 5, 6] && bits (reqWord r 4) 31 2 == 0 && decide (form ≤ 2) && decide (pid < 2 ^ 16) && decide (n ≤ 128)
      && (form != 2 || (pid == 0 && n == 0))
    fields := n == 0 || mapValid s r, long := true
    pre :=
      if form = 2 then
        (match s.pair.role with
        | .single => some ST_PRECONDITION
        | .companion => none
        | .primary => if s.pair.link then some ST_PRECONDITION else none)
      else if s.pair.role != .single || s.pair.forming.isSome || (form == 1 && inService s) then some ST_PRECONDITION
      else none }

/-- What `PAIR.CONFIG` does once its checks have passed. -/
def actPairConfig (r : Req) (_ : State) : State → Reply :=
  let form := bits (reqWord r 4) 1 0
  let pid := (reqWord r 5).toNat
  let n := (reqWord r 6).toNat
  fun s =>
    if form = 2 then .longNow ST_OK [] (leavePair s)
    else
      let f : Forming :=
        { join := form == 1, pid := pid, laneMap := if n = 0 then [] else mapEntries r, deadline := s.spc + 1000000, cmd := reqRef r }
      .long 0 [] (modPair (fun u => { u with forming := some f }) s)

/-- PAIR.CONFIG (R417, R418). -/
def execPairConfig (r : Req) (s : State) : Host.Outcome State Fault Refusal :=
  .next (command (checksPairConfig r s) r s (actPairConfig r s))

/-- The checks of `PAIR.HANDOVER` in the order of R397. -/
def checksPairHandover (r : Req) (s : State) : Checks :=
  { op := 0x0D02, ready := 13, permitted := r.fn == mgmt, params := unusedZero r [], long := true
    pre := if s.pair.role = .primary && mirrors s && s.pair.handing.isNone && s.pair.stale.isNone && s.pair.twin.sub != 1 then none
      else some ST_PRECONDITION }

/-- What `PAIR.HANDOVER` does once its checks have passed. -/
def actPairHandover (r : Req) (_ : State) : State → Reply :=
  fun s =>
      let x := flipAfter s.spc
      let e := (s.pair.epoch + 1) % 2 ^ 32
      .long 0 [] (modPair (fun u => { u with handing := some { x := x, epoch := e, take := false, cmd := some (reqRef r) } })
        (sendPair .handover [x % 2 ^ 32, x / 2 ^ 32, e] s))

/-- PAIR.HANDOVER (R429). -/
def execPairHandover (r : Req) (s : State) : Host.Outcome State Fault Refusal :=
  .next (command (checksPairHandover r s) r s (actPairHandover r s))

/-- The checks of `PAIR.UPDATE` in the order of R397. -/
def checksPairUpdate (r : Req) (s : State) : Checks :=
  let n := (reqWord r 4).toNat
  { op := 0x0D03, ready := 13, permitted := r.fn == mgmt, buf := .inb 7 (n + 4)
    params := unusedZero r [4] && decide (1 ≤ n) && decide (n ≤ 48 * 2 ^ 20), long := true
    role := if s.therm.force != 0 then some ST_THERMAL else none
    pre := if s.pair.role = .primary && mirrors s && s.pair.twin.sub != 1 && s.pair.updating.isNone then none else some ST_PRECONDITION }

/-- What `PAIR.UPDATE` does once its checks have passed. -/
def actPairUpdate (r : Req) (_ : State) : State → Reply :=
  fun s =>
      .long 0 [] (raiseNow 0x60D 0xB8 1 (modPair (fun u => { u with updating := some (some (reqRef r)), step := 1, imageHead := r.inb.take headWords })
        (sendPair .image (r.inb.map (·.toNat)) s)))

/-- PAIR.UPDATE (R436). -/
def execPairUpdate (r : Req) (s : State) : Host.Outcome State Fault Refusal :=
  .next (command (checksPairUpdate r s) r s (actPairUpdate r s))

/-- Restart on the image of the other slot (R436): a warm reset onto it, on trial. -/
def restartUpdate (s : State) : State :=
  { s with nvm := { s.nvm with prefB := !s.boot.slotB, trialFlag := true, trialFailed := false }, boot := { s.boot with warmReq := some 3 } }

/-- Go on to a step of the update, with its event. -/
def updateStep (n : Nat) (s : State) : State := raiseNow 0x60D 0xB8 n (modPair (fun u => { u with step := n }) s)

/-- End the update: 6 done, 7 failed. -/
def endUpdate (n status : Nat) (s : State) : State :=
  let s1 := leaveStart (updateStep n (modPair (fun u => { u with updating := none }) s))
  match s.pair.updating with
  | some (some c) => finishOn 0x60D c status s.spc s1
  | _ => s1

/-- YIELD (R428): the companion claims every bridge until it is granted; stops that the primary's lockout demanded stay latched. A
primary in thermal shutdown ends an update in progress (R491). -/
def execYield (m : PairMsg) (s : State) : Host.Outcome State Fault Refusal :=
  .next (onMsg m s fun s =>
    if s.pair.role != .companion then s
    else
      let s0 := startClaims ((bridgeLanes s).filter (fun l => !holdsLease s l)) 2 s
      let s1 := if (m.body.headD 0).toNat = 2 ∧ s.pair.updating.isSome then endUpdate 7 ST_THERMAL s0 else s0
      if (m.body.headD 0).toNat != 1 then s1
      else
        let latch (c : Nat) (t : Tbl Stop) : Tbl Stop := if thas t c then t else tset t c { spc := s1.spc }
        modSafe (fun u => { u with stops := forEach (tkeys s1.line.chains (fun c _ => !isLocal c)) u.stops latch }) s1)

/-- PAIR_UPDATE_STEP_DONE (R436): at step 1 `checks` are what the checks of R463 find on this device and its twin. -/
def execPairUpdateStepDone (checks : ImageChecks) (parts : ImageParts) (s : State) : Host.Outcome State Fault Refusal :=
  .next (if !s.up || s.pair.updating.isNone then s
  else match s.pair.step with
    | 1 =>
      let img := imageOf s.pair.imageHead parts
      if !imageSound s.otp.keyHash checks s.pair.imageHead then endUpdate 7 ST_CHECK_FAIL s
      else if checks.twin != 0 then endUpdate 7 checks.twin s
      else if !imageFits s img then endUpdate 7 ST_PRECONDITION s
      else
        let s1 := updateStep 2 (putSlot (!s.boot.slotB) (some img) s)
        if s1.pair.role = .companion then restartUpdate s1 else s1
    | 2 =>
      if s.boot.fallback || s.nvm.trialFailed then endUpdate 7 ST_PRECONDITION s
      else if s.boot.warmReq.isSome || !s.pair.link then s
      else updateStep 3 s
    | 3 =>
      if s.pair.resync || s.pair.twin.sub == 1 || !mirrors s then s
      else
        let s1 := updateStep 4 s
        if s1.pair.role != .primary then s1
        else
          let x := flipAfter s1.spc
          let e := (s1.pair.epoch + 1) % 2 ^ 32
          modPair (fun u => { u with handing := some { x := x, epoch := e, take := false } }) (sendPair .handover [x % 2 ^ 32, x / 2 ^ 32, e] s1)
    | 4 =>
      if s.pair.handing.isSome then s
      else
        let s1 := updateStep 5 s
        if s1.pair.role = .companion then restartUpdate s1 else s1
    | 5 =>
      if s.boot.fallback || s.nvm.trialFailed then endUpdate 7 ST_PRECONDITION s
      else if s.boot.warmReq.isSome || !s.pair.link || s.pair.resync || s.pair.twin.sub == 1 then s
      else endUpdate 6 ST_OK s
    | _ => s)

/-! ### PAIR.STATUS, PAIR.LEASE (R438) -/

/-- Substate of the device (R438). -/
def pairSub (s : State) : Nat :=
  if s.pair.stale.isSome then 3
  else if s.pair.role != .single && !mirrors s then 2
  else if s.pair.resync then 1
  else 0

/-- Pair-sequenced commands in flight: waiting for the companion, or held. -/
def mirrorsOut (s : State) : Nat :=
  (s.cmd.deferred.filter (fun d => match d.kind with
    | .mirror _ => true
    | _ => false)).length + s.pair.held.length

/-- The status record. A bridge is reached by a device whose uplink it reports received. -/
def pairRecord (s : State) : List Word :=
  let u := s.pair
  let lanes := bridgeLanes s
  let up (i : Nat) (l : Nat) : Bool := flagOf (laneOf s l).lease (101 + (if i = 0 then (laneOf s l).uplink else 1 - (laneOf s l).uplink))
  let only (i : Nat) : Nat := (lanes.filter (fun l => up i l && !up (1 - i) l)).length
  [wd (u.twin.pid * 2 ^ 16 + u.pid),
   wd (roleCode u.role + pairSub s * 4 + b2n u.offsetOut * 2 ^ 4 + b2n u.twin.lockout * 2 ^ 5 + b2n u.twin.throttle * 2 ^ 6 + twinMask s * 2 ^ 8),
   wd u.epoch, wd u.twin.epoch] ++ wd64 u.twin.uid
    ++ [wd (heldLanes s).length, wd (lanes.filter (otherHolds s)).length, wd (lanes.filter (noLease s)).length, wd (only 0), wd (only 1), wdI u.offset]
    ++ wd64 u.roleSpc ++ wd64 u.epochSpc ++ [wd u.progress] ++ wd64 (if u.link then 0 else u.lostAt)
    ++ [wd (mirrorsOut s), wd (u.twin.fwVersion + u.twin.safetyVersion * 2 ^ 16), wd u.step] ++ List.replicate 42 0

/-- The checks of `PAIR.STATUS` in the order of R397. -/
def checksPairStatus (r : Req) (_ : State) : Checks :=
  { op := 0x0D01, ready := 13, permitted := r.fn == mgmt, buf := .outb 256, params := unusedZero r [] }

/-- What `PAIR.STATUS` does once its checks have passed. -/
def actPairStatus (r : Req) (_ : State) : State → Reply :=
  fun s =>
    let o := emitStatus 0x0D01 r [[pairRecord s]] s
    .now ST_OK [wd (roleCode s.pair.role), wd s.pair.epoch, wd (heldLanes s).length, wdI s.pair.offset] o.2.2

/-- PAIR.STATUS. -/
def execPairStatus (r : Req) (s : State) : Host.Outcome State Fault Refusal :=
  .next (command (checksPairStatus r s) r s (actPairStatus r s))

/-- The lease record of a bridge lane. -/
def leaseStatus (s : State) (l : Nat) : List Word :=
  let x := laneOf s l
  let z := x.lease
  [wd l,
   wd (fieldOf z 96 4 + b2n (holdsLease s l) * 2 ^ 4 + b2n (otherHolds s l) * 2 ^ 5 + fieldOf z 100 1 * 2 ^ 6
     + fieldOf z (101 + x.uplink) 1 * 2 ^ 7 + fieldOf z (102 - x.uplink) 1 * 2 ^ 8 + fieldOf z 112 16 * 2 ^ 16),
   wd x.epoch, wd (fieldOf z 64 32)]

/-- The checks of `PAIR.LEASE` in the order of R397. -/
def checksPairLease (r : Req) (_ : State) : Checks :=
  { op := 0x0D04, ready := 13, permitted := r.fn == mgmt, buf := .outb 16, params := unusedZero r [] }

/-- What `PAIR.LEASE` does once its checks have passed. -/
def actPairLease (r : Req) (_ : State) : State → Reply :=
  fun s =>
    let o := emitStatus 0x0D04 r [(List.range (lanesOf s.otp.variant)).map (leaseStatus s)] s
    .now ST_OK [wd o.1.records] o.2.2

/-- PAIR.LEASE. -/
def execPairLease (r : Req) (s : State) : Host.Outcome State Fault Refusal :=
  .next (command (checksPairLease r s) r s (actPairLease r s))

end Sys2Proof.Machine
end

