-- ==== Sys2Proof/Machine/Ten.lean ====
section
/-! DEFINITION. The rows of tenancy, events and interrupts (chapter 12) and the commands of the TEN class (R411). -/

namespace Sys2Proof.Machine

/-! ### Rows -/

/-- FUNCTION_LEVEL_RESET (R381): of VF n, which is tenant n - 1; of function 0, which clears VF Enable. -/
def execFunctionLevelReset (vf : Nat) (s : State) : Host.Outcome State Fault Refusal :=
  onObject (decide (vf ≤ 256))
    (if !s.up then s
    else if vf = 0 then resetDisabled (modTen (fun u => { u with vfEnable := false }) s)
    else if vfOn s (vf - 1) then startTenantReset (vf - 1) 1 none s
    else s)

/-- VF_ENABLE_CLEARED (R381): VF Enable and NumVFs as the host writes them. -/
def execVfEnableCleared (enable : Bool) (numVfs : Nat) (s : State) : Host.Outcome State Fault Refusal :=
  .next (if s.up then resetDisabled (modTen (fun u => { u with vfEnable := enable, numVfs := min numVfs 256 }) s) else s)

/-- OWNER_CHANGE (R360, R361): at boundary g the chain passes, and the command finishes with the SPC of g. A grant to a number that is no
tenant any more ends ST_ABORTED. -/
def execOwnerChange (chain : Nat) (s : State) : Host.Outcome State Fault Refusal :=
  onObject (chainExists s chain)
    (match tget s.ten.grants chain with
    | some g =>
      if s.up && decide (g.g ≤ s.spc) then
        let s0 := modTen (fun u => { u with grants := tdel u.grants chain }) s
        let ends (st : Nat) (s : State) : State := match g.cmd with
          | some ref => finishOn srcMgmt ref st g.g s
          | none => s
        if g.owner ≠ mgmt ∧ ¬ thas s.ten.tenants g.owner then ends ST_ABORTED s0
        else
          let was := ownerOf s chain
          let s1 := passChain chain g.owner g.g s0
          let s2 := if g.owner ≠ mgmt then raise (0x100 + g.owner) 0x02 (chain * 128 * 2 ^ 19) g.g s1
            else if was ≠ mgmt then raise (0x100 + was) 0x03 (chain * 128 * 2 ^ 19) g.g s1
            else s1
          ends ST_OK s2
      else s
    | none => s)

/-- TENANT_RESET_EFFECT (R381, R382). -/
def execTenantResetEffect (t : Nat) (s : State) : Host.Outcome State Fault Refusal :=
  .next (match (tget s.ten.tenants t).bind (·.reset) with
    | some x => if s.up && !x.done && decide (x.r ≤ s.spc) then effectReset t x s else s
    | none => s)

/-- TENANT_RESET_COMPLETE (R381): at r + 500. -/
def execTenantResetComplete (t : Nat) (s : State) : Host.Outcome State Fault Refusal :=
  .next (match (tget s.ten.tenants t).bind (·.reset) with
    | some x => if s.up && x.done && decide (x.r + 500 ≤ s.spc) then completeReset t x s else s
    | none => s)

/-- EVENT_WRITER_ROUND (R376): at each SPC that is a multiple of 100; its first 16 records are written in its first pick, and 16 in each pick
that follows. -/
def execEventWriterRound (s : State) : Host.Outcome State Fault Refusal :=
  .next (if s.up && s.spc % 100 == 0 then eventRound s else s)

/-- MODERATION_EXPIRY (R377): one message if anything was written for the vector in the interval. -/
def execModerationExpiry (fn vector : Nat) (s : State) : Host.Outcome State Fault Refusal :=
  let k := fn * 256 + vector
  .next (match tget s.ten.vecs k with
    | some x =>
      if s.up && x.want && decide (x.quietUntil ≤ s.spc) then
        if x.masked then modTen (fun u => { u with vecs := tset u.vecs k { x with want := false, pend := true } }) s
        else sendMsix fn vector s
      else s
    | none => s)

/-! ### Commands (R411) -/

/-- The checks of `TEN.CREATE` in the order of R397. -/
def checksTenCreate (r : Req) (s : State) : Checks :=
  let w := (reqWord r 4).toNat
  let free := (List.range 256).filter (fun t => !thas s.ten.tenants t)
  let t := if w = 0x1FF then (free.filter (vfOn s)).headD 256 else w
  { op := 0x0C00, ready := 12, permitted := r.fn == mgmt
    params := unusedZero r [4] && (decide (w ≤ 255) || w == 0x1FF)
    quota := if w = 0x1FF ∧ free = [] then some ST_TABLE_FULL else none
    pre := if t = 256 ∨ thas s.ten.tenants t ∨ ¬ vfOn s t then some ST_PRECONDITION else none }

/-- What `TEN.CREATE` does once its checks have passed. -/
def actTenCreate (r : Req) (s : State) : State → Reply :=
  let w := (reqWord r 4).toNat
  let free := (List.range 256).filter (fun t => !thas s.ten.tenants t)
  let t := if w = 0x1FF then (free.filter (vfOn s)).headD 256 else w
  fun s =>
    .now ST_OK [wd t] (modTen (fun u => { u with tenants := tset u.tenants t {}, weights := tset u.weights t {} }) s)

/-- TEN.CREATE (R357). -/
def execTenCreate (r : Req) (s : State) : Host.Outcome State Fault Refusal :=
  .next (command (checksTenCreate r s) r s (actTenCreate r s))

/-- The checks of `TEN.DESTROY` in the order of R397. -/
def checksTenDestroy (r : Req) (s : State) : Checks :=
  let t := (reqWord r 4).toNat
  { op := 0x0C01, ready := 12, permitted := r.fn == mgmt, long := true
    params := unusedZero r [4] && decide (t ≤ 255)
    pre := match tget s.ten.tenants t with
      | some x => if x.reset.isSome then some ST_PRECONDITION else none
      | none => some ST_PRECONDITION }

/-- What `TEN.DESTROY` does once its checks have passed. -/
def actTenDestroy (r : Req) (_ : State) : State → Reply :=
  let t := (reqWord r 4).toNat
  fun s => .long t [] (startTenantReset t 3 (some (reqRef r)) s)

/-- TEN.DESTROY (R358). A reset that already runs must complete first (log 16). -/
def execTenDestroy (r : Req) (s : State) : Host.Outcome State Fault Refusal :=
  .next (command (checksTenDestroy r s) r s (actTenDestroy r s))

/-- The reservations that `TEN.GRANT` form 1 gives. -/
def grantPools (r : Req) : Pools :=
  { windows := (reqWord r 6).toNat, entries := (reqWord r 7).toNat, focus := bits (reqWord r 8) 15 0, profiles := bits (reqWord r 8) 31 16
    programs := bits (reqWord r 9) 15 0, windowSets := bits (reqWord r 9) 31 16 }

/-- The checks of `TEN.GRANT` in the order of R397. -/
def checksTenGrant (r : Req) (s : State) : Checks :=
  let t := (reqWord r 4).toNat
  let chain := (reqWord r 5).toNat == 0
  let c := (reqWord r 6).toNat
  let p := grantPools r
  let exceeds := ((reserved s t).zip p.list).zip poolLimits |>.any (fun x => decide (x.2 < x.1.1 + x.1.2))
  let under := ((heldPools s t).list.zip p.list).any (fun x => decide (x.2 < x.1))
  { op := 0x0C02, ready := 12, permitted := r.fn == mgmt, long := chain
    params := decide (t ≤ 255) && decide ((reqWord r 5).toNat ≤ 1)
      && (if chain then unusedZero r [4, 5, 6] && (chainParam s (reqWord r 6)).isSome else unusedZero r [4, 5, 6, 7, 8, 9])
    unit := if chain then chainUnit s c else none
    quota := if !chain && exceeds then some ST_TABLE_FULL else none
    pre := if !thas s.ten.tenants t then some ST_PRECONDITION
      else if chain then (if ownerOf s c ≠ mgmt ∨ thas s.ten.grants c then some ST_PRECONDITION else none)
      else if under then some ST_PRECONDITION else none }

/-- What `TEN.GRANT` does once its checks have passed. -/
def actTenGrant (r : Req) (_ : State) : State → Reply :=
  let t := (reqWord r 4).toNat
  let chain := (reqWord r 5).toNat == 0
  let c := (reqWord r 6).toNat
  let p := grantPools r
  fun s =>
    if chain then
      .long c [] (modTen (fun u => { u with grants := tset u.grants c { owner := t, g := flipAfter s.spc, cmd := some (reqRef r) } }) s)
    else .now ST_OK [] (raiseNow (0x100 + t) 0x04 0 (modTenant t (fun x => { x with pools := p }) s))

/-- TEN.GRANT (R360, R362): a chain, or the tenant's reservations. -/
def execTenGrant (r : Req) (s : State) : Host.Outcome State Fault Refusal :=
  .next (command (checksTenGrant r s) r s (actTenGrant r s))

/-- The checks of `TEN.REVOKE` in the order of R397. -/
def checksTenRevoke (r : Req) (s : State) : Checks :=
  let c := (reqWord r 4).toNat
  { op := 0x0C03, ready := 12, permitted := r.fn == mgmt, long := true
    params := unusedZero r [4] && (chainParam s (reqWord r 4)).isSome, unit := chainUnit s c
    pre := if ownerOf s c = mgmt ∨ thas s.ten.grants c then some ST_PRECONDITION else none }

/-- What `TEN.REVOKE` does once its checks have passed. -/
def actTenRevoke (r : Req) (_ : State) : State → Reply :=
  let c := (reqWord r 4).toNat
  fun s =>
    .long c [] (modTen (fun u => { u with grants := tset u.grants c { owner := mgmt, g := flipAfter s.spc, cmd := some (reqRef r) } }) s)

/-- TEN.REVOKE (R360). -/
def execTenRevoke (r : Req) (s : State) : Host.Outcome State Fault Refusal :=
  .next (command (checksTenRevoke r s) r s (actTenRevoke r s))

/-- The checks of `TEN.QOS` in the order of R397. -/
def checksTenQos (r : Req) (s : State) : Checks :=
  let fn := (reqWord r 4).toNat
  let w : Weights :=
    { spectral := bits (reqWord r 5) 15 0, dma := bits (reqWord r 5) 31 16, cpu := bits (reqWord r 6) 15 0, event := bits (reqWord r 6) 31 16 }
  { op := 0x0C04, ready := 12, permitted := r.fn == mgmt
    params := unusedZero r [4, 5, 6] && decide (fn ≤ 256)
      && [w.spectral, w.dma, w.cpu, w.event].all (fun x => decide (1 ≤ x) && decide (x ≤ 1000))
    pre := if fn ≠ mgmt ∧ ¬ thas s.ten.tenants fn then some ST_PRECONDITION else none }

/-- What `TEN.QOS` does once its checks have passed. -/
def actTenQos (r : Req) (_ : State) : State → Reply :=
  let fn := (reqWord r 4).toNat
  let w : Weights :=
    { spectral := bits (reqWord r 5) 15 0, dma := bits (reqWord r 5) 31 16, cpu := bits (reqWord r 6) 15 0, event := bits (reqWord r 6) 31 16 }
  fun s =>
    .now ST_OK [] (raiseNow (summaryOf fn) 0x04 0 (modTen (fun u => { u with weights := tset u.weights fn w }) s))

/-- TEN.QOS (R378). -/
def execTenQos (r : Req) (s : State) : Host.Outcome State Fault Refusal :=
  .next (command (checksTenQos r s) r s (actTenQos r s))

/-- The checks of `TEN.RESET` in the order of R397. -/
def checksTenReset (r : Req) (s : State) : Checks :=
  let t := (reqWord r 4).toNat
  let running := ((tget s.ten.tenants t).bind (·.reset)).isSome
  { op := 0x0C05, ready := 12, permitted := r.fn == mgmt, long := !running
    params := unusedZero r [4] && decide (t ≤ 255)
    pre := if thas s.ten.tenants t then none else some ST_PRECONDITION }

/-- What `TEN.RESET` does once its checks have passed. -/
def actTenReset (r : Req) (s : State) : State → Reply :=
  let t := (reqWord r 4).toNat
  let running := ((tget s.ten.tenants t).bind (·.reset)).isSome
  fun s =>
    if running then .later (.tenReset t) s else .long t [] (startTenantReset t 0 (some (reqRef r)) s)

/-- TEN.RESET (R381): of a tenant that is being reset it completes with ST_OK at that reset's completion (R383). -/
def execTenReset (r : Req) (s : State) : Host.Outcome State Fault Refusal :=
  .next (command (checksTenReset r s) r s (actTenReset r s))

/-- The checks of `TEN.STATUS` in the order of R397. -/
def checksTenStatus (r : Req) (_ : State) : Checks :=
  let t := (reqWord r 4).toNat
  { op := 0x0C06, ready := 12, permitted := r.fn == mgmt, params := unusedZero r [4] && decide (t ≤ 255) }

/-- What `TEN.STATUS` does once its checks have passed. -/
def actTenStatus (r : Req) (_ : State) : State → Reply :=
  let t := (reqWord r 4).toNat
  fun s =>
    .now ST_OK [wd (tenantCode s t), wd (s.ten.owner.filter (fun e => e.2 == t)).length, wd (tgetD s.ten.queues t {}).lost, wd (inFlight s t)] s

/-- TEN.STATUS (R411). -/
def execTenStatus (r : Req) (s : State) : Host.Outcome State Fault Refusal :=
  .next (command (checksTenStatus r s) r s (actTenStatus r s))

end Sys2Proof.Machine
end

