-- ==== Sys2Proof/Machine/HostCmd.lean ====
section
/-! DEFINITION. Packets of the rings: their opcodes, their start, doorbells and dispatch rounds (R379, R384 to R393), and the rows of the
pair channel that run packets (R421, R423). -/

namespace Sys2Proof.Machine

/-! ### Running a packet -/

/-- The state a meaning answers; a stop leaves the state as it was, and no command meaning stops. -/
def answered (s : State) (o : Host.Outcome State Fault Refusal) : State :=
  match o with
  | .next t => t
  | _ => s

/-- The meaning of the opcodes of classes 0x01 to 0x05; none for a code that names no command (R400 to R404). -/
def opLow (op : Nat) : Option (Req → State → Host.Outcome State Fault Refusal) :=
  match op with
  | 0x0100 => some execDevInfo
  | 0x0101 => some execDevReady
  | 0x0102 => some execDevCaps
  | 0x0103 => some execDevTime
  | 0x0104 => some execDevNop
  | 0x0200 => some execChainPower
  | 0x0201 => some execChainEnum
  | 0x0202 => some execChainStatus
  | 0x0203 => some execChainPark
  | 0x0204 => some execChainWake
  | 0x0205 => some execChainSelvRead
  | 0x0206 => some execChainSelvWrite
  | 0x0207 => some execChainReset
  | 0x0300 => some execLaneUp
  | 0x0301 => some execLaneStatus
  | 0x0302 => some execLanePair
  | 0x0303 => some execLaneEye
  | 0x0304 => some execLaneDown
  | 0x0305 => some execBridgeStatus
  | 0x0400 => some execMapBind
  | 0x0401 => some execMapCommit
  | 0x0402 => some execMapRead
  | 0x0403 => some execMapRange
  | 0x0500 => some execAccOpen
  | 0x0501 => some execAccClose
  | 0x0502 => some execAccHarvest
  | 0x0503 => some execAccApsisReset
  | 0x0504 => some execAccStatus
  | _ => none

/-- Classes 0x06 to 0x0A (R405 to R409). -/
def opMid (op : Nat) : Option (Req → State → Host.Outcome State Fault Refusal) :=
  match op with
  | 0x0600 => some execSpecConfig
  | 0x0601 => some execSpecFocus
  | 0x0602 => some execSpecHarvest
  | 0x0603 => some execSpecDither
  | 0x0604 => some execSpecStop
  | 0x0700 => some execCalRun
  | 0x0701 => some execCalStatus
  | 0x0702 => some execCalApply
  | 0x0703 => some execCalRevert
  | 0x0704 => some execCalRead
  | 0x0705 => some execCalLimits
  | 0x0800 => some execBalSet
  | 0x0801 => some execBalStatus
  | 0x0802 => some execDiagOpenwire
  | 0x0803 => some execDiagTag
  | 0x0804 => some execDiagReport
  | 0x0900 => some execEstConfig
  | 0x0901 => some execEstRead
  | 0x0902 => some execEstSave
  | 0x0903 => some execEstRestore
  | 0x0904 => some execEstLearn
  | 0x0905 => some execEstReset
  | 0x0906 => some execEstHibernate
  | 0x0A00 => some execChgLoad
  | 0x0A01 => some execChgStart
  | 0x0A02 => some execChgStop
  | 0x0A03 => some execChgStatus
  | 0x0A04 => some execChgGroup
  | 0x0A05 => some execChgSetpoint
  | _ => none

/-- Classes 0x0B to 0x0F (R410 to R414). -/
def opHigh (op : Nat) : Option (Req → State → Host.Outcome State Fault Refusal) :=
  match op with
  | 0x0B00 => some execSafeConfig
  | 0x0B01 => some execSafeArm
  | 0x0B02 => some execSafeStatus
  | 0x0B03 => some execSafeAck
  | 0x0B04 => some execSafeLog
  | 0x0B05 => some execSafeTighten
  | 0x0B06 => some execSafePasswd
  | 0x0C00 => some execTenCreate
  | 0x0C01 => some execTenDestroy
  | 0x0C02 => some execTenGrant
  | 0x0C03 => some execTenRevoke
  | 0x0C04 => some execTenQos
  | 0x0C05 => some execTenReset
  | 0x0C06 => some execTenStatus
  | 0x0D00 => some execPairConfig
  | 0x0D01 => some execPairStatus
  | 0x0D02 => some execPairHandover
  | 0x0D03 => some execPairUpdate
  | 0x0D04 => some execPairLease
  | 0x0E00 => some execHkThermal
  | 0x0E01 => some execHkWear
  | 0x0E02 => some execHkTrace
  | 0x0E03 => some execHkRecords
  | 0x0E04 => some execHkFw
  | 0x0E05 => some execHkBist
  | 0x0F00 => some execChkBind
  | 0x0F01 => some execChkStatus
  | _ => none

/-- The meaning of an opcode. -/
def opMeaning (op : Nat) : Option (Req → State → Host.Outcome State Fault Refusal) :=
  (opLow op).orElse fun _ => (opMid op).orElse fun _ => opHigh op

/-- A packet whose class and mnemonic are not known: step 2 of R397, after the trailer. -/
def unknownOp (op : Nat) (r : Req) (s : State) : State :=
  if served r s then complete (reqRef r) (if trailerOk op r then ST_BAD_OPCODE else ST_CHECK_FAIL) [] (traceCommand 0x200 (reqRef r) 0 s) else s

/-- Run a packet. -/
def runPacket (op : Nat) (r : Req) (s : State) : State :=
  match opMeaning op with
  | some f => answered s (f r s)
  | none => unknownOp op r s

/-! ### Starting packets (R379, R386, R392) -/

/-- Writes to a function's doorbells act: as for its registers, and between a thermal shutdown's decision and the power-gating, when commands
answer ST_THERMAL (R397, R478). -/
def doorbellActs (s : State) (fn : Nat) : Bool :=
  writesAct s fn || (s.boot.phase == .shutdown && s.therm.shutAt.isSome && fnActive s fn)

/-- Commands of a ring that have completed with ST_ACCEPTED and not finished. -/
def unfinishedOn (s : State) (fn q : Nat) : Bool := s.cmd.unfinished.any (fun u => u.ref.fn == fn && u.ref.ring == q && !u.ref.twin)

/-- The ring's oldest waiting packet can be started: the pair is enabled, the completion ring has room for its completion and for those of the
commands in flight, and an `ORDERED` packet follows only finished ones. -/
def startable (s : State) (fn q : Nat) : Option (Waiting × List Waiting) :=
  let g := ringAt s fn q
  match g.waiting with
  | w :: r =>
    if g.enable && !g.ringErr && decide (ringUsed g + g.started.length < 2 ^ g.log2)
        && (!w.packet.req.ordered || (g.started.isEmpty && !unfinishedOn s fn q)) then some (w, r)
    else none
  | [] => none

/-- Start the oldest waiting packet of a ring. -/
def startNext (fn q : Nat) (s : State) : State :=
  match startable s fn q with
  | some (w, r) =>
    runPacket w.packet.op w.packet.req
      (modRing fn q (fun g => { g with waiting := r, started := g.started ++ [(w.index, w.packet.req.cmdId)] }) s)
  | none => s

/-- Start up to n packets of a ring. -/
def startMany : Nat → Nat → Nat → State → State
  | 0, _, _, s => s
  | n + 1, fn, q, s => startMany n fn q (startNext fn q s)

/-- The management core starts the packets of a ring as they come: the rounds of R379 pace tenants' rings alone. -/
def startMgmt (q : Nat) (s : State) : State := startMany (ringAt s mgmt q).waiting.length mgmt q s

/-- One packet of a tenant, its rings taken in turn. -/
def startTenant (t : Nat) (s : State) : State :=
  let n := tgetD s.ten.nextRing t 0
  match ((List.range 16).map (fun i => (n + i) % 16)).find? (fun q => (startable s t q).isSome) with
  | some q => startNext t q { s with ten := { s.ten with nextRing := tset s.ten.nextRing t ((q + 1) % 16) } }
  | none => s

/-- SQ_TAIL_DOORBELL (R385, R387): `packets` are what stands in the new slots. -/
def execSqTailDoorbell (fn q tail : Nat) (packets : List Packet) (s : State) : Host.Outcome State Fault Refusal :=
  onObject (decide (fn ≤ mgmt) && decide (q < 16))
    (if doorbellActs s fn then
      let s1 := modRing fn q (writeTail fn q tail packets) s
      if fn = mgmt then startMgmt q s1 else s1
    else s)

/-- CQ_HEAD_DOORBELL (R385). -/
def execCqHeadDoorbell (fn q head : Nat) (s : State) : Host.Outcome State Fault Refusal :=
  onObject (decide (fn ≤ mgmt) && decide (q < 16))
    (if doorbellActs s fn then
      let s1 := modRing fn q (writeHead head) s
      if fn = mgmt then startMgmt q s1 else s1
    else s)

/-- A tenant has a command that can be started. -/
def pendingTenant (s : State) (t : Nat) : Bool := (List.range 16).any (fun q => (startable s t q).isSome)

/-- Tenants with a pending command, each started once, and the rest of the round by deficit round robin (R379): at its turn a tenant's credit
grows by its weight, in hundredths of a pick, and while it is positive a command is started and charged. `left` is the core time of the round
in picks, `costs` what the commands take, in the order they are started; a tenant without a pending command keeps no credit. -/
def roundRobin : Nat → Int → List Nat → List Nat → State → State
  | 0, _, _, _, s => s
  | _, _, _, [], s => s
  | n + 1, left, costs, t :: ts, s =>
    if left ≤ 0 then s
    else if !pendingTenant s t then
      roundRobin n left costs ts { s with ten := { s.ten with credit := tdel s.ten.credit t } }
    else
      let c := tgetD s.ten.credit t 0
      if 0 < c then
        let cost := costs.headD 1
        let s1 := startTenant t { s with ten := { s.ten with credit := tset s.ten.credit t (c - 100 * cost) } }
        roundRobin n (left - cost) costs.tail (t :: ts) s1
      else
        let s1 := { s with ten := { s.ten with credit := tset s.ten.credit t (c + (weightsOf s t).cpu) } }
        roundRobin n left costs (if 0 < c + (weightsOf s t).cpu then t :: ts else ts ++ [t]) s1

/-- Command-processor cores in use. -/
def cmdCores (s : State) : Nat := ((List.range 8).filter (fun u => ustate s 7 u == .ready)).length

/-- COMMAND_DISPATCH_ROUND (R379): each tenant with a pending command has one started, and the rest of the round's core time goes by deficit
round robin. `costs` are the picks that the commands take on their cores, in the order started, which no rule gives (log 23). -/
def execCommandDispatchRound (costs : List Nat) (s : State) : Host.Outcome State Fault Refusal :=
  .next (if s.spc % 100 == 0 && (s.up || s.boot.phase == .shutdown) then
    let s1 := if doorbellActs s mgmt then forEach (List.range 16) s startMgmt else s
    let ts := (s1.ten.tenants.map (·.1)).filter (doorbellActs s1)
    let first := ts.filter (pendingTenant s1)
    let s2 := forEach first s1 startTenant
    roundRobin 200000 (100 * cmdCores s - (costs.take first.length).sum) (costs.drop first.length) (first.filter (pendingTenant s2)) s2
  else s)

/-- LONG_COMMAND_FINISH (R391): a command in the store of the unfinished finishes with a status, on its function's summary source. -/
def execLongCommandFinish (fn ring : Nat) (cmdId : Word) (status : Nat) (s : State) : Host.Outcome State Fault Refusal :=
  .next (if s.up then finish { fn := fn, ring := ring, cmdId := cmdId } status s else s)

/-! ### Pair-sequenced commands (R421) -/

/-- A `MIRROR_ACK`: the `MSEQ` it answers and the outcome. -/
def sendAck (mseq status : Nat) (s : State) : State := sendPair .mirrorAck [mseq, status] s

/-- A packet that the companion asks for runs on the primary: accepted, it goes back in a `MIRROR`; refused, its status is answered. -/
def runAsked (op : Nat) (r : Req) (s : State) : State :=
  let none_ := 2 ^ 16
  let s1 := runPacket op r (modPair (fun u => { u with outcome := none_ }) s)
  if s1.pair.outcome = none_ then s1 else sendAck r.mseq s1.pair.outcome s1

/-- Run a packet as of an acceptance SPC that has passed. -/
def runAt (accept op : Nat) (r : Req) (s : State) : State :=
  let now := s.time.spc
  let s1 := runPacket op r { s with time := { s.time with spc := accept } }
  { s1 with time := { s1.time with spc := now } }

/-- A completion of this device that waits for the primary's decision on a packet. -/
def waitsFor (r : Req) (d : Deferred) : Bool :=
  d.ref == { fn := r.fn, ring := r.ring, cmdId := r.cmdId } && (match d.kind with
    | .mirror _ => true
    | _ => false)

/-- The companion applies what the primary has decided: its own command comes back and completes on its ring, any other is applied with its
outcome acknowledged. -/
def applyMirror (accept op : Nat) (r : Req) (s : State) : State :=
  if r.twin && s.cmd.deferred.any (waitsFor r) then
    let s1 := { s with cmd := { s.cmd with deferred := s.cmd.deferred.filter (fun d => !waitsFor r d) } }
    sendAck r.mseq ST_OK (runAt accept op { r with twin := false, back := true } s1)
  else
    let s1 := runAt accept op { r with twin := true } (modPair (fun u => { u with outcome := ST_OK }) s)
    sendAck r.mseq s1.pair.outcome s1

/-- MIRROR (R421). -/
def execMirror (m : PairMsg) (accept op : Nat) (r : Req) (s : State) : Host.Outcome State Fault Refusal :=
  .next (onMsg m s fun s =>
    let r1 : Req := { r with mseq := m.mseq }
    if s.pair.role = .companion then applyMirror accept op r1 s
    else runAsked op { r1 with twin := true, back := false } s)

/-- The completion that waits for the message acknowledged. -/
def acked (mseq : Nat) (d : Deferred) : Bool := d.kind == .mirror mseq

/-- MIRROR_ACK (R421): the primary's command completes with its own outcome; the companion's, refused by the primary, with the status
answered. -/
def execMirrorAck (m : PairMsg) (s : State) : Host.Outcome State Fault Refusal :=
  .next (onMsg m s fun s =>
    let q := (m.body.getD 0 0).toNat
    let mine := s.cmd.deferred.filter (acked q)
    let s1 := { s with cmd := { s.cmd with deferred := s.cmd.deferred.filter (fun d => !acked q d) } }
    forEach mine s1 fun d s =>
      if s.pair.role = .companion then completeAt d.ref (m.body.getD 1 0).toNat [] d.accept s
      else completeAt d.ref d.status d.results d.accept s)

/-- Packets held while the tables of a resynchronisation moved run once they are over (R435). -/
def releaseHeld (s : State) : State :=
  if s.pair.held.isEmpty || tablesMoving s then s
  else
    let l := s.pair.held
    forEach l (modPair (fun u => { u with held := [] }) s) fun p s => if p.req.twin then runAsked p.op p.req s else runPacket p.op p.req s

/-! ### Heartbeats (R423, R477) -/

/-- A heartbeat is valid: authenticated with the pair key; a device that joins by `PAIR.CONFIG` takes its key then (R468). -/
def beatValid (h : PairMsg) (s : State) : Bool :=
  s.up && h.authentic && (s.pair.key || s.pair.forming.elim false (·.join))
    && (s.pair.role != .single || s.pair.forming.isSome || s.pair.pid != 0)

/-- The twin as its heartbeat shows it. -/
def twinOf (h : PairMsg) (t : Twin) : Twin :=
  let w (i : Nat) : Word := h.body.getD i 0
  { t with
    role := bits (w 0) 1 0, sub := bits (w 0) 3 2, lockout := bits (w 0) 4 4 == 1, throttle := bits (w 0) 5 5 == 1, pid := bits (w 0) 31 16
    epoch := (w 1).toNat, spc := of64 (w 2) (w 3), ready := bits (w 5) 15 0, leases := (w 6).toNat }

/-- A message stays unacknowledged while it follows the last one the twin has accepted. -/
def stillOpen (last : Nat) (u : Unacked) : Bool :=
  match serialCmp 32 last u.msg.mseq with
  | .follows _ => true
  | _ => false

/-- Take a heartbeat: the twin's figures, consecutive heartbeats, acknowledgements. -/
def takeBeat (h : PairMsg) (s : State) : State :=
  let u := s.pair
  let beats := if u.beats = 0 then 1 else if u.lastBeat = s.spc then u.beats else if u.lastBeat + 1 = s.spc then u.beats + 1 else 1
  let s1 := modPair (fun u =>
    { u with
      twin := twinOf h u.twin, beats := beats, lastBeat := s.spc, unacked := u.unacked.filter (stillOpen (h.body.getD 4 0).toNat)
      resyncSent := u.resyncSent && bits (h.body.getD 0 0) 3 2 == 1 }) s
  { s1 with therm := { s1.therm with twin := bits (h.body.getD 0 0) 8 6 } }

/-- The primary sends the blocks of a resynchronisation to a companion that reports one (R435). -/
def sendResync (s : State) : State :=
  if s.pair.role = .primary && mirrors s && s.pair.twin.sub == 1 && !s.pair.resyncSent then
    forEach (List.range 14) (modPair (fun u => { u with resyncSent := true }) s) (fun i s => sendPair .resync [i] s)
  else s

/-- HEARTBEAT (R417, R423, R434, R477). -/
def execHeartbeat (h : PairMsg) (peer : Option PeerView) (s : State) : Host.Outcome State Fault Refusal :=
  .next (if beatValid h s then
    let s1 := takeBeat h s
    let t := s1.pair.twin
    let s2 := if mirrors s1 && t.role == 1 && epochFollows t.epoch (ownEpoch s1) then findStale t.epoch s1 else s1
    match s2.pair.forming, peer with
    | some f, some v => meetTwin f v s2
    | _, _ => releaseHeld (sendResync s2)
  else s)

/-- TWIN_LINK_LOST (R423, R431, R491): no valid heartbeat for 2 picks, or no working twin lane. A twin that shuts down by heat ends an update of
the pair. -/
def execTwinLinkLost (s : State) : Host.Outcome State Fault Refusal :=
  .next (if s.up && s.pair.link && (decide (s.pair.lastBeat + 2 ≤ s.spc) || twinMask s == 0) then
    let s1 := raiseNow 0x60B 0xB3 (twinMask s) (modPair (fun u => { u with link := false, lostAt := s.spc, beats := 0 }) s)
    let s2 := releaseHeld (freshChannel (stopMirroring s1))
    if s.pair.updating.isSome && [1, 3, 4].contains s.pair.step && s.pair.twin.ready == 0 then endUpdate 7 ST_THERMAL s2 else s2
  else s)

end Sys2Proof.Machine
end

