-- ==== Sys2Proof/Machine/Loom.lean ====
section
/-! DEFINITION. The rows of the Loom (chapter 04): live and settled samples, dwell values, primary samples, replay, faults, trip
re-analysis. -/

namespace Sys2Proof.Machine

/-! ### Samples -/

/-- A logical tile is being rebuilt on a spare, which takes until boundary f + 48 at the latest (R131). -/
def rebuilding (s : State) (t : Nat) : Bool := (tget s.loom.repair t).elim false (fun r => decide (s.spc < r.f + 48))

/-- The tile of a position runs: neither fenced nor being rebuilt on a spare (R131). -/
def tileServes (s : State) (p : Nat) : Bool :=
  let t := tileOf (chainOfPos p)
  !s.loom.fenced.contains t && !rebuilding s t && s.time.refclkOk && !s.time.holdover

/-- Store the live samples of a tag: multiplexed channels under their position while they lie in the dwell (R113). -/
def storeLive (p m : Nat) (xs : List Sample) (s : State) : State :=
  let k := (posOf s p).kind
  forEach xs.zipIdx s fun x s =>
    let chi := p * 16 + x.2
    let l := { s.loom with live := tset s.loom.live chi x.1 }
    if multiplexed k x.2 then
      if inDwell m then { s with loom := { l with liveMux := tset l.liveMux (chi * 8 + muxPos s p x.2 (8 * m)) x.1 } } else s
    else { s with loom := l }

/-- Issue live sample m of a tag (R110, R111): comparators, inrush windows and the estimator's wake take it. -/
def issueLive (p m : Nat) (s : State) : State :=
  let xs := liveSamples s .live p m
  let s1 := storeLive p m xs s
  if (posOf s p).kind = .dt1 then
    let g := mergeStep (tgetD s1.loom.mergeLive p {}) (xs.getD 0 {}) (xs.getD 1 {})
    let s2 := judgeLive p m xs { s1 with loom := { s1.loom with mergeLive := tset s1.loom.mergeLive p g } }
    noteLiveCurrent p ((g.latest.getD {}).value) (feedInrush p m s2)
  else judgeLive p m xs s1

/-- LIVE_SAMPLE_ISSUE (R110): at boundary 8m + 20 + T, once, whether or not every pick has arrived. -/
def execLiveSampleIssue (pos m : Nat) (s : State) : Host.Outcome State Fault Refusal :=
  let x := posOf s pos
  let again := (tget s.loom.live (pos * 16)).elim false (fun y => decide (m ≤ y.m))
  onObject (posExists s pos)
    (if s.up && tileServes s pos && x.kind != .none && (x.state == .released || x.state == .bringingUp)
        && decide (8 * m + 20 + liveDelay s pos ≤ s.spc) && !again then issueLive pos m s
    else s)

/-- Replay work on a settled sample, a correction or a recomputation, that did not come in time (R130). -/
def overrun (s : State) (p m : Nat) : Bool :=
  (spanViews s false p m).any (·.queued) || (List.range (channelsOf (posOf s p).kind)).any (fun ch => fullQueued s p ch m)

/-- Release settled sample m of a tag to its consumers (R116, R118). -/
def releaseSettled (p m : Nat) (s : State) : State :=
  let k := (posOf s p).kind
  let xs := settledSamples s p m
  let t := tileOf (chainOfPos p)
  let s0 := if overrun s p m then raisePos p (tileSource s t) 0x32 0 s else s
  let s1 := forEach xs.zipIdx s0 fun x s =>
    let chi := p * 16 + x.2
    let keep := if multiplexed k x.2 then 40 else 360
    { s with loom := { s.loom with settled := tset s.loom.settled chi (keepSample keep x.1 (settledOf s chi)) } }
  let s2 := { s1 with loom := { s1.loom with
    replay := tupd s1.loom.replay t (fun l => l.filter (fun r => !(r.pos == p && decide (r.m ≤ m))))
    full := s1.loom.full.filter (fun f => !(posOfChi f.1 == p && decide (f.2.2 ≤ m))) } }
  if k = .dt1 then
    let g := mergeStep (tgetD s2.loom.mergeSettled p {}) (xs.getD 0 {}) (xs.getD 1 {})
    let y := g.latest.getD {}
    let s3 := { s2 with loom := { s2.loom with
      mergeSettled := tset s2.loom.mergeSettled p g, mergedStore := tset s2.loom.mergedStore p (keepSample 360 y (tgetD s2.loom.mergedStore p [])) } }
    feedSpec (mergedKey p) y (feedSpec (p * 16 + 2) (xs.getD 2 {}) (feedRelax p (p * 16 + 2) (xs.getD 2 {}) (feedInteg p y s3)))
  else
    let before := (List.range 13).map fun j => ((settledOf s (p * 16 + j)).find? (fun x => x.m + 1 == m)).getD { flags := { gap := true } }
    let s2 := notePassive p xs before (keepRaw p m s2)
    let s3 := forEach (List.range 12) (checkBleed p m (noteCellGap p ((xs.getD 0 {}).flags.gap) s2)) fun j s => feedSpec (p * 16 + j) (xs.getD j {}) s
    match driveOf s3 p with
    | some d => forEach (List.range 12) s3 (fun j s => feedRelax d (p * 16 + j) (xs.getD j {}) s)
    | none => s3

/-- SETTLED_SAMPLE_RELEASE (R116): at boundary 8m + 92, once. -/
def execSettledSampleRelease (pos m : Nat) (s : State) : Host.Outcome State Fault Refusal :=
  let again := (settledOf s (pos * 16)).head?.elim false (fun y => decide (m ≤ y.m))
  onObject (posExists s pos)
    (if s.up && (posOf s pos).kind != .none && decide (8 * m + 92 ≤ s.spc) && !again then releaseSettled pos m s else s)

/-- DWELL_VALUE_FINAL (R113): accumulators, tag checks and the sequencer take the dwell value. -/
def execDwellValueFinal (chi k : Nat) (s : State) : Host.Outcome State Fault Refusal :=
  let p := posOfChi chi
  let ch := chanOf chi
  let kind := (posOf s p).kind
  let pos := muxPos s p ch (200 * k)
  let key := entryKey chi pos
  let again := (tget s.loom.dwell key).elim false (fun y => decide (k ≤ y.m))
  onObject (posExists s p)
    (if s.up && multiplexed kind ch && decide (200 * k + 272 ≤ s.spc) && !again then
      let x := dwellSample s chi k
      let s1 := feedDwell chi pos x { s with loom := { s.loom with dwell := tset s.loom.dwell key x } }
      let s2 := if ch = hkCh kind ∧ (posOf s p).state = .released then calDwell p pos k x (checkDwell p pos x s1) else s1
      if kind = .ct12 ∧ ch = 13 then feedTherm key x s2 else s2
    else s)

/-- The store that a primary sample is computed from. -/
def primaryStore (s : State) (chi : Nat) : List Sample :=
  let p := posOfChi chi
  readStore s p (chanOf chi) (if (posOf s p).kind = .dt1 ∧ chanOf chi = 6 then tgetD s.loom.mergedStore p [] else settledOf s chi)

/-- PRIMARY_SAMPLE_FINAL (R119): accumulators, rest detection, the sequencer and the estimator's rest take the primary sample. -/
def execPrimarySampleFinal (chi k : Nat) (s : State) : Host.Outcome State Fault Refusal :=
  let p := posOfChi chi
  let ch := chanOf chi
  let kind := (posOf s p).kind
  let again := (primaryOf s chi).elim false (fun y => decide (k ≤ y.m))
  onObject (posExists s p)
    (if s.up && hasPrimary kind ch && decide (200 * k + 1600 ≤ s.spc) && !again then
      let x := primarySample (primaryStore s chi) k
      let s1 := calPrimary chi k (feedPrimary chi x { s with loom := { s.loom with primary := tset s.loom.primary chi x } })
      if kind = .ct12 ∧ ch < 12 then
        let s2 := noteCellCalm chi x s1
        if x.flags.gap || x.flags.ovr then s2 else feedBlock (entryKey chi 0) (200 * k + 100) 20 x.value s2
      else if kind = .dt1 ∧ ch = 6 then notePrimaryCurrent p x (noteCurrentCalm p x s1)
      else if kind = .dt1 ∧ ch = 3 ∧ ¬ x.flags.gap then
        { s1 with chg := { s1.chg with bus := tmod s1.chg.bus p [] (fun l => ((k, x.value) :: l).take 40) } }
      else s1
    else s)

/-! ### Replay (R128 to R130) -/

/-- Order of replay work: oldest pick first, then the sample due soonest. -/
def replayOrder (a b : Replay) : Bool := decide (a.pick < b.pick) || (a.pick == b.pick && decide (a.m ≤ b.m))

/-- Channel-picks of an item of replay work: 1 for each channel of a sample corrected, 32 for each recomputed (R128, R129). -/
def replayCost (s : State) (r : Replay) : Nat :=
  if r.chans.isEmpty then channelsOf (posOf s r.pos).kind else 32 * r.chans.length

/-- Bytes of the bolt that an item reads: the entry of the filled pick, or the 32 entries of the span (DEDUCED, log 66). -/
def replayBytes (r : Replay) : Nat := if r.chans.isEmpty then 64 else 2048

/-- Bytes that replay may read in one pick, device-wide: the limit of R126, in GB/s, over 10 µs. -/
def replayLimit : Variant → Nat
  | .f => 2560000
  | .m => 640000
  | .l => 20000

/-- What is left of a queue after the channel-picks and bytes that a pick has left, and what of them was used. -/
def workReplay (s : State) : Nat → Nat → List Replay → List Replay × Nat × Nat
  | _, _, [] => ([], 0, 0)
  | room, bytes, r :: l =>
    if replayCost s r ≤ room ∧ replayBytes r ≤ bytes then
      let w := workReplay s (room - replayCost s r) (bytes - replayBytes r) l
      (w.1, w.2.1 + replayCost s r, w.2.2 + replayBytes r)
    else (r :: l, 0, 0)

/-- Replay work done in the running pick. -/
def spentNow (s : State) : ReplaySpent := if s.loom.spent.spc = s.spc then s.loom.spent else { spc := s.spc }

/-- DELTA_REPLAY (R128 to R130): replay work of a tile within the reserve of one pick, 65,536 channel-picks, and the device's reads of the
bolt. `budget` is what the tile gets to within the row. -/
def execDeltaReplay (tile budget : Nat) (s : State) : Host.Outcome State Fault Refusal :=
  onObject (tileExists s.otp.variant tile)
    (if s.up && !rebuilding s tile then
      let u := spentNow s
      let w := workReplay s (min budget (65536 - tgetD u.tiles tile 0)) (replayLimit s.otp.variant - u.bytes)
        ((tgetD s.loom.replay tile []).mergeSort replayOrder)
      { s with loom := { s.loom with
          replay := tupd s.loom.replay tile (fun _ => w.1)
          spent := { u with tiles := tmod u.tiles tile 0 (· + w.2.1), bytes := u.bytes + w.2.2 } } }
    else s)

/-! ### Faults -/

/-- Queue the full replay of samples of a position on some channels, those that are not queued already, and mark them recomputed (R129). -/
def queueFull (p : Nat) (chans : List Nat) (first last : Nat) (s : State) : State :=
  let work := (List.range (last + 1 - first)).map fun i => ({ pos := p, pick := 8 * (first + i) - 12, m := first + i, chans := chans } : Replay)
  { s with loom := { s.loom with
      replay := tmod s.loom.replay (tileOf (chainOfPos p)) [] (fun l => l ++ work.filter (fun r => !l.contains r))
      full := chans.map (fun ch => (p * 16 + ch, first, last)) ++ s.loom.full } }

/-- SRAM_ECC_ERROR (R129): the samples of the channel in progress and the three before them are recomputed from the bolt. -/
def execSramEccError (chi : Nat) (s : State) : Host.Outcome State Fault Refusal :=
  let t := tileOf (chainOfChi chi)
  onObject (posExists s (posOfChi chi))
    (if s.up then
      raiseChi chi (tileSource s t) 0x33 0 (queueFull (posOfChi chi) [chanOf chi] (firstSpan s.spc - 3) (lastSpan s.spc)
        { s with loom := { s.loom with sramAt := tset s.loom.sramAt chi s.spc } })
    else s)

/-- Set `ERROR` in the flags of a record written already: bits [31:16] of word 1. -/
def markWords (ws : List Word) : List Word := ws.set 1 (ws.getD 1 0 ||| wd (RF_ERROR * 2 ^ 16))

/-- Event of a record error: window and channel (R155). -/
def recordError (win chi : Nat) (s : State) : State :=
  raiseNow (chainSource s (chainOfChi chi) (tileSource s (tileOf (chainOfChi chi)))) 0x42 (win * 2 ^ 26 + chi * 8) s

/-- An error in the standard record of interval j: an open one starts again, a committed one is marked (R155). -/
def markStandard (sixty : Bool) (chi j : Nat) (s : State) : State :=
  let key := entryKey chi (stdPosIn s chi (stdLen sixty * j))
  let hit (r : StdRec) : StdRec :=
    if r.j ≠ j then r
    else if r.committed then { r with acc := { r.acc with flags := r.acc.flags ||| RF_ERROR } }
    else { r with acc := { flags := RF_ERROR }, cleared := r.cleared + r.acc.count + r.acc.nGap }
  recordError 0 chi (putStdTab sixty (tset (stdTab s sixty) key ((tgetD (stdTab s sixty) key []).map hit)) s)

/-- An error in a record of a user window, the accumulator or the tracker of one entry of interval n: an open one starts again, a committed one
is marked (R155). -/
def markWindow (k n key : Nat) (apsis : Bool) (s : State) : State :=
  let open_ (i : WinInterval) : WinInterval :=
    if i.n ≠ n then i
    else if apsis then { i with aps := tset i.aps key { flags := RF_ERROR } } else { i with accs := tset i.accs key { flags := RF_ERROR } }
  let mine (r : List Word) : Bool :=
    bits (r.headD 0) 31 9 == key / 8 && bits (r.headD 0) 8 6 == key % 8 && bits (r.headD 0) 3 0 == (if apsis then 3 else 2)
  let stored (q : WinQueued) : WinQueued :=
    if q.n = n then { q with records := q.records.map (fun r => if mine r then markWords r else r) } else q
  recordError (k % 65536) (key / 8) (modWin k (fun w => { w with open_ := w.open_.map open_, queue := w.queue.map stored }) s)

/-- HBM_ECC_ERROR (R129, R132, R155, R178, R279). -/
def execHbmEccError (t : HbmTarget) (s : State) : Host.Outcome State Fault Refusal :=
  .next (if !s.up then s else match t with
    | .boltEntry p d =>
      if s.spc < 8 * ((d + 12) / 8) + 92 then
        (if isLocal (chainOfPos p) then id else reportLocal [2, p, d])
          { s with loom := { s.loom with bolt := tupd s.loom.bolt p (fun l => l.map (fun e => if e.pick = d then { e with bstate := .gap } else e)) } }
      else s
    | .settledStore p m =>
      let mark (l : List Sample) : List Sample := l.map (fun x => if x.m = m then { x with flags := { x.flags with rpl := true } } else x)
      let l := { s.loom with
        settled := tmap s.loom.settled (fun k l => if posOfChi k = p then mark l else l), mergedStore := tupd s.loom.mergedStore p mark }
      let k := (posOf s p).kind
      raisePos p (tileSource s (tileOf (chainOfPos p))) 0x33 0
        (queueFull p (List.range (channelsOf k) ++ (if k = .dt1 then [6] else [])) m m { s with loom := l })
    | .primaryState _ => s
    | .standard sixty chi j => markStandard sixty chi j s
    | .window fn win n key apsis => if thas s.acc.windows (fn * 65536 + win) then markWindow (fn * 65536 + win) n key apsis s else s
    | .tracker key =>
      if thas s.acc.apsis key then
        recordError 0 (key / 8) { s with acc := { s.acc with apsis := tupd s.acc.apsis key (fun a => { point := a.point, flags := RF_ERROR }) } }
      else s
    | .spectralStage chi stage => loseStage chi stage s
    | .estimator chi =>
      let s1 : State := if chanOf chi = 6 then modStr (posOfChi chi) (fun x => { x with now := x.half, error := true }) s
        else putCell chi { tgetD s.est.half chi (cellOf s chi) with error := true } s
      estEvent chi 0x524 0x85 0 s1)

/-- Another fault of a tile; one whose last sample with `RPL` is released goes. -/
def noteFault (f : Nat) (l : List Nat) : List Nat := f :: l.filter (fun g => decide (f < g + 160))

/-- TILE_FAULT (R131): the logical tile moves to the lowest spare and is rebuilt, or is fenced. -/
def execTileFault (phys : Nat) (s : State) : Host.Outcome State Fault Refusal :=
  onObject (unitExists s.otp.variant 1 phys)
    (if !s.up || ustate s 1 phys == .failed || ustate s 1 phys == .fenced then s
    else match logicalOf s phys with
      | none => failService 1 phys s
      | some t =>
        let s1 := failService 1 phys (unitEvent (tileSource s t) 0x30 (chainsOfTile s t) s)
        match freeSpare s1 with
        | some u =>
          let s2 := useSpare t u s1
          { s2 with loom := { s2.loom with
              repair := tset s2.loom.repair t { f := s.spc, spare := u }, rplFrom := tmod s2.loom.rplFrom t [] (noteFault s.spc), replay := tdel s2.loom.replay t } }
        | none => refreshReady (fenceTile t s1))

/-- SPARE_REBUILD_DONE (R129, R131): the tile's full replay is reported with the chains of the tile. -/
def execSpareRebuildDone (tile : Nat) (s : State) : Host.Outcome State Fault Refusal :=
  onObject (tileExists s.otp.variant tile)
    (if s.up && s.time.refclkOk && thas s.loom.repair tile then
      unitEvent (tileSource s tile) 0x33 (chainsOfTile s tile) { s with loom := { s.loom with repair := tdel s.loom.repair tile } }
    else s)

/-! ### Trip re-analysis (R134 to R136, R161) -/

/-- TRIP_REANALYSIS_START (R134): at t + TRIP_POST + 64; the generation is that in force at t. -/
def execTripReanalysisStart (fn trip : Nat) (s : State) : Host.Outcome State Fault Refusal :=
  .next (if s.up then
    { s with loom := { s.loom with reanalyses := s.loom.reanalyses.map fun a =>
        if a.fn = fn ∧ a.trip = trip ∧ a.t + a.post + 64 ≤ s.spc then { a with running := true, gen := genAt s (chainOfChi a.chi) a.t } else a } }
  else s)

/-- TA over the words of picks p - 1, p, p + 1: the third-order sinc of decimation 32 over bits 32p - 31 to 32p + 62, as a 28-bit density. -/
def densityTA (ws : List Nat) : Nat :=
  let coef (n : Nat) : Nat :=
    let c (j : Nat) : Nat := if 32 * j ≤ n then (n - 32 * j + 2) * (n - 32 * j + 1) / 2 else 0
    c 0 + 3 * c 2 - 3 * c 1 - c 3
  let sum := (ws.zipIdx.map fun w => ((List.range 32).map fun k =>
    let n := 32 * w.2 + k
    if w.1.testBit (31 - k) && decide (1 ≤ n) && decide (n ≤ 94) then coef (n - 1) else 0).sum).sum
  min (sum * 2 ^ 13) 0x0FFFFFFF

/-- TC: the ones density of one word. -/
def densityTC (w : Nat) : Nat := min (((List.range 32).filter w.testBit).length * 2 ^ 23) 0x0FFFFFFF

/-- A filter of R135: its picks about p as offsets from p - 16, and its density. -/
def filterPicks (f : Nat) : List Nat := if f = 1 then [15, 16, 17] else if f = 2 then List.range 32 else [16]
def filterDensity (f : Nat) (ws : List Nat) : Nat :=
  if f = 1 then densityTA ws else if f = 2 then density ws else densityTC (ws.headD 0)

/-- The entry of a channel in force at pick t, at the step of its slew (R135, R227). -/
def entryAt (s : State) (chi t : Nat) : Entry :=
  let e := restEntry s chi
  let c := tagCal s (posOfChi chi)
  match slewAt s chi t with
  | some w =>
    let x := { w with i := w.stepAt t }.now
    { e with k := x.1, o := x.2 }
  | none =>
    match (tget c.before (chanOf chi)).or (tget c.slews (chanOf chi)) with
    | some w => { e with k := w.k0, o := w.o0 }
    | none => e

/-- The value of a filter for pick p of a channel: a sample numbered by its pick. Reference and switch state are those of the pick, as for a
fast-path sample centred there; coefficients, temperature and coverage are those at the trip pick. -/
def tripValue (s : State) (a : Reanalysis) (f chi p : Nat) : Sample :=
  let q := posOfChi chi
  let vs := (filterPicks f).map (fun i => if p + i < 16 then { subst := true, gap := true } else pickView s false q 0 (p + i - 16))
  let ds := tagDensitiesBy s q p (filterDensity f) vs
  let was := tgetD a.asOf q (0, true)
  { m := p, value := geti (tagValuesBy s (entryAt s · a.t) was.1 q (disturbAt s q p) ds) (chanOf chi)
    flags := { gap := vs.any (·.gap), ovr := vs.any (·.ovr) || ovrDensity (ds.getD (chanOf chi) 0), uncal := was.2 } }

/-- Values of a merged current over picks, in order (R114). -/
def mergedTrip (s : State) (a : Reanalysis) (f d : Nat) (ps : List Nat) : List Sample :=
  ((ps.foldl (fun (g : Merge × List Sample) p =>
    let g1 := mergeStep g.1 (tripValue s a f (d * 16) p) (tripValue s a f (d * 16 + 1) p)
    (g1, g1.latest.getD {} :: g.2)) ({}, [])).2).reverse

/-- The entry of one channel, filter and segment. -/
def tripEntry (chi f seg : Nat) (l : List Sample) : List Word :=
  let good := l.filter (fun x => !x.flags.gap)
  let bad := l.length - good.length
  let fl := (l.map (fun x => flagBits x.flags)).foldl (· ||| ·) 0 ||| (if good.isEmpty then RF_EMPTY else 0)
  let lo := good.foldl (fun (a : Option Sample) x => match a with
    | some y => if x.value < y.value then some x else a
    | none => some x) none
  let hi := good.foldl (fun (a : Option Sample) x => match a with
    | some y => if y.value < x.value then some x else a
    | none => some x) none
  let fr := if f = 2 ∨ good.isEmpty then 0 else 496
  [identity chi 0 0 4, wd (fl * 2 ^ 16 + f * 2 ^ 8 + seg * 2 ^ 7), wd good.length, wd bad]
    ++ wdN 2 (ofSigned 64 (good.map (·.value)).sum) ++ wdN 3 ((good.map (fun x => x.value.natAbs ^ 2)).sum)
    ++ [wdI ((lo.map (·.value)).getD 0x7FFFFFFF), wdI ((hi.map (·.value)).getD (-0x80000000)), wd (fr * 2 ^ 16 + fr)]
    ++ wd64 ((lo.map (·.m)).getD 0) ++ wd64 ((hi.map (·.m)).getD 0)

/-- Channels that a re-analysis covers, and the drive tag whose merged current it covers. -/
def tripChannels (s : State) (chi : Nat) : List Nat × Option Nat :=
  let p := posOfChi chi
  if (posOf s p).kind = .dt1 then ((List.range 4).map (p * 16 + ·), some p)
  else ((List.range 13 ++ [15]).map (p * 16 + ·), driveOf s p)

/-- Entries of a re-analysis in their order. -/
def tripEntries (s : State) (a : Reanalysis) : List (List Word) :=
  let picks (seg : Nat) : List Nat := if seg = 0 then (List.range a.pre).map (a.t - a.pre + ·) else (List.range a.post).map (a.t + ·)
  let c := tripChannels s a.chi
  (c.1.flatMap fun chi => [1, 2, 3].flatMap fun f => [0, 1].map fun seg => tripEntry chi f seg ((picks seg).map (tripValue s a f chi)))
    ++ (c.2.toList.flatMap fun d => [1, 2, 3].flatMap fun f =>
      let all := mergedTrip s a f d (picks 0 ++ picks 1)
      [tripEntry (mergedKey d) f 0 (all.take a.pre), tripEntry (mergedKey d) f 1 (all.drop a.pre)])

/-- TRIP_REANALYSIS_DONE (R136): its section is stored and the event raised. -/
def execTripReanalysisDone (fn trip : Nat) (s : State) : Host.Outcome State Fault Refusal :=
  .next (match s.loom.reanalyses.find? (fun a => a.fn == fn && a.trip == trip && a.running) with
  | some a =>
    if s.up then
      let sec : TripSection :=
        { fn := a.fn, trip := a.trip, chi := a.chi, t := a.t, pre := a.pre, post := a.post, wset := a.wset, gen := a.gen, entries := tripEntries s a }
      let c := chainOfChi a.chi
      raiseNow (chainSource s c (tileSource s (tileOf c))) 0x34 trip { s with loom := { s.loom with
        trips := s.loom.trips ++ [sec], reanalyses := s.loom.reanalyses.filter (fun b => !(b.fn == fn && b.trip == trip)) } }
    else s
  | none => s)

end Sys2Proof.Machine
end

