-- ==== Sys2Proof/Machine/RegView.lean ====
section
/-! DEFINITION. What every register reads (R492 to R516): views of the state. A register that the map does not assign reads 0. -/

namespace Sys2Proof.Machine

/-- The low and high word of a value wider than 32 bits. -/
def lowWord (n : Nat) : Word := wd n
def highWord (n : Nat) : Word := wd (n / 2 ^ 32)

/-! ### Blocks of the management function -/

/-- The identity block (R497). -/
def identityReg (s : State) (o : Nat) : Word :=
  match o with
  | 0x00 => wd (0x9128 * 2 ^ 16 + variantCode s.otp.variant * 2 ^ 8 + s.otp.stepping % 256)
  | 0x04 => wd (s.boot.safetyVersion % 2 ^ 16 * 2 ^ 16 + s.boot.fwVersion % 2 ^ 16)
  | 0x08 => wd (b2n s.boot.romOnly * 8 + b2n s.boot.fallback * 4 + b2n s.boot.trial.isSome * 2 + b2n s.boot.slotB)
  | 0x10 => lowWord s.otp.dieUid.toNat
  | 0x14 => highWord s.otp.dieUid.toNat
  | 0x18 => lowWord s.spc
  | 0x1C => highWord s.spc
  | 0x20 => wd s.time.frac.toNat
  | 0x24 => wd s.nvm.aonRun
  | 0x28 => wd s.nvm.coldRun
  | _ => 0

/-- A word of the unit state arrays (R498). -/
def unitWord (s : State) (cls i : Nat) : Word :=
  wd (((List.range 8).map fun k => ustateCode (ustate s cls (8 * i + k)) * 2 ^ (4 * k)).sum)

/-- The readiness block (R498). -/
def readinessReg (s : State) (o : Nat) : Word :=
  if 0x100 ≤ o ∧ o < 0x400 then unitWord s ((o - 0x100) / 0x40 + 1) ((o - 0x100) % 0x40 / 4)
  else match o with
    | 0x00 => readyWord s
    | 0x04 => s.boot.readyChg.setWidth 32
    | 0x08 => s.boot.alertStat.setWidth 32
    | 0x0C => s.boot.alertEn.setWidth 32
    | _ => 0

/-- The reset and fence control block (R500). -/
def resetReg (s : State) (o : Nat) : Word :=
  match o with
  | 0x04 => s.boot.rstCause.setWidth 32
  | 0x08 => wd ((s.nvm.bseq + 2 ^ 16 - 1) % 2 ^ 16 * 2 ^ 16 * b2n (s.nvm.bseq != 0) + fencedCount s)
  | 0x0C => s.boot.scratch
  | _ => 0

/-- `DIE_TEMP`, the thermal status word and `TEMP_PEAK` (R502). -/
def thermalReg (s : State) (o : Nat) : Word :=
  let u := s.therm
  match o with
  | 0x00 => u.reading.elim 0x80000000 wdI
  | 0x04 => wd (b2n (decide (u.steps < u.force)) * 2 ^ 13 + b2n u.reading.isNone * 2 ^ 12 + u.force % 8 * 2 ^ 8 + tstateCode u.tstate * 2 ^ 4 + u.band % 4)
  | 0x08 => wd (reading16 u.peak)
  | _ => 0

/-- The housekeeping and thermal block (R502). -/
def housekeepingReg (s : State) (o : Nat) : Word :=
  match o with
  | 0x0C => wd (s.therm.decided.getD 0 - 1)
  | 0x10 => wd (((List.range 24).filter (fun h => s.therm.checks.any (fun e => e.1 / 4 == h && e.2.alarm))).map (fun h => 2 ^ h)).sum
  | 0x14 => wd ((wearPrediction s).elim 0xFFFFFFFF (fun p => p.2.days))
  | 0x18 => wd ((wearPrediction s).elim 0xFFFFFFFF (fun p => p.2.u))
  | 0x1C => wd ((wearPrediction s).elim 0 (·.1))
  | _ => thermalReg s o

/-- Blocks requested of a lane's bridge and outstanding (R94). -/
def blocksAsked (s : State) (l : Nat) : Nat := if isTwin l then 0 else (bridgeOf s (placeLane s l)).asked.length

/-- The status block of a lane (R503). -/
def laneReg (s : State) (l o : Nat) : Word :=
  let x := laneOf s l
  let own := !isTwin l
  let eye (i : Nat) : Word := wd (x.eyeH.getD i 0 * 2 ^ 16 + x.eyeW.getD i 0)
  let via := thas s.lane.forwarded l
  match o with
  | 0x00 => wd (b2n (own && via) * 2 ^ 12 + b2n (own && holdsLease s l) * 2 ^ 11 + b2n x.cdr * 2 ^ 10 + b2n x.marker * 2 ^ 9
      + b2n x.degraded * 2 ^ 8 + x.band % 4 * 2 ^ 6 + (if own then x.mode % 4 else 0) * 2 ^ 4 + lstateCode s l)
  | 0x04 => wd x.delay
  | 0x08 => eye 0
  | 0x0C => eye 1
  | 0x10 => eye 2
  | 0x14 => x.berBits
  | 0x18 => lowWord x.corrected
  | 0x1C => highWord x.corrected
  | 0x20 => lowWord x.uncorrected
  | 0x24 => highWord x.uncorrected
  | 0x28 => wd (sat32 x.lhcrcErr)
  | 0x2C => wd (sat32 x.sbcrcErr)
  | 0x30 => wd (blocksAsked s l % 128)
  | 0x34 => wd (sat32 x.reqSent)
  | 0x38 => lowWord x.peerUid
  | 0x3C => highWord x.peerUid
  | 0x40 => x.chg.setWidth 32
  | _ => 0

/-- The status block of a local ring (R504). -/
def ringReg (s : State) (r o : Nat) : Word :=
  let c := chainKey 0xFF r
  let x := chainOf s c
  let fenced (u : Nat) : Bool := fencedUnit s 8 u || fencedUnit s 8 32
  if 0x10 ≤ o ∧ o < 0x30 then
    let p := c * 8 + (o - 0x10) / 4
    let y := posOf s p
    wd (y.incLo * 2 ^ 8 + b2n (uncovered s p) * 2 ^ 7 + b2n y.relayOff * 2 ^ 6 + b2n y.feedB * 2 ^ 5 + pstateCode y.state * 2 ^ 2 + kindCode y.kind)
  else match o with
    | 0x00 => wd (b2n (ringFenced s r) * 2 ^ 22 + b2n (fenced (2 * r + 1)) * 2 ^ 21 + b2n (fenced (2 * r)) * 2 ^ 20 + b2n x.offB * 2 ^ 19
        + b2n x.offA * 2 ^ 18 + b2n x.hopFault * 2 ^ 17 + b2n (inProcedure x) * 2 ^ 16 + x.tags % 16 * 2 ^ 12 + x.brk.getD 15 * 2 ^ 8
        + x.split % 16 * 2 ^ 4 + modeCode x.mode)
    | 0x04 => wd (x.pwrB * 2 ^ 16 + x.pwrA)
    | 0x08 => wd x.fcrcErr
    | 0x0C => wd x.rsndReq
    | 0x30 => x.chg.setWidth 32
    | _ => 0

/-- The status block of a local ring before `LOCAL`: nothing but the fences reads other than its reset value (R495, R504). -/
def ringView (s : State) (r o : Nat) : Word :=
  if s.boot.fnReady.getLsbD 5 then ringReg s r o
  else if 0x10 ≤ o ∧ o < 0x30 then wd (5 * 2 ^ 2)
  else if o = 0 then
    let fenced (u : Nat) : Bool := fencedUnit s 8 u || fencedUnit s 8 32
    wd (b2n (ringFenced s r) * 2 ^ 22 + b2n (fenced (2 * r + 1)) * 2 ^ 21 + b2n (fenced (2 * r)) * 2 ^ 20 + 0xF * 2 ^ 8 + 3)
  else 0

/-- Bits k of the outputs that are driven high, test pulses aside, and of those whose line reads back high (R338). -/
def outsOn (s : State) : Nat := (((List.range 8).filter (outOn s)).map (fun k => 2 ^ k)).sum
def outsBack (s : State) (line : Nat) : Nat :=
  (((List.range 8).filter (fun k => tgetD s.safe.readback (2 * k + line) (outOn s k))).map (fun k => 2 ^ k)).sum

/-- A word of the island's state as the safety status mirror shows it (R505). -/
def safetyReg (s : State) (o : Nat) : Word :=
  let u := s.safe
  let isl : Nat := match u.island with
    | .start => 0
    | .run => 1
    | .lockout => 2
  match o with
  | 0x00 => wd (b2n u.pwUntil.isSome * 2 ^ 19 + b2n u.password.isSome * 2 ^ 18 + b2n u.startLocked * 2 ^ 17 + b2n u.kill * 2 ^ 16
      + u.causes.headD 0 * 2 ^ 8 + isl)
  | 0x04 => wd (outsBack s 1 * 2 ^ 24 + outsBack s 0 * 2 ^ 16 + outsOn s * 2 ^ 8 + outsOn s)
  | 0x08 => wd (u.latched * 2 ^ 12 + u.demand * 2 ^ 8 + u.inB * 2 ^ 4 + u.inA)
  | 0x0C => wd u.ioEn
  | 0x10 => wd (u.trips.length + u.stops.length)
  | 0x14 => wd (unarchived s)
  | 0x18 => wd u.logLost
  | 0x1C => wd (u.ackUntil.elim 0 (fun t => (t - s.spc) / 100 * 2 ^ 16 + 1))
  | 0x20 => wd u.armed.length
  | _ => 0

/-- At every pick boundary the island copies its state into the mirror. -/
def noteMirror (s : State) : State := { s with regs := { s.regs with mirror := (List.range 9).map (fun i => safetyReg s (4 * i)) } }

/-- The safety status mirror: the copy of the latest boundary. -/
def mirrorReg (s : State) (o : Nat) : Word := if o % 4 = 0 then s.regs.mirror.getD (o / 4) 0 else 0

/-! ### Blocks of either function -/

/-- Word o of a ring configuration block (R506). -/
def ringCfgReg (g : Ring) (o : Nat) : Word :=
  match o with
  | 0x00 => lowWord g.sqBase.toNat
  | 0x04 => highWord g.sqBase.toNat
  | 0x08 => lowWord g.cqBase.toNat
  | 0x0C => highWord g.cqBase.toNat
  | 0x10 => wd (b2n g.ringErr * 2 ^ 31 + b2n g.cfgErr * 2 ^ 30 + g.vector * 2 ^ 16 + g.log2 * 2 ^ 8 + b2n (!g.started.isEmpty) * 2 + b2n g.enable)
  | 0x14 => wd (g.prod * 2 ^ 16 + g.fetch)
  | _ => 0

/-- Word o of an event queue block (R508). -/
def queueReg (q : EvQueue) (o : Nat) : Word :=
  match o with
  | 0x00 => lowWord q.base.toNat
  | 0x04 => highWord q.base.toNat
  | 0x08 => wd (b2n q.evqErr * 2 ^ 31 + b2n q.cfgErr * 2 ^ 30 + q.log2 * 2 ^ 8 + b2n q.enable)
  | 0x0C => wd q.prod
  | 0x10 => wd q.cons
  | 0x14 => wd q.lost
  | 0x18 => wd q.store.length
  | _ => 0

/-- Word i of an MSI-X table entry (R509). -/
def vectorReg (x : Vec) (i : Nat) : Word :=
  match i with
  | 0 => lowWord x.addr.toNat
  | 1 => highWord x.addr.toNat
  | 2 => x.data
  | _ => wd (b2n x.masked)

/-- A word of a pending bit array. -/
def pendingReg (s : State) (fn i : Nat) : Word :=
  wd (((List.range 32).map fun k => b2n (tgetD s.ten.vecs (fn * 256 + 32 * i + k) {}).pend * 2 ^ k).sum)

/-- The mailbox block of a tenant, as the management function sees it (R512). -/
def mailReg (s : State) (t o : Nat) : Word :=
  let m (k : Nat) : Mailbox := tgetD s.ten.mbx (t * 8 + k) {}
  if 0x10 ≤ o ∧ o < 0x20 then (m (o / 4)).value
  else if o = 0x20 then wd (((List.range 4).map fun k => b2n (m k).busy * 2 ^ k + b2n (m k).drop * 2 ^ (8 + k)).sum)
  else 0

/-- Management rings and event queue block (R513). -/
def hostReg (s : State) (o : Nat) : Word :=
  if o < 0x400 then ringCfgReg (ringAt s mgmt (o / 64)) (o % 64)
  else if 0x800 ≤ o ∧ o < 0x820 then queueReg (tgetD s.ten.queues mgmt {}) (o - 0x800)
  else if 0xC00 ≤ o ∧ o < 0x1000 then wd (tgetD s.ten.vecs (mgmt * 256 + (o - 0xC00) / 4) {}).mdr
  else if 0x1000 ≤ o ∧ o < 0x5000 then
    let src := (o - 0x1000) / 4
    let w := tgetD s.ten.srcTab src 1
    if 0x100 ≤ src ∧ src ≤ 0x1FF then (if thas s.ten.srcTab src then wd (bits w 1 1 * 2 + 1) else 1)
    else if sourceFn src = mgmt then w else 1
  else if 0x8000 ≤ o ∧ o < 0xC000 then mailReg s ((o - 0x8000) / 64) (o % 64)
  else 0

/-- Housekeeping and thermal registers before `HK`, wear registers before `WEAR`: their reset values (R495, R502). -/
def housekeepingView (s : State) (o : Nat) : Word :=
  let on (b : Nat) (other : Word) : Word := if s.boot.fnReady.getLsbD b then housekeepingReg s o else other
  match o with
  | 0x00 => on 2 0x80000000
  | 0x04 => on 2 0x1000
  | 0x08 => on 2 0x8000
  | 0x0C => housekeepingReg s o
  | 0x10 => on 2 0
  | 0x1C => on 15 0
  | 0x14 => on 15 0xFFFFFFFF
  | 0x18 => on 15 0xFFFFFFFF
  | _ => 0

/-- The safety mirror before `SAFETY`: the fields without a loaded reset value read that value (R495, R505). -/
def safetyView (s : State) (o : Nat) : Word :=
  if s.boot.fnReady.getLsbD 3 then mirrorReg s o
  else match o with
    | 0x00 => wd (b2n s.safe.password.isSome * 2 ^ 18 + b2n s.safe.startLocked * 2 ^ 17 + 2 ^ 16)
    | 0x04 => 0
    | 0x08 => 0
    | 0x10 => 0
    | 0x1C => 0
    | _ => safetyReg s o

/-- A register of the management function's BAR0 (R496). -/
def mgmtReg (s : State) (off : Nat) : Word :=
  if off < 0x1000 then identityReg s off
  else if off < 0x2000 then readinessReg s (off - 0x1000)
  else if off < 0x10000 then resetReg s (off - 0x2000)
  else if off < 0x20000 then housekeepingView s (off - 0x10000)
  else if off < 0x28000 then laneReg s ((off - 0x20000) / 256) (off % 256)
  else if off < 0x28800 then laneReg s (0x100 + (off - 0x28000) / 256) (off % 256)
  else if off < 0x30000 then 0
  else if off < 0x31000 then ringView s ((off - 0x30000) / 256) (off % 256)
  else if off < 0x40000 then 0
  else if off < 0x50000 then safetyView s (off - 0x40000)
  else if off < 0x100000 then hostReg s (off - 0x50000)
  else if off < 0x101000 then vectorReg (tgetD s.ten.vecs (mgmt * 256 + (off - 0x100000) / 16) {}) (off % 16 / 4)
  else if off < 0x101020 then pendingReg s mgmt ((off - 0x101000) / 4)
  else 0

/-- The tenant status block (R514). `TSTATE` and `RESET_BUSY` read in every state. -/
def tenantStatusReg (s : State) (t o : Nat) : Word :=
  let m (k : Nat) : Mailbox := tgetD s.ten.mbx (t * 8 + k) {}
  let act := fnActive s t
  if 0x40 ≤ o ∧ o < 0x50 then (m ((o - 0x40) / 4)).value
  else match o with
    | 0x00 =>
      let sum := ((List.range 16).map fun q => b2n (ringAt s t q).ringErr * 2 ^ q).sum
      wd ((if act then sum * 2 ^ 16 else 0) + b2n (tenantCode s t == 2) * 16 + tenantCode s t)
    | 0x04 => if act then readyWord s else 0
    | 0x08 => if act then lowWord s.spc else 0
    | 0x0C => if act then highWord s.spc else 0
    | 0x10 => wd (((List.range 4).map fun k => b2n (m (4 + k)).busy * 2 ^ (4 + k)).sum)
    | _ => 0

/-- What stands in a tenant's registers: nothing but their reset values while it is not `ACTIVE` (R514). -/
def tenantRegs (s : State) (t : Nat) : State :=
  if fnActive s t then s
  else { s with cmd := { s.cmd with rings := [] }, ten := { s.ten with queues := [], clsTab := [], vecs := [], mbx := [] } }

/-- A register of tenant t's BAR0 (R514). -/
def tenantReg (s0 : State) (t off : Nat) : Word :=
  let s := tenantRegs s0 t
  if off < 0x400 then ringCfgReg (ringAt s t (off / 64)) (off % 64)
  else if 0x800 ≤ off ∧ off < 0x820 then queueReg (tgetD s.ten.queues t {}) (off - 0x800)
  else if 0x840 ≤ off ∧ off < 0x880 then tgetD s.ten.clsTab (t * 16 + (off - 0x840) / 4) 1
  else if 0x900 ≤ off ∧ off < 0xA00 then wd (tgetD s.ten.vecs (t * 256 + (off - 0x900) / 4) {}).mdr
  else if 0xC00 ≤ off ∧ off < 0xC60 then tenantStatusReg s t (off - 0xC00)
  else if 0x1000 ≤ off ∧ off < 0x1400 then vectorReg (tgetD s.ten.vecs (t * 256 + (off - 0x1000) / 16) {}) (off % 16 / 4)
  else if 0x1800 ≤ off ∧ off < 0x1808 then pendingReg s t ((off - 0x1800) / 4)
  else 0

/-- What a read of a register returns: 0 at an unassigned or unaligned offset, and from every BAR until `HOST` is set (R492, R495). -/
def readReg (s : State) (fn off : Nat) : Word :=
  if !barLive s || off % 4 != 0 then 0 else if fn = mgmt then mgmtReg s off else tenantReg s fn off

/-- What a read of the high register of a pair returns after a read of its low one: what that read captured; otherwise its current value
(R494). -/
def readHigh (s : State) (fn low : Nat) : Word := (tget s.regs.latch (fn * 2 ^ 24 + low)).getD (readReg s fn (low + 4))

/-- The low register of a pair (R494): the die identity and the SPC, a lane's codeword counts and peer, every base and message address is
not one: those are written, and read, word by word. -/
def isPairLow (fn off : Nat) : Bool :=
  if fn = mgmt then
    off == 0x10 || off == 0x18 || (decide (0x20000 ≤ off) && decide (off < 0x28800) && [0x18, 0x20, 0x38].contains (off % 256))
      || (decide (0x50000 ≤ off) && decide (off < 0x50400) && [0, 8].contains (off % 64)) || off == 0x50800
  else (decide (off < 0x400) && [0, 8].contains (off % 64)) || off == 0x800 || off == 0xC08

/-! ### The I²C view (R515, R516) -/

/-- The I²C target answers from 10 ms after VDD_AON (R443). -/
def i2cAnswers (s : State) : Bool := s.boot.phase != .off && decide (1000 ≤ s.spc)

/-- What a pointer of the I²C view reads. Outside the always-on rows every register reads 0 while a cold reset is held and during thermal
shutdown, the thermal registers apart. -/
def i2cReg (s : State) (ptr : Nat) : Word :=
  let ready (b : Nat) : Bool := s.boot.fnReady.getLsbD b
  let hot := s.boot.phase == .shutdown
  let on (b : Nat) (other w : Word) : Word := if !s.up then 0 else if ready b then w else other
  let therm (other w : Word) : Word := if hot then w else on 2 other w
  if !i2cAnswers s then 0
  else if 0x100 ≤ ptr ∧ ptr < 0x400 then readinessReg s ptr
  else if 0x500 ≤ ptr ∧ ptr < 0x580 then (if s.up && s.boot.nvrState == 2 then s.boot.nvrWin.getD ((ptr - 0x500) / 4) 0 else 0)
  else match ptr with
    | 0x0000 => if s.up then wd (2 ^ 24 + variantCode s.otp.variant * 2 ^ 16 + 0x9128) else 0
    | 0x0004 => readyWord s
    | 0x0008 => readinessReg s 0x08
    | 0x000C => readinessReg s 0x0C
    | 0x0010 => lowWord s.spc
    | 0x0014 => highWord s.spc
    | 0x0018 => on 1 0 (wd s.nvm.aonRun)
    | 0x001C => on 1 0 (wd s.nvm.coldRun)
    | 0x0020 => therm 0x80000000 (thermalReg s 0)
    | 0x0024 => therm 0x1000 (thermalReg s 4)
    | 0x0028 => therm 0x8000 (thermalReg s 8)
    | 0x002C => on 15 0xFFFFFFFF (housekeepingReg s 0x14)
    | 0x0030 => on 15 0xFFFFFFFF (housekeepingReg s 0x18)
    | 0x0034 => on 15 0 (housekeepingReg s 0x1C)
    | 0x0038 => on 3 0x10000 (mirrorReg s 0)
    | 0x003C => on 2 0 (housekeepingReg s 0x10)
    | 0x0400 => on 1 0 s.boot.nvrReq
    | 0x0404 => if s.up || hot then wd (s.boot.nvrHeld * 2 ^ 16 + s.boot.nvrLen * 2 ^ 8 + s.boot.nvrState) else 0
    | _ => 0

end Sys2Proof.Machine
end

