-- ==== Sys2Proof/Machine/Pick.lean ====
section
/-! DEFINITION. The pick boundary: the SPC, and everything the device does at every boundary whatever is commanded (R10, R20 and the rules
named at each step). -/

namespace Sys2Proof.Machine

/-! ### Parts of the boundary -/

/-- The chains whose carrier stops at this boundary: positions go dark and `CHAIN.POWER` completes (R74, R401). -/
def powerOffs (s : State) : State :=
  forEach (tkeys s.line.chains (fun _ x => x.offAt.elim false (fun b => decide (b ≤ s.spc)))) s fun c s =>
    completeDeferred (.powerOff c) ST_OK [] (forEach (occPosns s c) (stopChain .unpowered .unpowered c s) onSilent)

/-- Port B starts its carrier two picks after the last enumeration pick of a closed ring, or at its time in the open-ring procedure (R53,
R55). -/
def startPortB (s : State) : State :=
  forEach (tkeys s.line.chains (fun c x => isLocal c && x.mode == .normal && !x.carrierB && !x.offB
      && x.proc.elim true (fun p => match p.counted with
        | some q => decide (q + 2 ≤ s.spc)
        | none => p.openAt.elim false (fun a => decide (a ≤ s.spc))))) s
    fun c s => modChain c (fun x => { x with carrierB := true }) s

/-- A ring turns at a boundary: the open-ring procedure enumerates in wrap mode from its p0 + 400 (R55); boundary u of an unwrap returns the ring
to normal mode with the split hop of R37 in frame u; wrap mode comes again 2 picks after an unwrap that failed (R69). -/
def turnRing (c : Nat) (s : State) : State :=
  let x := chainOf s c
  let opens := x.mode == .normal && x.proc.elim false (fun p => p.counted.isNone && p.openAt.elim false (fun a => decide (a + 200 ≤ s.spc)))
  if opens then modChain c (fun y => { setMode .wrap s y with brk := none }) s
  else if x.mode = .wrap ∧ x.unwrapAt.elim false (fun a => decide (a.1 ≤ s.spc)) then
    moveSplit c (splitHop x.tags) (modChain c (fun y => { setMode .normal s y with brk := none, syncMiss := 0, lockLost := false }) s)
  else if x.mode = .normal ∧ x.wrapAt.elim false (fun w => decide (w ≤ s.spc)) then wrapRing c none [] s
  else s

/-- Turn every local ring that is due. -/
def turnRings (s : State) : State := forEach (tkeys s.line.chains (fun c _ => isLocal c)) s turnRing

/-- Cells that a sense wire borders. -/
def wireCells (w : Nat) : List Nat := (if w = 0 then [] else [w - 1]) ++ (if w < 12 then [w] else [])

/-- Confirmations and clearings of wire breaks that take effect at this boundary (R245, R248 to R250). -/
def settleWires (s : State) : State :=
  forEach (tkeys s.bal.tags (fun _ d => d.due.any (fun e => decide (e.2.1 ≤ s.spc)))) s fun p s =>
    let now := (diagOf s p).due.filter (fun e => decide (e.2.1 ≤ s.spc))
    let s1 := modDiag p (fun d => { d with due := d.due.filter (fun e => !decide (e.2.1 ≤ s.spc)) }) s
    forEach now s1 fun e s =>
      if e.2.2 then raisePos p 0x410 0x70 e.1 (failInRun p CAUSE_WIRE (fun c => decide (c ≤ 2)) (modDiag p (fun d => { d with broken := tset d.broken e.1 0 }) s))
      else
        let s2 := modDiag p (fun d => { d with broken := tdel d.broken e.1 }) s
        raisePos p 0x410 0x71 e.1 (forEach (wireCells e.1) s2 (fun j s => restartFocus (cellKey p j) (restartCtx (cellKey p j) s)))

/-- Positions behind a bridge that no path reaches miss a block in every pick (R70, R97). -/
def missPicks (s : State) : State :=
  forEach (tkeys s.line.chains (fun c x => !isLocal c && powered x && !reached s (laneOfChain c))) s fun c s =>
    modOcc c (fun x => { x with noLive := x.noLive + 1 }) s

/-- Safety trackers whose reset falls at this boundary (R335). -/
def resetFast (s : State) : State :=
  let due := s.safe.apsisReset.filter (fun e => decide (e.1 ≤ s.spc))
  let chains := due.flatMap (·.2)
  if due.isEmpty then s
  else
    { s with
      safe := { s.safe with apsisReset := s.safe.apsisReset.filter (fun e => !decide (e.1 ≤ s.spc)) }
      acc := { s.acc with fast := tmap s.acc.fast fun k a => if chains.contains (chainOfChi (k / 8)) then { point := s.spc } else a } }

/-- Data component of the local ports for a band, mV (R481). -/
def bandAmp (band : Nat) : Nat := if band ≤ 1 then 2000 else if band = 2 then 1900 else 1800

/-- 50 mV per 100 picks toward the band's amplitude. -/
def stepAmp (s : State) : State :=
  let t := bandAmp s.therm.band
  if s.spc % 100 != 0 || s.therm.amp == t then s
  else modTherm (fun u => { u with amp := if u.amp < t then min t (u.amp + 50) else max t (u.amp - 50) }) s

/-- Under two shed steps the spectral tiles are gated in the first half of each round, and under four the estimator cores between the steps of
even number, each unit in its turn (R476, R488, R528). -/
def gateShed (s : State) : State :=
  let s1 := if s.spc % 100 = 0 then
      forEach (specTiles s) s (wantGate 2 · (decide (2 ≤ s.therm.force) && s.spc % 200 == 0))
    else s
  nextGate <| if s.spc % 100000 = 1600 ∧ 101600 ≤ s.spc then
    let odd := (s.spc / 100000 - 1) % 2 == 1
    forEach ((List.range 32).filter (fun u => ustate s1 3 u == .ready)) s1 (wantGate 3 · (s.est.gated || (decide (4 ≤ s.therm.force) && odd)))
  else s1

/-- A pick spent in the band in force (R482). -/
def countBand (s : State) : State :=
  let b := s.therm.band
  { s with wear := { s.wear with bands := s.wear.bands.set b (s.wear.bands.getD b 0 + 1) } }

/-! ### The pair channel -/

/-- The heartbeat (R423): role, substate, lockout, throttle, shed steps, identifier; epoch; SPC; last message accepted; `FN_READY`; leases. -/
def heartbeatBody (s : State) : List Nat :=
  let u := s.pair
  let sub := if u.stale.isSome then 3 else if u.role != .single && !mirrors s then 2 else b2n u.resync
  [roleCode u.role + sub * 4 + b2n (s.safe.island == .lockout) * 2 ^ 4 + b2n (s.therm.steps != 0) * 2 ^ 5 + s.therm.steps * 2 ^ 6
     + u.forming.elim u.pid (·.pid) * 2 ^ 16,
   u.epoch, s.spc % 2 ^ 32, s.spc / 2 ^ 32, u.lastSeq, s.boot.fnReady.toNat, (heldLanes s).length, 0]

/-- A device of a pair, or one that forms or returns to one, sends a control frame, which a heartbeat opens, on the highest working twin lane
(R100, R101, R423). -/
def sendHeartbeat (s : State) : State :=
  match workingTwins s with
  | tl :: _ =>
    if (s.pair.role != .single || s.pair.forming.isSome || s.pair.pid != 0) && (s.pair.key || s.pair.forming.isSome) then
      let beat : PairOut := { kind := .heartbeat, body := heartbeatBody s }
      { s with
        lane := { s.lane with words := s.lane.words.drop 8 }
        out := { s.out with pair := beat :: s.out.pair, control := controlFrame s tl (s.lane.words.take 8) beat :: s.out.control } }
    else s
  | [] => s

/-- The counts, latched trips and stops of bridged chains. -/
def bridgedSafety (s : State) : Tbl Count × List (Nat × Nat) × List Nat :=
  (s.safe.counts.filter (fun e => !isLocal (chainOfChi (e.1 % 2 ^ 26 / 8))),
   (s.safe.trips.filter (fun t => !isLocal (chainOfChi t.chi))).map (fun t => (t.fn, t.id)),
   (s.safe.stops.filter (fun e => !isLocal e.1)).map (·.1))

/-- The primary sends what changed in its safety state (R355, R423): counts that differ, then every latched trip and stop. -/
def sendSafety (s : State) : State :=
  let now := bridgedSafety s
  if s.pair.role != .primary || !mirrors s || (now == (s.pair.sentCounts, s.pair.sentTrips, s.pair.sentStops)) then s
  else
    let new := now.1.filter (fun e => !s.pair.sentCounts.contains e)
    let body := new.length :: new.flatMap (fun e => [e.1, e.2.hi, e.2.lo]) ++ now.2.1.length :: now.2.1.flatMap (fun t => [t.1, t.2]) ++ now.2.2
    modPair (fun u => { u with sentCounts := now.1, sentTrips := now.2.1, sentStops := now.2.2 }) (sendPair .safeState body s)

/-! ### The boundary -/

/-- What the units do at a boundary of a device in service, in order: what ends, what the sequencer and the island decide, then the words and
frames from what is posted (R10). -/
def serviceBoundary (s : State) : State :=
  let s1 := settleWires (missPicks (turnRings (startPortB (powerOffs s))))
  let s2 := sequencerPick (sweepUnmeasured (resetFast s1))
  let s3 := latchFrames (assembleAll (stepBoundary s2))
  let s4 := sendTraining (sendBackfill (assembleLeases (sendAllRequests s3)))
  writePlanned <| storeNvm <| noteMirror (noteTrace (noteEyes (countBand (gateShed (stepAmp (sendSafety (sendHeartbeat s4)))))))

/-- From the boundary after a thermal shutdown is decided, frames and carriers of the local chains and every lane stop (R478). -/
def shutdownBoundary (s : State) : State :=
  match s.therm.shutAt with
  | some (d, _) => if d + 1 ≤ s.spc then countBand (cutLanes (cutChains ((poweredChains s).filter isLocal) s)) else countBand s
  | none => countBand s

/-- PICK_BOUNDARY (R10, R20): the SPC counts in every state of the device while VDD_AON is applied. -/
def execPickBoundary (s : State) : Host.Outcome State Fault Refusal :=
  .next (if s.time.powered then
    let s1 : State := { s with time := { s.time with spc := s.time.spc + 1, frac := 0 } }
    match s1.boot.phase with
    | .running => serviceBoundary s1
    | .shutdown => shutdownBoundary s1
    | .coldHeld => releaseWaiting s1
    | .off => s1
  else s)

end Sys2Proof.Machine
end

