-- ==== Sys2Proof/Machine/Regs.lean ====
section
/-! DEFINITION. The rows of register writes, doorbells and latched reads (chapters 13 and 17). -/

namespace Sys2Proof.Machine

/-- The management function or a tenant number, and one of its 16 ring pairs. -/
def ringExists (fn q : Nat) : Bool := decide (fn ≤ mgmt) && decide (q < 16)

/-- RING_ENABLE (R507). -/
def execRingEnable (fn q : Nat) (s : State) : Host.Outcome State Fault Refusal :=
  onObject (ringExists fn q) (if writesAct s fn then modRing fn q (enableRing fn) s else s)

/-- RING_DISABLE (R507). -/
def execRingDisable (fn q : Nat) (s : State) : Host.Outcome State Fault Refusal :=
  onObject (ringExists fn q) (if writesAct s fn then modRing fn q disableRing s else s)

/-- EQ_ENABLE (R508). -/
def execEqEnable (fn : Nat) (s : State) : Host.Outcome State Fault Refusal :=
  onObject (decide (fn ≤ mgmt)) (if writesAct s fn then modQueue fn enableQueue s else s)

/-- EQ_DISABLE (R508): records wait in the pending store. -/
def execEqDisable (fn : Nat) (s : State) : Host.Outcome State Fault Refusal :=
  onObject (decide (fn ≤ mgmt)) (if writesAct s fn then modQueue fn (fun q => { q with enable := false }) s else s)

/-- EQ_CONS_WRITE (R374, R383). -/
def execEqConsWrite (fn cons : Nat) (s : State) : Host.Outcome State Fault Refusal :=
  onObject (decide (fn ≤ mgmt)) (if writesAct s fn then modQueue fn (writeCons cons) s else s)

/-- WARM_REQ_WRITE (R501). -/
def execWarmReqWrite (value : Word) (s : State) : Host.Outcome State Fault Refusal :=
  .next (if barLive s then requestWarm value s else s)

/-- MGMT_MAILBOX_WRITE (R373, R512). -/
def execMgmtMailboxWrite (t k : Nat) (value : Word) (s : State) : Host.Outcome State Fault Refusal :=
  onObject (decide (t < 256) && decide (k < 4)) (if barLive s then mgmtMail t k value s else s)

/-- TENANT_MAILBOX_WRITE (R373). -/
def execTenantMailboxWrite (t k : Nat) (value : Word) (s : State) : Host.Outcome State Fault Refusal :=
  onObject (decide (t < 256) && decide (4 ≤ k) && decide (k < 8)) (if writesAct s t then sendMail t k value s else s)

/-- ALERT_STAT_CLEAR (R499), from BAR0 or over I²C. -/
def execAlertStatClear (value : Word) (s : State) : Host.Outcome State Fault Refusal :=
  .next (if s.boot.phase != .off then clearAlert value s else s)

/-- The I²C view as the rows of register reads and writes name it, beside the functions 0 to 0x100 (DESIGN CHOICE, log 80). -/
def i2cFn : Nat := 0x101

/-- REG_PAIR_LOW_READ (R494, R515): the high part is latched for the function and the pair. -/
def execRegPairLowRead (fn off : Nat) (s : State) : Host.Outcome State Fault Refusal :=
  onObject (decide (fn ≤ i2cFn))
    (if fn = i2cFn then
      if off = 0x10 ∧ i2cAnswers s then
        { s with regs := { s.regs with latch := tset s.regs.latch (fn * 2 ^ 24 + off) (i2cReg s (off + 4)), read := i2cReg s off } }
      else s
    else if isPairLow fn off then
      let s1 := if barLive s && (off == 0x18 && fn == mgmt) then s.takeFrac else s
      { s1 with regs := { s1.regs with
        latch := tset s1.regs.latch (fn * 2 ^ 24 + off) (readReg s1 fn (off + 4)), read := readReg s1 fn off } }
    else s)

/-- A write to the management function's BAR0. -/
def writeMgmt (off : Nat) (v : Word) (s : State) : State :=
  if off = 0x1004 then { s with boot := { s.boot with readyChg := s.boot.readyChg &&& ~~~(v.setWidth 16) } }
  else if off = 0x1008 then clearAlert v s
  else if off = 0x100C then writeAlertEn v s
  else if off = 0x2000 then requestWarm v s
  else if off = 0x2004 then { s with boot := { s.boot with rstCause := v.setWidth 9 } }
  else if off = 0x200C then { s with boot := { s.boot with scratch := v } }
  else if 0x20000 ≤ off ∧ off < 0x28800 ∧ off % 256 = 0x40 then
    let l := if off < 0x28000 then (off - 0x20000) / 256 else 0x100 + (off - 0x28000) / 256
    { s with lane := { s.lane with lanes := tupd s.lane.lanes l fun x => { x with chg := x.chg &&& ~~~(v.setWidth 5) } } }
  else if 0x30000 ≤ off ∧ off < 0x31000 ∧ off % 256 = 0x30 then
    let c := chainKey 0xFF ((off - 0x30000) / 256)
    { s with line := { s.line with chains := tupd s.line.chains c fun x => { x with chg := x.chg &&& ~~~(v.setWidth 4) } } }
  else if 0x50000 ≤ off ∧ off < 0x50400 then writeRing mgmt ((off - 0x50000) / 64) (off % 64 / 4) v s
  else if 0x50800 ≤ off ∧ off < 0x50820 then writeQueue mgmt ((off - 0x50800) / 4) v s
  else if 0x50C00 ≤ off ∧ off < 0x51000 then writeModeration mgmt ((off - 0x50C00) / 4) v s
  else if 0x51000 ≤ off ∧ off < 0x55000 then writeSource ((off - 0x51000) / 4) v s
  else if 0x58000 ≤ off ∧ off < 0x5C000 then
    let t := (off - 0x58000) / 64
    let o := off % 64
    if o < 0x10 then mgmtMail t (o / 4) v s else if o = 0x20 then clearDrops t v s else s
  else if 0x100000 ≤ off ∧ off < 0x101000 then writeVector mgmt ((off - 0x100000) / 16) (off % 16 / 4) v s
  else s

/-- A write to tenant t's BAR0. -/
def writeTenant (t off : Nat) (v : Word) (s : State) : State :=
  if off < 0x400 then writeRing t (off / 64) (off % 64 / 4) v s
  else if 0x800 ≤ off ∧ off < 0x820 then writeQueue t ((off - 0x800) / 4) v s
  else if 0x840 ≤ off ∧ off < 0x880 then writeClass t ((off - 0x840) / 4) v s
  else if 0x900 ≤ off ∧ off < 0xA00 then writeModeration t ((off - 0x900) / 4) v s
  else if 0xC50 ≤ off ∧ off < 0xC60 then sendMail t (4 + (off - 0xC50) / 4) v s
  else if 0x1000 ≤ off ∧ off < 0x1400 then writeVector t ((off - 0x1000) / 16) (off % 16 / 4) v s
  else s

/-- A write over I²C: `ALERT_STAT`, `ALERT_EN` and `NVR_REQ` alone (R516). -/
def writeI2c (ptr : Nat) (v : Word) (s : State) : State :=
  if !i2cAnswers s then s
  else match ptr with
    | 0x0008 => clearAlert v s
    | 0x000C => writeAlertEn v s
    | 0x0400 => if s.up || s.boot.phase == .shutdown then requestRecord v s else s
    | _ => s

/-- REGISTER_WRITE (R492, R493, R515): RO fields, reserved fields and unassigned or unaligned offsets ignore the write. -/
def execRegisterWrite (fn off : Nat) (value : Word) (s : State) : Host.Outcome State Fault Refusal :=
  onObject (decide (fn ≤ i2cFn))
    (if fn = i2cFn then writeI2c off value s
    else if !writesAct s fn || off % 4 != 0 then s
    else if fn = mgmt then writeMgmt off value s else writeTenant fn off value s)

end Sys2Proof.Machine
end

