-- ==== Sys2Proof/Machine/Dispatch.lean ====
section
/-! DEFINITION. exec: one arm per command, each one direct call of the command's meaning. -/

namespace Sys2Proof.Machine

-- What a command does to everything but the queue.
def exec (i : Instr) (s : State) : Host.Outcome State Fault Refusal :=
  match i with
  | .vddAonApplied => Sys2Proof.Machine.execVddAonApplied s
  | .coldReset => Sys2Proof.Machine.execColdReset s
  | .supplyMonitorTrip rail => Sys2Proof.Machine.execSupplyMonitorTrip rail s
  | .coldRstRelease => Sys2Proof.Machine.execColdRstRelease s
  | .bistUnitDone cls unit result => Sys2Proof.Machine.execBistUnitDone cls unit result s
  | .trialBootDeadline => Sys2Proof.Machine.execTrialBootDeadline s
  | .trialBootPassed => Sys2Proof.Machine.execTrialBootPassed s
  | .mgmtCoreWatchdog => Sys2Proof.Machine.execMgmtCoreWatchdog s
  | .warmResetRecognised => Sys2Proof.Machine.execWarmResetRecognised s
  | .pcieReset kind => Sys2Proof.Machine.execPcieReset kind s
  | .functionLevelReset vf => Sys2Proof.Machine.execFunctionLevelReset vf s
  | .vfEnableCleared enable numVfs => Sys2Proof.Machine.execVfEnableCleared enable numVfs s
  | .wakeNFall => Sys2Proof.Machine.execWakeNFall s
  | .safeRstNPulse lowMs => Sys2Proof.Machine.execSafeRstNPulse lowMs s
  | .ackWindowExpiry => Sys2Proof.Machine.execAckWindowExpiry s
  | .safeInDemand k a b => Sys2Proof.Machine.execSafeInDemand k a b s
  | .safeInRelease k => Sys2Proof.Machine.execSafeInRelease k s
  | .safeInDiscrepancy k => Sys2Proof.Machine.execSafeInDiscrepancy k s
  | .safeOutTestPulse k lineB readback => Sys2Proof.Machine.execSafeOutTestPulse k lineB readback s
  | .outFb k lineB readback => Sys2Proof.Machine.execOutFb k lineB readback s
  | .refclkLoss => Sys2Proof.Machine.execRefclkLoss s
  | .refclkRelock step => Sys2Proof.Machine.execRefclkRelock step s
  | .clockMonitorFault => Sys2Proof.Machine.execClockMonitorFault s
  | .safetyCoreFault => Sys2Proof.Machine.execSafetyCoreFault s
  | .islandWatchdogExpiry => Sys2Proof.Machine.execIslandWatchdogExpiry s
  | .islandSupplyFault => Sys2Proof.Machine.execIslandSupplyFault s
  | .scanInstruction opcode => Sys2Proof.Machine.execScanInstruction opcode s
  | .zeroisationDone => Sys2Proof.Machine.execZeroisationDone s
  | .testLogicReset => Sys2Proof.Machine.execTestLogicReset s
  | .vlineOutOfRange => Sys2Proof.Machine.execVlineOutOfRange s
  | .portOvercurrent port => Sys2Proof.Machine.execPortOvercurrent port s
  | .pickBoundary => Sys2Proof.Machine.execPickBoundary s
  | .chainFrameRx f => Sys2Proof.Machine.execChainFrameRx f s
  | .resendAgeExpiry pos pick notHeld => Sys2Proof.Machine.execResendAgeExpiry pos pick notHeld s
  | .ringBreakDeclared chain outOfLock delays => Sys2Proof.Machine.execRingBreakDeclared chain outOfLock delays s
  | .hopFault chain hops => Sys2Proof.Machine.execHopFault chain hops s
  | .positionLost pos => Sys2Proof.Machine.execPositionLost pos s
  | .identityRx pos msg => Sys2Proof.Machine.execIdentityRx pos msg s
  | .coefRx pos msg => Sys2Proof.Machine.execCoefRx pos msg s
  | .tagStatusRx pos msg => Sys2Proof.Machine.execTagStatusRx pos msg s
  | .selvedgeDownPeriod => Sys2Proof.Machine.execSelvedgeDownPeriod s
  | .chainEnumPicks chain hops delays => Sys2Proof.Machine.execChainEnumPicks chain hops delays s
  | .openRingDetected chain countsA countsB delays => Sys2Proof.Machine.execOpenRingDetected chain countsA countsB delays s
  | .positionReleased pos => Sys2Proof.Machine.execPositionReleased pos s
  | .parkCarrierOff chain => Sys2Proof.Machine.execParkCarrierOff chain s
  | .unwrapBoundary chain valid delays => Sys2Proof.Machine.execUnwrapBoundary chain valid delays s
  | .upLaneFrameRx f => Sys2Proof.Machine.execUpLaneFrameRx f s
  | .pickFinalGap pick => Sys2Proof.Machine.execPickFinalGap pick s
  | .laneFailed lane e => Sys2Proof.Machine.execLaneFailed lane e s
  | .laneDegraded r => Sys2Proof.Machine.execLaneDegraded r s
  | .lanePhaseComplete lane m => Sys2Proof.Machine.execLanePhaseComplete lane m s
  | .laneAdaptStep lane rx up => Sys2Proof.Machine.execLaneAdaptStep lane rx up s
  | .twinForwardFrameRx tl f => Sys2Proof.Machine.execTwinForwardFrameRx tl f s
  | .twinBackfillFrameRx tl f => Sys2Proof.Machine.execTwinBackfillFrameRx tl f s
  | .relayDownFrameRx tl f => Sys2Proof.Machine.execRelayDownFrameRx tl f s
  | .forwardingControlWord w => Sys2Proof.Machine.execForwardingControlWord w s
  | .heartbeat h peer => Sys2Proof.Machine.execHeartbeat h peer s
  | .mirror m accept op r => Sys2Proof.Machine.execMirror m accept op r s
  | .mirrorAck m => Sys2Proof.Machine.execMirrorAck m s
  | .seqState m drives groups => Sys2Proof.Machine.execSeqState m drives groups s
  | .safeState m counts latched acked stops => Sys2Proof.Machine.execSafeState m counts latched acked stops s
  | .demand m t => Sys2Proof.Machine.execDemand m t s
  | .yield m => Sys2Proof.Machine.execYield m s
  | .handover m => Sys2Proof.Machine.execHandover m s
  | .resync m b => Sys2Proof.Machine.execResync m b s
  | .image m => Sys2Proof.Machine.execImage m s
  | .localFault m => Sys2Proof.Machine.execLocalFault m s
  | .pairMessageResend => Sys2Proof.Machine.execPairMessageResend s
  | .twinLinkLost => Sys2Proof.Machine.execTwinLinkLost s
  | .twinLinkRestored => Sys2Proof.Machine.execTwinLinkRestored s
  | .leaseAssessment => Sys2Proof.Machine.execLeaseAssessment s
  | .demotionBoundary => Sys2Proof.Machine.execDemotionBoundary s
  | .handoverPick => Sys2Proof.Machine.execHandoverPick s
  | .refclkOffsetOut offset => Sys2Proof.Machine.execRefclkOffsetOut offset s
  | .refclkOffsetBack offset => Sys2Proof.Machine.execRefclkOffsetBack offset s
  | .pairFormationTimeout => Sys2Proof.Machine.execPairFormationTimeout s
  | .resyncComplete => Sys2Proof.Machine.execResyncComplete s
  | .pairUpdateStepDone checks parts => Sys2Proof.Machine.execPairUpdateStepDone checks parts s
  | .liveSampleIssue pos m => Sys2Proof.Machine.execLiveSampleIssue pos m s
  | .blindTimeout chi => Sys2Proof.Machine.execBlindTimeout chi s
  | .settledSampleRelease pos m => Sys2Proof.Machine.execSettledSampleRelease pos m s
  | .deltaReplay tile budget => Sys2Proof.Machine.execDeltaReplay tile budget s
  | .dwellValueFinal chi k => Sys2Proof.Machine.execDwellValueFinal chi k s
  | .primarySampleFinal chi k => Sys2Proof.Machine.execPrimarySampleFinal chi k s
  | .sramEccError chi => Sys2Proof.Machine.execSramEccError chi s
  | .hbmEccError t => Sys2Proof.Machine.execHbmEccError t s
  | .tileFault phys => Sys2Proof.Machine.execTileFault phys s
  | .spareRebuildDone tile => Sys2Proof.Machine.execSpareRebuildDone tile s
  | .tripReanalysisStart fn trip => Sys2Proof.Machine.execTripReanalysisStart fn trip s
  | .tripReanalysisDone fn trip => Sys2Proof.Machine.execTripReanalysisDone fn trip s
  | .standardIntervalCommit sixty j => Sys2Proof.Machine.execStandardIntervalCommit sixty j s
  | .userIntervalCommit fn win => Sys2Proof.Machine.execUserIntervalCommit fn win s
  | .hkSlotValueFinal h value ovr => Sys2Proof.Machine.execHkSlotValueFinal h value ovr s
  | .hkRoundDecision => Sys2Proof.Machine.execHkRoundDecision s
  | .shutdownPowerGate => Sys2Proof.Machine.execShutdownPowerGate s
  | .heldColdResetProceeds => Sys2Proof.Machine.execHeldColdResetProceeds s
  | .wearDailySample samples => Sys2Proof.Machine.execWearDailySample samples s
  | .wearCounterWrite => Sys2Proof.Machine.execWearCounterWrite s
  | .estimatorStep chi j => Sys2Proof.Machine.execEstimatorStep chi j s
  | .synthAnchorDue chi => Sys2Proof.Machine.execSynthAnchorDue chi s
  | .hibernateEntry fn => Sys2Proof.Machine.execHibernateEntry fn s
  | .anchorPass fn => Sys2Proof.Machine.execAnchorPass fn s
  | .spectralRound round => Sys2Proof.Machine.execSpectralRound round s
  | .loopTick => Sys2Proof.Machine.execLoopTick s
  | .inrushWindowEnd pos => Sys2Proof.Machine.execInrushWindowEnd pos s
  | .setpointTtlExpiry pos => Sys2Proof.Machine.execSetpointTtlExpiry pos s
  | .groupSearch => Sys2Proof.Machine.execGroupSearch s
  | .relaxationSetComplete pos => Sys2Proof.Machine.execRelaxationSetComplete pos s
  | .balanceFrameBoundary => Sys2Proof.Machine.execBalanceFrameBoundary s
  | .balanceTtlExpiry pos cell => Sys2Proof.Machine.execBalanceTtlExpiry pos cell s
  | .openWireResult pos start => Sys2Proof.Machine.execOpenWireResult pos start s
  | .passiveClassification pos k => Sys2Proof.Machine.execPassiveClassification pos k s
  | .calRunFinish fn slot start => Sys2Proof.Machine.execCalRunFinish fn slot start s
  | .calFlip chain => Sys2Proof.Machine.execCalFlip chain s
  | .calSlewStep chi => Sys2Proof.Machine.execCalSlewStep chi s
  | .calCandidateExpiry fn slot => Sys2Proof.Machine.execCalCandidateExpiry fn slot s
  | .calLaneRunFinish lane m => Sys2Proof.Machine.execCalLaneRunFinish lane m s
  | .mapBuildComplete => Sys2Proof.Machine.execMapBuildComplete s
  | .mapFlip => Sys2Proof.Machine.execMapFlip s
  | .safetyConfigFlip => Sys2Proof.Machine.execSafetyConfigFlip s
  | .safeStartTestDone pass => Sys2Proof.Machine.execSafeStartTestDone pass s
  | .passwordSuspensionEnd => Sys2Proof.Machine.execPasswordSuspensionEnd s
  | .ownerChange chain => Sys2Proof.Machine.execOwnerChange chain s
  | .tenantResetEffect t => Sys2Proof.Machine.execTenantResetEffect t s
  | .tenantResetComplete t => Sys2Proof.Machine.execTenantResetComplete t s
  | .eventWriterRound => Sys2Proof.Machine.execEventWriterRound s
  | .moderationExpiry fn vector => Sys2Proof.Machine.execModerationExpiry fn vector s
  | .commandDispatchRound costs => Sys2Proof.Machine.execCommandDispatchRound costs s
  | .longCommandFinish fn ring cmdId status => Sys2Proof.Machine.execLongCommandFinish fn ring cmdId status s
  | .fwStagingDone checks parts => Sys2Proof.Machine.execFwStagingDone checks parts s
  | .bistRunDone result => Sys2Proof.Machine.execBistRunDone result s
  | .nvrReadDone => Sys2Proof.Machine.execNvrReadDone s
  | .devInfo r => Sys2Proof.Machine.execDevInfo r s
  | .devReady r => Sys2Proof.Machine.execDevReady r s
  | .devCaps r => Sys2Proof.Machine.execDevCaps r s
  | .devTime r => Sys2Proof.Machine.execDevTime r s
  | .devNop r => Sys2Proof.Machine.execDevNop r s
  | .chainPower r => Sys2Proof.Machine.execChainPower r s
  | .chainEnum r => Sys2Proof.Machine.execChainEnum r s
  | .chainStatus r => Sys2Proof.Machine.execChainStatus r s
  | .chainPark r => Sys2Proof.Machine.execChainPark r s
  | .chainWake r => Sys2Proof.Machine.execChainWake r s
  | .chainSelvRead r => Sys2Proof.Machine.execChainSelvRead r s
  | .chainSelvWrite r => Sys2Proof.Machine.execChainSelvWrite r s
  | .chainReset r => Sys2Proof.Machine.execChainReset r s
  | .laneUp r => Sys2Proof.Machine.execLaneUp r s
  | .laneStatus r => Sys2Proof.Machine.execLaneStatus r s
  | .lanePair r => Sys2Proof.Machine.execLanePair r s
  | .laneEye r => Sys2Proof.Machine.execLaneEye r s
  | .laneDown r => Sys2Proof.Machine.execLaneDown r s
  | .bridgeStatus r => Sys2Proof.Machine.execBridgeStatus r s
  | .mapBind r => Sys2Proof.Machine.execMapBind r s
  | .mapCommit r => Sys2Proof.Machine.execMapCommit r s
  | .mapRead r => Sys2Proof.Machine.execMapRead r s
  | .mapRange r => Sys2Proof.Machine.execMapRange r s
  | .accOpen r => Sys2Proof.Machine.execAccOpen r s
  | .accClose r => Sys2Proof.Machine.execAccClose r s
  | .accHarvest r => Sys2Proof.Machine.execAccHarvest r s
  | .accApsisReset r => Sys2Proof.Machine.execAccApsisReset r s
  | .accStatus r => Sys2Proof.Machine.execAccStatus r s
  | .specConfig r => Sys2Proof.Machine.execSpecConfig r s
  | .specFocus r => Sys2Proof.Machine.execSpecFocus r s
  | .specHarvest r => Sys2Proof.Machine.execSpecHarvest r s
  | .specDither r => Sys2Proof.Machine.execSpecDither r s
  | .specStop r => Sys2Proof.Machine.execSpecStop r s
  | .calRun r => Sys2Proof.Machine.execCalRun r s
  | .calStatus r => Sys2Proof.Machine.execCalStatus r s
  | .calApply r => Sys2Proof.Machine.execCalApply r s
  | .calRevert r => Sys2Proof.Machine.execCalRevert r s
  | .calRead r => Sys2Proof.Machine.execCalRead r s
  | .calLimits r => Sys2Proof.Machine.execCalLimits r s
  | .balSet r => Sys2Proof.Machine.execBalSet r s
  | .balStatus r => Sys2Proof.Machine.execBalStatus r s
  | .diagOpenwire r => Sys2Proof.Machine.execDiagOpenwire r s
  | .diagTag r => Sys2Proof.Machine.execDiagTag r s
  | .diagReport r => Sys2Proof.Machine.execDiagReport r s
  | .estConfig r => Sys2Proof.Machine.execEstConfig r s
  | .estRead r => Sys2Proof.Machine.execEstRead r s
  | .estSave r => Sys2Proof.Machine.execEstSave r s
  | .estRestore r => Sys2Proof.Machine.execEstRestore r s
  | .estLearn r => Sys2Proof.Machine.execEstLearn r s
  | .estReset r => Sys2Proof.Machine.execEstReset r s
  | .estHibernate r => Sys2Proof.Machine.execEstHibernate r s
  | .chgLoad r => Sys2Proof.Machine.execChgLoad r s
  | .chgStart r => Sys2Proof.Machine.execChgStart r s
  | .chgStop r => Sys2Proof.Machine.execChgStop r s
  | .chgStatus r => Sys2Proof.Machine.execChgStatus r s
  | .chgGroup r => Sys2Proof.Machine.execChgGroup r s
  | .chgSetpoint r => Sys2Proof.Machine.execChgSetpoint r s
  | .safeConfig r => Sys2Proof.Machine.execSafeConfig r s
  | .safeArm r => Sys2Proof.Machine.execSafeArm r s
  | .safeStatus r => Sys2Proof.Machine.execSafeStatus r s
  | .safeAck r => Sys2Proof.Machine.execSafeAck r s
  | .safeLog r => Sys2Proof.Machine.execSafeLog r s
  | .safeTighten r => Sys2Proof.Machine.execSafeTighten r s
  | .safePasswd r => Sys2Proof.Machine.execSafePasswd r s
  | .tenCreate r => Sys2Proof.Machine.execTenCreate r s
  | .tenDestroy r => Sys2Proof.Machine.execTenDestroy r s
  | .tenGrant r => Sys2Proof.Machine.execTenGrant r s
  | .tenRevoke r => Sys2Proof.Machine.execTenRevoke r s
  | .tenQos r => Sys2Proof.Machine.execTenQos r s
  | .tenReset r => Sys2Proof.Machine.execTenReset r s
  | .tenStatus r => Sys2Proof.Machine.execTenStatus r s
  | .pairConfig r => Sys2Proof.Machine.execPairConfig r s
  | .pairStatus r => Sys2Proof.Machine.execPairStatus r s
  | .pairHandover r => Sys2Proof.Machine.execPairHandover r s
  | .pairUpdate r => Sys2Proof.Machine.execPairUpdate r s
  | .pairLease r => Sys2Proof.Machine.execPairLease r s
  | .hkThermal r => Sys2Proof.Machine.execHkThermal r s
  | .hkWear r => Sys2Proof.Machine.execHkWear r s
  | .hkTrace r => Sys2Proof.Machine.execHkTrace r s
  | .hkRecords r => Sys2Proof.Machine.execHkRecords r s
  | .hkFw r => Sys2Proof.Machine.execHkFw r s
  | .hkBist r => Sys2Proof.Machine.execHkBist r s
  | .chkBind r => Sys2Proof.Machine.execChkBind r s
  | .chkStatus r => Sys2Proof.Machine.execChkStatus r s
  | .sqTailDoorbell fn q tail packets => Sys2Proof.Machine.execSqTailDoorbell fn q tail packets s
  | .cqHeadDoorbell fn q head => Sys2Proof.Machine.execCqHeadDoorbell fn q head s
  | .ringEnable fn q => Sys2Proof.Machine.execRingEnable fn q s
  | .ringDisable fn q => Sys2Proof.Machine.execRingDisable fn q s
  | .eqEnable fn => Sys2Proof.Machine.execEqEnable fn s
  | .eqDisable fn => Sys2Proof.Machine.execEqDisable fn s
  | .eqConsWrite fn cons => Sys2Proof.Machine.execEqConsWrite fn cons s
  | .warmReqWrite value => Sys2Proof.Machine.execWarmReqWrite value s
  | .mgmtMailboxWrite t k value => Sys2Proof.Machine.execMgmtMailboxWrite t k value s
  | .tenantMailboxWrite t k value => Sys2Proof.Machine.execTenantMailboxWrite t k value s
  | .alertStatClear value => Sys2Proof.Machine.execAlertStatClear value s
  | .nvrReqWrite value => Sys2Proof.Machine.execNvrReqWrite value s
  | .regPairLowRead fn off => Sys2Proof.Machine.execRegPairLowRead fn off s
  | .registerWrite fn off value => Sys2Proof.Machine.execRegisterWrite fn off value s
  | .ptmResponse host => Sys2Proof.Machine.execPtmResponse host s
  | .vddAonRemoved => Sys2Proof.Machine.execVddAonRemoved s
  | .vlineBackInRange => Sys2Proof.Machine.execVlineBackInRange s
  | .selvedgeMessageScrcFail pos msgType part => Sys2Proof.Machine.execSelvedgeMessageScrcFail pos msgType part s
  | .chargeSequencerSramError pos => Sys2Proof.Machine.execChargeSequencerSramError pos s
  | .safetyRecordCheckFail record => Sys2Proof.Machine.execSafetyRecordCheckFail record s
  | .perstNRelease => Sys2Proof.Machine.execPerstNRelease s
  | .nvmPartitionsLoaded bad => Sys2Proof.Machine.execNvmPartitionsLoaded bad s
  | .bootImageVerified validA validB => Sys2Proof.Machine.execBootImageVerified validA validB s

end Sys2Proof.Machine
end

