-- ==== Sys2Proof/Safety.lean ====
section
/-! DEFINITION. What a safe run is, in the terms the claims use: the kill line is held whenever the rules ask for it, and what a killed device
sends and drives is off (R320, R321, R344, R467, R478). And the terms in which the claims speak of commands: when a packet is accepted, what its
completion is, and what else has changed (R386, R390, R397). -/

namespace Sys2Proof

open Machine

/-- The kill line is asserted outside `RUN` (R321, R344), after a thermal shutdown is decided (R478), and while a scan is in force (R467). -/
structure KillHeld (s : State) : Prop where
  island : s.safe.island ≠ .run → s.safe.kill = true
  shutdown : s.boot.phase = .shutdown → s.safe.kill = true
  scan : s.boot.scan = true → s.safe.kill = true

/-- Nothing that the safety island drives is on: every SAFE_OUT channel is off. -/
def OutputsOff (s : State) : Prop := ∀ k, outOn s k = false

/-- Every tag is demanded off: drive tags and the bleed switches of cell tags. -/
def TagsOff (s : State) : Prop := ∀ p, safetyOff s p = true

/-- A lockout cause has been taken up (R321, R345): from `RUN` the island is in lockout for it, in lockout it is noted after the causes before
it, and in `START` it waits for the island to leave `START`. Nothing that the island is set to has changed, and no position. -/
structure LocksOut (cause : Nat) (s t : State) : Prop where
  run : s.safe.island = .run → t.safe.island = .lockout ∧ t.safe.kill = true ∧ t.safe.causes = [cause] ∧ t.safe.ackUntil = none
  lockout : s.safe.island = .lockout → t.safe.island = .lockout ∧ cause ∈ t.safe.causes ∧ s.safe.causes <+: t.safe.causes
  start : s.safe.island = .start → t.safe.island = .start ∧ cause ∈ t.safe.startCauses ∧ t.safe.causes = s.safe.causes
  trips : t.safe.trips = s.safe.trips ∧ t.safe.stops = s.safe.stops ∧ t.safe.demand = s.safe.demand ∧ t.safe.latched = s.safe.latched
  config : t.safe.sets = s.safe.sets ∧ t.safe.armed = s.safe.armed ∧ t.safe.assign = s.safe.assign ∧ t.safe.derived = s.safe.derived
    ∧ t.safe.ioEn = s.safe.ioEn ∧ t.safe.inputs = s.safe.inputs
  rest : t.line = s.line ∧ t.time = s.time ∧ t.acc = s.acc ∧ t.cmd = s.cmd

/-! ### Commands -/

/-- The packet is the device's own to serve, as no twin's and in no pair-sequenced form, and no check of R397 stops it. -/
structure Accepted (k : Checks) (r : Req) (s : State) : Prop where
  served : served r s = true
  own : r.twin = false
  first : r.back = false
  here : routeOf k.op r s = .here
  pass : firstFail k r s = none

/-- `t` holds one completion more than `s`: the packet's, with its `CMD_ID`, a status and results, accepted in the pick of `s` (R386). -/
def Completes (r : Req) (status : Nat) (results : List Word) (s t : State) : Prop :=
  ∃ c, t.out.completions = c :: s.out.completions ∧ c.fn = r.fn ∧ c.ring = r.ring ∧ c.cmdId = r.cmdId ∧ c.status = status
    ∧ c.spc = s.spc ∧ c.results = results

/-- `t` with what serving a command writes beside its effect taken from `u`: the trace and the free values it takes, what has been sent, the
completion ring's indices, the vectors, the counts of checks and where a harvest goes on. -/
def apart (u t : State) : State :=
  { t with
    trace := u.trace, fresh := u.fresh, out := u.out
    ten := { t.ten with vecs := u.ten.vecs }
    cmd := { t.cmd with rings := u.cmd.rings, chk := u.cmd.chk, conts := u.cmd.conts } }

/-- `t` is `u` but for what serving a command writes beside its effect. -/
def Only (u t : State) : Prop := apart u t = u

/-- The command was accepted, answers a status with results, and leaves `u` but for what serving a command writes. -/
def Answers (o : Host.Outcome State Fault Refusal) (r : Req) (status : Nat) (results : List Word) (s u : State) : Prop :=
  ∃ t, o = .next t ∧ Completes r status results s t ∧ Only u t

/-- The command was accepted, answers a status with results and one buffer written to `BUF`: its words open with the magic and with version,
class and function, end in the check value of the transfer class's binding, and fit `SIZE`; `P` holds of results and words (R164, R165, R395, R399). -/
def ReportsAs (o : Host.Outcome State Fault Refusal) (r : Req) (status magic cls chk : Nat) (P : List Word → List Word → Prop)
    (s u : State) : Prop :=
  ∃ t res b, o = .next t ∧ Completes r status res s t ∧ P res b.words ∧ Only u t ∧ t.out.buffers = b :: s.out.buffers
    ∧ b.fn = r.fn ∧ b.cmdId = r.cmdId ∧ b.addr = r.buf ∧ b.words.take 2 = [wd magic, wd (0x01000000 + cls * 2 ^ 16 + r.fn)]
    ∧ b.words.length * 4 ≤ 2 ^ r.size ∧ b.words.getLast? = some (checkWord (chkOf s r.fn chk).kind b.words.dropLast)

/-- The same with ST_OK. -/
def Reports (o : Host.Outcome State Fault Refusal) (r : Req) (magic cls chk : Nat) (P : List Word → List Word → Prop) (s u : State) : Prop :=
  ReportsAs o r ST_OK magic cls chk P s u

/-- A harvest of sections answers as `ACC.HARVEST` does, with ST_INTERNAL where a record written carries `RPL` (R129, R165). -/
def Harvests (o : Host.Outcome State Fault Refusal) (r : Req) (magic cls : Nat) (secs : List Section) (s u : State) : Prop :=
  ReportsAs o r (harvestStatus secs (fitSections (2 ^ r.size - 68) secs).written) magic cls 0
    (fun res ws => res.head? = some (wd (ws.length * 4))) s u

/-- The command was accepted, leaves `u` but for what serving a command writes, and its completion is written later (R383, R401). -/
def Defers (o : Host.Outcome State Fault Refusal) (r : Req) (kind : DeferKind) (s u : State) : Prop :=
  ∃ t, o = .next t ∧ t.out.completions = s.out.completions
    ∧ Only { u with cmd := { u.cmd with deferred := u.cmd.deferred ++ [{ kind := kind, ref := reqRef r, accept := s.spc }] } } t

/-- The command was accepted, completes with ST_ACCEPTED and works on: it stands among the unfinished ones of its function, and `u` is its
effect (R391). -/
def Begins (o : Host.Outcome State Fault Refusal) (r : Req) (op obj : Nat) (results : List Word) (s u : State) : Prop :=
  Answers o r ST_ACCEPTED results s (holdUnfinished (reqRef r) op obj u)

/-- `t` holds one change of the island's configuration more than `s`, the packet's, which comes into force at the next multiple of 200 after this
pick; its log entry has the next number (R350, R352). Nothing in force has changed. -/
structure Asked (r : Req) (c : CfgChange) (s t : State) : Prop where
  waits : t.safe.pendingCfg = s.safe.pendingCfg ++ [{ change := c, flip := nextMult 200 (s.spc + 1), cmd := reqRef r }]
  logged : ∃ e l, t.safe.log = e :: l ∧ e.seq = s.safe.logSeq ∧ t.safe.logSeq = s.safe.logSeq + 1
  keeps : t.safe.sets = s.safe.sets ∧ t.safe.armed = s.safe.armed ∧ t.safe.assign = s.safe.assign ∧ t.safe.derived = s.safe.derived
    ∧ t.safe.ioEn = s.safe.ioEn ∧ t.safe.inputs = s.safe.inputs ∧ t.safe.startLocked = s.safe.startLocked
  rest : t.safe.island = s.safe.island ∧ t.safe.trips = s.safe.trips ∧ t.line = s.line ∧ t.time = s.time

/-! ### What units show -/

/-- What a cold reset leaves (R442, R445, R493): the SPC goes on, readiness, rings, chains, lanes, tenants and programs are gone, the kill line is
asserted and the island is in START; `RST_CAUSE` shows the cause. -/
def ClearedByColdReset (bit : Nat) (s t : State) : Prop :=
  t.time.spc = s.time.spc ∧ t.boot.phase = .coldHeld ∧ t.boot.fnReady = 0 ∧ t.safe.kill = true ∧ t.safe.island = .start ∧ t.safe.sets = []
    ∧ t.line = {} ∧ t.lane = {} ∧ t.loom = {} ∧ t.acc = {} ∧ t.spec = {} ∧ t.cal = {} ∧ t.bal = {} ∧ t.est = {} ∧ t.chg = {} ∧ t.ten = {}
    ∧ t.cmd = {} ∧ t.pair = {} ∧ t.map = {} ∧ t.otp = s.otp ∧ t.nvm.coldRun = s.nvm.coldRun ∧ t.boot.rstCause.getLsbD bit = true

/-- Distance between the settings of a lane end: the transmit taps, the peaking, the gain and the sixteen DFE taps (R222). -/
def SettingsApart (a b : LaneSet) : Nat :=
  ((List.range 5).map (fun i => (geti a.taps i - geti b.taps i).natAbs)).sum + ((a.ctle : Int) - b.ctle).natAbs
    + ((a.vga : Int) - b.vga).natAbs + ((List.range 16).map (fun i => (geti a.dfe i - geti b.dfe i).natAbs)).sum

/-- The state in which an `EST` command of an awake function runs: the 60 s to hibernation start again (R275). -/
def Noticed (r : Req) (s : State) : State := modFn r.fn (fun x => { x with lastCmd := s.time.spc, asked := false }) s

/-- What a change of the island's configuration has brought about (R325, R348, R354). What it asks of a base set that an earlier flip has
deleted comes to nothing (log 41). -/
def Changed (c : CfgChange) (u : SafeUnit) : Prop :=
  match c with
  | .writeSet w => tget u.sets w.num = some w
  | .assign none ps => ∀ p ∈ ps, tget u.assign p = none
  | .assign (some n) ps => thas u.sets n = true → ∀ p ∈ ps, tget u.assign p = some n
  | .io en ins => u.ioEn = en ∧ u.inputs = ins
  | .release base (some c) => tget u.derived (derivedKey c base) = none
  | .release base none => ∀ k, k % 4096 = base → tget u.derived k = none
  | .delete n => tget u.sets n = none
  | .settings b => u.startLocked = b
  | .arm n on => (n ∈ u.armed ↔ on = true ∧ thas u.sets n = true)
  | .tighten base c d => thas u.sets base = true → tget u.derived (derivedKey c base) = some d

/-- Nothing has changed but the charge sequencer, and there only drive tag `d`. -/
def OnlyDrive (d : Nat) (s t : State) : Prop :=
  (∀ q, q ≠ d → driveRec t q = driveRec s q) ∧ { t with chg := s.chg } = s

/-- What receiving an up lane frame of a type brings to its lane: a frame that fails its header is counted, and the lane takes it for the pick after
the last; a frame that checks gives the bridge's identity, its epoch, whether it gives timing, and the lane's last pick (R83, R94, R95). -/
def HeardUp (ltype : Nat) (f : UpFrame) (s : State) (o : Host.Outcome State Fault Refusal) : Prop :=
  let x := laneOf s f.lane
  (headerOk f.header ltype = false →
      ∃ t, o = .next t ∧ (laneOf t f.lane).lhcrcErr = sat32 (x.lhcrcErr + 1)
        ∧ (laneOf t f.lane).badFrames = (if f.subs.any subOk then 0 else x.badFrames + 1) ∧ (laneOf t f.lane).lastPick = x.lastPick + 1
        ∧ (laneOf t f.lane).peerUid = x.peerUid ∧ (laneOf t f.lane).epoch = x.epoch ∧ (laneOf t f.lane).lstate = x.lstate
        ∧ (∀ l, l ≠ f.lane → laneOf t l = laneOf s l) ∧ t.time = s.time)
    ∧ (headerOk f.header ltype = true →
        ∃ t, o = .next t ∧ (laneOf t f.lane).lhcrcErr = x.lhcrcErr ∧ (laneOf t f.lane).badFrames = 0
          ∧ (laneOf t f.lane).peerUid = fieldOf f.header 96 64 ∧ (laneOf t f.lane).epoch = fieldOf f.header 64 32
          ∧ (laneOf t f.lane).stale = flagOf f.header 171 ∧ (laneOf t f.lane).timing = flagOf f.header 169 ∧ (laneOf t f.lane).lstate = x.lstate
          ∧ (∀ fp, extend (fieldOf f.header 32 32) s.time.spc = some fp → (laneOf t f.lane).lastPick = fp)
          ∧ (tailOk f = true → extend (fieldOf f.header 32 32) s.time.spc ≠ none → (laneOf t f.lane).lease = f.lease)
          ∧ (∀ l, l ≠ f.lane → laneOf t l = laneOf s l) ∧ t.time = s.time)

/-- A live block of a frame that checks, of a position of a chain in normal mode that is not lost, stands in the bolt as the lane brought it (R94). -/
def FilesLive (ltype : Nat) (f : UpFrame) (s : State) (o : Host.Outcome State Fault Refusal) : Prop :=
  ∀ (b : SubBlock) (fp i : Nat) (x : BitVec 520),
    let c := chainKey (placeLane s f.lane) b.place
    let p := c * 8 + i
    headerOk f.header ltype = true → extend (fieldOf f.header 32 32) s.time.spc = some fp → f.subs = [b] → subOk b = true → f.entries = [] →
    fp = (laneOf s f.lane).lastPick + 1 → (laneOf s f.lane).mode ≠ 1 → (chainOf s c).mode = .normal → (chainOf s c).occ = [i] →
    fieldOf b.header 8 3 = 0 → (List.range 8).filter (fun k => fieldOf b.header (18 - k) 1 == 1) = [i] → b.blocks[i]? = some x → fieldOf x 1 2 = 0 →
    (posOf s p).state ≠ .lost → boltAt s p (fp - 1) = none → inBolt s (fp - 1) = true →
    ∃ t e, o = .next t ∧ boltAt t p (fp - 1) = some e ∧ e.bstate = .live ∧ e.filled = false ∧ e.payload = BitVec.ofNat 512 (fieldOf x 8 512)
      ∧ (laneOf t f.lane).lastPick = fp ∧ (chainOf t c).mode = .normal ∧ t.time = s.time

/-- A message of the pair channel is accepted: a paired device that holds the key takes authentic messages in sequence (R423, R467). -/
structure Heard (m : PairMsg) (s : State) : Prop where
  up : s.up = true
  paired : s.pair.role ≠ .single
  key : s.pair.key = true
  authentic : m.authentic = true
  next : m.mseq = (s.pair.lastSeq + 1) % 2 ^ 32

end Sys2Proof
end

