-- ==== Sys2Proof/WellFormed.lean ====
section
/-! DEFINITION. Well-formed commands: every field within the range its place on the hardware can hold. A flaw is named for each check. -/

namespace Sys2Proof

/-- What can be wrong with a command's operands: each names a field that is wider than the hardware's. -/
inductive Flaw where
  /-- A function code above 0x100 (R356). -/
  | function
  /-- A tenant above 255, or more than 256 VFs. -/
  | tenant
  /-- A ring above 15 (R384). -/
  | ring
  /-- `SIZE` above 8 bits, or reserved bits above 6 (R387). -/
  | size
  /-- `BUF` above 64 bits. -/
  | buffer
  /-- More than the eleven parameter words of a packet. -/
  | words
  /-- An opcode above 16 bits. -/
  | opcode
  /-- A status above 16 bits. -/
  | status
  /-- A chain word above 16 bits (R398). -/
  | chain
  /-- A position above 19 bits, a channel index above 23 bits (R140). -/
  | position
  | channel
  /-- A lane that is neither a bridge lane 0 to 127 nor a twin lane 0x100 to 0x107 (R503). -/
  | lane
  | twinLane
  /-- A place of a chain sub-block above 255 (R82). -/
  | subBlock
  /-- A hop count above the four bits of `HOP` (R41). -/
  | hop
  /-- A pin of a local port, a safety line, a mailbox, a vector, a cell of a CT12, a housekeeping position beyond those there are. -/
  | port
  | line
  | mailbox
  | vector
  | cell
  | housekeeping
  /-- A unit class or number above 8 bits (R451). -/
  | unit
  /-- A register offset above 24 bits; a ring or queue index above its doorbell's field. -/
  | offset
  | index
  /-- A message word above 32 bits. -/
  | word
  deriving DecidableEq, Repr

/-- The flaw when a value reaches its bound. -/
def above (f : Flaw) (bound x : Nat) : List Flaw := if x < bound then [] else [f]

/-- The flaw of a lane number. -/
def laneFlaws (l : Nat) : List Flaw := if l < 128 ∨ (0x100 ≤ l ∧ l < 0x108) then [] else [.lane]

/-- The flaws of an up lane frame: its lane, and the places of its sub-blocks (R82). -/
def UpFrame.flaws (f : UpFrame) : List Flaw := laneFlaws f.lane ++ f.subs.flatMap (fun b => above .subBlock 256 b.place)

/-- The flaws of a command packet's fields. -/
def Req.flaws (r : Req) : List Flaw :=
  above .function 257 r.fn ++ above .ring 16 r.ring ++ above .size 256 r.size ++ above .size 64 r.resv ++ above .buffer (2 ^ 64) r.buf
    ++ above .words 12 r.w.length ++ above .word (2 ^ 32) r.mseq

/-- The flaws of a command. -/
def Instr.flaws (i : Instr) : List Flaw :=
  match i with
  | .vddAonApplied => []
  | .coldReset => []
  | .supplyMonitorTrip rail => above .housekeeping 24 rail
  | .coldRstRelease => []
  | .bistUnitDone cls unit _ => above .unit 256 cls ++ above .unit 256 unit
  | .trialBootDeadline => []
  | .trialBootPassed => []
  | .mgmtCoreWatchdog => []
  | .warmResetRecognised => []
  | .pcieReset _ => []
  | .functionLevelReset vf => above .tenant 256 vf
  | .vfEnableCleared _ numVfs => above .tenant 257 numVfs
  | .wakeNFall => []
  | .safeRstNPulse _ => []
  | .ackWindowExpiry => []
  | .safeInDemand k _ _ => above .line 8 k
  | .safeInRelease k => above .line 8 k
  | .safeInDiscrepancy k => above .line 8 k
  | .safeOutTestPulse k _ _ => above .line 8 k
  | .outFb k _ _ => above .line 8 k
  | .refclkLoss => []
  | .refclkRelock _ => []
  | .clockMonitorFault => []
  | .safetyCoreFault => []
  | .islandWatchdogExpiry => []
  | .islandSupplyFault => []
  | .scanInstruction _ => []
  | .zeroisationDone => []
  | .testLogicReset => []
  | .vlineOutOfRange => []
  | .portOvercurrent t => above .port 32 t.port
  | .pickBoundary => []
  | .chainFrameRx f => above .chain (2 ^ 16) f.chain
  | .resendAgeExpiry pos _ _ => above .position (2 ^ 19) pos
  | .ringBreakDeclared chain _ _ => above .chain (2 ^ 16) chain
  | .hopFault chain _ => above .chain (2 ^ 16) chain
  | .positionLost pos => above .position (2 ^ 19) pos
  | .identityRx pos _ => above .position (2 ^ 19) pos
  | .coefRx pos _ => above .position (2 ^ 19) pos
  | .tagStatusRx pos _ => above .position (2 ^ 19) pos
  | .selvedgeDownPeriod => []
  | .chainEnumPicks chain hops _ => above .chain (2 ^ 16) chain ++ hops.flatMap (fun h => above .hop 16 (h.getD 0))
  | .openRingDetected chain a b _ => above .chain (2 ^ 16) chain ++ (a ++ b).flatMap (fun h => above .hop 16 (h.getD 0))
  | .positionReleased pos => above .position (2 ^ 19) pos
  | .parkCarrierOff chain => above .chain (2 ^ 16) chain
  | .unwrapBoundary chain _ _ => above .chain (2 ^ 16) chain
  | .upLaneFrameRx f => UpFrame.flaws f
  | .pickFinalGap _ => []
  | .laneFailed lane _ => laneFlaws lane
  | .laneDegraded r => laneFlaws r.lane
  | .lanePhaseComplete lane _ => laneFlaws lane
  | .laneAdaptStep lane _ _ => laneFlaws lane
  | .twinForwardFrameRx tl f => above .twinLane 8 tl ++ UpFrame.flaws f
  | .twinBackfillFrameRx tl f => above .twinLane 8 tl ++ UpFrame.flaws f
  | .relayDownFrameRx tl f => above .twinLane 8 tl ++ laneFlaws f.lane
  | .forwardingControlWord _ => []
  | .heartbeat h _ => above .word (2 ^ 32) h.mseq
  | .mirror m _ op r => above .word (2 ^ 32) m.mseq ++ above .opcode (2 ^ 16) op ++ Req.flaws r
  | .mirrorAck m => above .word (2 ^ 32) m.mseq
  | .seqState m _ _ => above .word (2 ^ 32) m.mseq
  | .safeState m _ _ _ _ => above .word (2 ^ 32) m.mseq
  | .demand m _ => above .word (2 ^ 32) m.mseq
  | .yield m => above .word (2 ^ 32) m.mseq
  | .handover m => above .word (2 ^ 32) m.mseq
  | .resync m _ => above .word (2 ^ 32) m.mseq
  | .image m => above .word (2 ^ 32) m.mseq
  | .localFault m => above .word (2 ^ 32) m.mseq
  | .pairMessageResend => []
  | .twinLinkLost => []
  | .twinLinkRestored => []
  | .leaseAssessment => []
  | .demotionBoundary => []
  | .handoverPick => []
  | .refclkOffsetOut _ => []
  | .refclkOffsetBack _ => []
  | .pairFormationTimeout => []
  | .resyncComplete => []
  | .pairUpdateStepDone _ _ => []
  | .liveSampleIssue pos _ => above .position (2 ^ 19) pos
  | .blindTimeout chi => above .channel (2 ^ 23) chi
  | .settledSampleRelease pos _ => above .position (2 ^ 19) pos
  | .deltaReplay _ _ => []
  | .dwellValueFinal chi _ => above .channel (2 ^ 23) chi
  | .primarySampleFinal chi _ => above .channel (2 ^ 23) chi
  | .sramEccError chi => above .channel (2 ^ 23) chi
  | .hbmEccError _ => []
  | .tileFault _ => []
  | .spareRebuildDone _ => []
  | .tripReanalysisStart fn _ => above .function 257 fn
  | .tripReanalysisDone fn _ => above .function 257 fn
  | .standardIntervalCommit _ _ => []
  | .userIntervalCommit fn _ => above .function 257 fn
  | .hkSlotValueFinal h _ _ => above .housekeeping 24 h
  | .hkRoundDecision => []
  | .shutdownPowerGate => []
  | .heldColdResetProceeds => []
  | .wearDailySample _ => []
  | .wearCounterWrite => []
  | .estimatorStep chi _ => above .channel (2 ^ 23) chi
  | .synthAnchorDue chi => above .channel (2 ^ 23) chi
  | .hibernateEntry fn => above .function 257 fn
  | .anchorPass fn => above .function 257 fn
  | .spectralRound _ => []
  | .loopTick => []
  | .inrushWindowEnd pos => above .position (2 ^ 19) pos
  | .setpointTtlExpiry pos => above .position (2 ^ 19) pos
  | .groupSearch => []
  | .relaxationSetComplete pos => above .position (2 ^ 19) pos
  | .balanceFrameBoundary => []
  | .balanceTtlExpiry pos cell => above .position (2 ^ 19) pos ++ above .cell 12 cell
  | .openWireResult pos _ => above .position (2 ^ 19) pos
  | .passiveClassification pos _ => above .position (2 ^ 19) pos
  | .calRunFinish fn _ _ => above .function 257 fn
  | .calFlip chain => above .chain (2 ^ 16) chain
  | .calSlewStep chi => above .channel (2 ^ 23) chi
  | .calCandidateExpiry fn _ => above .function 257 fn
  | .calLaneRunFinish lane _ => laneFlaws lane
  | .mapBuildComplete => []
  | .mapFlip => []
  | .safetyConfigFlip => []
  | .safeStartTestDone _ => []
  | .passwordSuspensionEnd => []
  | .ownerChange chain => above .chain (2 ^ 16) chain
  | .tenantResetEffect t => above .tenant 256 t
  | .tenantResetComplete t => above .tenant 256 t
  | .eventWriterRound => []
  | .moderationExpiry fn vector => above .function 257 fn ++ above .vector 256 vector
  | .commandDispatchRound _ => []
  | .longCommandFinish fn ring _ status => above .function 257 fn ++ above .ring 16 ring ++ above .status (2 ^ 16) status
  | .fwStagingDone _ _ => []
  | .bistRunDone _ => []
  | .nvrReadDone => []
  | .devInfo r => Req.flaws r
  | .devReady r => Req.flaws r
  | .devCaps r => Req.flaws r
  | .devTime r => Req.flaws r
  | .devNop r => Req.flaws r
  | .chainPower r => Req.flaws r
  | .chainEnum r => Req.flaws r
  | .chainStatus r => Req.flaws r
  | .chainPark r => Req.flaws r
  | .chainWake r => Req.flaws r
  | .chainSelvRead r => Req.flaws r
  | .chainSelvWrite r => Req.flaws r
  | .chainReset r => Req.flaws r
  | .laneUp r => Req.flaws r
  | .laneStatus r => Req.flaws r
  | .lanePair r => Req.flaws r
  | .laneEye r => Req.flaws r
  | .laneDown r => Req.flaws r
  | .bridgeStatus r => Req.flaws r
  | .mapBind r => Req.flaws r
  | .mapCommit r => Req.flaws r
  | .mapRead r => Req.flaws r
  | .mapRange r => Req.flaws r
  | .accOpen r => Req.flaws r
  | .accClose r => Req.flaws r
  | .accHarvest r => Req.flaws r
  | .accApsisReset r => Req.flaws r
  | .accStatus r => Req.flaws r
  | .specConfig r => Req.flaws r
  | .specFocus r => Req.flaws r
  | .specHarvest r => Req.flaws r
  | .specDither r => Req.flaws r
  | .specStop r => Req.flaws r
  | .calRun r => Req.flaws r
  | .calStatus r => Req.flaws r
  | .calApply r => Req.flaws r
  | .calRevert r => Req.flaws r
  | .calRead r => Req.flaws r
  | .calLimits r => Req.flaws r
  | .balSet r => Req.flaws r
  | .balStatus r => Req.flaws r
  | .diagOpenwire r => Req.flaws r
  | .diagTag r => Req.flaws r
  | .diagReport r => Req.flaws r
  | .estConfig r => Req.flaws r
  | .estRead r => Req.flaws r
  | .estSave r => Req.flaws r
  | .estRestore r => Req.flaws r
  | .estLearn r => Req.flaws r
  | .estReset r => Req.flaws r
  | .estHibernate r => Req.flaws r
  | .chgLoad r => Req.flaws r
  | .chgStart r => Req.flaws r
  | .chgStop r => Req.flaws r
  | .chgStatus r => Req.flaws r
  | .chgGroup r => Req.flaws r
  | .chgSetpoint r => Req.flaws r
  | .safeConfig r => Req.flaws r
  | .safeArm r => Req.flaws r
  | .safeStatus r => Req.flaws r
  | .safeAck r => Req.flaws r
  | .safeLog r => Req.flaws r
  | .safeTighten r => Req.flaws r
  | .safePasswd r => Req.flaws r
  | .tenCreate r => Req.flaws r
  | .tenDestroy r => Req.flaws r
  | .tenGrant r => Req.flaws r
  | .tenRevoke r => Req.flaws r
  | .tenQos r => Req.flaws r
  | .tenReset r => Req.flaws r
  | .tenStatus r => Req.flaws r
  | .pairConfig r => Req.flaws r
  | .pairStatus r => Req.flaws r
  | .pairHandover r => Req.flaws r
  | .pairUpdate r => Req.flaws r
  | .pairLease r => Req.flaws r
  | .hkThermal r => Req.flaws r
  | .hkWear r => Req.flaws r
  | .hkTrace r => Req.flaws r
  | .hkRecords r => Req.flaws r
  | .hkFw r => Req.flaws r
  | .hkBist r => Req.flaws r
  | .chkBind r => Req.flaws r
  | .chkStatus r => Req.flaws r
  | .sqTailDoorbell fn q tail packets => above .function 257 fn ++ above .ring 16 q ++ above .index (2 ^ 13) tail ++ (packets.flatMap fun p => above .opcode (2 ^ 16) p.op ++ Req.flaws p.req)
  | .cqHeadDoorbell fn q head => above .function 257 fn ++ above .ring 16 q ++ above .index (2 ^ 13) head
  | .ringEnable fn q => above .function 257 fn ++ above .ring 16 q
  | .ringDisable fn q => above .function 257 fn ++ above .ring 16 q
  | .eqEnable fn => above .function 257 fn
  | .eqDisable fn => above .function 257 fn
  | .eqConsWrite fn cons => above .function 257 fn ++ above .index (2 ^ 17) cons
  | .warmReqWrite _ => []
  | .mgmtMailboxWrite t k _ => above .tenant 256 t ++ above .mailbox 8 k
  | .tenantMailboxWrite t k _ => above .tenant 256 t ++ above .mailbox 8 k
  | .alertStatClear _ => []
  | .nvrReqWrite _ => []
  | .regPairLowRead fn off => above .function 258 fn ++ above .offset (2 ^ 24) off
  | .registerWrite fn off _ => above .function 258 fn ++ above .offset (2 ^ 24) off
  | .ptmResponse _ => []
  | .vddAonRemoved => []
  | .vlineBackInRange => []
  | .selvedgeMessageScrcFail pos _ _ => above .position (2 ^ 19) pos
  | .chargeSequencerSramError pos => above .position (2 ^ 19) pos
  | .safetyRecordCheckFail _ => []
  | .perstNRelease => []
  | .nvmPartitionsLoaded _ => []
  | .bootImageVerified _ _ => []

/-- A command is well formed when it has no flaw. -/
def Instr.wf (i : Instr) : Bool := i.flaws.isEmpty

/-- The packet of a host command; none for what is no host command. -/
def Instr.request (i : Instr) : Option Req :=
  match i with
  | .vddAonApplied => none
  | .coldReset => none
  | .supplyMonitorTrip _ => none
  | .coldRstRelease => none
  | .bistUnitDone _ _ _ => none
  | .trialBootDeadline => none
  | .trialBootPassed => none
  | .mgmtCoreWatchdog => none
  | .warmResetRecognised => none
  | .pcieReset _ => none
  | .functionLevelReset _ => none
  | .vfEnableCleared _ _ => none
  | .wakeNFall => none
  | .safeRstNPulse _ => none
  | .ackWindowExpiry => none
  | .safeInDemand _ _ _ => none
  | .safeInRelease _ => none
  | .safeInDiscrepancy _ => none
  | .safeOutTestPulse _ _ _ => none
  | .outFb _ _ _ => none
  | .refclkLoss => none
  | .refclkRelock _ => none
  | .clockMonitorFault => none
  | .safetyCoreFault => none
  | .islandWatchdogExpiry => none
  | .islandSupplyFault => none
  | .scanInstruction _ => none
  | .zeroisationDone => none
  | .testLogicReset => none
  | .vlineOutOfRange => none
  | .portOvercurrent _ => none
  | .pickBoundary => none
  | .chainFrameRx _ => none
  | .resendAgeExpiry _ _ _ => none
  | .ringBreakDeclared _ _ _ => none
  | .hopFault _ _ => none
  | .positionLost _ => none
  | .identityRx _ _ => none
  | .coefRx _ _ => none
  | .tagStatusRx _ _ => none
  | .selvedgeDownPeriod => none
  | .chainEnumPicks _ _ _ => none
  | .openRingDetected _ _ _ _ => none
  | .positionReleased _ => none
  | .parkCarrierOff _ => none
  | .unwrapBoundary _ _ _ => none
  | .upLaneFrameRx _ => none
  | .pickFinalGap _ => none
  | .laneFailed _ _ => none
  | .laneDegraded _ => none
  | .lanePhaseComplete _ _ => none
  | .laneAdaptStep _ _ _ => none
  | .twinForwardFrameRx _ _ => none
  | .twinBackfillFrameRx _ _ => none
  | .relayDownFrameRx _ _ => none
  | .forwardingControlWord _ => none
  | .heartbeat _ _ => none
  | .mirror _ _ _ _ => none
  | .mirrorAck _ => none
  | .seqState _ _ _ => none
  | .safeState _ _ _ _ _ => none
  | .demand _ _ => none
  | .yield _ => none
  | .handover _ => none
  | .resync _ _ => none
  | .image _ => none
  | .localFault _ => none
  | .pairMessageResend => none
  | .twinLinkLost => none
  | .twinLinkRestored => none
  | .leaseAssessment => none
  | .demotionBoundary => none
  | .handoverPick => none
  | .refclkOffsetOut _ => none
  | .refclkOffsetBack _ => none
  | .pairFormationTimeout => none
  | .resyncComplete => none
  | .pairUpdateStepDone _ _ => none
  | .liveSampleIssue _ _ => none
  | .blindTimeout _ => none
  | .settledSampleRelease _ _ => none
  | .deltaReplay _ _ => none
  | .dwellValueFinal _ _ => none
  | .primarySampleFinal _ _ => none
  | .sramEccError _ => none
  | .hbmEccError _ => none
  | .tileFault _ => none
  | .spareRebuildDone _ => none
  | .tripReanalysisStart _ _ => none
  | .tripReanalysisDone _ _ => none
  | .standardIntervalCommit _ _ => none
  | .userIntervalCommit _ _ => none
  | .hkSlotValueFinal _ _ _ => none
  | .hkRoundDecision => none
  | .shutdownPowerGate => none
  | .heldColdResetProceeds => none
  | .wearDailySample _ => none
  | .wearCounterWrite => none
  | .estimatorStep _ _ => none
  | .synthAnchorDue _ => none
  | .hibernateEntry _ => none
  | .anchorPass _ => none
  | .spectralRound _ => none
  | .loopTick => none
  | .inrushWindowEnd _ => none
  | .setpointTtlExpiry _ => none
  | .groupSearch => none
  | .relaxationSetComplete _ => none
  | .balanceFrameBoundary => none
  | .balanceTtlExpiry _ _ => none
  | .openWireResult _ _ => none
  | .passiveClassification _ _ => none
  | .calRunFinish _ _ _ => none
  | .calFlip _ => none
  | .calSlewStep _ => none
  | .calCandidateExpiry _ _ => none
  | .calLaneRunFinish _ _ => none
  | .mapBuildComplete => none
  | .mapFlip => none
  | .safetyConfigFlip => none
  | .safeStartTestDone _ => none
  | .passwordSuspensionEnd => none
  | .ownerChange _ => none
  | .tenantResetEffect _ => none
  | .tenantResetComplete _ => none
  | .eventWriterRound => none
  | .moderationExpiry _ _ => none
  | .commandDispatchRound _ => none
  | .longCommandFinish _ _ _ _ => none
  | .fwStagingDone _ _ => none
  | .bistRunDone _ => none
  | .nvrReadDone => none
  | .devInfo r => some r
  | .devReady r => some r
  | .devCaps r => some r
  | .devTime r => some r
  | .devNop r => some r
  | .chainPower r => some r
  | .chainEnum r => some r
  | .chainStatus r => some r
  | .chainPark r => some r
  | .chainWake r => some r
  | .chainSelvRead r => some r
  | .chainSelvWrite r => some r
  | .chainReset r => some r
  | .laneUp r => some r
  | .laneStatus r => some r
  | .lanePair r => some r
  | .laneEye r => some r
  | .laneDown r => some r
  | .bridgeStatus r => some r
  | .mapBind r => some r
  | .mapCommit r => some r
  | .mapRead r => some r
  | .mapRange r => some r
  | .accOpen r => some r
  | .accClose r => some r
  | .accHarvest r => some r
  | .accApsisReset r => some r
  | .accStatus r => some r
  | .specConfig r => some r
  | .specFocus r => some r
  | .specHarvest r => some r
  | .specDither r => some r
  | .specStop r => some r
  | .calRun r => some r
  | .calStatus r => some r
  | .calApply r => some r
  | .calRevert r => some r
  | .calRead r => some r
  | .calLimits r => some r
  | .balSet r => some r
  | .balStatus r => some r
  | .diagOpenwire r => some r
  | .diagTag r => some r
  | .diagReport r => some r
  | .estConfig r => some r
  | .estRead r => some r
  | .estSave r => some r
  | .estRestore r => some r
  | .estLearn r => some r
  | .estReset r => some r
  | .estHibernate r => some r
  | .chgLoad r => some r
  | .chgStart r => some r
  | .chgStop r => some r
  | .chgStatus r => some r
  | .chgGroup r => some r
  | .chgSetpoint r => some r
  | .safeConfig r => some r
  | .safeArm r => some r
  | .safeStatus r => some r
  | .safeAck r => some r
  | .safeLog r => some r
  | .safeTighten r => some r
  | .safePasswd r => some r
  | .tenCreate r => some r
  | .tenDestroy r => some r
  | .tenGrant r => some r
  | .tenRevoke r => some r
  | .tenQos r => some r
  | .tenReset r => some r
  | .tenStatus r => some r
  | .pairConfig r => some r
  | .pairStatus r => some r
  | .pairHandover r => some r
  | .pairUpdate r => some r
  | .pairLease r => some r
  | .hkThermal r => some r
  | .hkWear r => some r
  | .hkTrace r => some r
  | .hkRecords r => some r
  | .hkFw r => some r
  | .hkBist r => some r
  | .chkBind r => some r
  | .chkStatus r => some r
  | .sqTailDoorbell _ _ _ _ => none
  | .cqHeadDoorbell _ _ _ => none
  | .ringEnable _ _ => none
  | .ringDisable _ _ => none
  | .eqEnable _ => none
  | .eqDisable _ => none
  | .eqConsWrite _ _ => none
  | .warmReqWrite _ => none
  | .mgmtMailboxWrite _ _ _ => none
  | .tenantMailboxWrite _ _ _ => none
  | .alertStatClear _ => none
  | .nvrReqWrite _ => none
  | .regPairLowRead _ _ => none
  | .registerWrite _ _ _ => none
  | .ptmResponse _ => none
  | .vddAonRemoved => none
  | .vlineBackInRange => none
  | .selvedgeMessageScrcFail _ _ _ => none
  | .chargeSequencerSramError _ => none
  | .safetyRecordCheckFail _ => none
  | .perstNRelease => none
  | .nvmPartitionsLoaded _ => none
  | .bootImageVerified _ _ => none

end Sys2Proof
end

