-- ==== Sys2Proof/Certificates/Slice0/Obligations.lean ====
section
/-! DEFINITION. The statements for the provers. Each is about every state and operand that its premises admit; a statement that rests on a
choice of the model says so and names the log entry. -/

open Sys2Proof Sys2Proof.Machine

/-! ### The block -/

/-- A step runs the command at the front of the queue on the state with the queue's rest; an empty queue leaves the state as it is (the
model's choice, log 20). -/
def Obligations.StepRunsFront : Prop :=
  (∀ (c : Instr) (l : List Instr) (s : State), s.pending = c :: l → step s = exec c { s with pending := l })
    ∧ ∀ s : State, s.pending = [] → step s = .next s

/-- No command changes the queue of the commands that wait. -/
def Obligations.QueueKept : Prop := ∀ (c : Instr) (s t : State), exec c s = .next t → t.pending = s.pending

/-- The SPC starts at 0 when VDD_AON is applied and counts by one at every pick boundary in every state of the device; removal of VDD_AON
alone ends it; no command packet, no register write and no row but these moves it, the meeting of a pair apart, whose companion or later
clock adopts the pair's SPC (R20, R21). -/
def Obligations.SpcCounts : Prop :=
  (∀ s : State, ∃ t, exec .vddAonApplied s = .next t ∧ t.time.spc = 0 ∧ t.time.powered = true)
    ∧ (∀ s : State, s.time.powered = true →
        ∃ t, exec .pickBoundary s = .next t ∧ t.time.spc = s.time.spc + 1 ∧ t.time.powered = true ∧ t.pending = s.pending)
    ∧ (∀ s : State, (∃ t, exec .vddAonRemoved s = .next t ∧ t.time.powered = false)
        ∧ (s.time.powered = false → exec .pickBoundary s = .next s))
    ∧ ∀ (c : Instr) (s t : State), exec c s = .next t → c ≠ .pickBoundary → c ≠ .vddAonApplied → c ≠ .vddAonRemoved →
        t.time.powered = s.time.powered ∧ ((∀ h peer, c ≠ .heartbeat h peer) → t.time.spc = s.time.spc)

/-- The kill line stays asserted where the rules ask for it, through every step (R321, R344, R467, R478). -/
def Obligations.KillLineInvariant : Prop := ∀ s t : State, KillHeld s → step s = .next t → KillHeld t

/-- Reset meets the invariant of the kill line; the SPC is 0, the island is in START with the kill line asserted, COLD_RST_N is low, and no
`FN_READY` bit is set. -/
def Obligations.ResetSafe : Prop :=
  KillHeld State.reset ∧ State.reset.time.spc = 0 ∧ State.reset.safe.island = .start ∧ State.reset.safe.kill = true
    ∧ State.reset.boot.phase = .coldHeld ∧ State.reset.boot.fnReady = 0 ∧ State.reset.pending = []

/-! ### Power and resets -/

/-- VDD_AON applied is a power-on reset: every field is at its reset value but OTP, NVM and what the model itself keeps; removal ends the SPC
and every state of the device (R20, R442). Release of cold reset starts the device where REFCLK is present: `COLD_RUN` is incremented, and
`AON_RUN` at the first release after VDD_AON (R448); without REFCLK it waits in reset, and starts at a boundary with REFCLK back (R470). A
PCIe reset takes the link down and clears SR-IOV, its release takes the link up (R444, R450, R493). -/
def Obligations.PowerAndLink : Prop :=
  (∀ s : State,
    (∃ t, exec .vddAonApplied s = .next t
      ∧ t = { State.reset with otp := s.otp, nvm := t.nvm, out := s.out, pending := s.pending, fresh := s.fresh }
      ∧ t.nvm.aonRun = s.nvm.aonRun ∧ t.nvm.coldRun = s.nvm.coldRun ∧ t.nvm.zero = s.nvm.zero ∧ t.nvm.fences = s.nvm.fences)
    ∧ ∃ t, exec .vddAonRemoved s = .next t
      ∧ t = { State.reset with
          time := { powered := false }, otp := s.otp, nvm := t.nvm, boot := { phase := .off }, out := s.out, pending := s.pending
          fresh := s.fresh }
      ∧ t.nvm.aonRun = s.nvm.aonRun ∧ t.nvm.coldRun = s.nvm.coldRun ∧ t.nvm.zero = s.nvm.zero ∧ t.nvm.fences = s.nvm.fences)
    ∧ ((∀ s : State, s.boot.phase = .coldHeld → s.time.refclkOk = true →
      ∃ t, exec .coldRstRelease s = .next t ∧ t.boot.phase = .running ∧ t.time.spc = s.time.spc ∧ t.nvm.coldRun = s.nvm.coldRun + 1
        ∧ t.nvm.aonRun = s.nvm.aonRun + (if s.boot.aonCounted then 0 else 1) ∧ t.boot.aonCounted = true ∧ t.boot.releasedAt = s.time.spc)
    ∧ (∀ s : State, s.boot.phase = .coldHeld → s.time.refclkOk = false →
        exec .coldRstRelease s = .next { s with boot := { s.boot with releaseWaits := true } })
    ∧ (∀ s : State, s.time.powered = true → s.boot.phase = .coldHeld → s.boot.releaseWaits = true → s.time.refclkOk = true → s.time.heldOver = [] →
        ∃ t, exec .pickBoundary s = .next t ∧ t.boot.phase = .running ∧ t.time.spc = s.time.spc + 1 ∧ t.nvm.coldRun = s.nvm.coldRun + 1
          ∧ t.boot.releaseWaits = false ∧ t.boot.releasedAt = s.time.spc + 1)
    ∧ (∀ (kind : PcieResetKind) (s : State), s.boot.phase ≠ .off →
        ∃ t, exec (.pcieReset kind) s = .next t ∧ t.boot.linkUp = false ∧ t.time.ptm = none ∧ t.boot.phase = s.boot.phase
          ∧ t.time.spc = s.time.spc ∧ t.ten.vfEnable = false ∧ t.ten.numVfs = 0)
    ∧ ∀ s : State, s.boot.phase ≠ .off → s.boot.phase ≠ .shutdown →
        ∃ t, exec .perstNRelease s = .next t ∧ t.boot.linkUp = true ∧ t.boot.phase = s.boot.phase ∧ t.time.spc = s.time.spc)

/-- COLD_RST_N and a supply monitor cold-reset a running device, a held reset proceeds below 108.0 °C; a warm reset clears the same units but
keeps the fence map, and both run counts follow R448. -/
def Obligations.Resets : Prop :=
  (∀ s : State, s.boot.phase = .running → ∃ t, exec .coldReset s = .next t ∧ ClearedByColdReset 1 s t)
    ∧ (∀ (rail : Nat) (s : State), 3 ≤ rail → rail ≤ 19 → rail ≠ 9 → s.boot.phase = .running →
        ∃ t, exec (.supplyMonitorTrip rail) s = .next t ∧ ClearedByColdReset 2 s t)
    ∧ (∀ (x : Int) (s : State), s.boot.phase = .shutdown → s.boot.heldCold = true → s.therm.reading = some x → x < 108000 →
        ∃ t, exec .heldColdResetProceeds s = .next t ∧ ClearedByColdReset 1 s t)
    ∧ ∀ (bit : Nat) (s : State), s.boot.phase = .running → s.boot.warmReq = some bit → bit < 9 →
        ∃ t, exec .warmResetRecognised s = .next t ∧ t.time.spc = s.time.spc ∧ t.boot.phase = .running ∧ t.boot.fnReady = 0
          ∧ t.boot.warmReq = none ∧ t.safe.kill = true ∧ t.safe.island = .start ∧ t.line = {} ∧ t.lane = {} ∧ t.chg = {} ∧ t.est = {}
          ∧ t.loom.tileMap = s.loom.tileMap ∧ t.loom.fenced = s.loom.fenced ∧ t.boot.linkUp = s.boot.linkUp
          ∧ t.boot.scratch = s.boot.scratch ∧ t.nvm.coldRun = s.nvm.coldRun + 1 ∧ t.nvm.aonRun = s.nvm.aonRun
          ∧ t.boot.rstCause.getLsbD bit = true

/-- NVM_PARTITIONS_LOADED sets the condition of `NVM` and restores what is kept; the boot ROM runs a valid image that it chooses, or stays in
ROM-only service (R447, R461, R464). BIST_UNIT_DONE marks a unit under test as in use or as a spare when it passed, and fences it when it
failed (R451, R455, R458). A trial is judged at 30 s: it goes on when every readiness bit it needs is set, else the other slot is
preferred and a warm reset is asked for. It passes 600 s later. A firmware watchdog asks for a warm reset (R444, R464). -/
def Obligations.StartAndTrial : Prop :=
  ((∀ (bad : List Nat) (s : State), s.boot.phase = .running → s.boot.nvmLoaded = false →
      ∃ t, exec (.nvmPartitionsLoaded bad) s = .next t ∧ t.boot.nvmLoaded = true ∧ t.safe.password = (dropBad bad (keepNvm s).nvm).safety.password
        ∧ t.safe.sets = (dropBad bad (keepNvm s).nvm).safety.sets ∧ t.loom.depth = (dropBad bad (keepNvm s).nvm).kept.depth)
    ∧ (∀ (a b : Bool) (s : State) (slot : Bool), s.boot.phase = .running → s.boot.imageVerified = false → s.boot.romOnly = false →
        fencedUnit s 12 0 = false → chooseSlot s a b = some slot →
        ∃ t, exec (.bootImageVerified a b) s = .next t ∧ t.boot.imageVerified = true ∧ t.boot.slotB = slot
          ∧ t.boot.fwVersion = ((slotImage s slot).getD {}).version ∧ t.boot.romOnly = false)
    ∧ ∀ (a b : Bool) (s : State), s.boot.phase = .running → s.boot.imageVerified = false → s.boot.romOnly = false →
        fencedUnit s 12 0 = false → chooseSlot s a b = none →
        ∃ t, exec (.bootImageVerified a b) s = .next t ∧ t.boot.imageVerified = false ∧ t.boot.romOnly = true)
    ∧ (∀ (cls unit result : Nat) (s : State), unitExists s.otp.variant cls unit = true → s.boot.phase = .running → ustate s cls unit = .testing →
    (∀ x ∈ s.boot.bistRuns, (x.1, x.2.1) ≠ (cls, unit)) → awaitsVline s cls unit = false →
    ∃ t, exec (.bistUnitDone cls unit result) s = .next t
      ∧ (result = 0 → ustate t cls unit = .ready ∨ ustate t cls unit = .spare) ∧ (result ≠ 0 → ustate t cls unit = .fenced))
    ∧ ((∀ (t0 : Nat) (s : State), s.boot.trial = some t0 → s.boot.phase = .running → s.boot.trialJudged = false → t0 + 3000000 ≤ s.time.spc →
      trialBits s &&& ~~~s.boot.fnReady = 0 →
      exec .trialBootDeadline s = .next { s with boot := { s.boot with trialJudged := true } })
    ∧ (∀ (t0 : Nat) (s : State), s.boot.trial = some t0 → s.boot.phase = .running → s.boot.trialJudged = false → t0 + 3000000 ≤ s.time.spc →
        trialBits s &&& ~~~s.boot.fnReady ≠ 0 →
        ∃ t, exec .trialBootDeadline s = .next t ∧ t.nvm.prefB = !s.boot.slotB ∧ t.nvm.trialFlag = false ∧ t.nvm.trialFailed = true
          ∧ t.boot.trial = none ∧ t.boot.warmReq.isSome = true)
    ∧ (∀ (t0 : Nat) (s : State), s.boot.trial = some t0 → s.boot.phase = .running → s.boot.trialJudged = true → t0 + 63000000 ≤ s.time.spc →
        ∃ t, exec .trialBootPassed s = .next t ∧ t.boot.trial = none ∧ t.nvm.trialFlag = false ∧ t.nvm.trialFailed = false
          ∧ s.otp.minSecVer ≤ t.otp.minSecVer)
    ∧ ∀ s : State, s.boot.phase = .running →
        ∃ t, exec .mgmtCoreWatchdog s = .next t ∧ t.boot.warmReq.isSome = true ∧ t.time.spc = s.time.spc)

/-- Loss of REFCLK puts the SPC into holdover, its return ends it; VLINE out of range and back is noted, and neither moves the SPC (R16,
R529). A scan instruction asserts the kill line and starts the zeroisation; the zeroisation removes the password, the session keys and the
pair key, and writes its record. A test-logic reset changes nothing (R445, R467). -/
def Obligations.ReferenceAndScan : Prop :=
  ((∀ s : State, s.boot.phase ≠ .off → s.time.refclkOk = true →
      ∃ t, exec .refclkLoss s = .next t ∧ t.time.refclkOk = false ∧ t.time.holdover = true ∧ t.time.holdoverFrom = s.time.spc
        ∧ t.time.spc = s.time.spc ∧ (s.boot.phase = .running → s.safe.island = .run → t.safe.island = .lockout ∧ t.safe.kill = true))
    ∧ (∀ (step : Nat) (s : State), step < 1024 → s.boot.phase ≠ .off → s.time.refclkOk = false →
        ∃ t, exec (.refclkRelock step) s = .next t ∧ t.time.refclkOk = true ∧ t.time.holdover = false ∧ t.time.relockStep = step
          ∧ t.time.spc = s.time.spc ∧ t.safe = s.safe)
    ∧ (∀ s : State, s.boot.phase ≠ .off →
        ∃ t, exec .vlineOutOfRange s = .next t ∧ t.boot.vlineOk = false ∧ t.time.spc = s.time.spc)
    ∧ ∀ s : State, s.boot.phase ≠ .off → exec .vlineBackInRange s = .next { s with boot := { s.boot with vlineOk := true } })
    ∧ ((∀ (op : Nat) (s : State), s.boot.phase ≠ .off →
      ∃ t, exec (.scanInstruction op) s = .next t ∧ t.boot.scan = true ∧ t.safe.kill = true ∧ t.time.spc = s.time.spc
        ∧ (s.boot.phase = .running → s.safe.island = .run → t.safe.island = .lockout))
    ∧ (∀ (op : Nat) (s : State), s.boot.phase ≠ .off → s.boot.zeroising = some op →
        ∃ t, exec .zeroisationDone s = .next t ∧ t.safe.password = none ∧ t.nvm.safety.password = none ∧ t.pair.key = false
          ∧ t.nvm.pairKey = false ∧ t.boot.zeroised = true ∧ t.boot.zeroising = none ∧ t.boot.sessionKeys = false ∧ t.nvm.zero.length = s.nvm.zero.length + 1)
    ∧ ∀ s : State, exec .testLogicReset s = .next s)

/-! ### Commands of the device, its checks, the map, chains and lanes -/

/-- `DEV.INFO`, `DEV.READY` and `DEV.NOP` answer at once and change nothing; `DEV.TIME` also takes the sub-pick fraction (R22, R400).
`CHK.BIND` binds a polynomial, or none, to one transfer class of the function and to no other; `CHK.STATUS` returns the class's counts
(R395, R414). A PTM response latches the host time with the SPC (R22). -/
def Obligations.DevAndCheckCommands : Prop :=
  ((∀ (r : Req) (s : State), Accepted (checksDevInfo r s) r s →
      Answers (exec (.devInfo r) s) r ST_OK
        ([wd (variantCode s.otp.variant * 2 ^ 24 + s.otp.stepping % 256 * 2 ^ 16 + s.boot.fwVersion % 2 ^ 16),
          wd (s.boot.safetyVersion % 2 ^ 16 * 2 ^ 16 + b2n s.boot.slotB)] ++ (if r.fn = mgmt then wd64 s.otp.dieUid.toNat else [0, 0])) s s)
    ∧ (∀ (r : Req) (s : State), Accepted (checksDevReady r s) r s →
        Answers (exec (.devReady r) s) r ST_OK [wd (b2n s.time.holdover * 2 ^ 16 + s.boot.fnReady.toNat)] s s)
    ∧ (∀ (r : Req) (s : State), Accepted (checksDevNop r s) r s → Answers (exec (.devNop r) s) r ST_OK [] s s)
    ∧ (∀ (r : Req) (s : State) (p : Ptm), Accepted (checksDevTime r s) r s → s.time.ptm = some p →
        ∃ f : BitVec 10, Answers (exec (.devTime r) s) r ST_OK
          ([wd (2 ^ 31 + p.frac.toNat * 2 ^ 16 + f.toNat), wd (sat32 (s.time.spc - p.spc))] ++ wd64 p.host.toNat) s
          { s with time := { s.time with frac := f } })
    ∧ (∀ (r : Req) (s : State), Accepted (checksDevTime r s) r s → s.time.ptm = none →
        ∃ f : BitVec 10, Answers (exec (.devTime r) s) r ST_OK [wd f.toNat, wd (sat32 s.time.spc), 0, 0] s
          { s with time := { s.time with frac := f } })
    ∧ ∀ (r : Req) (s : State), Accepted (checksDevCaps r s) r s →
        Reports (exec (.devCaps r) s) r 0x4B545354 1 0 (fun res ws => res = [wd (ws.length * 4)]) s s)
    ∧ ((∀ (r : Req) (s : State), Accepted (checksChkBind r s) r s →
      ∃ t, exec (.chkBind r) s = .next t ∧ Completes r ST_OK [] s t ∧ Only s t
        ∧ (chkOf t r.fn (reqWord r 4).toNat).kind = (if bits (reqWord r 5) 8 8 = 0 then bits (reqWord r 5) 1 0 else 0)
        ∧ (chkOf t r.fn (reqWord r 4).toNat).bound = (bits (reqWord r 5) 8 8 == 0)
        ∧ ∀ fn c, c < 8 → (fn, c) ≠ (r.fn, (reqWord r 4).toNat) → chkOf t fn c = chkOf s fn c)
    ∧ (∀ (r : Req) (s : State), Accepted (checksChkStatus r s) r s →
        let x := chkOf s r.fn (reqWord r 4).toNat
        Answers (exec (.chkStatus r) s) r ST_OK [wd x.appended, wd x.checked, wd x.mismatches, wd x.kind] s s)
    ∧ ∀ (host : BitVec 64) (s : State), s.boot.phase = .running → s.boot.linkUp = true →
        ∃ f : BitVec 10, exec (.ptmResponse host) s
          = .next { s with fresh := s.fresh + 1, time := { s.time with frac := f, ptm := some { host := host, spc := s.time.spc, frac := f } } })

/-- `MAP.BIND` stages all records of its buffer; `MAP.COMMIT` takes what is staged into a build, and a smaller depth at once; `MAP.READ` and
`MAP.RANGE` only report (R219, R364, R403). -/
def Obligations.MapCommands : Prop :=
  (∀ (r : Req) (s : State), Accepted (checksMapBind r s) r s →
      Answers (exec (.mapBind r) s) r ST_OK [reqWord r 4] s
        { s with map := { s.map with
            staged := s.map.staged ++ (records16 (reqWord r 4).toNat r.inb.dropLast).map (stagedOf r.fn) } })
    ∧ (∀ (r : Req) (s : State), Accepted (checksMapCommit r s) r s → bits (reqWord r 4) 0 0 = 0 →
        Begins (exec (.mapCommit r) s) r 0x0401 0 [] s
          { s with map := { s.map with staged := [], build := some { cmd := reqRef r, staged := s.map.staged, depth := none } } })
    ∧ (∀ (r : Req) (s : State), Accepted (checksMapCommit r s) r s → bits (reqWord r 4) 0 0 = 1 → s.loom.depth ≤ (reqWord r 5).toNat →
        Begins (exec (.mapCommit r) s) r 0x0401 0 [] s
          { s with map := { s.map with
              staged := [], build := some { cmd := reqRef r, staged := s.map.staged, depth := some (reqWord r 5).toNat } } })
    ∧ (∀ (r : Req) (s : State), Accepted (checksMapCommit r s) r s → bits (reqWord r 4) 0 0 = 1 → (reqWord r 5).toNat < s.loom.depth →
        Begins (exec (.mapCommit r) s) r 0x0401 0 [] s
          { s with
            map := { s.map with
              staged := [], build := some { cmd := reqRef r, staged := s.map.staged, depth := some (reqWord r 5).toNat } }
            loom := { s.loom with
              depth := (reqWord r 5).toNat
              bolt := tmap s.loom.bolt fun _ l => l.filter (fun e => decide (s.time.spc < e.pick + (reqWord r 5).toNat)) } })
    ∧ (∀ (r : Req) (s : State), Accepted (checksMapRead r s) r s →
        Reports (exec (.mapRead r) s) r 0x4B545354 4 0
          (fun res _ => res = [wd (inForceRecords s (bits (reqWord r 4) 31 13)).length, wd (stagedRecords s (bits (reqWord r 4) 31 13)).length])
          s s)
    ∧ ∀ (r : Req) (s : State), Accepted (checksMapRange r s) r s →
        Reports (exec (.mapRange r) s) r 0x4B545354 4 0 (fun res _ => ∃ n, res = [wd n]) s s

/-- `CHAIN.POWER`, `CHAIN.ENUM`, `CHAIN.WAKE`, `CHAIN.PARK` and `CHAIN.RESET` start what they ask for on their chain, at its next frame; power
off of a chain without frames is done at once, else completes at the boundary (R69, R73 to R75, R401). What powering a chain does: its
ring is in normal mode with port A's carrier on where the port is not off, nothing enumerated and a bring-up started at p0 = the next
frame; every occupied position is bringing up with its identity unknown; other chains and positions stay (R39, R53, R76). -/
def Obligations.ChainProcedures : Prop :=
  ((∀ (r : Req) (s : State), Accepted (checksChainPower r s) r s → bits (reqWord r 5) 0 0 = 1 →
      Begins (exec (.chainPower r) s) r 0x0200 (reqWord r 4).toNat [] s (powerUp (reqWord r 4).toNat 0x0200 (some (reqRef r)) s))
    ∧ (∀ (r : Req) (s : State), Accepted (checksChainPower r s) r s → bits (reqWord r 5) 0 0 = 0 →
        powered (chainOf s (reqWord r 4).toNat) = false → Answers (exec (.chainPower r) s) r ST_OK [] s s)
    ∧ (∀ (r : Req) (s : State), Accepted (checksChainPower r s) r s → bits (reqWord r 5) 0 0 = 0 →
        powered (chainOf s (reqWord r 4).toNat) = true →
        Defers (exec (.chainPower r) s) r (.powerOff (reqWord r 4).toNat) s
          (modChain (reqWord r 4).toNat (fun x => { x with
            offAt := some (frameAfter s (reqWord r 4).toNat), ccmd := if isLocal (reqWord r 4).toNat then 0 else 2 }) s))
    ∧ (∀ (r : Req) (s : State), Accepted (checksChainEnum r s) r s →
        Begins (exec (.chainEnum r) s) r 0x0201 (reqWord r 4).toNat [] s
          (modChain (reqWord r 4).toNat (fun x => { x with
            ccmd := if isLocal (reqWord r 4).toNat then 0 else 3, enumTry := 0
            proc := some { op := 0x0201, p0 := frameAfter s (reqWord r 4).toNat, enumEnd := frameAfter s (reqWord r 4).toNat + 3
                           cmd := some (reqRef r) } }) s))
    ∧ (∀ (r : Req) (s : State), Accepted (checksChainWake r s) r s →
        Begins (exec (.chainWake r) s) r 0x0204 (reqWord r 4).toNat [] s (powerUp (reqWord r 4).toNat 0x0204 (some (reqRef r)) s))
    ∧ (∀ (r : Req) (s : State), Accepted (checksChainPark r s) r s → inProcedure (chainOf s (reqWord r 4).toNat) = false →
        Begins (exec (.chainPark r) s) r 0x0203 (reqWord r 4).toNat [] s
          (modChain (reqWord r 4).toNat (fun x => { x with
            parkAt := some (frameAfter s (reqWord r 4).toNat + 16, reqRef r), ccmd := if isLocal (reqWord r 4).toNat then 0 else 4 }) s))
    ∧ (∀ (r : Req) (s : State), Accepted (checksChainPark r s) r s → inProcedure (chainOf s (reqWord r 4).toNat) = true →
        ∃ t, exec (.chainPark r) s = .next t ∧ Completes r ST_ACCEPTED [] s t ∧ inProcedure (chainOf t (reqWord r 4).toNat) = false
          ∧ (chainOf t (reqWord r 4).toNat).parkAt = some (frameAfter s (reqWord r 4).toNat + 16, reqRef r) ∧ t.line.posns = s.line.posns)
    ∧ (∀ (r : Req) (s : State), Accepted (checksChainReset r s) r s → bits (reqWord r 5) 0 0 = 1 →
        Begins (exec (.chainReset r) s) r 0x0207 (reqWord r 4).toNat [] s
          (modChain (reqWord r 4).toNat (fun x => { x with
            unwrapAt := some (frameAfter s (reqWord r 4).toNat + 1, reqRef r), ccmd := if isLocal (reqWord r 4).toNat then 0 else 6 }) s))
    ∧ ∀ (r : Req) (s : State), Accepted (checksChainReset r s) r s → bits (reqWord r 5) 0 0 = 0 →
        ∃ t, exec (.chainReset r) s = .next t ∧ Completes r ST_ACCEPTED [] s t
          ∧ (chainOf t (reqWord r 4).toNat).proc = some
              { op := 0x0207, p0 := frameAfter s (reqWord r 4).toNat
                enumEnd := frameAfter s (reqWord r 4).toNat + (if powered (chainOf s (reqWord r 4).toNat) then 11 else 203)
                cmd := some (reqRef r) }
          ∧ (powered (chainOf s (reqWord r 4).toNat) = true → ∀ i ∈ (chainOf s (reqWord r 4).toNat).occ,
              (posOf t ((reqWord r 4).toNat * 8 + i)).posted.reset = true ∧ (posOf t ((reqWord r 4).toNat * 8 + i)).known = false)
          ∧ (powered (chainOf s (reqWord r 4).toNat) = false → (chainOf t (reqWord r 4).toNat).mode = .normal) ∧ Only s { t with line := s.line, cmd := { t.cmd with unfinished := s.cmd.unfinished } }
          ∧ (∀ c, c ≠ (reqWord r 4).toNat → chainOf t c = chainOf s c)
          ∧ ((∀ i ∈ (chainOf s (reqWord r 4).toNat).occ, i < 8) →
              ∀ p, chainOfPos p ≠ (reqWord r 4).toNat → posOf t p = posOf s p))
    ∧ (∀ (c op : Nat) (cmd : Option CmdRef) (s : State),
    let t := powerUp c op cmd s
    let x := chainOf t c
    x.mode = .normal ∧ x.carrierA = !portOff s c op false ∧ x.offB = portOff s c op true ∧ x.carrierB = false ∧ x.synced = false ∧ x.tags = 0 ∧ x.brk = none ∧ x.split = 0 ∧ x.hopFault = false
      ∧ x.occ = (chainOf s c).occ ∧ x.fcrcErr = 0 ∧ x.rsndReq = 0 ∧ x.enumTry = 0
      ∧ (op ≠ 0x0201 → op ≠ 0x0207 → x.proc = some { op := op, p0 := frameAfter s c, enumEnd := frameAfter s c + 203, cmd := cmd })
      ∧ (∀ i ∈ (chainOf s c).occ, (posOf t (c * 8 + i)).state = .bringingUp ∧ (posOf t (c * 8 + i)).known = false
          ∧ (posOf t (c * 8 + i)).coefOk = false ∧ (posOf t (c * 8 + i)).feedB = false ∧ (posOf t (c * 8 + i)).kind = (posOf s (c * 8 + i)).kind)
      ∧ (∀ d, d ≠ c → chainOf t d = chainOf s d) ∧ ∀ p, chainOfPos p ≠ c → (∀ i ∈ (chainOf s c).occ, i < 8) → posOf t p = posOf s p)

/-- `CHAIN.STATUS` reports; `CHAIN.SELV_READ` reports a held message or has a new one asked for; `CHAIN.SELV_WRITE` queues an auxiliary-input
configuration with `CFG_ID` 2 (R59, R105, R401). `LANE.UP` starts the lock phase in the mode named; `LANE.PAIR` sets or ends a deployment;
`LANE.DOWN` takes the lane down; `LANE.STATUS`, `LANE.EYE` and `BRIDGE.STATUS` report (R93, R102, R103, R402). -/
def Obligations.ChainAndLaneCommands : Prop :=
  ((∀ (r : Req) (s : State), Accepted (checksChainStatus r s) r s →
      Reports (exec (.chainStatus r) s) r 0x4B545354 2 0 (fun res _ => ∃ n, res = [wd n]) s s)
    ∧ (∀ (r : Req) (s : State), Accepted (checksChainSelvRead r s) r s → bits (reqWord r 5) 16 16 = 0 →
        Reports (exec (.chainSelvRead r) s) r 0x4B545354 2 0 (fun res _ => res = []) s s)
    ∧ (∀ (r : Req) (s : State), Accepted (checksChainSelvRead r s) r s → bits (reqWord r 5) 16 16 = 1 →
        let typ := bits (reqWord r 5) 7 0
        let i := if typ = 2 then bits (reqWord r 5) 15 8 else 0
        Begins (exec (.chainSelvRead r) s) r 0x0205 (bits (reqWord r 4) 31 13) [] s
          (modPos (bits (reqWord r 4) 31 13) (fun x => { x with
            refresh := x.refresh ++ [(typ, i, reqRef r)], repeats := if typ = 3 then x.repeats else x.repeats ++ [(typ, i)] }) s))
    ∧ ∀ (r : Req) (s : State), Accepted (checksChainSelvWrite r s) r s →
        Begins (exec (.chainSelvWrite r) s) r 0x0206 (bits (reqWord r 4) 31 13) [] s
          (modPos (bits (reqWord r 4) 31 13) (fun x => { x with
            cfg := x.cfg ++ [{ cfgId := 2, body := BitVec.ofNat 472 ((reqWord r 6).toNat * 2 ^ 464), cmd := some (reqRef r) }] }) s))
    ∧ ((∀ (r : Req) (s : State), Accepted (checksLaneUp r s) r s →
      Begins (exec (.laneUp r) s) r 0x0300 (laneArg s r) [] s
        (let s1 := modLane (laneArg s r) (fun x =>
            { x with
              lstate := .lock, mode := bits (reqWord r 5) 1 0, band := s.therm.band, cmd := some (reqRef r), degraded := false, cdr := false
              marker := false, marks := 0, lhcrcErr := 0, sbcrcErr := 0, reqSent := 0, badFrames := 0, pages := [] }) s
         if isTwin (laneArg s r) || reached s1 (placeLane s1 (laneArg s r)) then s1
         else modBridge (placeLane s1 (laneArg s r)) (fun _ => {}) s1))
    ∧ (∀ (r : Req) (s : State), Accepted (checksLaneStatus r s) r s →
        let x := laneOf s (laneArg s r)
        Answers (exec (.laneStatus r) s) r ST_OK
          [wd (lstateCode s (laneArg s r) + x.mode * 2 ^ 4 + x.band * 2 ^ 6 + b2n x.degraded * 2 ^ 8), wd x.delay, wd x.uncorrected,
           wd (least x.eyeW + least x.eyeH * 2 ^ 16)] s s)
    ∧ (∀ (r : Req) (s : State), Accepted (checksLanePair r s) r s →
        ∃ t, exec (.lanePair r) s = .next t ∧ Completes r ST_OK [] s t ∧ Only { s with lane := { s.lane with pairs := t.lane.pairs } } t
          ∧ (t.lane.pairs.contains (reqWord r 4).toNat = ((reqWord r 5).toNat == 1))
          ∧ ∀ k, k ≠ (reqWord r 4).toNat → (k ∈ t.lane.pairs ↔ k ∈ s.lane.pairs))
    ∧ (∀ (r : Req) (s : State), Accepted (checksLaneEye r s) r s →
        Reports (exec (.laneEye r) s) r 0x4B545354 3 0 (fun res _ => ∃ n, res = [wd n]) s s)
    ∧ (∀ (r : Req) (s : State), Accepted (checksBridgeStatus r s) r s →
        Reports (exec (.bridgeStatus r) s) r 0x4B545354 3 0 (fun res _ => ∃ n, res = [wd n]) s s)
    ∧ (∀ (r : Req) (s : State), Accepted (checksLaneDown r s) r s → (laneOf s (laneArg s r)).lstate = .down →
        Answers (exec (.laneDown r) s) r ST_OK [] s s)
    ∧ ∀ (r : Req) (s : State), Accepted (checksLaneDown r s) r s →
        ∃ t, exec (.laneDown r) s = .next t ∧ Completes r ST_OK [] s t ∧ (laneOf t (laneArg s r)).lstate = .down
          ∧ t.safe.island = s.safe.island ∧ ∀ p, { posOf t p with noLive := (posOf s p).noLive } = posOf s p)

/-! ### Accumulators -/

/-- `ACC.OPEN` opens a window under the function's lowest free identifier, or the highest where its entries are all of local rings (the
model's choice, log 77), its first interval at the SPC named or at the next multiple of 200; `ACC.CLOSE` gives the window its end, or
removes it (R147, R149 to R151). -/
def Obligations.WindowOpenClose : Prop :=
  (∀ (r : Req) (s : State) (i : Nat), Accepted (checksAccOpen r s) r s → i < 65536 → thas s.acc.windows (r.fn * 65536 + i) = false →
      (∀ j, j < 65536 → (if localNamed 0x0500 r s then i < j else j < i) → thas s.acc.windows (r.fn * 65536 + j) = true) →
      let w : Window :=
        { start := if of64 (reqWord r 4) (reqWord r 5) = 0 then nextMult 200 (s.time.spc + 1) else of64 (reqWord r 4) (reqWord r 5)
          length := (reqWord r 6).toNat, repeats := bits (reqWord r 7) 0 0 == 1, apsis := bits (reqWord r 7) 1 1 == 1
          event := bits (reqWord r 7) 2 2 == 1, mask := bits (reqWord r 7) 12 8, entries := r.inb.dropLast.map entryOf }
      Answers (exec (.accOpen r) s) r ST_OK [wd i] s { s with acc := { s.acc with windows := tset s.acc.windows (r.fn * 65536 + i) w } })
    ∧ (∀ (r : Req) (s : State), Accepted (checksAccClose r s) r s → bits (reqWord r 7) 0 0 = 0 →
        Begins (exec (.accClose r) s) r 0x0501 (r.fn * 65536 + (reqWord r 4).toNat) [] s
          (modWin (r.fn * 65536 + (reqWord r 4).toNat) (fun w => { w with
            close := some (if of64 (reqWord r 5) (reqWord r 6) = 0 then nextMult 200 (s.time.spc + 1) else of64 (reqWord r 5) (reqWord r 6))
            cmd := some (reqRef r) }) s))
    ∧ ∀ (r : Req) (s : State), Accepted (checksAccClose r s) r s → bits (reqWord r 7) 0 0 = 1 →
        ∃ t, exec (.accClose r) s = .next t ∧ Completes r ST_ACCEPTED [] s t
          ∧ t.acc = { s.acc with windows := tdel s.acc.windows (r.fn * 65536 + (reqWord r 4).toNat) }
          ∧ t.line = s.line ∧ t.loom = s.loom ∧ t.est = s.est ∧ (∀ u ∈ t.cmd.unfinished, u.ref ≠ reqRef r)

/-- An accepted `ACC.HARVEST` completes and writes one buffer, of its class, with ST_INTERNAL where a record written holds a recomputed value:
standard intervals and running trackers stay, queued window intervals and trip records that it wrote are released, of its own function's
windows and trips alone (R129, R163 to R165). `ACC.APSIS_RESET` restarts the running trackers of its range that the function may harvest,
and only those, at the first multiple of 200 after its acceptance, and answers that boundary; `ACC.STATUS` reports a window or the
function's totals (R158, R404). -/
def Obligations.HarvestAndQueries : Prop :=
  ((∀ (r : Req) (s : State), Accepted (checksAccHarvest r s) r s →
      ∃ t b c, exec (.accHarvest r) s = .next t ∧ t.out.buffers = b :: s.out.buffers ∧ b.addr = r.buf ∧ b.cmdId = r.cmdId
        ∧ b.words.take 2 = [wd 0x4B544856, wd (0x01000000 + (reqWord r 4).toNat * 2 ^ 16 + r.fn)]
        ∧ t.out.completions = c :: s.out.completions ∧ c.cmdId = r.cmdId ∧ (c.status = ST_OK ∨ c.status = ST_INTERNAL)
        ∧ t.acc.one = s.acc.one ∧ t.acc.sixty = s.acc.sixty ∧ t.acc.apsis = s.acc.apsis ∧ t.acc.fast = s.acc.fast ∧ t.line = s.line ∧ t.safe = s.safe)
    ∧ (∀ (r : Req) (s : State) (a b : Nat), Accepted (checksAccHarvest r s) r s →
      (reqWord r 4).toNat = 1 ∨ (reqWord r 4).toNat = 2 ∨ (reqWord r 4).toNat = 4 → rangeParam s (reqWord r 5) (reqWord r 6) = some (a, b) →
      let cls := (reqWord r 4).toNat
      let frm := of64 (reqWord r 7) (reqWord r 8)
      let all := if cls = 4 then apsisSections s r.fn a b else stdSections s (cls == 2) r.fn a b frm
      Harvests (exec (.accHarvest r) s) r 0x4B544856 cls
        ((harvestLeft { magic := 0x4B544856, cls := cls } r [cls, a, b, frm] all s).map (·.2)) s s)
    ∧ (∀ (r : Req) (s : State), Accepted (checksAccHarvest r s) r s → (reqWord r 4).toNat = 3 →
        let ks := if bits (reqWord r 5) 16 16 = 1 then tkeys s.acc.windows (fun k _ => k / 65536 == r.fn)
          else [r.fn * 65536 + bits (reqWord r 5) 15 0]
        let old := (tget s.cmd.conts (contKey r.fn 0x4B544856 3)).filter (fun c => c.sel == [3, (reqWord r 5).toNat])
        ∃ ws : Tbl Window,
          Harvests (exec (.accHarvest r) s) r 0x4B544856 3 ((winSections s ks old).map (·.2)) s { s with acc := { s.acc with windows := ws } }
          ∧ ∀ k, k / 65536 ≠ r.fn → tget ws k = tget s.acc.windows k)
    ∧ ∀ (r : Req) (s : State), Accepted (checksAccHarvest r s) r s → (reqWord r 4).toNat = 5 →
        ∃ l : LoomUnit,
          Reports (exec (.accHarvest r) s) r 0x4B544856 5 0 (fun res ws => res.head? = some (wd (ws.length * 4))) s { s with loom := l }
          ∧ l.trips.filter (fun t => t.fn != r.fn) = s.loom.trips.filter (fun t => t.fn != r.fn)
          ∧ l.notices.filter (fun t => t.fn != r.fn) = s.loom.notices.filter (fun t => t.fn != r.fn) ∧ tgetD l.tripLost r.fn 0 = 0
          ∧ l.bolt = s.loom.bolt)
    ∧ ((∀ (r : Req) (s : State), Accepted (checksAccApsisReset r s) r s →
      ∃ t, exec (.accApsisReset r) s = .next t ∧ Completes r ST_OK (wd64 (nextMult 200 (s.time.spc + 1))) s t
        ∧ Only { s with acc := { s.acc with apsis := t.acc.apsis, apsisWas := t.acc.apsisWas } } t
        ∧ ∀ a b, rangeParam s (reqWord r 4) (reqWord r 5) = some (a, b) → ∀ k,
            let hit := a ≤ k / 8 ∧ k / 8 ≤ b ∧ (if isHk (k / 8) then r.fn = mgmt else ownerOf s (chainOfChi (k / 8)) = r.fn)
              ∧ thas (trackers s) k = true
            (hit → tget t.acc.apsis k = some { point := nextMult 200 (s.time.spc + 1) } ∧ (tget t.acc.apsisWas k).map (·.1) = some s.time.spc)
              ∧ (¬ hit → tget t.acc.apsis k = tget s.acc.apsis k ∧ tget t.acc.apsisWas k = tget s.acc.apsisWas k))
    ∧ (∀ (r : Req) (s : State) (w : Window), Accepted (checksAccStatus r s) r s → bits (reqWord r 4) 16 16 = 0 →
        tget s.acc.windows (r.fn * 65536 + bits (reqWord r 4) 15 0) = some w →
        let full := w.start + 200 * w.length * (w.next + 1)
        Answers (exec (.accStatus r) s) r ST_OK
          ([wd ((if w.draining then 2 else b2n w.close.isSome) + w.queue.length * 2 ^ 8), wd (w.entries.map (entryCost s)).sum]
            ++ wd64 (if w.length = 0 then w.close.getD 0 else w.close.elim full (min full))) s s)
    ∧ (∀ (r : Req) (s : State), Accepted (checksAccStatus r s) r s → bits (reqWord r 4) 16 16 = 1 → r.fn = mgmt →
        Answers (exec (.accStatus r) s) r ST_OK
          [wd (windowsHeld s mgmt), wd (65536 - (s.ten.tenants.map (fun t => t.2.pools.windows)).sum),
           wd (entriesHeld s mgmt), wd (16777216 - (s.ten.tenants.map (fun t => t.2.pools.entries)).sum)] s s)
    ∧ ∀ (r : Req) (s : State), Accepted (checksAccStatus r s) r s → bits (reqWord r 4) 16 16 = 1 → r.fn ≠ mgmt →
        let p := ((tget s.ten.tenants r.fn).getD {}).pools
        Answers (exec (.accStatus r) s) r ST_OK [wd (windowsHeld s r.fn), wd p.windows, wd (entriesHeld s r.fn), wd p.entries] s s)

/-- STANDARD_INTERVAL_COMMIT commits interval j of every entry 1,600 picks after its end, where no later one stands committed and, of 1 s
intervals, it is among the last 8; USER_INTERVAL_COMMIT queues the window's next interval, or counts it as not stored while 4 stand
queued, and a window of one interval drains; the entries of a chain that left are committed by themselves, cut short where it left (R143,
R148, R149, R167; a section of their own is the model's choice, log 74). -/
def Obligations.IntervalCommits : Prop :=
  (∀ (sixty : Bool) (j key : Nat) (s : State), s.boot.phase = .running → stdLen sixty * (j + 1) + 1600 ≤ s.time.spc → key ∈ stdEntries s sixty j →
      (∀ y ∈ tgetD (stdTab s sixty) key [], y.committed = true → y.j < j) →
      (sixty = false → s.acc.doneOne ≤ j + 8) →
      ∃ t, exec (.standardIntervalCommit sixty j) s = .next t
        ∧ (∃ y ∈ tgetD (stdTab t sixty) key [], y.j = j ∧ y.committed = true)
        ∧ (if sixty then t.acc.doneSixty else t.acc.doneOne) = max (if sixty then s.acc.doneSixty else s.acc.doneOne) (j + 1)
        ∧ t.acc.windows = s.acc.windows ∧ t.acc.apsis = s.acc.apsis ∧ t.line = s.line ∧ t.safe = s.safe ∧ t.time = s.time)
    ∧ (∀ (fn win b : Nat) (w : Window) (s : State), s.boot.phase = .running → tget s.acc.windows (fn * 65536 + win) = some w →
        w.draining = false → leftDue s w = [] → w.close = none → winEnd w w.next = some b → b + 1600 ≤ s.time.spc →
        ∃ t w1, exec (.userIntervalCommit fn win) s = .next t ∧ tget t.acc.windows (fn * 65536 + win) = some w1
          ∧ w1.next = w.next + 1 ∧ w1.draining = !w.repeats ∧ w1.entries = w.entries
          ∧ (w.queue.length < 4 → ∃ q, w1.queue = w.queue ++ [q] ∧ q.n = w.next ∧ q.start = w.start + 200 * w.length * w.next ∧ q.stop = b
              ∧ q.dropped = w.dropped ∧ w1.dropped = 0)
          ∧ (4 ≤ w.queue.length → w1.queue = w.queue ∧ w1.dropped = min 0xFFFF (w.dropped + 1))
          ∧ (∀ k, k ≠ fn * 65536 + win → tget t.acc.windows k = tget s.acc.windows k) ∧ t.line = s.line ∧ t.safe = s.safe)
    ∧ (∀ (fn win c : Nat) (l : List Nat) (w : Window) (s : State), s.boot.phase = .running → tget s.acc.windows (fn * 65536 + win) = some w →
        w.draining = false → leftDue s w = c :: l →
        ∃ t w1, exec (.userIntervalCommit fn win) s = .next t ∧ tget t.acc.windows (fn * 65536 + win) = some w1
          ∧ w1.leftDone = c :: w.leftDone ∧ w1.next = w.next ∧ w1.entries = w.entries
          ∧ (w.queue.length < 4 → ∃ q, w1.queue = w.queue ++ [q] ∧ q.start = (intervalAt w (tgetD w.left c 0)).2.1 ∧ q.stop = tgetD w.left c 0)
          ∧ (4 ≤ w.queue.length → w1.queue = w.queue ∧ w1.dropped = min 0xFFFF (w.dropped + 1))
          ∧ (∀ k, k ≠ fn * 65536 + win → tget t.acc.windows k = tget s.acc.windows k) ∧ t.line = s.line ∧ t.safe = s.safe)
    ∧ ∀ (fn win e : Nat) (w : Window) (s : State), s.boot.phase = .running → tget s.acc.windows (fn * 65536 + win) = some w →
        w.draining = false → leftDue s w = [] → w.close = some e → e ≤ w.start → e ≤ s.time.spc →
        ∃ t, exec (.userIntervalCommit fn win) s = .next t ∧ t.acc = { s.acc with windows := tdel s.acc.windows (fn * 65536 + win) }

/-- An accumulator that takes a list of samples in turn holds the number of the admitted ones, the exact sum of their values and the exact sum
of their squares, and counts each of the others; over 32-bit values no field wraps or saturates within the widths of the compact record
for the 30,000 samples of a standard interval, nor within those of the full record for any count that its `COUNT` can show (R154). -/
def Obligations.ExactSums : Prop :=
  ∀ (xs : List Sample) (gen mask : Nat),
    let a : Acc := xs.foldl (fun a x => a.add x gen mask) {}
    let ok := xs.filter (fun x => !x.flags.gap && !maskHit mask x.flags)
    a.count = ok.length ∧ a.sum = (ok.map (fun x => x.value)).sum ∧ a.sumsq = (ok.map (fun x => x.value.natAbs ^ 2)).sum
      ∧ a.nGap = xs.countP (fun x => x.flags.gap) ∧ a.nExcl = xs.countP (fun x => !x.flags.gap && maskHit mask x.flags)
      ∧ ((∀ x ∈ ok, -2 ^ 31 ≤ x.value ∧ x.value < 2 ^ 31) →
          (xs.length ≤ 30000 → a.count < 2 ^ 16 ∧ a.nGap < 2 ^ 16 ∧ -2 ^ 63 ≤ a.sum ∧ a.sum < 2 ^ 63 ∧ a.sumsq < 2 ^ 96)
            ∧ (a.count < 2 ^ 64 → -2 ^ 95 ≤ a.sum ∧ a.sum < 2 ^ 95 ∧ a.sumsq < 2 ^ 128))

/-! ### Spectra and calibration -/

/-- `SPEC.CONFIG` sets a chain's settings, a field given as 0 leaving its own, and restarts the contexts where asked; `SPEC.STOP` ends a focus
session, stops a chain's baseline, or resumes it with restarted contexts; no other chain or session changes (R178, R184, R405).
`SPEC.FOCUS` opens a session under the function's lowest free identifier, or the highest on a local ring (the model's choice, log 77);
`SPEC.DITHER` queues a drive tag's configuration with `CFG_ID` 1, or switches its dither off and forgets the configuration (R61, R183,
R186). -/
def Obligations.SpectralSettings : Prop :=
  ((∀ (r : Req) (s : State), Accepted (checksSpecConfig r s) r s → (reqWord r 8).toNat = 0 →
      let c := (reqWord r 4).toNat
      let v (i old : Nat) : Nat := if (reqWord r i).toNat = 0 then old else (reqWord r i).toNat
      let x := specChain s c
      Answers (exec (.specConfig r) s) r ST_OK [] s
        { s with spec := { s.spec with
            chains := tset s.spec.chains c { x with tMem := v 5 x.tMem, iMin := v 6 x.iMin, cohMin := v 7 x.cohMin } } })
    ∧ (∀ (r : Req) (s : State), Accepted (checksSpecConfig r s) r s → (reqWord r 8).toNat = 1 →
        let chis := (occPosns s (reqWord r 4).toNat).flatMap (voltChis s)
        ∃ (cs : Tbl SpecChain) (xs : Tbl SpecCtx),
          Answers (exec (.specConfig r) s) r ST_OK [] s { s with spec := { s.spec with chains := cs, ctxs := xs } }
          ∧ (∀ chi ∈ chis, ∀ b, b < 64 → tget (tgetD xs chi {}).bins b = some { restart := true, since := s.time.spc })
          ∧ ∀ chi, chi ∉ chis → tget xs chi = tget s.spec.ctxs chi)
    ∧ (∀ (r : Req) (s : State) (f : Focus), Accepted (checksSpecStop r s) r s → (reqWord r 4).toNat = 0 →
        tget s.spec.focus (focusKey r.fn (reqWord r 5).toNat) = some f →
        Answers (exec (.specStop r) s) r ST_OK [] s
          { s with spec := { s.spec with
              focus := if (reqWord r 6).toNat = 1 ∨ f.running = true then tdel s.spec.focus (focusKey r.fn (reqWord r 5).toNat)
                else tset s.spec.focus (focusKey r.fn (reqWord r 5).toNat) { f with complete := true } } })
    ∧ (∀ (r : Req) (s : State), Accepted (checksSpecStop r s) r s → (reqWord r 4).toNat = 1 →
        Answers (exec (.specStop r) s) r ST_OK [] s
          { s with spec := { s.spec with
              chains := tset s.spec.chains (reqWord r 5).toNat { specChain s (reqWord r 5).toNat with stopped := true } } })
    ∧ ∀ (r : Req) (s : State), Accepted (checksSpecStop r s) r s → (reqWord r 4).toNat = 2 →
        let chis := (occPosns s (reqWord r 5).toNat).flatMap (voltChis s)
        ∃ xs : Tbl SpecCtx,
          Answers (exec (.specStop r) s) r ST_OK [] s
            { s with spec := { s.spec with
                chains := tset s.spec.chains (reqWord r 5).toNat { specChain s (reqWord r 5).toNat with stopped := false }, ctxs := xs } }
          ∧ (∀ chi ∈ chis, ∀ b, b < 64 → tget (tgetD xs chi {}).bins b = some { restart := true, since := s.time.spc })
          ∧ ∀ chi, chi ∉ chis → tget xs chi = tget s.spec.ctxs chi)
    ∧ ((∀ (r : Req) (s : State) (i : Nat), Accepted (checksSpecFocus r s) r s → i < 4096 → thas s.spec.focus (focusKey r.fn i) = false →
      (∀ j, j < 4096 → (if isLocal (chainOfChi (bits (reqWord r 4) 31 9)) then i < j else j < i) → thas s.spec.focus (focusKey r.fn j) = true) →
      let f : Focus :=
        { chi := bits (reqWord r 4) 31 9, fc := (reqWord r 5).toNat, zoom := bits (reqWord r 6) 3 0, running := bits (reqWord r 6) 8 8 == 1
          n := (reqWord r 7).toNat, start := s.time.spc }
      Answers (exec (.specFocus r) s) r ST_OK [wd i] s { s with spec := { s.spec with focus := tset s.spec.focus (focusKey r.fn i) f } })
    ∧ (∀ (r : Req) (s : State), Accepted (checksSpecDither r s) r s → (reqWord r 5).toNat = 1 →
        let p := bits (reqWord r 4) 31 13
        let ampl := bits (reqWord r 6) 15 0
        let seed := bits (reqWord r 6) 31 16
        let order := bits (reqWord r 7) 7 0
        let chip := bits (reqWord r 7) 15 8
        Begins (exec (.specDither r) s) r 0x0603 p [] s
          (modPos p (fun x => { x with
            cfg := x.cfg ++ [{ cfgId := 1, cmd := some (reqRef r)
                               body := BitVec.ofNat 472 ((ampl * 2 ^ 32 + seed * 2 ^ 16 + order * 2 ^ 8 + chip) * 2 ^ 424) }] })
            { s with spec := { s.spec with
                dither := tset s.spec.dither p { ampl := ampl, seed := seed, order := order, chip := chip, on := true } } }))
    ∧ ∀ (r : Req) (s : State), Accepted (checksSpecDither r s) r s → (reqWord r 5).toNat = 0 →
        let p := bits (reqWord r 4) 31 13
        Answers (exec (.specDither r) s) r ST_OK [] s
          (modPos p (fun x => { x with kept := tdel x.kept 1 })
            { s with spec := { s.spec with dither := tupd s.spec.dither p (fun d => { d with on := false, applied := false }) } }))

/-- An accepted `SPEC.HARVEST` completes and writes one buffer, of its class, and changes nothing but the counts of what it wrote; a
function's harvest leaves other functions' sessions alone. SPECTRAL_ROUND, at the SPC of its round, takes the segments worked since the
round before into the results, an admitted one into its bin alone and a rejected one into the count of rejected ones; it happens once for
each round, and at no other SPC (R177, R181, R185, R190). -/
def Obligations.SpectralWork : Prop :=
  (∀ (r : Req) (s : State), Accepted (checksSpecHarvest r s) r s →
      ∃ t b c, exec (.specHarvest r) s = .next t ∧ t.out.buffers = b :: s.out.buffers ∧ b.addr = r.buf ∧ b.cmdId = r.cmdId
        ∧ b.words.take 2 = [wd 0x4B545350, wd (0x01000000 + (reqWord r 4).toNat * 2 ^ 16 + r.fn)]
        ∧ t.out.completions = c :: s.out.completions ∧ c.cmdId = r.cmdId ∧ c.status = ST_OK
        ∧ t.spec.chains = s.spec.chains ∧ t.spec.casc = s.spec.casc ∧ t.spec.dither = s.spec.dither ∧ t.line = s.line ∧ t.safe = s.safe)
    ∧ (∀ (r : Req) (s : State), Accepted (checksSpecHarvest r s) r s → (reqWord r 4).toNat = 0x11 →
      ∃ xs : Tbl SpecCtx,
        Reports (exec (.specHarvest r) s) r 0x4B545350 0x11 0 (fun res ws => res.head? = some (wd (ws.length * 4))) s
          { s with spec := { s.spec with ctxs := xs } })
    ∧ (∀ (r : Req) (s : State), Accepted (checksSpecHarvest r s) r s → (reqWord r 4).toNat = 0x12 →
        ∃ fs : Tbl Focus,
          Reports (exec (.specHarvest r) s) r 0x4B545350 0x12 0 (fun res ws => res.head? = some (wd (ws.length * 4))) s
            { s with spec := { s.spec with focus := fs } }
          ∧ ∀ k, k / 65536 ≠ r.fn → tget fs k = tget s.spec.focus k)
    ∧ (∀ (round : Nat) (s : State), s.boot.phase = .running → s.time.spc = 200 * round → s.spec.round ≤ round →
        ∃ t, exec (.spectralRound round) s = .next t ∧ t.spec.round = round + 1 ∧ t.spec.chains = s.spec.chains ∧ t.spec.casc = s.spec.casc
          ∧ t.spec.cur = s.spec.cur ∧ t.spec.dither = s.spec.dither ∧ t.line = s.line ∧ t.safe = s.safe ∧ t.time = s.time ∧ t.cal = s.cal
          ∧ t.acc = s.acc ∧ t.chg = s.chg)
    ∧ (∀ (round : Nat) (s : State), s.time.spc ≠ 200 * round ∨ round < s.spec.round → exec (.spectralRound round) s = .next s)
    ∧ (∀ (round : Nat) (w : InWork) (s : State), s.boot.phase = .running → s.time.spc = 200 * round → s.spec.round ≤ round →
        s.spec.work = [w] → w.work.focus = false → (tgetD (ctxOf s w.work.id).bins w.work.bin {}).since ≤ w.at_ → w.good = true →
        w.v.length = 1 → w.i.length = 1 →
        ∃ t, exec (.spectralRound round) s = .next t
          ∧ (tgetD (ctxOf t w.work.id).bins w.work.bin {}).n = (tgetD (ctxOf s w.work.id).bins w.work.bin {}).n + 1
          ∧ (∀ b, b ≠ w.work.bin → tget (ctxOf t w.work.id).bins b = tget (ctxOf s w.work.id).bins b)
          ∧ (ctxOf t w.work.id).rejected = (ctxOf s w.work.id).rejected
          ∧ ∀ c, c ≠ w.work.id → (ctxOf t c).bins = (ctxOf s c).bins)
    ∧ ∀ (round : Nat) (w : InWork) (s : State), s.boot.phase = .running → s.time.spc = 200 * round → s.spec.round ≤ round →
        s.spec.work = [w] → w.work.focus = false → (tgetD (ctxOf s w.work.id).bins w.work.bin {}).since ≤ w.at_ → w.good = false →
        ∃ t, exec (.spectralRound round) s = .next t ∧ (ctxOf t w.work.id).rejected = sat32 ((ctxOf s w.work.id).rejected + 1)
          ∧ ∀ c, (ctxOf t c).bins = (ctxOf s c).bins

/-- `CAL.RUN` starts a run on the tags of its mask, in the slot that it answers, or a run on a lane; `CAL.LIMITS` sets the limits given and
answers those in force; `CAL.STATUS` and `CAL.READ` report (R200, R205, R212, R214, R226, R406). -/
def Obligations.CalibrationCommands : Prop :=
  (∀ (r : Req) (s : State) (n : Nat), Accepted (checksCalRun r s) r s → (reqWord r 4).toNat ≠ 0x10 →
      let ps := maskPosns (reqWord r 5).toNat (bits (reqWord r 6) 7 0)
      let w := procWindow (reqWord r 4).toNat
      slotFor s r.fn ps = some n →
      let run : CalRun :=
        { proc := (reqWord r 4).toNat, chain := (reqWord r 5).toNat, posns := ps, hold := bits (reqWord r 6) 8 8 == 1
          window := if (reqWord r 7).toNat = 0 then w.2.2.1 else (reqWord r 7).toNat
          deadline := if (reqWord r 8).toNat = 0 then w.2.2.2 else (reqWord r 8).toNat, start := s.time.spc, cmd := some (reqRef r)
          failed := failedAtStart (dropHeld r.fn ps s) (reqWord r 4).toNat ps }
      Begins (exec (.calRun r) s) r 0x0700 (reqWord r 5).toNat [wd n] s (putRun (runKey r.fn n) run (dropHeld r.fn ps s)))
    ∧ (∀ (r : Req) (s : State) (l : Nat), Accepted (checksCalRun r s) r s → (reqWord r 4).toNat = 0x10 → laneParam s (reqWord r 5) = some l →
        let x := laneOf s l
        Begins (exec (.calRun r) s) r 0x0700 l [0xFF] s
          (putLaneRun l { cmd := some (reqRef r), eyeW := x.eyeW, eyeH := x.eyeH, ber := x.ber, berBits := x.berBits, set := x.set } s))
    ∧ (∀ (r : Req) (s : State), Accepted (checksCalLimits r s) r s →
        let c := (reqWord r 4).toNat
        let g := if (reqWord r 5).toNat = 0 then (chainCal s c).gainLim else (reqWord r 5).toNat
        let o := if (reqWord r 6).toNat = 0 then (chainCal s c).offLim else (reqWord r 6).toNat
        Answers (exec (.calLimits r) s) r ST_OK [wd g, wd o] s (modChainCal c (fun x => { x with gainLim := g, offLim := o }) s))
    ∧ (∀ (r : Req) (s : State) (x : CalRun), Accepted (checksCalStatus r s) r s → bits (reqWord r 4) 8 8 = 0 →
        runOf s r.fn (bits (reqWord r 4) 7 0) = some x →
        Reports (exec (.calStatus r) s) r 0x4B545354 7 0
          (fun res _ => res = [wd (x.outcome + b2n x.finished.isSome * 2 ^ 16), wd x.generation] ++ wd64 x.flip) s s)
    ∧ (∀ (r : Req) (s : State), Accepted (checksCalStatus r s) r s → bits (reqWord r 4) 8 8 = 1 →
        let x := tgetD s.cal.laneRuns (bits (reqWord r 4) 7 0) {}
        Reports (exec (.calStatus r) s) r 0x4B545354 7 0 (fun res _ => res = [wd (x.outcome + b2n x.finished * 2 ^ 16), 0, 0, 0]) s s)
    ∧ ∀ (r : Req) (s : State) (h : GenRec), Accepted (checksCalRead r s) r s →
        findGen s r.fn (reqWord r 4).toNat (bits (reqWord r 5) 15 0) = .inr h →
        Reports (exec (.calRead r) s) r 0x4B545354 7 0 (fun res _ => ∃ n, res = [wd n, wd h.commit] ++ wd64 h.flip) s s

/-- A commit decided now joins its chain's queue in the order of flips, with a flip on a multiple of 200 at least 400 picks ahead: by
`CAL.APPLY` for held candidates, by `CAL.REVERT` for a retained generation or the factory entries; nothing is in force before the flip,
and a discard forgets the candidates (R203, R213, R214). CAL_RUN_FINISH, at the deadline or once every tag has met or failed its
precondition, judges each tag of the run from what the run has gathered, with ST_OK as the run's outcome exactly where every tag has it;
held candidates commit nothing. They expire 60 s later. CAL_FLIP, after a flip of the map that is due, counts the chain's commit and
retains its generation; CAL_SLEW_STEP advances the steps alone (R202, R203, R205, R213, R214, R216, R221). LANE_ADAPT_STEP changes at most
one setting of one lane by one increment, in service at most every 100 picks, and outside the adapt phase and service nothing;
CAL_LANE_RUN_FINISH accepts a run whose smallest eye width has not fallen and whose error ratio has not risen, and otherwise has the
settings step back (R225, R226). MAP_BUILD_COMPLETE sets the flip at the next multiple of 200; MAP_FLIP puts the build's records into the
bindings in force, in order, with the build's depth (R219, R125). -/
def Obligations.CalibrationCommits : Prop :=
  ((∀ (r : Req) (s : State) (x : CalRun), Accepted (checksCalApply r s) r s → bits (reqWord r 5) 0 0 = 1 →
      runOf s r.fn (reqWord r 4).toNat = some x →
      Answers (exec (.calApply r) s) r ST_OK [] s (putRun (runKey r.fn (reqWord r 4).toNat) { x with held := [], busy := false } s))
    ∧ (∀ (r : Req) (s : State) (x : CalRun), Accepted (checksCalApply r s) r s → bits (reqWord r 5) 0 0 = 0 →
        runOf s r.fn (reqWord r 4).toNat = some x →
        ∃ t q b x1, exec (.calApply r) s = .next t ∧ Completes r ST_ACCEPTED [] s t
          ∧ (chainCal t x.chain).queue = (chainCal s x.chain).queue.filter (fun y => decide (y.flip.getD 0 ≤ b))
              ++ q :: (chainCal s x.chain).queue.filter (fun y => decide (b < y.flip.getD 0))
          ∧ q.flip = some b ∧ q.cmd = some (reqRef r) ∧ s.time.spc + 400 ≤ b ∧ b % 200 = 0
          ∧ runOf t r.fn (reqWord r 4).toNat = some x1 ∧ x1.held = [] ∧ x1.flip = b
          ∧ t.cal.tags = s.cal.tags ∧ (∀ c, c ≠ x.chain → chainCal t c = chainCal s c) ∧ t.line = s.line)
    ∧ ∀ (r : Req) (s : State), Accepted (checksCalRevert r s) r s →
        let c := (reqWord r 4).toNat
        ∃ t q b, exec (.calRevert r) s = .next t
          ∧ Completes r ST_ACCEPTED
              [wd (((chainCal s c).commits + ((chainCal s c).queue.filter (fun y => decide (y.flip.getD 0 ≤ b))).length + 1) % 65536)] s t
          ∧ (chainCal t c).queue = (chainCal s c).queue.filter (fun y => decide (y.flip.getD 0 ≤ b))
              ++ q :: (chainCal s c).queue.filter (fun y => decide (b < y.flip.getD 0))
          ∧ q.flip = some b ∧ q.cmd = some (reqRef r) ∧ s.time.spc + 400 ≤ b ∧ b % 200 = 0
          ∧ t.cal.tags = s.cal.tags ∧ (∀ d, d ≠ c → chainCal t d = chainCal s d) ∧ t.cal.runs = s.cal.runs ∧ t.line = s.line)
    ∧ ((∀ (fn slot : Nat) (r : CalRun) (s : State), s.boot.phase = .running → runOf s fn slot = some r →
      r.busy = true → r.finished = none → runDone s r = true →
      ∃ t r1, exec (.calRunFinish fn slot r.start) s = .next t ∧ runOf t fn slot = some r1 ∧ r1.finished = some s.time.spc
        ∧ r1.tags.map (·.pos) = r.posns ∧ (r1.outcome = ST_OK ↔ ∀ x ∈ r1.tags, x.status = ST_OK)
        ∧ (r.hold = true → t.cal.chains = s.cal.chains) ∧ t.cal.tags = s.cal.tags ∧ t.line = s.line ∧ t.safe = s.safe)
    ∧ (∀ (chain b : Nat) (q : Commit) (l : List Commit) (s : State), chainExists s chain = true → s.boot.phase = .running →
        (chainCal s chain).queue = q :: l → q.flip = some b → b ≤ s.time.spc →
        ∃ t, exec (.calFlip chain) s = .next t ∧ (chainCal t chain).commits = (chainCal s chain).commits + 1
          ∧ (chainCal t chain).lastFlip = b ∧ (chainCal t chain).queue = l
          ∧ ((chainCal t chain).history.head?.map (fun h => (h.commit, h.flip))) = some ((chainCal s chain).commits + 1, b)
          ∧ (∀ c, c ≠ chain → chainCal t c = chainCal s c) ∧ t.line = s.line ∧ t.safe.island = s.safe.island
          ∧ t.safe.trips.map (·.id) = s.safe.trips.map (·.id)
          ∧ ((∀ m f, s.map.build = some m → m.flip = some f → s.time.spc < f) → t.safe = s.safe ∧ t.map = s.map))
    ∧ (∀ (chi : Nat) (w : Slew) (s : State), posExists s (posOfChi chi) = true → s.boot.phase = .running →
        tget (tagCal s (posOfChi chi)).slews (chanOf chi) = some w →
        ∃ t, exec (.calSlewStep chi) s = .next t
          ∧ tget (tagCal t (posOfChi chi)).slews (chanOf chi) = some { w with i := max w.i (w.stepAt s.time.spc) }
          ∧ t = { s with cal := { s.cal with tags := t.cal.tags } } ∧ ∀ p, p ≠ posOfChi chi → tagCal t p = tagCal s p)
    ∧ ∀ (fn slot e : Nat) (r : CalRun) (s : State), s.boot.phase = .running → runOf s fn slot = some r → r.finished = some e → r.held ≠ [] →
        e + 6000000 ≤ s.time.spc →
        exec (.calCandidateExpiry fn slot) s = .next (putRun (runKey fn slot) { r with held := [], busy := false } s))
    ∧ ((∀ (lane rx : Nat) (up : Bool) (s : State), laneExists s lane = true → s.boot.phase = .running →
      (laneOf s lane).set.ctle ≤ 31 → (laneOf s lane).set.vga ≤ 63 →
      (∀ i, i < 16 → (geti (laneOf s lane).set.dfe i).natAbs ≤ (if i = 0 then 127 else 63)) →
      ∃ t, exec (.laneAdaptStep lane rx up) s = .next t ∧ SettingsApart (laneOf s lane).set (laneOf t lane).set ≤ 1
        ∧ ((laneOf s lane).lstate = .run → (laneOf t lane).set ≠ (laneOf s lane).set → (laneOf s lane).adaptAt + 100 ≤ s.time.spc ∧ (laneOf t lane).adaptAt = s.time.spc)
        ∧ ((laneOf s lane).lstate ≠ .run → (laneOf s lane).lstate ≠ .adapt → t = s)
        ∧ (∀ l, l ≠ lane → laneOf t l = laneOf s l) ∧ t = { s with lane := { s.lane with lanes := t.lane.lanes } })
    ∧ ∀ (lane : Nat) (m : LaneMeasure) (r : LaneRun) (s : State), laneExists s lane = true → s.boot.phase = .running →
        tget s.cal.laneRuns lane = some r → r.finished = false →
        ∃ t r1, exec (.calLaneRunFinish lane m) s = .next t ∧ tget t.cal.laneRuns lane = some r1 ∧ r1.finished = true
          ∧ r1.outcome = (if least r.eyeW ≤ least m.figures.eyeW ∧ m.figures.ber ≤ r.ber then ST_OK else ST_CAL_REJECTED)
          ∧ (r1.outcome = ST_CAL_REJECTED → (laneOf t lane).back = true ∧ (laneOf t lane).target.ctle = r.set.ctle
              ∧ (laneOf t lane).target.vga = r.set.vga)
          ∧ (laneOf t lane).set = (laneOf s lane).set ∧ ∀ l, l ≠ lane → laneOf t l = laneOf s l)
    ∧ ((∀ (b : Build) (s : State), s.boot.phase = .running → s.map.build = some b → b.flip = none →
      exec .mapBuildComplete s = .next { s with map := { s.map with build := some { b with flip := some (nextMult 200 (s.time.spc + 1)) } } })
    ∧ ∀ (b : Build) (f : Nat) (s : State), s.boot.phase = .running → s.map.build = some b → b.flip = some f → f ≤ s.time.spc →
        ∃ t, exec .mapFlip s = .next t ∧ t.map.bind = b.staged.foldl applyBinding s.map.bind ∧ t.map.build = none
          ∧ t.map.lastFlip = s.time.spc ∧ t.map.staged = s.map.staged ∧ t.loom.depth = b.depth.getD s.loom.depth ∧ t.line = s.line
          ∧ t.safe.trips.map (·.id) = s.safe.trips.map (·.id) ∧ t.safe.island = s.safe.island)

/-! ### Balancing, wire tests and estimates -/

/-- `BAL.SET` sets the mode of the cells of its mask and of no other cell, or a chain's parameters; `DIAG.OPENWIRE` queues a test, or sets a
chain's scan interval (R234, R235, R240, R407). `BAL.STATUS`, `DIAG.TAG` and `DIAG.REPORT` report and change nothing (R236, R254). -/
def Obligations.BalanceCommands : Prop :=
  ((∀ (r : Req) (s : State), Accepted (checksBalSet r s) r s → bits (reqWord r 4) 0 0 = 1 →
      let old := balChain s (reqWord r 5).toNat
      let x : BalChain := { old with vFloor := (reqWord r 6).toNat, db := (reqWord r 7).toNat, th := (reqWord r 8).toNat }
      Answers (exec (.balSet r) s) r ST_OK [] s { s with bal := { s.bal with chains := tset s.bal.chains (reqWord r 5).toNat x } })
    ∧ (∀ (r : Req) (s : State) (p : Nat), Accepted (checksBalSet r s) r s → bits (reqWord r 4) 0 0 = 0 → posParam s (reqWord r 5) = some p →
        let mode := bits (reqWord r 7) 1 0
        let ttl := if bits (reqWord r 7) 25 16 = 0 then 10 else bits (reqWord r 7) 25 16
        ∃ cells : Tbl BalCell,
          Answers (exec (.balSet r) s) r ST_OK [] s { s with bal := { s.bal with cells := cells } }
          ∧ (∀ j, j < 12 → bits (reqWord r 6) j j = 1 →
              let c := balCell s (cellKey p j)
              tget cells (cellKey p j) = some (if mode = 0 then { c with mode := .off, host := 0 }
                else if mode = 1 then { c with mode := .manual, host := bits (reqWord r 7) 8 4, ttlEnd := s.time.spc + 100000 * ttl }
                else { c with mode := .auto_, host := 0 }))
          ∧ ∀ k, (∀ j, j < 12 → bits (reqWord r 6) j j = 1 → k ≠ cellKey p j) → tget cells k = tget s.bal.cells k)
    ∧ (∀ (r : Req) (s : State), Accepted (checksDiagOpenwire r s) r s → bits (reqWord r 4) 0 0 = 1 →
        let old := balChain s (reqWord r 5).toNat
        let x : BalChain := { old with scan := (reqWord r 6).toNat }
        Answers (exec (.diagOpenwire r) s) r ST_OK [] s { s with bal := { s.bal with chains := tset s.bal.chains (reqWord r 5).toNat x } })
    ∧ ∀ (r : Req) (s : State) (p : Nat), Accepted (checksDiagOpenwire r s) r s → bits (reqWord r 4) 0 0 = 0 → posParam s (reqWord r 5) = some p →
        Begins (exec (.diagOpenwire r) s) r 0x0802 p [] s (modDiag p (fun d => { d with asked := d.asked ++ [((reqWord r 6).toNat, reqRef r)] }) s))
    ∧ ((∀ (r : Req) (s : State), Accepted (checksBalStatus r s) r s →
      Reports (exec (.balStatus r) s) r 0x4B545354 8 0 (fun res _ => ∃ n, res = [wd n]) s s)
    ∧ (∀ (r : Req) (s : State) (p : Nat), Accepted (checksDiagTag r s) r s → posParam s (reqWord r 4) = some p →
        Reports (exec (.diagTag r) s) r 0x4B545354 8 0 (fun res _ => res = [wd (diagOf s p).faults]) s s)
    ∧ ∀ (r : Req) (s : State), Accepted (checksDiagReport r s) r s →
        Reports (exec (.diagReport r) s) r 0x4B545354 8 0 (fun res _ => ∃ n, res = [wd n]) s s)

/-- BALANCE_FRAME_BOUNDARY brings the duty decided before into force and decides the next: none for a cell that is off, whose time to live has
run out, or whose tag the safety island turns off. BALANCE_TTL_EXPIRY turns the cell off (R231 to R234). OPEN_WIRE_RESULT counts the test
and frees the tag's quiet window, and a test with more than 2 gap samples counts as invalid alone; PASSIVE_CLASSIFICATION leaves every
wire that its samples name suspect or confirmed broken, and none newly suspect while an outer wire is broken. No other tag's diagnostics
change (R242, R244). -/
def Obligations.BalanceAndWireRows : Prop :=
  ((∀ s : State, s.boot.phase = .running → s.bal.frame ≤ (s.time.spc + 200) / 3200 → (s.line.posns.map (·.1)).Nodup →
      ∃ t, exec .balanceFrameBoundary s = .next t ∧ t.bal.frame = (s.time.spc + 200) / 3200 + 1
        ∧ (∀ p ∈ tkeys s.line.posns (fun _ x => x.kind == .ct12), ∀ j, j < 12 →
            let c := balCell s (cellKey p j)
            let d := balCell t (cellKey p j)
            d.duty = c.next ∧ (safetyOff s p = true → d.next = 0 ∧ d.cause = 1) ∧ (c.mode = .off → d.next = 0)
              ∧ (c.mode = .manual → c.ttlEnd ≤ s.time.spc + 200 → d.next = 0 ∧ d.mode = .off))
        ∧ t.line = s.line ∧ t.safe = s.safe ∧ t.time = s.time)
    ∧ ∀ (pos cell : Nat) (s : State), posExists s pos = true → cell < 12 → s.boot.phase = .running →
        (balCell s (cellKey pos cell)).mode = .manual → (balCell s (cellKey pos cell)).ttlEnd ≤ s.time.spc →
        exec (.balanceTtlExpiry pos cell) s = .next (modCell (cellKey pos cell) (fun c => { c with mode := .off, host := 0 }) s))
    ∧ ((∀ (pos w tw target : Nat) (odd : Bool) (why : TestWhy) (s : State), posExists s pos = true → s.boot.phase = .running →
      (diagOf s pos).quiet = some (w, .test tw target odd why) → w + 500 ≤ s.time.spc →
      ∃ t, exec (.openWireResult pos w) s = .next t ∧ (diagOf t pos).quiet = none ∧ (diagOf t pos).run = (diagOf s pos).run + 1
        ∧ (2 < (wireTestAt s pos w odd).gaps → (diagOf t pos).invalid = (diagOf s pos).invalid + 1 ∧ (diagOf t pos).passed = (diagOf s pos).passed
            ∧ (diagOf t pos).opened = (diagOf s pos).opened ∧ (diagOf t pos).suspect = (diagOf s pos).suspect
            ∧ (diagOf t pos).broken = (diagOf s pos).broken)
        ∧ (∀ p, p ≠ pos → diagOf t p = diagOf s p) ∧ t.line = s.line ∧ t.safe = s.safe)
    ∧ ∀ (pos k : Nat) (s : State), posExists s pos = true → s.boot.phase = .running → s.time.spc = 10000 * k →
        (posOf s pos).kind = .ct12 → (posOf s pos).state = .released →
        let x := passiveStats (diagOf s pos) k
        ∃ t, exec (.passiveClassification pos k) s = .next t ∧ (diagOf t pos).means = x.means
          ∧ (0 ∉ brokenWires s pos → 12 ∉ brokenWires s pos → x.means ≠ [] → ∀ w ∈ passiveWires x, thas (diagOf t pos).suspect w = true ∨ thas (diagOf t pos).broken w = true)
          ∧ ((0 ∈ brokenWires s pos ∨ 12 ∈ brokenWires s pos ∨ x.means = []) → (diagOf t pos).suspect = (diagOf s pos).suspect)
          ∧ (diagOf t pos).broken = (diagOf s pos).broken ∧ (∀ p, p ≠ pos → diagOf t p = diagOf s p) ∧ t.line = s.line ∧ t.safe = s.safe)

/-- `EST.CONFIG` loads, deletes or binds a profile, sets a drive tag's figures, a tag's thermistors or a cell's reference resistance, or keeps
the cells of a position after a suspected swap (R258, R259, R284, R408). `EST.LEARN`, `EST.RESET` and `EST.HIBERNATE` act on the cells of
the issuing function in their range, or on the function (R266, R273 to R275, R283). -/
def Obligations.EstimatorCommands : Prop :=
  (∀ (r : Req) (s : State), Accepted (checksEstConfig r s) r s → (fnEst s r.fn).hiber = false →
    let u := Noticed r s
    let o := exec (.estConfig r) s
    let p := bits (reqWord r 5) 31 13
    ((reqWord r 4).toNat = 0 → Answers o r ST_OK [] s
        { u with est := { u.est with profiles := tset u.est.profiles (profKey r.fn (reqWord r 5).toNat) (readProfile r.inb.dropLast) } })
      ∧ ((reqWord r 4).toNat = 1 → Answers o r ST_OK [] s
          { u with est := { u.est with profiles := tdel u.est.profiles (profKey r.fn (reqWord r 5).toNat) } })
      ∧ ((reqWord r 4).toNat = 2 → Answers o r ST_OK [] s
          { u with est := { u.est with bound := tset u.est.bound p (profKey r.fn (reqWord r 6).toNat) } })
      ∧ ((reqWord r 4).toNat = 3 → Answers o r ST_OK [] s
          (modStr p (fun x => { x with
            iNom := some (reqWord r 6).toNat, tRest := bits (reqWord r 7) 15 0, rateRest := bits (reqWord r 7) 31 16
            autoHib := (reqWord r 8).toNat == 1 }) u))
      ∧ ((reqWord r 4).toNat = 4 → Answers o r ST_OK [] s
          { u with est := { u.est with therm := tset u.est.therm p ((List.range 12).map (fun j => bits (reqWord r 6) (2 * j + 1) (2 * j))) } })
      ∧ ((reqWord r 4).toNat = 5 → Answers o r ST_OK [] s
          (putCell (bits (reqWord r 5) 31 9) { cellOf s (bits (reqWord r 5) 31 9) with rRef := (reqWord r 6).toNat } u))
      ∧ ((reqWord r 4).toNat = 6 → ∃ cells : Tbl Cell, Answers o r ST_OK [] s { u with est := { u.est with cells := cells } }
          ∧ (∀ j c, j < 12 → tget s.est.cells (cellKey p j) = some c → c.swapSusp = true →
              tget cells (cellKey p j) = some { c with swapSusp := false, valid := true, ub := c.ub + 20000 })
          ∧ ∀ k, (∀ j, j < 12 → k ≠ cellKey p j) → tget cells k = tget s.est.cells k))
    ∧ ((∀ (r : Req) (s : State), Accepted (checksEstLearn r s) r s → (fnEst s r.fn).hiber = false → (reqWord r 4).toNat = 0 →
      Reports (exec (.estLearn r) s) r 0x4B545354 9 0 (fun res _ => ∃ n, res = [wd n]) s (Noticed r s))
    ∧ (∀ (r : Req) (s : State), Accepted (checksEstLearn r s) r s → (fnEst s r.fn).hiber = false → (reqWord r 4).toNat ≠ 0 →
        let mine := rangeCells s r (rangeParam s (reqWord r 5) (reqWord r 6))
        ∃ cells : Tbl Cell,
          Answers (exec (.estLearn r) s) r ST_OK [wd mine.length] s { Noticed r s with est := { (Noticed r s).est with cells := cells } }
          ∧ (∀ k ∈ mine, ∃ c, tget cells k = some c
              ∧ ((reqWord r 4).toNat = 1 → c.fullAsked = true) ∧ ((reqWord r 4).toNat = 2 → c.learnOff = true ∧ c.learn = none)
              ∧ ((reqWord r 4).toNat = 3 → c.learnOff = false)
              ∧ ((reqWord r 4).toNat = 4 → c.cap = (reqWord r 7).toNat ∧ c.uCap = (reqWord r 8).toNat)
              ∧ c.est = (cellOf s k).est ∧ c.rep = (cellOf s k).rep)
          ∧ ∀ k, k ∉ mine → tget cells k = tget s.est.cells k)
    ∧ (∀ (r : Req) (s : State), Accepted (checksEstReset r s) r s → (fnEst s r.fn).hiber = false →
        let mine := rangeCells s r (rangeParam s (reqWord r 4) (reqWord r 5))
        ∃ cells half : Tbl Cell,
          Answers (exec (.estReset r) s) r ST_OK [wd mine.length] s
            { Noticed r s with est := { (Noticed r s).est with cells := cells, half := half } }
          ∧ ((reqWord r 6).toNat = 0 → ∀ k ∈ mine, tget cells k = some { realAt := s.time.spc } ∧ tget half k = some { realAt := s.time.spc })
          ∧ ((reqWord r 6).toNat = 1 → ∀ k ∈ mine, ∃ c, tget cells k = some c ∧ c.fresh = false ∧ c.est = (reqWord r 7).toNat * 1000000
              ∧ c.rep = (reqWord r 7).toNat * 1000000 ∧ c.ur2 = (reqWord r 8).toNat ^ 2 ∧ c.valid = true ∧ c.aType = 7
              ∧ c.anchorSpc = s.time.spc ∧ c.realAt = s.time.spc ∧ tget half k = some { realAt := s.time.spc })
          ∧ ∀ k, k ∉ mine → tget cells k = tget s.est.cells k ∧ tget half k = tget s.est.half k)
    ∧ (∀ (r : Req) (s : State), Accepted (checksEstHibernate r s) r s → (reqWord r 4).toNat = 0 →
        let x := fnEst s r.fn
        Answers (exec (.estHibernate r) s) r ST_OK (wd (b2n x.hiber) :: wd64 x.since) s (modFn r.fn (fun x => { x with asked := !x.hiber }) s))
    ∧ (∀ (r : Req) (s : State), Accepted (checksEstHibernate r s) r s → (reqWord r 4).toNat = 1 → (fnEst s r.fn).hiber = false →
        Answers (exec (.estHibernate r) s) r ST_OK (0 :: wd64 (fnEst s r.fn).since) s (Noticed r s))
    ∧ ∀ (r : Req) (s : State), Accepted (checksEstHibernate r s) r s → (reqWord r 4).toNat = 1 → (fnEst s r.fn).hiber = true →
        ∃ t, exec (.estHibernate r) s = .next t ∧ Completes r ST_OK (1 :: wd64 (fnEst s r.fn).since) s t ∧ (fnEst t r.fn).hiber = false
          ∧ t.line = s.line ∧ t.safe = s.safe)

/-- `EST.READ` writes estimates and clears at most the error flags that it reported; `EST.SAVE` writes an image; `EST.RESTORE` waits for the
next step with what the buffer holds (R280 to R282). -/
def Obligations.EstimatorImages : Prop :=
  (∀ (r : Req) (s : State), Accepted (checksEstRead r s) r s → (fnEst s r.fn).hiber = false →
      ∃ (cells : Tbl Cell) (strs : Tbl Str),
        Reports (exec (.estRead r) s) r 0x4B544552 0x31 0 (fun res ws => res.head? = some (wd (ws.length * 4))) s
          { Noticed r s with est := { (Noticed r s).est with cells := cells, strs := strs } }
        ∧ (∀ k, tget cells k = tget s.est.cells k ∨ tget cells k = (tget s.est.cells k).map (fun c => { c with error := false }))
        ∧ ∀ d, tget strs d = tget s.est.strs d ∨ tget strs d = (tget s.est.strs d).map (fun c => { c with error := false }))
    ∧ (∀ (r : Req) (s : State), Accepted (checksEstSave r s) r s → (fnEst s r.fn).hiber = false →
        Reports (exec (.estSave r) s) r 0x4B544553 0x21 1 (fun res ws => res.head? = some (wd (ws.length * 4))) s (Noticed r s))
    ∧ ∀ (r : Req) (s : State), Accepted (checksEstRestore r s) r s → (fnEst s r.fn).hiber = false →
        ∃ job : RestoreJob, job.fn = r.fn ∧ job.ref = reqRef r
          ∧ job.uRestore = (if (reqWord r 4).toNat = 0xFFFFFFFF then 20000 else (reqWord r 4).toNat)
          ∧ Defers (exec (.estRestore r) s) r .restore s
              { Noticed r s with est := { (Noticed r s).est with restores := (Noticed r s).est.restores ++ [job] } }

/-- ESTIMATOR_STEP brings an awake context up to the end of its interval, and leaves a hibernating function's contexts alone; HIBERNATE_ENTRY
hibernates a function that has asked; ANCHOR_PASS brings a hibernating function's strings up to the latest committed second (R262, R275,
R276). SYNTH_ANCHOR_DUE gives a cell that has had no rest or empty anchor for 72 h the anchor that its records give, of type 4, and leaves
a cell alone that has had one (R268). -/
def Obligations.EstimatorRows : Prop :=
  ((∀ (chi j : Nat) (s : State), posExists s (posOfChi chi) = true → s.boot.phase = .running → 100000 * (j + 1) + 1600 ≤ s.time.spc →
      (fnEst s (ownerOf s (chainOfChi chi))).hiber = false → s.therm.force < 4 ∨ j % 2 = 0 → hasCell s chi = true →
      (cellOf s chi).stepSpc < 100000 * (j + 1) →
      ∃ t c, exec (.estimatorStep chi j) s = .next t ∧ tget t.est.cells chi = some c ∧ c.stepSpc = 100000 * (j + 1)
        ∧ t.est.strs = s.est.strs ∧ t.line = s.line ∧ t.safe = s.safe ∧ t.acc = s.acc)
    ∧ (∀ (p j : Nat) (s : State), posExists s p = true → s.boot.phase = .running → 100000 * (j + 1) + 1600 ≤ s.time.spc →
        (fnEst s (ownerOf s (chainOfPos p))).hiber = false → s.therm.force < 4 ∨ j % 2 = 0 → (posOf s p).kind = .dt1 →
        (posOf s p).state = .released → (strOf s p).now.stepSpc < 100000 * (j + 1) →
        ∃ t, exec (.estimatorStep (p * 16 + 6) j) s = .next t ∧ (strOf t p).now.stepSpc = 100000 * (j + 1) ∧ (strOf t p).half = (strOf s p).now ∧ t.est.cells = s.est.cells
          ∧ (strOf t p).integ = (strOf s p).integ ∧ (∀ q, q ≠ p → strOf t q = strOf s q) ∧ t.line = s.line)
    ∧ (∀ (chi j : Nat) (s : State), posExists s (posOfChi chi) = true → (fnEst s (ownerOf s (chainOfChi chi))).hiber = true →
        exec (.estimatorStep chi j) s = .next s)
    ∧ (∀ (fn : Nat) (s : State), s.boot.phase = .running → (fnEst s fn).hiber = false → (fnEst s fn).asked = true →
        s.time.spc % 100000 = 1600 →
        ∃ t, exec (.hibernateEntry fn) s = .next t ∧ (fnEst t fn).hiber = true ∧ (fnEst t fn).since = s.time.spc ∧ (fnEst t fn).asked = false
          ∧ (∀ f, f ≠ fn → fnEst t f = fnEst s f) ∧ t.est.cells = s.est.cells ∧ t.est.strs = s.est.strs ∧ t.line = s.line)
    ∧ ∀ (fn j : Nat) (s : State), s.boot.phase = .running → (fnEst s fn).hiber = true → lastSecond s = some j → passDue s fn = true →
        ∃ t, exec (.anchorPass fn) s = .next t ∧ (∀ d ∈ stringsOf s fn, 100000 * (j + 1) ≤ (strOf t d).now.stepSpc) ∧ t.est.fns = s.est.fns
          ∧ t.line = s.line ∧ t.safe = s.safe)
    ∧ ((∀ (chi d u : Nat) (x : Int) (g : Profile) (s : State), posExists s (posOfChi chi) = true → s.boot.phase = .running →
      profileOf s (posOfChi chi) = some g → driveOf s (posOfChi chi) = some d → hasCell s chi = true → (cellOf s chi).fresh = false →
      (cellOf s chi).realAt + 25920000000 ≤ s.time.spc → (cellOf s chi).synthAt = none → (cellOf s chi).susp = false →
      (fnEst s (ownerOf s (chainOfChi chi))).hiber = false → synthesise s chi d g (cellOf s chi) = some (x, u) →
      ∃ t c, exec (.synthAnchorDue chi) s = .next t ∧ tget t.est.cells chi = some c ∧ c.aType = 4 ∧ c.anchorSpc = s.time.spc ∧ c.synth = true
        ∧ c.noAnchor = true ∧ c.synthAt = some s.time.spc ∧ c.realAt = (cellOf s chi).realAt
        ∧ (∀ k, k ≠ chi → tget t.est.cells k = tget s.est.cells k) ∧ t.line = s.line)
    ∧ ∀ (chi : Nat) (s : State), posExists s (posOfChi chi) = true → s.time.spc < (cellOf s chi).realAt + 25920000000 →
        exec (.synthAnchorDue chi) s = .next s)

/-! ### Safety -/

/-- Every internal fault is taken up as a lockout cause: clock monitor, safety core, watchdog, supply, a record that fails its check, a
discrepancy of the lines of an input in use, a readback that disagrees, and a line that stays high through its test pulse (R15, R338,
R339, R342, R345). A demand at an input in use is in force at once over its chains and its outputs, and holds after the release where the
input latches; a line that goes low is seen whether or not the input is used; a line that obeys its test pulse is driven low and high
again (R338, R339). -/
def Obligations.LockoutCauses : Prop :=
  ((∀ s : State, s.boot.phase = .running →
      (∃ t, exec .clockMonitorFault s = .next t ∧ LocksOut LC_CLOCK s t)
      ∧ (∃ t, exec .safetyCoreFault s = .next t ∧ LocksOut LC_CORE s t)
      ∧ (∃ t, exec .islandWatchdogExpiry s = .next t ∧ LocksOut LC_WDOG s t)
      ∧ ∃ t, exec .islandSupplyFault s = .next t ∧ LocksOut LC_SUPPLY s t)
    ∧ (∀ (record : Nat) (s : State), s.boot.phase = .running → recordHeld s record = true →
        ∃ t, exec (.safetyRecordCheckFail record) s = .next t ∧ LocksOut LC_CFG s t ∧ record ∈ t.safe.bad)
    ∧ (∀ (k : Nat) (s : State), k < 4 → s.boot.phase = .running → (s.safe.inputs.getD k {}).scope ≠ 0 →
        ∃ t, exec (.safeInDiscrepancy k) s = .next t ∧ LocksOut LC_IN_DISC s t)
    ∧ (∀ (k : Nat) (lineB readback : Bool) (s : State), k < 8 → s.boot.phase = .running → readback ≠ outOn s k →
        ∃ t, exec (.outFb k lineB readback) s = .next t ∧ LocksOut LC_OUT_FB s t
          ∧ tget t.safe.readback (2 * k + b2n lineB) = some readback)
    ∧ ∀ (k : Nat) (lineB : Bool) (s : State), k < 8 → s.boot.phase = .running → outOn s k = true →
        ∃ t, exec (.safeOutTestPulse k lineB true) s = .next t ∧ t.safe.island = .lockout ∧ t.safe.causes = [LC_OUT_FB] ∧ OutputsOff t)
    ∧ ((∀ (k : Nat) (a b : Bool) (s : State), k < 4 → s.boot.phase = .running → (a && b) = false →
      let x := s.safe.inputs.getD k {}
      ∃ t, exec (.safeInDemand k a b) s = .next t ∧ t.safe.inA.testBit k = a ∧ t.safe.inB.testBit k = b
        ∧ (x.scope = 0 → t.safe.demand = s.safe.demand ∧ t.safe.latched = s.safe.latched)
        ∧ (x.scope ≠ 0 → t.safe.demand.testBit k = true ∧ (x.latch = true → t.safe.latched.testBit k = true)
            ∧ (x.scope = 1 → ∀ c, inputOff t c = true) ∧ (x.scope = 2 → ∀ c ∈ x.chains, inputOff t c = true)
            ∧ ∀ o, x.mask.testBit o = true → outOn t o = false)
        ∧ (∀ j, j ≠ k → t.safe.demand.testBit j = s.safe.demand.testBit j ∧ t.safe.latched.testBit j = s.safe.latched.testBit j
            ∧ t.safe.inA.testBit j = s.safe.inA.testBit j ∧ t.safe.inB.testBit j = s.safe.inB.testBit j)
        ∧ t.safe.island = s.safe.island ∧ t.safe.trips = s.safe.trips ∧ t.line = s.line)
    ∧ (∀ (k : Nat) (s : State), k < 4 → s.boot.phase = .running →
        ∃ t, exec (.safeInRelease k) s = .next t ∧ t.safe.inA.testBit k = true ∧ t.safe.inB.testBit k = true
          ∧ t.safe.demand.testBit k = false ∧ t.safe.latched = s.safe.latched
          ∧ (∀ j, j ≠ k → t.safe.demand.testBit j = s.safe.demand.testBit j ∧ t.safe.inA.testBit j = s.safe.inA.testBit j
              ∧ t.safe.inB.testBit j = s.safe.inB.testBit j)
          ∧ t.safe.island = s.safe.island ∧ t.safe.trips = s.safe.trips ∧ t.line = s.line ∧ t.out = s.out)
    ∧ ∀ (k : Nat) (lineB : Bool) (s : State), k < 8 → s.boot.phase = .running → outOn s k = true →
        let n := 2 * k + b2n lineB
        exec (.safeOutTestPulse k lineB false) s = .next { s with
          out := { s.out with pins := (n, true) :: (n, false) :: s.out.pins }, safe := { s.safe with readback := tdel s.safe.readback n } })

/-- SAFE_RST_N low for 100 ms to 1 s opens a window of 10 s for the acknowledgement, any other low opens none; a passed start test without a
persistent cause leads to `RUN`, with every trip, stop and demand kept, and any other leaves the island in lockout; the acknowledgement's
completion is written (R346). Password checks resume with the count of failures at 0 (R347). A password that is wrong is counted, and the
fifth in a row suspends the checks for 60 s (R347): the command is refused with ST_AUTH and changes nothing else of the island's
configuration. -/
def Obligations.LeavingLockout : Prop :=
  ((∀ (lowMs : Nat) (s : State), s.boot.phase = .running →
      ∃ t, exec (.safeRstNPulse lowMs) s = .next t
        ∧ (100 ≤ lowMs → lowMs ≤ 1000 → t = { s with safe := { s.safe with ackUntil := some (s.time.spc + 1000000) } })
        ∧ (lowMs < 100 ∨ 1000 < lowMs → t.safe = s.safe ∧ t.line = s.line ∧ t.time = s.time))
    ∧ (∀ (e : Nat) (s : State), s.safe.ackUntil = some e →
        exec .ackWindowExpiry s = .next (if e ≤ s.time.spc then { s with safe := { s.safe with ackUntil := none } } else s))
    ∧ (∀ (pass : Bool) (s : State), s.boot.phase = .running → s.safe.testing = true → s.safe.island = .lockout →
        ∃ t, exec (.safeStartTestDone pass) s = .next t ∧ t.safe.testing = false
          ∧ (pass = true → causePersists s = false → t.safe.island = .run ∧ t.safe.kill = false ∧ t.safe.causes = [] ∧ t.safe.ackUntil = none)
          ∧ (pass = false ∨ causePersists s = true → t.safe.island = .lockout ∧ t.safe.kill = s.safe.kill ∧ t.safe.causes = s.safe.causes
              ∧ t.safe.ackUntil = s.safe.ackUntil)
          ∧ (∀ d ∈ t.cmd.deferred, d.kind ≠ .lockoutAck) ∧ t.safe.trips = s.safe.trips ∧ t.safe.stops = s.safe.stops
          ∧ t.safe.latched = s.safe.latched ∧ t.line = s.line ∧ t.time = s.time)
    ∧ ∀ (e : Nat) (s : State), s.safe.pwUntil = some e →
        exec .passwordSuspensionEnd s
          = .next (if e ≤ s.time.spc then { s with safe := { s.safe with pwUntil := none, pwFails := 0 } } else s))
    ∧ (∀ (r : Req) (s : State), served r s = true → r.twin = false → r.back = false → routeOf 0x0B00 r s = .here →
    firstFail (checksSafeConfig r s) r s = some ST_AUTH → s.safe.password.isSome = true → pwSuspended s = false →
    ∃ t, exec (.safeConfig r) s = .next t
      ∧ (s.safe.pwFails < 4 → t.safe.pwFails = s.safe.pwFails + 1 ∧ t.safe.pwUntil = s.safe.pwUntil)
      ∧ (s.safe.pwFails = 4 → t.safe.pwFails = 0 ∧ t.safe.pwUntil = some (s.time.spc + 6000000) ∧ pwSuspended t = true)
      ∧ t.safe.pendingCfg = s.safe.pendingCfg ∧ t.safe.sets = s.safe.sets ∧ t.safe.password = s.safe.password ∧ t.line = s.line)

/-- A change of the configuration is logged, waits for the next multiple of 200 after its acceptance, and comes into force there and not
before; what it does not concern keeps (R350, R352). `SAFE.CONFIG`, `SAFE.ARM` and the window set form of `SAFE.TIGHTEN` ask for changes
(R325, R348, R354). -/
def Obligations.SafetyChanges : Prop :=
  (∀ s : State, s.boot.phase = .running →
      ∃ t, exec .safetyConfigFlip s = .next t
        ∧ t.safe.pendingCfg = s.safe.pendingCfg.filter (fun c => decide (s.time.spc < c.flip))
        ∧ (∀ l c, s.safe.pendingCfg.filter (fun c => decide (c.flip ≤ s.time.spc)) = l ++ [c] → Changed c.change t.safe)
        ∧ ((∀ c ∈ s.safe.pendingCfg, s.time.spc < c.flip) → t.safe.sets = s.safe.sets ∧ t.safe.armed = s.safe.armed
            ∧ t.safe.assign = s.safe.assign ∧ t.safe.derived = s.safe.derived ∧ t.safe.ioEn = s.safe.ioEn ∧ t.safe.inputs = s.safe.inputs)
        ∧ t.safe.island = s.safe.island ∧ t.line = s.line ∧ t.time = s.time)
    ∧ (∀ (r : Req) (s : State) (kind wset : Nat) (c : CfgChange), Accepted (checksSafeConfig r s) r s →
        readConfig s (readPw r) = some (kind, wset, c) →
        ∃ t, exec (.safeConfig r) s = .next t ∧ Completes r ST_ACCEPTED (wd64 s.safe.logSeq) s t ∧ Asked r c s t)
    ∧ (∀ (r : Req) (s : State), Accepted (checksSafeArm r s) r s →
        ∃ t, exec (.safeArm r) s = .next t ∧ Completes r ST_ACCEPTED [] s t
          ∧ Asked r (.arm (bits (reqWord r 4) 11 0) (bits (reqWord r 4) 16 16 == 1)) s t)
    ∧ ∀ (r : Req) (s : State) (d : WSet), Accepted (checksSafeTighten r s) r s → bits (reqWord r 4) 0 0 = 0 → readSet s r.inb.dropLast = some d →
        let base := bits (reqWord r 5) 11 0
        let chain := (reqWord r 6).toNat
        ∃ t num, exec (.safeTighten r) s = .next t ∧ Completes r ST_ACCEPTED [] s t
          ∧ Asked r (.tighten base chain { num := num, set := { d with num := num } }) s t
          ∧ ∀ o, tget s.safe.derived (derivedKey chain base) = some o → num = o.num

/-- `SAFE.STATUS`, `SAFE.ACK`, `SAFE.LOG`, `SAFE.PASSWD` and the stop of `SAFE.TIGHTEN` (R332, R334, R335, R346, R349, R350). -/
def Obligations.SafetyCommands : Prop :=
  (∀ (r : Req) (s : State), Accepted (checksSafeStatus r s) r s → bits (reqWord r 4) 1 0 = 0 →
      Reports (exec (.safeStatus r) s) r 0x4B545354 0x0B 0
        (fun res _ => ∃ n, res = [wd (islandCode s.safe.island + (if s.safe.island = .lockout then s.safe.causes.headD 0 else 0) * 2 ^ 8), wd n,
          wd (if r.fn = mgmt then s.safe.logLost else 0), wd (b2n s.safe.password.isSome + b2n (pwSuspended s) * 2)]) s s)
    ∧ (∀ (r : Req) (s : State), Accepted (checksSafeStatus r s) r s → bits (reqWord r 4) 1 0 = 1 →
        Harvests (exec (.safeStatus r) s) r 0x4B545346 0x51
          ((harvestLeft { magic := 0x4B545346, cls := 0x51 } r [1, (reqWord r 5).toNat]
            (fastSections s (statusChains s r.fn (reqWord r 5 == 0xFFFFFFFF) (reqWord r 5).toNat)) s).map (·.2)) s s)
    ∧ (∀ (r : Req) (s : State), Accepted (checksSafeStatus r s) r s → bits (reqWord r 4) 1 0 = 2 →
        ∃ chains : List Nat, Answers (exec (.safeStatus r) s) r ST_OK [] s
            { s with safe := { s.safe with apsisReset := s.safe.apsisReset ++ [(nextMult 8 (s.time.spc + 1), chains)] } }
          ∧ ∀ c ∈ chains, owns s r.fn c = true)
    ∧ (∀ (r : Req) (s : State), Accepted (checksSafeAck r s) r s → bits (reqWord r 4) 1 0 = 0 →
        ∃ trip ∈ s.safe.trips, trip.id = (reqWord r 5).toNat ∧ tripCleared s trip = true
          ∧ Answers (exec (.safeAck r) s) r ST_OK [] s { s with safe := { s.safe with trips := s.safe.trips.filter (fun x => x != trip) } })
    ∧ (∀ (r : Req) (s : State), Accepted (checksSafeAck r s) r s → bits (reqWord r 4) 1 0 = 1 →
        Answers (exec (.safeAck r) s) r ST_OK [] s { s with safe := { s.safe with stops := tdel s.safe.stops (reqWord r 5).toNat } })
    ∧ (∀ (r : Req) (s : State), Accepted (checksSafeAck r s) r s → bits (reqWord r 4) 1 0 = 2 →
        ∃ latched : Nat, Answers (exec (.safeAck r) s) r ST_OK [] s { s with safe := { s.safe with latched := latched } }
          ∧ ∀ j, latched.testBit j = (s.safe.latched.testBit j && j != (reqWord r 5).toNat))
    ∧ (∀ (r : Req) (s : State), Accepted (checksSafeAck r s) r s → bits (reqWord r 4) 1 0 = 3 →
        Defers (exec (.safeAck r) s) r .lockoutAck s { s with safe := { s.safe with testing := true, ackUntil := none } })
    ∧ (∀ (r : Req) (s : State), Accepted (checksSafeLog r s) r s → bits (reqWord r 4) 0 0 = 0 →
        Reports (exec (.safeLog r) s) r 0x4B545354 0x0B 0 (fun res _ => ∃ n, res = [wd n]) s s)
    ∧ (∀ (r : Req) (s : State), Accepted (checksSafeLog r s) r s → bits (reqWord r 4) 0 0 = 1 →
        let last := of64 ((readPw r).body.getD 0 0) ((readPw r).body.getD 1 0)
        ∃ t n, exec (.safeLog r) s = .next t ∧ Completes r ST_OK [wd n] s t
          ∧ (∀ e ∈ s.safe.log, of64 (reqWord r 5) (reqWord r 6) ≤ e.seq → e.seq ≤ last → s.safe.log.length < 4096 →
              { e with archived := true } ∈ t.safe.log)
          ∧ t.safe.trips = s.safe.trips ∧ t.safe.island = s.safe.island ∧ t.line = s.line)
    ∧ (∀ (r : Req) (s : State), Accepted (checksSafePasswd r s) r s →
        ∃ t, exec (.safePasswd r) s = .next t ∧ Completes r ST_OK [] s t
          ∧ t.safe.password = some ((bytesOf ((List.range 16).map fun i => r.inb.getD (18 + i) 0)).take (r.inb.getD 17 0).toNat)
          ∧ t.safe.pwFails = 0 ∧ t.safe.trips = s.safe.trips ∧ t.safe.island = s.safe.island ∧ t.line = s.line)
    ∧ ∀ (r : Req) (s : State), Accepted (checksSafeTighten r s) r s → bits (reqWord r 4) 0 0 = 1 →
        Answers (exec (.safeTighten r) s) r ST_OK [] s
          { s with safe := { s.safe with stops := tset s.safe.stops (reqWord r 6).toNat { spc := s.time.spc } } }

/-- A covered channel that has been blind for `T_BLIND` trips with cause BLIND, or keeps the condition of its latched trip present (R337). The
trip carries its owner, the set's outputs and scope, and is in force at the coming boundary, where the tags of its scope and its outputs
are off (R331, R332). -/
def Obligations.BlindTrip : Prop :=
  ∀ (chi num : Nat) (w : WSet) (s : State), posExists s (posOfChi chi) = true → s.boot.phase = .running → coverOf s (posOfChi chi) = some (num, w) →
    exempt s (posOfChi chi) w = false → unmeasuredPos s (posOfChi chi) w = false →
    (∃ k ∈ watched s (posOfChi chi), k.1 / 8 = chi ∧ ∃ b, blindSince s k.1 k.2 = some b ∧ b + 8 * w.tBlind ≤ s.time.spc) →
    ∃ t, exec (.blindTimeout chi) s = .next t
      ∧ (∃ x ∈ t.safe.trips, x.cause = 5 ∧ x.chi = chi ∧ x.wset = num ∧ x.lastBad = s.time.spc)
      ∧ ((∀ x ∈ s.safe.trips, ¬(x.cause = 5 ∧ x.chi = chi)) → ∃ x ∈ t.safe.trips, x.cause = 5 ∧ x.chi = chi ∧ x.wset = num
          ∧ x.fn = ownerOf s (chainOfChi chi) ∧ x.since = s.time.spc + 1 ∧ x.mask = w.outMask
          ∧ x.scope = scopeOf s (if (posOf s (posOfChi chi)).kind = .dt1 then w.scopeC else w.scopeW) num (posOfChi chi)
          ∧ (∀ d, (posOf s d).kind = .dt1 → inScope x.scope d = true → safetyOff t d = true)
          ∧ ∀ o, w.outMask.testBit o = true → outOn t o = false)
      ∧ t.line = s.line ∧ t.time = s.time ∧ t.safe.island = s.safe.island

/-- The limits a covered tag is judged against are the tighter of the base set's and of its chain's derived set's in every field; outputs and
scopes are the base set's (R326). -/
def Obligations.EffectiveLimits : Prop :=
  ∀ (s : State) (num chain : Nat) (b : WSet), tget s.safe.sets num = some b →
    ∃ w, effective s num chain = some w
      ∧ (tget s.safe.derived (derivedKey chain num) = none → w = b)
      ∧ (∀ d, tget s.safe.derived (derivedKey chain num) = some d →
          w.vHi = min b.vHi d.set.vHi ∧ w.vLo = max b.vLo d.set.vLo ∧ w.tHi = min b.tHi d.set.tHi ∧ w.tLo = max b.tLo d.set.tLo
            ∧ w.iChg = min b.iChg d.set.iChg ∧ w.iDis = min b.iDis d.set.iDis ∧ w.tBlind = min b.tBlind d.set.tBlind
            ∧ w.nV = min b.nV d.set.nV ∧ w.nT = min b.nT d.set.nT ∧ w.dirTol = min b.dirTol d.set.dirTol
            ∧ w.dir = b.dir ||| d.set.dir ∧ w.parkOk = (b.parkOk && d.set.parkOk))
      ∧ w.outMask = b.outMask ∧ w.scopeW = b.scopeW ∧ w.scopeC = b.scopeC
      ∧ ∀ p v, chainOfPos p = chain → coverOf s p = some (num, v) → v = w

/-- Outside `RUN`, and while the kill line is asserted, every tag is demanded off, every chain is sent `SPO_ALL`, and every SAFE_OUT channel
is off (R320, R321, R344). -/
def Obligations.KilledIsOff : Prop := ∀ s : State, s.safe.island ≠ .run ∨ s.safe.kill = true → TagsOff s ∧ OutputsOff s ∧ ∀ c, spoAll s c = true

/-! ### Charge programs -/

/-- `CHG.LOAD`, `CHG.START` and `CHG.STOP` load a program, set its start, and ramp it down or end it (R294, R306, R309). -/
def Obligations.ProgramCommands : Prop :=
  (∀ (r : Req) (s : State) (d : Nat), Accepted (checksChgLoad r s) r s → posParam s (reqWord r 4) = some d →
      ∃ u, Answers (exec (.chgLoad r) s) r ST_OK [] s u ∧ OnlyDrive d s u
        ∧ (driveRec u d).prog = some (readProgram r.inb.dropLast) ∧ (driveRec u d).fn = r.fn ∧ (driveRec u d).pst = .loaded
        ∧ (driveRec u d).startAt = none ∧ (driveRec u d).sets = []
        ∧ ∀ k g, tget s.chg.groups k = some g → d ∈ g.members → tget u.chg.groups k = some { g with changed := true })
    ∧ (∀ (r : Req) (s : State) (d : Nat), Accepted (checksChgStart r s) r s → posParam s (reqWord r 4) = some d →
        let b := of64 (reqWord r 5) (reqWord r 6)
        let at_ := if b = 0 then nextMult 100 (s.time.spc + 1) else b
        Answers (exec (.chgStart r) s) r ST_OK (wd64 at_) s (modDrive d (fun x => { x with startAt := some at_ }) s))
    ∧ (∀ (r : Req) (s : State) (d : Nat), Accepted (checksChgStop r s) r s → posParam s (reqWord r 4) = some d →
        driveActive (driveRec s d) = true ∨ (driveRec s d).offAt.isSome = true →
        let x := driveRec s d
        ∃ u, Begins (exec (.chgStop r) s) r 0x0A02 d [] s u ∧ OnlyDrive d s u
          ∧ (x.pst = .running ∨ x.pst = .hold → (driveRec u d).pst = .stopping
              ∧ (driveRec u d).ramp = some { s := s.time.spc, i0 := max 0 (forceAt x s.time.spc).1, on := (forceAt x s.time.spc).2
                                             dn := (x.prog.map (·.rampDn)).getD 0
                                             ending := .aborted, cause := CC_STOP })
          ∧ (x.pst ≠ .running → x.pst ≠ .hold → (driveRec u d).pst = x.pst ∧ (driveRec u d).ramp = x.ramp)
          ∧ (bits (reqWord r 5) 0 0 = 1 → (driveRec u d).unload = true))
    ∧ ∀ (r : Req) (s : State) (d : Nat), Accepted (checksChgStop r s) r s → posParam s (reqWord r 4) = some d →
        driveActive (driveRec s d) = false → (driveRec s d).offAt = none →
        ∃ u, Answers (exec (.chgStop r) s) r ST_OK [] s u ∧ OnlyDrive d s u ∧ (driveRec u d).startAt = none
          ∧ (bits (reqWord r 5) 0 0 = 1 → (driveRec u d).prog = none) ∧ (bits (reqWord r 5) 0 0 = 0 → (driveRec u d).prog = (driveRec s d).prog)

/-- `CHG.SETPOINT` posts a host's current and its output enable for the next word, with a time to live; `CHG.GROUP` makes, replaces, dissolves
or limits a group; `CHG.STATUS` reports, and releases the relaxation sets that it has written (R300, R310, R311, R314, R316). -/
def Obligations.SetpointAndGroupCommands : Prop :=
  (∀ (r : Req) (s : State) (d : Nat), Accepted (checksChgSetpoint r s) r s → posParam s (reqWord r 4) = some d →
      let i := toSigned 32 (reqWord r 5).toNat
      let on := bits (reqWord r 6) 16 16 == 1
      let ttl := if bits (reqWord r 6) 15 0 = 0 then 100 else bits (reqWord r 6) 15 0
      ∃ u, Answers (exec (.chgSetpoint r) s) r ST_OK [] s u
        ∧ (driveRec u d).setp = some { current := i * 1000, outEn := on, ttl := s.time.spc + 100 * ttl
                                       inrushPicks := (reqWord r 7).toNat, inrushBudget := (reqWord r 8).toNat }
        ∧ (driveRec u d).ramp = none ∧ (driveRec u d).pst = (driveRec s d).pst
        ∧ posOf u d = { posOf s d with posted := { (posOf s d).posted with iSet := setOfCurrent s d (i * 1000), outEn := on } }
        ∧ (∀ q, q ≠ d → driveRec u q = driveRec s q ∧ posOf u q = posOf s q) ∧ u.chg.groups = s.chg.groups
        ∧ { u with chg := s.chg, line := s.line } = s)
    ∧ (∀ (r : Req) (s : State), Accepted (checksChgGroup r s) r s →
        let g := bits (reqWord r 4) 7 0
        let form := bits (reqWord r 4) 11 8
        ∃ u, Answers (exec (.chgGroup r) s) r ST_OK [] s u ∧ (∀ k, k ≠ g → tget u.chg.groups k = tget s.chg.groups k)
          ∧ { u with chg := s.chg } = s ∧ (∀ d, (driveRec u d).pst = (driveRec s d).pst ∧ (driveRec u d).force = (driveRec s d).force)
          ∧ (form = 0 → ∃ x, tget u.chg.groups g = some x ∧ x.members = groupMembers r ∧ x.sag = (reqWord r 6).toNat
              ∧ x.aMax = (reqWord r 7).toNat ∧ x.aInit = (reqWord r 8).toNat ∧ x.changed = true
              ∧ (tget s.chg.groups g = none → x.a = x.aInit ∧ x.state = .hold)
              ∧ ∀ o, tget s.chg.groups g = some o → x.a = min o.a x.aMax ∧ x.state = o.state)
          ∧ (form = 1 → tget u.chg.groups g = none)
          ∧ (form = 2 → ∃ x o, tget s.chg.groups g = some o ∧ tget u.chg.groups g = some x ∧ x.srcLim = some (reqWord r 9).toNat
              ∧ x.a = min o.a ((reqWord r 9).toNat * 95 / 100) ∧ x.changed = true ∧ x.members = o.members)
          ∧ (form = 3 → ∃ o, tget s.chg.groups g = some o ∧ tget u.chg.groups g = some { o with srcLim := none, changed := true }))
    ∧ (∀ (r : Req) (s : State) (d : Nat), Accepted (checksChgStatus r s) r s → bits (reqWord r 4) 1 0 = 0 → posParam s (reqWord r 5) = some d →
        Reports (exec (.chgStatus r) s) r 0x4B545354 0x0A 0 (fun res _ => res = driveWords s d) s s)
    ∧ (∀ (r : Req) (s : State) (d : Nat), Accepted (checksChgStatus r s) r s → bits (reqWord r 4) 1 0 = 1 → posParam s (reqWord r 5) = some d →
        ∃ sets : List RelaxSet, sets.length ≤ (driveRec s d).sets.length ∧
          Harvests (exec (.chgStatus r) s) r 0x4B544352 0x41 (relaxSections s d) s
            (modDrive d (fun x => { x with sets := sets }) s))
    ∧ ∀ (r : Req) (s : State) (x : Group), Accepted (checksChgStatus r s) r s → bits (reqWord r 4) 1 0 = 2 →
        tget s.chg.groups (reqWord r 5).toNat = some x →
        Reports (exec (.chgStatus r) s) r 0x4B545354 0x0A 0 (fun res _ => res = [wd x.a, wd (gstateCode x.state)]) s s

/-- LOOP_TICK ends every program whose drive tag the safety island demands off in FAULT with cause SAFETY, its output posted off, and starts a
program whose boundary has come; off its boundaries it does nothing. CHARGE_SEQUENCER_SRAM_ERROR ramps a running program down to FAULT
with cause ECC (R297, R302, R306 to R308). -/
def Obligations.LoopTicks : Prop :=
  (∀ (d : Nat) (s : State), s.boot.phase = .running → s.time.spc % 100 = 0 → (s.chg.drives.map (·.1)).Nodup → (s.chg.groups.map (·.1)).Nodup →
      driveActive (driveRec s d) = true → (driveRec s d).startAt = none → (driveRec s d).setp = none → (driveRec s d).prog.isSome = true →
      driveOff s d = true →
      ∃ t, exec .loopTick s = .next t ∧ (driveRec t d).pst = .fault ∧ (driveRec t d).cause = CC_SAFETY ∧ (posOf t d).posted.outEn = false
        ∧ t.safe = s.safe ∧ t.time = s.time)
    ∧ (∀ (d b : Nat) (x : Drive) (s : State), s.boot.phase = .running → s.time.spc % 100 = 0 → s.chg.drives = [(d, x)] → s.chg.groups = [] →
        x.startAt = some b → b ≤ s.time.spc →
        ∃ t, exec .loopTick s = .next t ∧ (driveRec t d).startAt = none ∧ (driveRec t d).began = s.time.spc ∧ (driveRec t d).setp = none
          ∧ (driveRec t d).entered = s.time.spc ∧ t.safe = s.safe ∧ t.time = s.time)
    ∧ (∀ s : State, s.time.spc % 100 ≠ 0 → exec .loopTick s = .next s)
    ∧ ∀ (d : Nat) (s : State), posExists s d = true → s.boot.phase = .running → (driveRec s d).pst = .running ∨ (driveRec s d).pst = .hold →
        ∃ t, exec (.chargeSequencerSramError d) s = .next t ∧ OnlyDrive d s t ∧ (driveRec t d).pst = .stopping
          ∧ (driveRec t d).ramp = some { s := s.time.spc, i0 := max 0 (forceAt (driveRec s d) s.time.spc).1, on := (forceAt (driveRec s d) s.time.spc).2
                                         dn := ((driveRec s d).prog.map (·.rampDn)).getD 0, ending := .fault, cause := CC_ECC }

/-- The ends of an inrush window, of a setpoint's time to live and of a relaxation set, and GROUP_SEARCH at its boundaries: a group in its
ramp whose bus sags by more than `SAG` backs off to 95 % and holds; the mean of no sample at all is a free value of log 59 (R300, R311,
R312, R316). Shares of a supply group: where the demand fits the allowance there is no share to take, otherwise every member's share is
its part of the allowance, truncated, and the members with a request carry `GRP_LIM` (R315). -/
def Obligations.ChargeRows : Prop :=
  ((∀ (d : Nat) (w : Inrush) (s : State), posExists s d = true → s.boot.phase = .running → (driveRec s d).inrush = some w → w.stop ≤ s.time.spc →
      exec (.inrushWindowEnd d) s
        = .next (modDrive d (fun x => { x with inrush := none, inrushUsed := w.sum * 8 / 10 ^ 14, trackHi := 0, trackLo := 0 }) s))
    ∧ (∀ (d : Nat) (h : Setpoint) (s : State), posExists s d = true → s.boot.phase = .running → (driveRec s d).setp = some h →
        (driveRec s d).ramp = none → h.ttl ≤ s.time.spc →
        ∃ t, exec (.setpointTtlExpiry d) s = .next t ∧ (driveRec t d).request = 0 ∧ (driveRec t d).setp = some h
          ∧ (driveRec t d).ramp = some { s := s.time.spc, i0 := (forceAt (driveRec s d) s.time.spc).1, on := (forceAt (driveRec s d) s.time.spc).2
                                         dn := 100, ending := .loaded, cause := 0 }
          ∧ (∀ q, q ≠ d → driveRec t q = driveRec s q) ∧ t.line = s.line ∧ t.safe = s.safe)
    ∧ (∀ (k : Nat) (g : Group) (s : State), s.boot.phase = .running → s.time.spc % 5000 = 0 → s.chg.groups = [(k, g)] →
        let vb := (busVolts s g).getD (Config.busVolts s.fresh)
        ∃ t g', exec .groupSearch s = .next t ∧ t.chg.groups = [(k, g')] ∧ t.chg.drives = s.chg.drives ∧ g'.members = g.members
          ∧ (frozen s g = true → g'.state = (if g.state = .ramp then .rampWait else g.state))
          ∧ (frozen s g = false → g.state = .ramp → g.srcLim = none → (g.sag : Int) < g.vref - vb →
              g'.a = g.a * 95 / 100 ∧ g'.state = .hold ∧ g'.tEnd = s.time.spc)
          ∧ (frozen s g = false → g.state = .ramp → g.srcLim = none → ¬ (g.sag : Int) < g.vref - vb → g.a < g.demand → g.a < g.aMax →
              g'.a = min (g.a + max 1 (g.a / 100)) g.aMax ∧ g'.state = .ramp)
          ∧ (∀ l, g.srcLim = some l → g'.a ≤ l * 95 / 100))
    ∧ ∀ (d e : Nat) (x : RelaxSet) (later : List RelaxSet) (s : State), posExists s d = true → s.boot.phase = .running →
        (driveRec s d).closing = x :: later → x.stop = some e → e + 92 ≤ s.time.spc →
        ∃ t, exec (.relaxationSetComplete d) s = .next t ∧ (driveRec t d).closing = later ∧ (driveRec t d).rest = (driveRec s d).rest
          ∧ ((driveRec s d).sets.length < 2 → ∃ y, (driveRec t d).sets = (driveRec s d).sets ++ [y] ∧ y.e = x.e ∧ y.seq = x.seq
              ∧ y.dropped = (driveRec s d).notStored ∧ (driveRec t d).notStored = 0)
          ∧ (2 ≤ (driveRec s d).sets.length → (driveRec t d).sets = (driveRec s d).sets ∧ (driveRec t d).notStored = (driveRec s d).notStored + 1)
          ∧ (∀ q, q ≠ d → driveRec t q = driveRec s q) ∧ t.line = s.line ∧ t.safe = s.safe)
    ∧ (∀ (k : Nat) (g : Group) (s : State), s.chg.groups = [(k, g)] → g.members.Nodup →
    let req (d : Nat) : Int := max 0 (driveRec s d).request
    let sum := (g.members.map req).sum
    ∀ d, (d ∈ g.members → sum ≤ (g.a : Int) * 1000 → (driveRec (shares s) d).share = none ∧ (driveRec (shares s) d).grpLim = false)
      ∧ (d ∈ g.members → (g.a : Int) * 1000 < sum → (driveRec (shares s) d).share = some ((req d * (g.a * 1000)).tdiv sum)
          ∧ ((driveRec (shares s) d).grpLim = true ↔ 0 < (driveRec s d).request))
      ∧ (d ∉ g.members → driveRec (shares s) d = driveRec s d))

/-! ### Reception -/

/-- CHAIN_FRAME_RX: a frame that is not seen counts toward the break and makes every block of the chain missing; one whose SYNC stands
complemented is read inverted; a valid `LIVE` block of a released tag goes into the bolt as the data of the pick before, and counts; the
next frame asks for at most two blocks, aged 31 frames at most (R32, R45, R62, R67). RESEND_AGE_EXPIRY makes a pending entry a gap (R63). -/
def Obligations.ChainReception : Prop :=
  (∀ (f : ChainFrame) (s : State), isLocal f.chain = true → chainExists s f.chain = true → s.boot.phase = .running →
      (chainOf s f.chain).mode = .normal → (chainOf s f.chain).proc = none → (chainOf s f.chain).hopFault = false →
      (chainOf s f.chain).occ.Nodup → (∀ i ∈ (chainOf s f.chain).occ, i < 8) →
      ∃ t, exec (.chainFrameRx f) s = .next t
        ∧ (syncFound f = none → (chainOf t f.chain).syncMiss = (chainOf s f.chain).syncMiss + 1 ∧ (chainOf t f.chain).invB = false
            ∧ ∀ i ∈ (chainOf s f.chain).occ, (posOf s (f.chain * 8 + i)).state ≠ .lost →
              (posOf t (f.chain * 8 + i)).noLive = (posOf s (f.chain * 8 + i)).noLive + 1)
        ∧ (∀ inv, syncFound f = some inv → (chainOf t f.chain).syncMiss = 0 ∧ (chainOf t f.chain).invB = inv)
        ∧ (chainOf t f.chain).asked.length ≤ 2 ∧ (∀ m ∈ (chainOf t f.chain).asked, s.time.spc + 1 ≤ m.1 + 32)
        ∧ (∀ c, c ≠ f.chain → chainOf t c = chainOf s c) ∧ t.time = s.time)
    ∧ (∀ (f : ChainFrame) (i : Nat) (inv : Bool) (s : State), isLocal f.chain = true → chainExists s f.chain = true → s.boot.phase = .running →
        (chainOf s f.chain).mode = .normal → (chainOf s f.chain).proc = none → (chainOf s f.chain).hopFault = false →
        (chainOf s f.chain).occ = [i] → i < 8 → (chainOf s f.chain).tx.rsndA = [] → syncFound f = some inv →
        framePick s false (readFrame inv f) = some s.time.spc → 1 ≤ s.time.spc → 2 ≤ s.loom.depth →
        let p := f.chain * 8 + i
        let b := (readFrame inv f).blocks.getD i 0
        crc16Ok b = true → fieldOf b 1 3 = 0 → (posOf s p).state = .released → (posOf s p).known = true → (posOf s p).incLo = fieldOf b 8 8 →
        ∃ t e, exec (.chainFrameRx f) s = .next t ∧ boltAt t p (s.time.spc - 1) = some e ∧ e.bstate = .live ∧ e.filled = false
          ∧ e.payload = BitVec.ofNat 512 (fieldOf b 16 512) ∧ e.ovr = flagOf b 4 ∧ e.fault = flagOf b 7
          ∧ (posOf t p).noLive = 0 ∧ (posOf t p).livePicks = sat32 ((posOf s p).livePicks + 1) ∧ (posOf t p).state = .released)
    ∧ ∀ (pos pick : Nat) (notHeld : Bool) (s : State), posExists s pos = true → s.boot.phase = .running →
        notHeld = true ∨ pick + 34 ≤ s.time.spc → (entryOr s pos pick).bstate = .pending → inBolt s pick = true →
        ∃ t e, exec (.resendAgeExpiry pos pick notHeld) s = .next t ∧ boltAt t pos pick = some e ∧ e.bstate = .gap
          ∧ (posOf t pos).gapPicks = sat32 ((posOf s pos).gapPicks + 1)
          ∧ (pick + 1, slotOf pos) ∉ (chainOf t (chainOfPos pos)).missing ∧ (∀ q, q ≠ pos → posOf t q = posOf s q)

/-- A break wraps a ring, and the block counts of both halves give the broken hop, to which the split hop moves; a valid frame of its unwrap
boundary leaves it in normal mode, any other has it wrapped again two picks later; a wrong `HOP` twice puts the chain into its fault; a
silent position is lost; an overcurrent turns the port off and wraps at that port's hop (R39, R56, R67, R69, R70). Four equal counts
enumerate a ring, other counts are tried four times before the `HOP` fault; an open ring starts port B and is enumerated from both ports
in wrap mode; a parked chain stops at its boundary; a WAKE_N edge is latched until the device is up, and powers every parked chain (R52,
R55, R73, R75). -/
def Obligations.RingState : Prop :=
  ((∀ (c : Nat) (outOfLock : Bool) (delays : List Nat) (s : State), isLocal c = true → chainExists s c = true → s.boot.phase = .running →
      (chainOf s c).mode = .normal → (chainOf s c).proc = none →
      outOfLock = true ∨ 2 ≤ (chainOf s c).syncMiss ∨ (chainOf s c).lockLost = true →
      ∃ t, exec (.ringBreakDeclared c outOfLock delays) s = .next t ∧ (chainOf t c).mode = .wrap ∧ (chainOf t c).brk = none
        ∧ (chainOf t c).split = (chainOf s c).split ∧ (chainOf t c).since = s.time.spc ∧ (chainOf t c).chg.getLsbD 0 = true
        ∧ (chainOf t c).occ = (chainOf s c).occ ∧ (∀ q, q ≠ c → chainOf t q = chainOf s q) ∧ t.safe = s.safe)
    ∧ (∀ (f : ChainFrame) (a : Nat) (s : State), isLocal f.chain = true → chainExists s f.chain = true → s.boot.phase = .running →
        (chainOf s f.chain).mode = .wrap → (chainOf s f.chain).proc = none → (chainOf s f.chain).brk = none → f.portB = true →
        (chainOf s f.chain).countA = some a → (syncFound f).isSome = true →
        ∃ t, exec (.chainFrameRx f) s = .next t ∧ (chainOf t f.chain).brk = some a ∧ (chainOf t f.chain).split = a
          ∧ (chainOf t f.chain).mode = .wrap ∧ (∀ q, q ≠ f.chain → chainOf t q = chainOf s q))
    ∧ (∀ (c u : Nat) (ref : CmdRef) (valid : Bool) (delays : List Nat) (s : State), chainExists s c = true → s.boot.phase = .running →
        (chainOf s c).unwrapAt = some (u, ref) → u ≤ s.time.spc →
        ∃ t, exec (.unwrapBoundary c valid delays) s = .next t ∧ (chainOf t c).unwrapAt = none ∧ (∀ x ∈ t.cmd.unfinished, x.ref ≠ ref)
          ∧ (valid = true → (chainOf t c).mode = .normal ∧ (chainOf t c).wrapAt = (chainOf s c).wrapAt)
          ∧ (valid = false → (chainOf t c).mode = (chainOf s c).mode ∧ (isLocal c = true → (chainOf t c).wrapAt = some (u + 2)))
          ∧ (∀ q, q ≠ c → chainOf t q = chainOf s q) ∧ t.safe = s.safe)
    ∧ (∀ (c : Nat) (hops : List Nat) (s : State), isLocal c = true → chainExists s c = true → s.boot.phase = .running →
        (chainOf s c).mode = .normal → (chainOf s c).hopFault = false → (chainOf s c).proc = none → 2 ≤ (chainOf s c).hopMiss →
        (chainOf s c).occ.Nodup →
        ∃ t, exec (.hopFault c hops) s = .next t ∧ (chainOf t c).hopFault = true
          ∧ (∀ p ∈ occPosns s c, (posOf t p).state = .hopFault ∧ (posOf t p).posted.outEn = false ∧ (posOf t p).gapFrom.isSome = true)
          ∧ (∀ q, q ≠ c → chainOf t q = chainOf s q) ∧ t.safe = s.safe)
    ∧ (∀ (p : Nat) (s : State), posExists s p = true → s.boot.phase = .running → 64 ≤ (posOf s p).noLive →
        (posOf s p).state = .released ∨ (posOf s p).state = .bringingUp →
        ∃ t, exec (.positionLost p) s = .next t ∧ (posOf t p).state = .lost ∧ (posOf t p).known = false ∧ (posOf t p).posted.outEn = false
          ∧ (posOf t p).serial = (posOf s p).serial ∧ (posOf t p).kind = (posOf s p).kind ∧ (posOf t p).cfg = []
          ∧ (∀ q, (posOf t q).state = if q = p then .lost else (posOf s q).state) ∧ t.safe = s.safe)
    ∧ ∀ (x : PortTrip) (s : State), x.port < 32 → s.boot.phase = .running →
        let c := chainKey 0xFF (x.port / 2)
        let hop := if x.port % 2 = 1 then (chainOf s c).tags else 0
        powered (chainOf s c) = true → (if x.port % 2 = 1 then (chainOf s c).carrierB else (chainOf s c).carrierA) = true →
        ∃ t, exec (.portOvercurrent x) s = .next t ∧ (chainOf t c).chg.getLsbD 2 = true
          ∧ ((chainOf s c).proc = none → (chainOf t c).mode = .wrap ∧ (chainOf t c).brk = some hop ∧ (chainOf t c).split = hop)
          ∧ (x.port % 2 = 1 → (chainOf t c).offB = true ∧ (chainOf t c).carrierB = false)
          ∧ (x.port % 2 = 0 → (chainOf t c).offA = true ∧ (chainOf t c).carrierA = false)
          ∧ (∀ q, q ≠ c → chainOf t q = chainOf s q) ∧ t.safe = s.safe)
    ∧ ((∀ (c n : Nat) (delays : List Nat) (x : ChainProc) (s : State), isLocal c = true → chainExists s c = true → s.boot.phase = .running →
      (chainOf s c).mode = .normal → (chainOf s c).proc = some x → x.counted = none → x.enumEnd ≤ s.time.spc → (chainOf s c).offB = false →
      ∃ t, exec (.chainEnumPicks c [some n, some n, some n, some n] delays) s = .next t ∧ (chainOf t c).tags = n
        ∧ (chainOf t c).occ = List.range (min n 8) ∧ (chainOf t c).split = splitHop n ∧ (chainOf t c).hopFault = false
        ∧ (∀ i, i < min n 8 → (posOf s (c * 8 + i)).known = false →
            (posOf t (c * 8 + i)).state = if (posOf s (c * 8 + i)).state = .lost then .lost else .bringingUp)
        ∧ (∀ q, q ≠ c → chainOf t q = chainOf s q) ∧ t.safe = s.safe)
    ∧ (∀ (c : Nat) (hops : List (Option Nat)) (delays : List Nat) (x : ChainProc) (s : State), isLocal c = true → chainExists s c = true →
        s.boot.phase = .running → (chainOf s c).mode = .normal → (chainOf s c).proc = some x → x.counted = none → x.enumEnd ≤ s.time.spc →
        (∀ n, hops ≠ [some n, some n, some n, some n]) →
        ∃ t, exec (.chainEnumPicks c hops delays) s = .next t
          ∧ ((chainOf s c).enumTry < 3 → (chainOf t c).enumTry = (chainOf s c).enumTry + 1 ∧ (chainOf t c).hopFault = (chainOf s c).hopFault)
          ∧ (3 ≤ (chainOf s c).enumTry → (chainOf t c).hopFault = true ∧ (chainOf t c).proc = none)
          ∧ (chainOf t c).tags = (chainOf s c).tags ∧ (chainOf t c).occ = (chainOf s c).occ ∧ (∀ q, q ≠ c → chainOf t q = chainOf s q))
    ∧ (∀ (c : Nat) (as bs : List (Option Nat)) (delays : List Nat) (x : ChainProc) (s : State), isLocal c = true → chainExists s c = true →
        s.boot.phase = .running → (chainOf s c).mode = .normal → (chainOf s c).proc = some x → x.counted = none → x.openAt = none →
        x.p0 + 200 ≤ s.time.spc →
        exec (.openRingDetected c as bs delays) s = .next (modChain c (fun y =>
          { y with
            carrierB := !y.offB, enumTry := 0
            proc := y.proc.map (fun p => { p with openAt := some (x.p0 + 200), enumEnd := x.p0 + 403 }) }) s))
    ∧ (∀ (c a b : Nat) (delays : List Nat) (x : ChainProc) (s : State), isLocal c = true → chainExists s c = true → s.boot.phase = .running →
        (chainOf s c).mode = .wrap → (chainOf s c).proc = some x → x.counted = none → x.enumEnd ≤ s.time.spc → a + b ≤ 8 →
        ∃ t, exec (.openRingDetected c (List.replicate 4 (some a)) (List.replicate 4 (some b)) delays) s = .next t ∧ (chainOf t c).mode = .wrap ∧ (chainOf t c).brk = some a
          ∧ (chainOf t c).tags = a + b ∧ (∀ i, i ∈ (chainOf t c).occ ↔ i < a ∨ (8 ≤ i + b ∧ i < 8))
          ∧ (∀ q, q ≠ c → chainOf t q = chainOf s q) ∧ t.safe = s.safe)
    ∧ (∀ (c b : Nat) (ref : CmdRef) (s : State), chainExists s c = true → s.boot.phase = .running → (chainOf s c).parkAt = some (b, ref) →
        b ≤ s.time.spc → (chainOf s c).occ.Nodup →
        ∃ t, exec (.parkCarrierOff c) s = .next t ∧ (chainOf t c).mode = .parked ∧ (chainOf t c).carrierA = false
          ∧ (chainOf t c).carrierB = false ∧ (chainOf t c).parkAt = none ∧ (∀ p ∈ occPosns s c, (posOf t p).state = .parked)
          ∧ (∀ x ∈ t.cmd.unfinished, x.ref ≠ ref) ∧ (∀ q, q ≠ c → chainOf t q = chainOf s q) ∧ t.safe = s.safe)
    ∧ (∀ s : State, s.boot.phase ≠ .running → s.time.powered = true → s.boot.nvmLoaded = false →
        exec .wakeNFall s = .next { s with boot := { s.boot with wakeLatch := true } })
    ∧ ∀ s : State, s.boot.phase = .running → s.time.powered = true → s.boot.nvmLoaded = true → s.boot.fnReady.getLsbD 5 = true → s.boot.fnReady.getLsbD 6 = true →
        (s.line.chains.map (·.1)).Nodup →
        ∃ t, exec .wakeNFall s = .next t ∧ t.boot.wakeLatch = false ∧ t.boot.wakeSet = [] ∧ (∀ c, (chainOf s c).mode = .parked → (chainOf t c).mode = .normal)
          ∧ (∀ c, (chainOf s c).mode ≠ .parked → chainOf t c = chainOf s c) ∧ t.safe = s.safe)

/-- Identity, coefficients, status and release of a tag: what a valid message brings, and what a lost one asks for (R54, R57 to R61, R71). -/
def Obligations.TagMessages : Prop :=
  (∀ (p : Nat) (msg : BitVec 512) (s : State), posExists s p = true → s.boot.phase = .running → upIs (posOf s p) msg = true →
      msgOk msg 1 = true → kindOf (fieldOf msg 80 8) ≠ .none → powered (chainOf s (chainOfPos p)) = true → (posOf s p).kind = .none → (posOf s p).state ≠ .lost →
      ∃ t, exec (.identityRx p msg) s = .next t ∧ (posOf t p).kind = kindOf (fieldOf msg 80 8) ∧ (posOf t p).serial = fieldOf msg 16 64
        ∧ (posOf t p).incarnation = fieldOf msg 96 32 ∧ (posOf t p).coefParts = fieldOf msg 144 8 ∧ (posOf t p).coefCrc = fieldOf msg 152 32
        ∧ (posOf t p).known = true ∧ (posOf t p).state = .bringingUp ∧ (posOf t p).coefOk = false ∧ (posOf t p).parts = []
        ∧ (∀ q, q ≠ p → posOf t q = posOf s q) ∧ t.safe = s.safe)
    ∧ (∀ (p : Nat) (msg : BitVec 512) (s : State), posExists s p = true → s.boot.phase = .running → upIs (posOf s p) msg = true →
        msgOk msg 1 = true → kindOf (fieldOf msg 80 8) ≠ .none → powered (chainOf s (chainOfPos p)) = true → (posOf s p).state = .lost →
        (posOf s p).kind = kindOf (fieldOf msg 80 8) → (posOf s p).serial = fieldOf msg 16 64 → (posOf s p).incarnation = fieldOf msg 96 32 →
        exec (.identityRx p msg) s
          = .next (modPos p (fun x => { x with awaitNew := true, posted := { x.posted with reset := true } }) (takeUpMsg p s)))
    ∧ (∀ (p : Nat) (msg : BitVec 512) (s : State), posExists s p = true → s.boot.phase = .running → upIs (posOf s p) msg = true →
        msgOk msg 2 = true →
        (posOf s p).known = true → (posOf s p).coefOk = false → fieldOf msg 16 8 < (posOf s p).coefParts →
        (∃ i, i < (posOf s p).coefParts ∧ i ≠ fieldOf msg 16 8 ∧ thas (posOf s p).parts i = false) →
        ∃ t, exec (.coefRx p msg) s = .next t ∧ tget (posOf t p).parts (fieldOf msg 16 8) = some (BitVec.ofNat 480 (fieldOf msg 16 480))
          ∧ (posOf t p).coefOk = false ∧ (posOf t p).state = (posOf s p).state ∧ (∀ q, q ≠ p → posOf t q = posOf s q))
    ∧ (∀ (p q : Nat) (msg : BitVec 512) (u : UpMsg) (f : CfgFlight) (l : List CfgFlight) (s : State), posExists s p = true →
        s.boot.phase = .running → upMessage (posOf s p) = some u → u.bits = msg → msgOk msg 3 = true → (posOf s p).known = true → (posOf s p).cfg = f :: l → f.seq = some q → f.sentAt + 512 ≤ 512 * u.period →
        fieldOf msg 112 8 = q → fieldOf msg 120 8 = 0 → f.cfgId ≠ 1 →
        ∃ t, exec (.tagStatusRx p msg) s = .next t ∧ (posOf t p).cfg = l ∧ tget (posOf t p).kept f.cfgId = some f.body
          ∧ (posOf t p).faultBits = fieldOf msg 128 32 ∧ (posOf t p).feedB = flagOf msg 32 ∧ (posOf t p).relayOff = flagOf msg 33
          ∧ (∀ ref, f.cmd = some ref → ∀ x ∈ t.cmd.unfinished, x.ref ≠ ref) ∧ (∀ q, q ≠ p → posOf t q = posOf s q))
    ∧ (∀ s : State, s.boot.phase = .running → (s.line.chains.map (·.1)).Nodup →
        ∃ t, exec .selvedgeDownPeriod s = .next t
          ∧ (∀ c p, powered (chainOf s c) = true → (inForce s c - 1) % 512 = 0 → c ∈ s.line.chains.map (·.1) → (chainOf s c).occ.Nodup →
              (∀ i ∈ (chainOf s c).occ, i < 8) → p ∈ occPosns s c → (∀ d ∈ s.line.chains.map (·.1), ∀ i ∈ (chainOf s d).occ, i < 8) →
              (posOf t p).downSeq = ((posOf s p).downSeq + 1) % 256)
          ∧ (∀ p, (posOf t p).state = (posOf s p).state ∧ (posOf t p).posted = (posOf s p).posted) ∧ t.line.chains = s.line.chains ∧ t.safe = s.safe)
    ∧ (∀ (p typ part : Nat) (u : UpMsg) (s : State), posExists s p = true → s.boot.phase = .running →
        powered (chainOf s (chainOfPos p)) = true → upFailed s.time.spc (posOf s p) = some u →
        exec (.selvedgeMessageScrcFail p typ part) s = .next (modPos p (fun x =>
          { takeUp u.period x with
            repeats := if (typ = 1 ∨ typ = 2) ∧ (typ, part) ∉ x.repeats then x.repeats ++ [(typ, part)] else x.repeats }) s))
    ∧ ∀ (p : Nat) (s : State), posExists s p = true → s.boot.phase = .running → (posOf s p).known = true → (posOf s p).coefOk = true →
        (posOf s p).state = .bringingUp → (∀ f ∈ (posOf s p).cfg, f.again = false) → powered (chainOf s (chainOfPos p)) = true →
        ∃ t, exec (.positionReleased p) s = .next t ∧ (posOf t p).state = .released ∧ (posOf t p).gapFrom = none ∧ (posOf t p).livePicks = 0
          ∧ (posOf t p).serial = (posOf s p).serial ∧ (∀ q, q ≠ p → posOf t q = posOf s q) ∧ t.safe = s.safe

/-- UP_LANE_FRAME_RX and TWIN_FORWARD_FRAME_RX hear a lane and file its live blocks; TWIN_BACKFILL_FRAME_RX fills a pick that is still sought;
at boundary p + 64 what is pending of pick p is a gap (R94, R95, R100, R115). A lane fails, degrades, and comes up through lock, adapt and
identify, or goes down with its command unfulfilled (R79, R80, R95, R102, R103); a training frame is taken in the adapt phase (R224); the
twin's down frames and forwarding-control words do what they say (R99, R100). -/
def Obligations.LaneReception : Prop :=
  ((∀ (f : UpFrame) (s : State), laneExists s f.lane = true → isTwin f.lane = false → s.boot.phase = .running →
      (laneOf s f.lane).lstate = .run → HeardUp 1 f s (exec (.upLaneFrameRx f) s) ∧ FilesLive 1 f s (exec (.upLaneFrameRx f) s))
    ∧ (∀ (tl : Nat) (f : UpFrame) (s : State), tl < 8 → laneExists s f.lane = true → s.boot.phase = .running →
        (laneOf s (0x100 + tl)).lstate = .run → tget s.lane.forwarded f.lane = some tl →
        HeardUp 3 f s (exec (.twinForwardFrameRx tl f) s) ∧ FilesLive 3 f s (exec (.twinForwardFrameRx tl f) s))
    ∧ (∀ (tl fp i : Nat) (f : UpFrame) (b : SubBlock) (x : BitVec 520) (s : State), tl < 8 → laneExists s f.lane = true →
        s.boot.phase = .running → (laneOf s (0x100 + tl)).lstate = .run → headerOk f.header 4 = true →
        extend (fieldOf f.header 32 32) s.time.spc = some fp → f.subs = [b] → subOk b = true → fieldOf b.header 8 3 ≠ 7 → b.blocks[i]? = some x →
        fieldOf x 1 2 = 0 →
        let c := chainKey (placeLane s f.lane) b.place
        let p := c * 8 + i
        (chainOf s c).occ = [i] → (entryOr s p (fp - 1)).bstate = .pending → s.time.spc < fp - 1 + 64 → inBolt s (fp - 1) = true →
        ∃ t e, exec (.twinBackfillFrameRx tl f) s = .next t ∧ boltAt t p (fp - 1) = some e ∧ e.bstate = .live ∧ e.filled = true
          ∧ e.payload = BitVec.ofNat 512 (fieldOf x 8 512) ∧ (posOf t p).filledPicks = sat32 ((posOf s p).filledPicks + 1)
          ∧ (∀ q, q ≠ p → posOf t q = posOf s q) ∧ t.line.chains = s.line.chains)
    ∧ ∀ (pick : Nat) (s : State), s.boot.phase = .running → pick + 64 ≤ s.time.spc →
        ∃ t, exec (.pickFinalGap pick) s = .next t
          ∧ (∀ c x p, (c, x) ∈ s.line.chains → powered x = true → p ∈ occPosns s c → inBolt s pick = true →
              (entryOr s p pick).bstate = .pending → ∃ e, boltAt t p pick = some e ∧ e.bstate = .gap)
          ∧ (∀ p d, d ≠ pick → inBolt s d = true → boltAt t p d = boltAt s p d) ∧ t.line.chains = s.line.chains ∧ t.safe = s.safe)
    ∧ ((∀ (l : Nat) (e : LaneFault) (s : State), laneExists s l = true → s.boot.phase = .running → (laneOf s l).lstate = .run →
      e.lockLost = true ∨ (laneOf s l).marker = false ∨ 2 ≤ (laneOf s l).badFrames →
      ∃ t, exec (.laneFailed l e) s = .next t ∧ (laneOf t l).lstate = .failed ∧ (laneOf t l).chg.getLsbD 0 = true
        ∧ (laneOf t l).chg.getLsbD 1 = true ∧ (e.lockLost = true → (laneOf t l).cdr = false)
        ∧ (∀ q, q ≠ l → (laneOf t q).lstate = (laneOf s q).lstate)
        ∧ (∀ tl, isTwin l = false → (laneOf s l).mode = 2 → freeTwin s = some tl → tget t.lane.forwarded l = some tl)
        ∧ (isTwin l = true ∨ ((laneOf s l).mode = 0 ∧ e.delay = none) → t.line = s.line) ∧ t.safe = s.safe)
    ∧ (∀ (r : LaneReading) (s : State), laneExists s r.lane = true → s.boot.phase = .running → (laneOf s r.lane).lstate = .run →
        let x := r.figures.elim (laneOf s r.lane) (fun f => takeFigures f (laneOf s r.lane))
        ∃ t, exec (.laneDegraded r) s = .next t ∧ (laneOf t r.lane).lstate = .run ∧ (laneOf t r.lane).eyeW = x.eyeW ∧ (laneOf t r.lane).eyeH = x.eyeH
          ∧ (2 ≤ recentUnc s.time.spc (laneOf s r.lane) ∨ poorEye x = true →
              (laneOf t r.lane).degraded = true ∧ (laneOf t r.lane).chg.getLsbD 2 = true)
          ∧ (recentUnc s.time.spc (laneOf s r.lane) < 2 → poorEye x = false →
              (laneOf t r.lane).degraded = (laneOf s r.lane).degraded ∧ (laneOf t r.lane).chg = (laneOf s r.lane).chg)
          ∧ (∀ q, q ≠ r.lane → laneOf t q = laneOf s q) ∧ t.line = s.line ∧ t.safe = s.safe)
    ∧ (∀ (f : UpFrame) (s : State), laneExists s f.lane = true → s.boot.phase = .running → (laneOf s f.lane).lstate = .adapt →
        headerOk f.header 6 = true → exec (.upLaneFrameRx f) s = .next (modLane f.lane (takeTraining f.training) s))
    ∧ (∀ (l : Nat) (m : LaneMeasure) (s : State), laneExists s l = true → s.boot.phase = .running → (laneOf s l).lstate = .lock →
        m.locked = true →
        exec (.lanePhaseComplete l m) s = .next (modLane l (fun x =>
          { x with
            lstate := .adapt, cdr := true, train := {}, set := { taps := bandTaps x.band [], dfe := List.replicate 16 0 } }) s))
    ∧ (∀ (l : Nat) (m : LaneMeasure) (s : State), laneExists s l = true → s.boot.phase = .running → (laneOf s l).lstate = .adapt →
        m.locked = true → eyeMinima m = true → (laneOf s l).train.done = true → (laneOf s l).train.peerDone = true →
        exec (.lanePhaseComplete l m) s = .next (modLane l (fun x =>
          { x with
            eyeW := m.figures.eyeW, eyeH := m.figures.eyeH, ber := m.figures.ber, berBits := m.figures.berBits
            corrected := m.corrected, uncorrected := m.uncorrectable, lstate := .identify
            marker := true, marks := 2, markBad := 0, spanOk := true }) s))
    ∧ (∀ (l : Nat) (m : LaneMeasure) (s : State), laneExists s l = true → s.boot.phase = .running → (laneOf s l).lstate = .identify →
        m.locked = true → m.peerModeOk = true → reachOk s l m = true →
        ∃ t, exec (.lanePhaseComplete l m) s = .next t ∧ (laneOf t l).lstate = .run ∧ (laneOf t l).delay = echoDelay m
          ∧ (laneOf t l).peerUid = m.peerUid ∧ (laneOf t l).chg.getLsbD 3 = true ∧ (laneOf t l).cmd = none
          ∧ (∀ ref, (laneOf s l).cmd = some ref → ∀ x ∈ t.cmd.unfinished, x.ref ≠ ref)
          ∧ (∀ q, q ≠ l → laneOf t q = laneOf s q) ∧ t.safe = s.safe)
    ∧ (∀ (l : Nat) (m : LaneMeasure) (s : State), laneExists s l = true → s.boot.phase = .running →
        (laneOf s l).lstate = .lock ∨ (laneOf s l).lstate = .adapt ∨ (laneOf s l).lstate = .identify → m.locked = false →
        ∃ t, exec (.lanePhaseComplete l m) s = .next t ∧ (laneOf t l).lstate = .down ∧ (laneOf t l).cmd = none
          ∧ (∀ ref, (laneOf s l).cmd = some ref → ∀ x ∈ t.cmd.unfinished, x.ref ≠ ref)
          ∧ (∀ q, q ≠ l → laneOf t q = laneOf s q) ∧ t.line = s.line ∧ t.safe = s.safe)
    ∧ (∀ (tl : Nat) (f : DownFrame) (s : State), tl < 8 → laneExists s f.lane = true → s.boot.phase = .running →
        (laneOf s f.lane).lstate = .run → tget s.lane.uses (tl * 4 + 2) = some (.relay f.lane) → headerOk f.header 2 = true →
        exec (.relayDownFrameRx tl f) s
          = .next { s with out := { s.out with relayed := relayFrame s f :: s.out.relayed } })
    ∧ ∀ (w : BitVec 64) (s : State), s.boot.phase = .running → flagOf w 0 = true →
        let tl := fieldOf w 3 3
        let l := fieldOf w 6 8
        let n := fieldOf w 14 18
        ∃ (uses : Tbl TwinUse) (backfills : List Backfill),
          exec (.forwardingControlWord w) s = .next { s with lane := { s.lane with uses := uses, backfills := backfills } }
          ∧ (fieldOf w 1 2 = 0 → (∀ k, k < 4 → tget uses (tl * 4 + k) = none) ∧ ∀ b ∈ backfills, b.tl ≠ tl)
          ∧ (fieldOf w 1 2 = 1 → tget uses (tl * 4 + 1) = some (.forward l) ∧ backfills = s.lane.backfills)
          ∧ (fieldOf w 1 2 = 2 → tget uses (tl * 4 + 2) = some (.relay l) ∧ backfills = s.lane.backfills)
          ∧ (fieldOf w 1 2 = 3 → uses = s.lane.uses
              ∧ (∀ pick, extend (fieldOf w 32 32) s.time.spc = some pick → n ≠ 0 →
                  backfills = s.lane.backfills ++ [{ tl := tl, lane := l, pick := pick, left := n }])
              ∧ (extend (fieldOf w 32 32) s.time.spc = none ∨ n = 0 → backfills = s.lane.backfills))
          ∧ (∀ k, k / 4 ≠ tl → tget uses k = tget s.lane.uses k) ∧ ∀ b ∈ s.lane.backfills, b.tl ≠ tl → b ∈ backfills)

/-- The safety off word comes first (R10, R331): whatever is posted, the word assembled for a tag that the island demands off leaves the tag
in the off state, or is a reset or power-configuration word sent to a tag that is in it already; nothing else that is posted gets out. -/
def Obligations.OffWordFirst : Prop :=
  ∀ (p : Nat) (s : State), safetyOff s p = true → (posOf s p).kind ≠ .none →
    let frame := inForce s (chainOfPos p) - 1
    let off := heldState (posOf s p) (wordOf (posOf s p) (switchState s p (frame + 1) true) true)
    (posOf s p).posted.wordPick ≠ frame →
    (chainOf s (chainOfPos p)).proc.all (fun q => q.counted.isSome) = true →
    let x := (posOf (assemble p s) p).posted
    heldState (posOf s p) x.normal = off ∧ x.wordPick = frame
      ∧ (x.word = x.normal ∨ x.word = resetWord ∨ ∃ cfg, x.word = powerWord cfg)
      ∧ (x.word ≠ x.normal → heldState (posOf s p) (posOf s p).posted.normal = off)

/-! ### The LOOM -/

/-- A live sample of a tag that runs is issued at boundary 8m + 20 + T, a settled one released at 8m + 92, a dwell value final at 200k + 272
and a primary sample at 200k + 1600, each once; the stored value is the computed one, and no row changes the bolt (R110, R113, R116,
R119). -/
def Obligations.SamplePaths : Prop :=
  (∀ (p m : Nat) (s : State), posExists s p = true → s.up = true → tileServes s p = true → (posOf s p).kind ≠ .none →
      (posOf s p).state = .released ∨ (posOf s p).state = .bringingUp → 8 * m + 20 + liveDelay s p ≤ s.spc →
      (∀ y, tget s.loom.live (p * 16) = some y → y.m < m) →
      ∃ t, exec (.liveSampleIssue p m) s = .next t ∧ t.loom.bolt = s.loom.bolt ∧ t.loom.settled = s.loom.settled ∧ t.time = s.time
        ∧ ∀ (ch : Nat) (x : Sample), (liveSamples s .live p m)[ch]? = some x →
            ∃ y, tget t.loom.live (p * 16 + ch) = some y ∧ y.m = m ∧ y.value = x.value)
    ∧ (∀ (p m : Nat) (s : State), posExists s p = true → s.up = true → (posOf s p).kind ≠ .none → 8 * m + 92 ≤ s.spc →
        (∀ y, (settledOf s (p * 16)).head? = some y → y.m < m) →
        ∃ t, exec (.settledSampleRelease p m) s = .next t ∧ t.loom.bolt = s.loom.bolt ∧ t.loom.live = s.loom.live ∧ t.time = s.time
          ∧ ∀ (ch : Nat) (x : Sample), (settledSamples s p m)[ch]? = some x → (settledOf t (p * 16 + ch)).head? = some x)
    ∧ (∀ (chi k : Nat) (s : State), posExists s (posOfChi chi) = true → s.up = true →
        multiplexed (posOf s (posOfChi chi)).kind (chanOf chi) = true → 200 * k + 272 ≤ s.spc →
        (∀ y, tget s.loom.dwell (entryKey chi (muxPos s (posOfChi chi) (chanOf chi) (200 * k))) = some y → y.m < k) →
        ∃ t, exec (.dwellValueFinal chi k) s = .next t ∧ t.loom.bolt = s.loom.bolt ∧ t.loom.settled = s.loom.settled ∧ t.time = s.time
          ∧ tget t.loom.dwell (entryKey chi (muxPos s (posOfChi chi) (chanOf chi) (200 * k))) = some (dwellSample s chi k))
    ∧ ∀ (chi k : Nat) (s : State), posExists s (posOfChi chi) = true → s.up = true →
        hasPrimary (posOf s (posOfChi chi)).kind (chanOf chi) = true → 200 * k + 1600 ≤ s.spc →
        (∀ y, tget s.loom.primary chi = some y → y.m < k) →
        ∃ t, exec (.primarySampleFinal chi k) s = .next t ∧ t.loom.bolt = s.loom.bolt ∧ t.loom.settled = s.loom.settled ∧ t.time = s.time
          ∧ tget t.loom.primary chi = some (primarySample (primaryStore s chi) k)

/-- DELTA_REPLAY works off the oldest corrections of its tile, within 65,536 channel-picks of a tile and the device's reads of a pick, and
touches no other tile's; an SRAM error has the samples in progress and the three before them replayed; a bolt entry lost before its
samples are released is a gap; a standard record in error starts again, or is marked when it was committed (R126, R128 to R130, R132,
R155). A tile fault fails the physical tile and moves its logical tile to the lowest spare, which is then rebuilt; without a spare the
logical tile is fenced. SPARE_REBUILD_DONE ends the rebuilding (R131, R458). A trip's re-analysis starts at t + TRIP_POST + 64; when it is
done its section, over the picks before and after t, is stored for its function to harvest, and it is no longer in progress (R134 to
R136). -/
def Obligations.ReplayAndTiles : Prop :=
  ((∀ (tile budget : Nat) (s : State), tileExists s.otp.variant tile = true → s.up = true → rebuilding s tile = false →
      let u := spentNow s
      ∃ t done, exec (.deltaReplay tile budget) s = .next t
        ∧ t = { s with loom := { s.loom with replay := t.loom.replay, spent := t.loom.spent } }
        ∧ (∀ k, k ≠ tile → tget t.loom.replay k = tget s.loom.replay k)
        ∧ (tgetD s.loom.replay tile []).mergeSort replayOrder = done ++ tgetD t.loom.replay tile []
        ∧ (done.map (replayCost s)).sum ≤ min budget (65536 - tgetD u.tiles tile 0)
        ∧ (done.map replayBytes).sum ≤ replayLimit s.otp.variant - u.bytes
        ∧ tgetD t.loom.spent.tiles tile 0 = tgetD u.tiles tile 0 + (done.map (replayCost s)).sum
        ∧ t.loom.spent.bytes = u.bytes + (done.map replayBytes).sum)
    ∧ (∀ (chi : Nat) (s : State), posExists s (posOfChi chi) = true → s.up = true →
        ∃ t, exec (.sramEccError chi) s = .next t ∧ tget t.loom.sramAt chi = some s.spc ∧ t.loom.bolt = s.loom.bolt
          ∧ t.loom.full = (chi, firstSpan s.spc - 3, lastSpan s.spc) :: s.loom.full ∧ t.line = s.line ∧ t.safe = s.safe)
    ∧ (∀ (p d : Nat) (s : State), s.up = true → s.spc < 8 * ((d + 12) / 8) + 92 →
        ∃ t, exec (.hbmEccError (.boltEntry p d)) s = .next t ∧ (∀ e ∈ boltOf t p, e.pick = d → e.bstate = .gap)
          ∧ (boltOf t p).filter (fun e => e.pick != d) = (boltOf s p).filter (fun e => e.pick != d)
          ∧ (∀ q, q ≠ p → boltOf t q = boltOf s q) ∧ t.line = s.line ∧ t.safe = s.safe)
    ∧ ∀ (sixty : Bool) (chi j : Nat) (s : State), s.up = true →
        ∃ t, exec (.hbmEccError (.standard sixty chi j)) s = .next t ∧ t.loom = s.loom ∧ t.line = s.line
          ∧ ∀ r ∈ tgetD (stdTab t sixty) (entryKey chi (stdPosIn s chi (stdLen sixty * j))) [], r.j = j →
            r.acc.flags &&& RF_ERROR = RF_ERROR ∧ (r.committed = false → r.acc = { flags := RF_ERROR }))
    ∧ ((∀ (phys tile u : Nat) (s : State), unitExists s.otp.variant 1 phys = true → s.up = true → ustate s 1 phys = .ready →
      logicalOf s phys = some tile → freeSpare s = some u →
      ∃ t, exec (.tileFault phys) s = .next t ∧ physOf t tile = u ∧ tget t.loom.repair tile = some { f := s.spc, spare := u }
        ∧ ustate t 1 phys = .failed ∧ ustate t 1 u = .ready ∧ t.loom.fenced = s.loom.fenced ∧ t.loom.bolt = s.loom.bolt
        ∧ t.nvm.fences.length = s.nvm.fences.length + 1 ∧ t.line = s.line)
    ∧ (∀ (phys tile : Nat) (s : State), unitExists s.otp.variant 1 phys = true → s.up = true → ustate s 1 phys = .ready →
        logicalOf s phys = some tile → freeSpare s = none →
        ∃ t, exec (.tileFault phys) s = .next t ∧ t.loom.fenced.contains tile = true ∧ ustate t 1 phys = .failed
          ∧ t.nvm.fences.length = s.nvm.fences.length + 1
          ∧ ∀ c d, tileOf c = tile → thas s.line.chains c = true → d ∈ drivesOn s c → (posOf t d).posted.outEn = false)
    ∧ (∀ (phys : Nat) (s : State), unitExists s.otp.variant 1 phys = true → s.up = true → fencedUnit s 1 phys = false → logicalOf s phys = none →
        ∃ t, exec (.tileFault phys) s = .next t ∧ ustate t 1 phys = .failed ∧ t.loom = s.loom ∧ t.nvm.fences.length = s.nvm.fences.length + 1
          ∧ t.line = s.line)
    ∧ ∀ (tile : Nat) (s : State), tileExists s.otp.variant tile = true → s.up = true → s.time.refclkOk = true →
        ∃ t, exec (.spareRebuildDone tile) s = .next t ∧ t.loom = { s.loom with repair := tdel s.loom.repair tile } ∧ t.line = s.line
          ∧ t.safe = s.safe ∧ (thas s.loom.repair tile = false → t = s))
    ∧ ((∀ (fn trip : Nat) (s : State), s.up = true →
      ∃ t, exec (.tripReanalysisStart fn trip) s = .next t ∧ t = { s with loom := { s.loom with reanalyses := t.loom.reanalyses } }
        ∧ t.loom.reanalyses.length = s.loom.reanalyses.length
        ∧ (∀ a ∈ t.loom.reanalyses, a.fn = fn → a.trip = trip → a.t + a.post + 64 ≤ s.spc → a.running = true)
        ∧ ∀ a ∈ s.loom.reanalyses, ¬ (a.fn = fn ∧ a.trip = trip ∧ a.t + a.post + 64 ≤ s.spc) → a ∈ t.loom.reanalyses)
    ∧ ∀ (fn trip : Nat) (s : State) (a : Reanalysis), s.up = true →
        s.loom.reanalyses.find? (fun a => a.fn == fn && a.trip == trip && a.running) = some a →
        ∃ t x, exec (.tripReanalysisDone fn trip) s = .next t ∧ t.loom.trips = s.loom.trips ++ [x]
          ∧ x.fn = fn ∧ x.trip = trip ∧ x.chi = a.chi ∧ x.t = a.t ∧ x.pre = a.pre ∧ x.post = a.post ∧ x.entries = tripEntries s a
          ∧ (∀ b ∈ t.loom.reanalyses, b.fn = fn → b.trip ≠ trip) ∧ t.loom.bolt = s.loom.bolt ∧ t.safe = s.safe ∧ t.acc = s.acc)

/-! ### Housekeeping -/

/-- A final housekeeping value is kept with its round and changes no other position. At the decision boundary of the next round the checks of
R473 run on the values held: 2 consecutive failures raise the alarm and 10 consecutive passes clear it (R471 to R473). -/
def Obligations.HousekeepingValues : Prop :=
  (∀ (h k : Nat) (value : Int) (ovr : Bool) (s : State), h < 24 → hkRuns s = true → hkRoundOf s h = some k → s.boot.releasedAt ≤ 10000 * k + 400 * h →
    (∀ v, tget s.therm.values h = some v → v.round < k) →
    ∃ t, exec (.hkSlotValueFinal h value ovr) s = .next t ∧ tget t.therm.values h = some { round := k, value := value, ovr := ovr }
      ∧ (∀ i, i ≠ h → tget t.therm.values i = tget s.therm.values i) ∧ t.time = s.time ∧ t.line = s.line ∧ t.safe = s.safe
      ∧ t.therm.reading = s.therm.reading ∧ t.therm.steps = s.therm.steps ∧ t.therm.band = s.therm.band ∧ t.therm.checks = s.therm.checks)
    ∧ ∀ (v w : HkValue) (s : State), s.boot.phase = .running → tget s.therm.values 0 = some v → tget s.therm.values 23 = some w → w.round + 1 = v.round →
        (∀ i, i < 24 → thas s.therm.values i = true) → 10000 * v.round + 420 ≤ s.spc → s.therm.decided ≠ some v.round →
        ∃ t, exec .hkRoundDecision s = .next t ∧ t.therm.values = s.therm.values
          ∧ ∀ e ∈ hkChecks s,
            let c := tgetD s.therm.checks e.1 {}
            let d := tgetD t.therm.checks e.1 {}
            if e.2 then d.failing = c.failing + 1 ∧ d.passing = 0 ∧ d.alarm = (c.alarm || decide (2 ≤ c.failing + 1))
            else d.failing = 0 ∧ d.passing = c.passing + 1 ∧ d.alarm = (c.alarm && decide (c.passing + 1 < 10))

/-- The decision of a round by a known reading below 118.0 °C: the shed steps of R475, one more at most every 20 rounds from 105.0 °C, one
less at most every 50 rounds below 100.0 °C; the state from the steps and the reading; the band of R481. -/
def Obligations.ThermalDecision : Prop :=
  ∀ (v : HkValue) (x : Int) (s : State), s.boot.phase = .running → tget s.therm.values 0 = some v → 10000 * v.round + 420 ≤ s.spc →
    s.therm.decided ≠ some v.round → (dieReading (closeRound v.round s)).1 = some x → x < 118000 →
    ∃ t, exec .hkRoundDecision s = .next t ∧ t.therm.reading = some x ∧ t.therm.decided = some v.round ∧ t.therm.unk = 0
      ∧ t.boot.phase = .running ∧ t.time = s.time ∧ t.safe = s.safe ∧ t.therm.values = s.therm.values
      ∧ (if 105000 ≤ x ∧ (s.therm.steps = 0 ∨ s.therm.steps < 4 ∧ s.therm.last + 20 ≤ v.round) then
          t.therm.steps = s.therm.steps + 1 ∧ t.therm.last = v.round
        else if x < 100000 ∧ 0 < s.therm.steps ∧ s.therm.last + 50 ≤ v.round then t.therm.steps = s.therm.steps - 1 ∧ t.therm.last = v.round
        else t.therm.steps = s.therm.steps ∧ t.therm.last = s.therm.last)
      ∧ t.therm.tstate = (if 0 < t.therm.steps then .throttle
          else if 98000 ≤ x ∨ s.therm.tstate ≠ .normal ∧ 94000 ≤ x then .warning else .normal)
      ∧ t.therm.force = max t.therm.steps (if s.pair.link then s.therm.twin else 0)
      ∧ t.therm.band = (if 105000 ≤ x then 3 else if 102000 ≤ x then max 2 (min s.therm.band 3) else if 90000 ≤ x then 2
          else if 87000 ≤ x then max 1 (min s.therm.band 2) else if 70000 ≤ x then 1 else if 67000 ≤ x then min s.therm.band 1 else 0)

/-- A reading of 118.0 °C or more, or unknown for the 30th round in a row, decides a thermal shutdown: kill line asserted, every `FN_READY`
bit cleared; an unknown reading before that leaves the band and throttles. In shutdown a round only records its reading (R474, R475,
R478). -/
def Obligations.ThermalShutdown : Prop :=
  (∀ (v : HkValue) (s : State), s.boot.phase = .running → tget s.therm.values 0 = some v → 10000 * v.round + 420 ≤ s.spc →
      s.therm.decided ≠ some v.round →
      ((∃ x, (dieReading (closeRound v.round s)).1 = some x ∧ 118000 ≤ x) ∨ (dieReading (closeRound v.round s)).1 = none ∧ 30 ≤ s.therm.unk + 1) →
      ∃ t, exec .hkRoundDecision s = .next t ∧ t.boot.phase = .shutdown ∧ t.safe.kill = true ∧ t.boot.fnReady = 0
        ∧ t.therm.shutAt = some (s.spc, if (dieReading (closeRound v.round s)).1.isNone then 2 else 1) ∧ t.therm.shutReady = (closeRound v.round s).boot.fnReady
        ∧ t.boot.alertStat.getLsbD 0 = true ∧ t.time = s.time ∧ t.therm.band = s.therm.band)
    ∧ (∀ (v : HkValue) (s : State), s.boot.phase = .running → tget s.therm.values 0 = some v → 10000 * v.round + 420 ≤ s.spc →
        s.therm.decided ≠ some v.round → (dieReading (closeRound v.round s)).1 = none → s.therm.unk + 1 < 30 →
        ∃ t, exec .hkRoundDecision s = .next t ∧ t.boot.phase = .running ∧ t.therm.reading = none ∧ t.therm.unk = s.therm.unk + 1
          ∧ t.therm.band = s.therm.band ∧ 0 < t.therm.steps ∧ t.therm.tstate = .throttle ∧ s.therm.steps ≤ t.therm.steps)
    ∧ (∀ (v : HkValue) (s : State), s.boot.phase = .shutdown → tget s.therm.values 0 = some v → 10000 * v.round + 420 ≤ s.spc →
        s.therm.decided ≠ some v.round →
        ∃ t, exec .hkRoundDecision s = .next t ∧ t.boot.phase = .shutdown ∧ t.therm.reading = (dieReading (closeRound v.round s)).1 ∧ t.safe = s.safe
          ∧ t.therm.steps = s.therm.steps ∧ t.therm.band = s.therm.band)
    ∧ ∀ (d cause : Nat) (s : State), s.boot.phase = .shutdown → s.therm.shutAt = some (d, cause) → d < s.spc →
        ∃ t, exec .shutdownPowerGate s = .next t ∧ t.boot.phase = .shutdown ∧ t.time = s.time ∧ t.line = {} ∧ t.lane = {} ∧ t.loom = {}
          ∧ t.ten = {} ∧ t.cmd = {} ∧ t.acc = {} ∧ t.est = {} ∧ t.boot.linkUp = false ∧ t.therm = { s.therm with shutAt := none }
          ∧ t.nvm.wear = t.wear ∧ (s.boot.nvmLoaded = true → t.wear = { s.wear with written := s.spc }) ∧ t.nvm.tseq = s.nvm.tseq + 1
          ∧ (t.nvm.thermal.getLast?.bind List.head?) = some (wd (2 ^ 24 + cause * 2 ^ 16))
          ∧ (s.nvm.thermal.length < 8192 → t.nvm.thermal.length = s.nvm.thermal.length + 1)

/-- The daily samples head their indicators' histories of at most 90, the eye width and the thermal cycles as the device has followed them;
the counters are written at every multiple of 2,160,000,000. `HK.THERMAL`, `HK.WEAR`, `HK.RECORDS` and the dump of `HK.TRACE` report; its
form 0 sets the mask and the spill limit (R413, R482 to R484, R487, R489). -/
def Obligations.WearAndTrace : Prop :=
  (∀ (l : List WearSample) (s : State), s.up = true → s.spc % 8640000000 = 0 → s.therm.sampledAt ≠ some s.spc → (l.map (·.wind)).Nodup →
      let old (k : Nat) : List Nat := (tgetD s.wear.inds k {}).samples
      ∃ t, exec (.wearDailySample l) s = .next t ∧ t.time = s.time ∧ t.line = s.line ∧ t.safe = s.safe ∧ t.therm.sampledAt = some s.spc
        ∧ (∀ x ∈ l, x.wind = 1 ∨ x.wind = 2 ∨ x.wind = 4 → (tgetD t.wear.inds x.wind {}).samples = (x.value :: old x.wind).take 90)
        ∧ (∀ e, medianEye s.wear = some e → (tgetD t.wear.inds 3 {}).samples = (e.1 :: old 3).take 90)
        ∧ (tgetD t.wear.inds 5 {}).samples = (equivalentCycles s.wear :: old 5).take 90 ∧ t.wear.eyes = []
        ∧ ∀ k, k ≠ 5 → (k = 3 → medianEye s.wear = none) → (k = 1 ∨ k = 2 ∨ k = 4 → k ∉ l.map (·.wind)) → tget t.wear.inds k = tget s.wear.inds k)
    ∧ (∀ s : State, s.up = true → s.spc % 2160000000 = 0 → s.boot.nvmLoaded = true →
        ∃ t, exec .wearCounterWrite s = .next t ∧ t.wear = { s.wear with written := s.spc } ∧ t.nvm = { s.nvm with wear := t.wear }
          ∧ t.line = s.line ∧ t.safe = s.safe)
    ∧ (∀ (r : Req) (s : State), Accepted (checksHkThermal r s) r s →
        Answers (exec (.hkThermal r) s) r ST_OK
          [wdI (hkValue s 0), wd (s.therm.band + tstateCode s.therm.tstate * 2 ^ 4), wd s.therm.force] s s)
    ∧ (∀ (r : Req) (s : State), Accepted (checksHkWear r s) r s →
        Reports (exec (.hkWear r) s) r 0x4B545354 0x0E 0
          (fun res _ => res = match wearPrediction s with
            | some p => [wd p.2.days, wd p.2.u]
            | none => [0xFFFFFFFF, 0xFFFFFFFF]) s s)
    ∧ (∀ (r : Req) (s : State), Accepted (checksHkRecords r s) r s →
        Reports (exec (.hkRecords r) s) r 0x4B545354 0x0E 0
          (fun res _ => ∃ n, n ≤ (recordsOf s (reqWord r 4).toNat).length ∧ res = [wd n]) s s)
    ∧ (∀ (r : Req) (s : State), Accepted (checksHkTrace r s) r s → bits (reqWord r 4) 1 0 = 0 →
        ∃ t n lost, exec (.hkTrace r) s = .next t ∧ Completes r ST_OK [wd n, wd lost] s t
          ∧ Only { s with nvm := { s.nvm with kept := { s.nvm.kept with
              traceMask := (reqWord r 6).toNat, traceSpill := (reqWord r 5).toNat } } } t
          ∧ t.trace.mask = (reqWord r 6).toNat ∧ t.trace.spill = (reqWord r 5).toNat)
    ∧ (∀ (r : Req) (s : State), Accepted (checksHkTrace r s) r s → bits (reqWord r 4) 1 0 = 2 →
        ∃ n lost, Answers (exec (.hkTrace r) s) r ST_OK [wd n, wd lost] s s)
    ∧ ∀ (r : Req) (s : State), Accepted (checksHkTrace r s) r s → bits (reqWord r 4) 1 0 = 1 →
        Reports (exec (.hkTrace r) s) r 0x4B545452 0x61 2 (fun res _ => ∃ n lost, res = [wd n, wd lost]) s s

/-- `HK.FW` stages an image into an erased slot, selects a slot on trial, activates a command-processor part or reports; a staging leaves the
image in its slot only when every check passed. Selecting another safety version puts the island into lockout (R413, R463 to R465).
`HK.BIST` tests one fenced unit or spare, whose record a pass clears and whose state stays out of use; the record window answers a request
with the record asked for, is not available before `NVM`, and ignores a write while busy (R413, R453, R517). -/
def Obligations.FirmwareAndTests : Prop :=
  ((∀ (r : Req) (s : State), Accepted (checksHkFw r s) r s → (reqWord r 4).toNat = 0 →
      (((reqWord r 5).toNat == 1) ≠ s.boot.slotB ∨ s.boot.romOnly = true) →
      ∃ v, Begins (exec (.hkFw r) s) r 0x0E04 (reqWord r 5).toNat [wd v] s
        (putSlot ((reqWord r 5).toNat == 1) none { s with boot := { s.boot with
          staging := some ((reqWord r 5).toNat == 1, reqRef r), stageHead := r.inb.take headWords } }))
    ∧ (∀ (r : Req) (s : State), Accepted (checksHkFw r s) r s → (reqWord r 4).toNat = 0 →
        ((reqWord r 5).toNat == 1) = s.boot.slotB → s.boot.romOnly = false →
        ∃ t v, exec (.hkFw r) s = .next t ∧ Completes r ST_ACCEPTED [wd v] s t ∧ t.nvm = s.nvm ∧ t.boot = s.boot
          ∧ ∀ u ∈ t.cmd.unfinished, u.ref ≠ reqRef r)
    ∧ (∀ (r : Req) (s : State) (img : FwImage), Accepted (checksHkFw r s) r s → (reqWord r 4).toNat = 1 →
        slotImage s ((reqWord r 5).toNat == 1) = some img → img.safetyVersion = s.boot.safetyVersion →
        Answers (exec (.hkFw r) s) r ST_OK [wd (img.version % 2 ^ 16)] s
          { s with nvm := { s.nvm with prefB := (reqWord r 5).toNat == 1, trialFlag := true, trialFailed := false } })
    ∧ (∀ (r : Req) (s : State) (img : FwImage), Accepted (checksHkFw r s) r s → (reqWord r 4).toNat = 1 →
        slotImage s ((reqWord r 5).toNat == 1) = some img → img.safetyVersion ≠ s.boot.safetyVersion → s.safe.island = .run →
        ∃ t, exec (.hkFw r) s = .next t ∧ Completes r ST_OK [wd (img.version % 2 ^ 16)] s t ∧ t.safe.island = .lockout ∧ t.safe.kill = true
          ∧ t.safe.causes = [LC_FW_SAFETY] ∧ t.nvm.prefB = ((reqWord r 5).toNat == 1) ∧ t.nvm.trialFlag = true)
    ∧ (∀ (r : Req) (s : State), Accepted (checksHkFw r s) r s → (reqWord r 4).toNat = 2 →
        ∃ v, Begins (exec (.hkFw r) s) r 0x0E04 (reqWord r 5).toNat [wd v] s
          { s with boot := { s.boot with activating := some ((reqWord r 5).toNat == 1, reqRef r) } })
    ∧ (∀ (r : Req) (s : State), Accepted (checksHkFw r s) r s → (reqWord r 4).toNat = 3 →
        ∃ v, Answers (exec (.hkFw r) s) r ST_OK [wd (v % 2 ^ 16 + b2n s.boot.trial.isSome * 2 ^ 16)] s s)
    ∧ (∀ (k : ImageChecks) (parts : ImageParts) (b : Bool) (ref : CmdRef) (s : State), s.up = true → s.boot.staging = some (b, ref) →
        let img := imageOf s.boot.stageHead parts
        ∃ t, exec (.fwStagingDone k parts) s = .next t ∧ t.boot = { s.boot with staging := none, stageHead := [] }
          ∧ slotImage t b = (if imageSound s.otp.keyHash k s.boot.stageHead = true ∧ imageFits s img = true then some img else slotImage s b) ∧ slotImage t (!b) = slotImage s (!b)
          ∧ (∀ u ∈ t.cmd.unfinished, u.ref ≠ ref) ∧ t.safe = s.safe ∧ t.line = s.line)
    ∧ ∀ (k : ImageChecks) (parts : ImageParts) (b : Bool) (ref : CmdRef) (i : FwImage) (s : State), s.up = true → s.boot.staging = none →
        s.boot.activating = some (b, ref) → slotImage s b = some i →
        ∃ t, exec (.fwStagingDone k parts) s = .next t ∧ t.boot = { s.boot with activating := none, cpPart := i.cmdPart }
          ∧ t.nvm = s.nvm ∧ t.safe = s.safe ∧ t.line = s.line)
    ∧ ((∀ (r : Req) (s : State), Accepted (checksHkBist r s) r s → (reqWord r 4).toNat = 1 →
      Begins (exec (.hkBist r) s) r 0x0E05 0 [] s
        (setUnit (bits (reqWord r 5) 7 0) (bits (reqWord r 5) 15 8) (fun x => { x with ustate := .testing })
          { s with boot := { s.boot with bistRuns := s.boot.bistRuns ++ [(bits (reqWord r 5) 7 0, bits (reqWord r 5) 15 8,
              ustate s (bits (reqWord r 5) 7 0) (bits (reqWord r 5) 15 8) == .spare, reqRef r)] } }))
    ∧ (∀ (r : Req) (s : State), Accepted (checksHkBist r s) r s → (reqWord r 4).toNat = 0 →
        Reports (exec (.hkBist r) s) r 0x4B545354 0x0E 0 (fun res _ => ∃ n, n ≤ (allUnits s.otp.variant).length ∧ res = [wd n]) s s)
    ∧ (∀ (result cls u : Nat) (spare : Bool) (ref : CmdRef) (runs : List (Nat × Nat × Bool × CmdRef)) (s : State), s.up = true → result < 256 →
        s.boot.bistRuns = (cls, u, spare, ref) :: runs → unitExists s.otp.variant cls u = true →
        ∃ t, exec (.bistRunDone result) s = .next t ∧ t.boot.bistRuns = runs
          ∧ ustate t cls u = (if spare = true ∧ result = 0 then .spare else .fenced)
          ∧ (result = 0 → spare = false → lastFence t cls u = some 3) ∧ (result = 0 → spare = true → t.nvm.fences = s.nvm.fences)
          ∧ (result ≠ 0 → lastFence t cls u = some 1)
          ∧ (∀ x ∈ t.cmd.unfinished, x.ref ≠ ref) ∧ t.line = s.line ∧ t.safe = s.safe ∧ t.loom = s.loom)
    ∧ (∀ (value : Word) (s : State), s.up = true ∨ s.boot.phase = .shutdown → s.boot.nvrState = 1 → exec (.nvrReqWrite value) s = .next s)
    ∧ (∀ (value : Word) (s : State), s.up = true → s.boot.nvrState ≠ 1 → s.boot.fnReady.getLsbD 1 = true →
        ∃ n, exec (.nvrReqWrite value) s
          = .next { s with boot := { s.boot with nvrReq := value, nvrState := 1, nvrLen := 0, nvrHeld := n, nvrWin := [] } })
    ∧ (∀ (value : Word) (s : State), s.boot.nvrState ≠ 1 → s.up = true ∧ s.boot.fnReady.getLsbD 1 = false ∨ s.boot.phase = .shutdown →
        exec (.nvrReqWrite value) s
          = .next { s with boot := { s.boot with nvrReq := value, nvrState := 4, nvrLen := 0, nvrHeld := 0, nvrWin := [] } })
    ∧ ∀ s : State, s.up = true → s.boot.nvrState = 1 →
        ∃ t, exec .nvrReadDone s = .next t
          ∧ match (windowRecords s (bits s.boot.nvrReq 7 0))[bits s.boot.nvrReq 31 8]? with
            | some ws => t = { s with boot := { s.boot with
                nvrState := 2, nvrLen := ws.length, nvrWin := (List.range 32).map fun i => ws.getD i 0 } }
            | none => t = { s with boot := { s.boot with nvrState := 3 } })

/-! ### Tenants and the host interface -/

/-- The TEN commands: a tenant is created under the number named or the lowest free one of an enabled VF; destroying and resetting take effect
at the next boundary; a chain changes owner at the first multiple of 200 at least 400 picks ahead; reservations, weights and status (R357
to R362, R378, R381, R383, R411). -/
def Obligations.TenantCommands : Prop :=
  (∀ (r : Req) (s : State), Accepted (checksTenCreate r s) r s →
      ∃ t, t < 256 ∧ thas s.ten.tenants t = false ∧ ((reqWord r 4).toNat ≠ 0x1FF → t = (reqWord r 4).toNat)
        ∧ ((reqWord r 4).toNat = 0x1FF → ∀ j, j < t → thas s.ten.tenants j = true ∨ vfOn s j = false)
        ∧ Answers (exec (.tenCreate r) s) r ST_OK [wd t] s
            { s with ten := { s.ten with tenants := tset s.ten.tenants t {}, weights := tset s.ten.weights t {} } })
    ∧ (∀ (r : Req) (s : State), Accepted (checksTenDestroy r s) r s →
        Begins (exec (.tenDestroy r) s) r 0x0C01 (reqWord r 4).toNat [] s
          (modTenant (reqWord r 4).toNat (fun x => { x with reset := some { r := s.spc + 1, cause := 3, cmd := some (reqRef r) } }) s))
    ∧ (∀ (r : Req) (s : State), Accepted (checksTenGrant r s) r s → (reqWord r 5).toNat = 0 →
        let g : Grant := { owner := (reqWord r 4).toNat, g := nextMult 200 (s.spc + 400), cmd := some (reqRef r) }
        Begins (exec (.tenGrant r) s) r 0x0C02 (reqWord r 6).toNat [] s
          (modTen (fun u => { u with grants := tset u.grants (reqWord r 6).toNat g }) s))
    ∧ (∀ (r : Req) (s : State), Accepted (checksTenGrant r s) r s → (reqWord r 5).toNat = 1 →
        ∃ t, exec (.tenGrant r) s = .next t ∧ Completes r ST_OK [] s t ∧ Only { s with ten := { t.ten with vecs := s.ten.vecs } } t
          ∧ t.ten.tenants = tupd s.ten.tenants (reqWord r 4).toNat (fun x => { x with pools := grantPools r })
          ∧ t.ten.owner = s.ten.owner ∧ t.ten.weights = s.ten.weights ∧ t.ten.grants = s.ten.grants)
    ∧ (∀ (r : Req) (s : State), Accepted (checksTenRevoke r s) r s →
        let g : Grant := { owner := mgmt, g := nextMult 200 (s.spc + 400), cmd := some (reqRef r) }
        Begins (exec (.tenRevoke r) s) r 0x0C03 (reqWord r 4).toNat [] s
          (modTen (fun u => { u with grants := tset u.grants (reqWord r 4).toNat g }) s))
    ∧ (∀ (r : Req) (s : State), Accepted (checksTenQos r s) r s →
        let w : Weights :=
          { spectral := bits (reqWord r 5) 15 0, dma := bits (reqWord r 5) 31 16, cpu := bits (reqWord r 6) 15 0
            event := bits (reqWord r 6) 31 16 }
        ∃ t, exec (.tenQos r) s = .next t ∧ Completes r ST_OK [] s t ∧ Only { s with ten := { t.ten with vecs := s.ten.vecs } } t
          ∧ t.ten.weights = tset s.ten.weights (reqWord r 4).toNat w
          ∧ t.ten.tenants = s.ten.tenants ∧ t.ten.owner = s.ten.owner)
    ∧ (∀ (r : Req) (s : State), Accepted (checksTenReset r s) r s → ((tget s.ten.tenants (reqWord r 4).toNat).bind (·.reset)).isSome = true →
        Defers (exec (.tenReset r) s) r (.tenReset (reqWord r 4).toNat) s s)
    ∧ (∀ (r : Req) (s : State), Accepted (checksTenReset r s) r s → (tget s.ten.tenants (reqWord r 4).toNat).bind (·.reset) = none →
        Begins (exec (.tenReset r) s) r 0x0C05 (reqWord r 4).toNat [] s
          (modTenant (reqWord r 4).toNat (fun x => { x with reset := some { r := s.spc + 1, cause := 0, cmd := some (reqRef r) } }) s))
    ∧ ∀ (r : Req) (s : State), Accepted (checksTenStatus r s) r s →
        let t := (reqWord r 4).toNat
        Answers (exec (.tenStatus r) s) r ST_OK
          [wd (tenantCode s t), wd (s.ten.owner.filter (fun e => e.2 == t)).length, wd (tgetD s.ten.queues t {}).lost, wd (inFlight s t)] s s

/-- A function-level reset of a VF, and VF Enable or NumVFs as they take a VF away, start the tenant's reset at the next boundary (R381). At
boundary g a chain passes to its new owner, and what the old owner had running on it ends; its bindings and its trips stay. A grant to a
number that is no tenant any more changes nothing (R360, R361; the latter is the model's choice, log 16). -/
def Obligations.TenantResets : Prop :=
  ((∀ (vf : Nat) (x : Tenant) (s : State), s.up = true → 1 ≤ vf → vf ≤ 256 → vfOn s (vf - 1) = true → tget s.ten.tenants (vf - 1) = some x →
      exec (.functionLevelReset vf) s = .next (modTenant (vf - 1) (fun y =>
        { y with reset := some (x.reset.getD { r := s.spc + 1, cause := 1 }) }) s))
    ∧ (∀ s : State, s.up = true → ∃ t, exec (.functionLevelReset 0) s = .next t ∧ t.ten.vfEnable = false
        ∧ ∀ k x, tget t.ten.tenants k = some x → x.state = .detached ∨ x.reset.isSome = true)
    ∧ (∀ (enable : Bool) (n : Nat) (s : State), s.up = true →
        ∃ t, exec (.vfEnableCleared enable n) s = .next t ∧ t.ten.vfEnable = enable ∧ t.ten.numVfs = min n 256 ∧ t.line = s.line ∧ t.safe = s.safe
          ∧ ∀ k x, tget t.ten.tenants k = some x → x.state = .detached ∨ x.reset.isSome = true ∨ (enable = true ∧ k < n ∧ k < 256))
    ∧ (∀ (k : Nat) (y : Tenant) (x : TenReset) (s : State), s.up = true → k < 256 → tget s.ten.tenants k = some y → y.reset = some x → x.done = false →
        x.r ≤ s.spc →
        ∃ t z, exec (.tenantResetEffect k) s = .next t ∧ tget t.ten.tenants k = some z ∧ z.state = .resetting ∧ z.pools = y.pools
          ∧ z.reset = some { x with r := s.spc, done := true, aborted := min (inFlight s k) 0xFFFFFF }
          ∧ t.ten.owner = s.ten.owner ∧ t.safe.trips = s.safe.trips ∧ t.safe.sets = s.safe.sets ∧ t.safe.island = s.safe.island
          ∧ stdTab t false = stdTab s false ∧ stdTab t true = stdTab s true ∧ t.loom.bolt = s.loom.bolt
          ∧ (∀ q, q < 16 → thas t.cmd.rings (k * 16 + q) = false) ∧ (∀ u ∈ t.cmd.unfinished, u.ref.fn ≠ k)
          ∧ (∀ d ∈ t.cmd.deferred, d.ref.fn ≠ k) ∧ thas t.ten.queues k = false
          ∧ (∀ f ∈ t.spec.focus, f.1 / 65536 ≠ k) ∧ (∀ w ∈ t.acc.windows, w.1 / 65536 ≠ k) ∧ (∀ e ∈ t.loom.trips, e.fn ≠ k))
    ∧ (∀ (k : Nat) (y : Tenant) (x : TenReset) (s : State), s.up = true → k < 256 → tget s.ten.tenants k = some y → y.reset = some x →
        x.done = true → x.r + 500 ≤ s.spc → x.cause ≠ 3 →
        ∃ t z, exec (.tenantResetComplete k) s = .next t ∧ tget t.ten.tenants k = some z ∧ z.reset = none ∧ z.pools = y.pools
          ∧ z.state = (if vfOn s k then .active else .detached) ∧ t.ten.owner = s.ten.owner ∧ t.line = s.line ∧ t.safe = s.safe
          ∧ (∀ d ∈ t.cmd.deferred, d.kind ≠ .tenReset k) ∧ (∀ u ∈ t.cmd.unfinished, some u.ref ≠ x.cmd))
    ∧ ∀ (k : Nat) (y : Tenant) (x : TenReset) (s : State), s.up = true → k < 256 → tget s.ten.tenants k = some y → y.reset = some x → x.done = true →
        x.r + 500 ≤ s.spc → x.cause = 3 →
        ∃ t, exec (.tenantResetComplete k) s = .next t ∧ (∀ c, ownerOf s c = k → ownerOf t c = mgmt)
          ∧ (∀ c, ownerOf s c ≠ k → ownerOf t c = ownerOf s c) ∧ (∀ u ∈ t.cmd.unfinished, some u.ref ≠ x.cmd)
          ∧ t.map.bind = s.map.bind ∧ t.safe.trips = s.safe.trips)
    ∧ ((∀ (c : Nat) (g : Grant) (s : State), chainExists s c = true → s.up = true → tget s.ten.grants c = some g → g.g ≤ s.spc →
      g.owner = mgmt ∨ thas s.ten.tenants g.owner = true →
      ∃ t, exec (.ownerChange c) s = .next t ∧ ownerOf t c = g.owner ∧ (∀ k, k ≠ c → ownerOf t k = ownerOf s k)
        ∧ t.ten.grants = tdel s.ten.grants c ∧ t.ten.tenants = s.ten.tenants ∧ t.map.bind = s.map.bind ∧ t.safe.trips = s.safe.trips
        ∧ t.safe.derived = s.safe.derived ∧ t.loom.bolt = s.loom.bolt
        ∧ (∀ f ∈ t.spec.focus, ¬ (f.1 / 65536 = ownerOf s c ∧ chainOfChi f.2.chi = c))
        ∧ (∀ x ∈ t.map.staged, ¬ (x.fn = ownerOf s c ∧ chainOfPos (bits x.target 31 13) = c))
        ∧ (∀ p d, tget t.spec.dither p = some d → chainOfPos p = c → d.on = false)
        ∧ (∀ k w, tget t.acc.windows k = some w → k / 65536 = ownerOf s c →
            (∃ e ∈ w.entries, isHk e.chi = false ∧ chainOfChi e.chi = c) → thas w.left c = true)
        ∧ ∀ u ∈ t.cmd.unfinished, some u.ref ≠ g.cmd)
    ∧ ∀ (c : Nat) (g : Grant) (s : State), chainExists s c = true → s.up = true → tget s.ten.grants c = some g → g.g ≤ s.spc → g.owner ≠ mgmt →
        thas s.ten.tenants g.owner = false →
        ∃ t, exec (.ownerChange c) s = .next t ∧ t.ten.owner = s.ten.owner ∧ t.ten.grants = tdel s.ten.grants c ∧ t.line = s.line
          ∧ t.spec = s.spec ∧ t.acc = s.acc ∧ ∀ u ∈ t.cmd.unfinished, some u.ref ≠ g.cmd)

/-- A round of the event writer plans at least one record for each function that has one pending and room for it, writes the first 16 of its
plan now, each function's oldest first, and leaves the rest to the picks that follow; an interval of moderation ends in one message, or in
the pending bit of a masked vector; a command in the store of the unfinished finishes; a dispatch round starts a tenant's oldest packet,
and no other where that one takes the core time of the round (R374, R376, R377, R379, R391). -/
def Obligations.RoundsAndInterrupts : Prop :=
  (∀ s : State, s.up = true → s.spc % 100 = 0 → ∃ t, exec .eventWriterRound s = .next t ∧ t.line = s.line ∧ t.cmd = s.cmd ∧ t.time = s.time
      ∧ ∃ plan : List Nat, t.ten.plan = plan.drop 16 ∧ (∀ fn ∈ plan, 1 ≤ writable s fn)
        ∧ ∀ fn q, tget s.ten.queues fn = some q →
          (writable s fn ≠ 0 → fn ∈ plan)
            ∧ (tgetD t.ten.queues fn {}).store = q.store.drop (min ((plan.take 16).count fn) (writable s fn))
            ∧ (t.out.events.filter (fun w => w.fn == fn)).map (·.record)
                = (q.store.take (min ((plan.take 16).count fn) (writable s fn))).reverse
                  ++ (s.out.events.filter (fun w => w.fn == fn)).map (·.record))
    ∧ (∀ (fn v : Nat) (x : Vec) (s : State), s.up = true → tget s.ten.vecs (fn * 256 + v) = some x → x.want = true → x.quietUntil ≤ s.spc →
        x.masked = false →
        ∃ t, exec (.moderationExpiry fn v) s = .next t ∧ t.out = { s.out with msix := (fn, v, x.addr, x.data) :: s.out.msix }
          ∧ tget t.ten.vecs (fn * 256 + v) = some { x with pend := false, want := false, quietUntil := s.spc + 8 * x.mdr })
    ∧ (∀ (fn v : Nat) (x : Vec) (s : State), s.up = true → tget s.ten.vecs (fn * 256 + v) = some x → x.want = true → x.quietUntil ≤ s.spc →
        x.masked = true →
        exec (.moderationExpiry fn v) s
          = .next { s with ten := { s.ten with vecs := tset s.ten.vecs (fn * 256 + v) { x with want := false, pend := true } } })
    ∧ (∀ (fn ring : Nat) (id : Word) (status : Nat) (s : State), s.up = true →
        ∃ t, exec (.longCommandFinish fn ring id status) s = .next t ∧ t.line = s.line ∧ t.safe = s.safe ∧ t.acc = s.acc ∧ t.out = s.out
          ∧ t.cmd = { s.cmd with unfinished := t.cmd.unfinished }
          ∧ ∀ u, u ∈ t.cmd.unfinished ↔ u ∈ s.cmd.unfinished ∧ u.ref ≠ { fn := fn, ring := ring, cmdId := id, twin := false })
    ∧ ∀ (fn q cost : Nat) (costs : List Nat) (x : Tenant) (w : Waiting) (l : List Waiting) (s : State), s.spc % 100 = 0 → barLive s = true →
        s.ten.tenants = [(fn, x)] → fn < 256 → x.state = .active → 100 * cmdCores s ≤ cost → (∀ i, i < 16 → (ringAt s mgmt i).waiting = []) → tgetD s.ten.nextRing fn 0 = q → q < 16 →
        startable s fn q = some (w, l) →
        exec (.commandDispatchRound (cost :: costs)) s = .next (runPacket w.packet.op w.packet.req
          (modRing fn q (fun g => { g with waiting := l, started := g.started ++ [(w.index, w.packet.req.cmdId)] })
            { s with ten := { s.ten with nextRing := tset s.ten.nextRing fn ((q + 1) % 16) } }))

/-! ### The pair -/

/-- A message of the pair channel is accepted only when authentic and next in sequence; any other changes nothing. `SEQ_STATE`, `DEMAND`,
`HANDOVER`, `IMAGE` and `LOCAL_FAULT`: what local rings hold stays the device's own (R310, R343, R416, R423, R429, R436). `SAFE_STATE`
joins the latched trips of both devices less those acknowledged, and takes over the stops of bridged chains; `RESYNC` applies a block and
leaves what concerns local rings; its completion adopts the twin's epoch (R355, R416, R424, R435). -/
def Obligations.PairMessages : Prop :=
  ((∀ (m : PairMsg) (s : State), ¬ Heard m s →
      (∀ d g, exec (.seqState m d g) s = .next s) ∧ (∀ c l a k, exec (.safeState m c l a k) s = .next s) ∧ (∀ t, exec (.demand m t) s = .next s)
        ∧ exec (.yield m) s = .next s ∧ exec (.handover m) s = .next s ∧ (∀ b, exec (.resync m b) s = .next s) ∧ exec (.image m) s = .next s
        ∧ exec (.localFault m) s = .next s ∧ (∀ a op r, exec (.mirror m a op r) s = .next s) ∧ exec (.mirrorAck m) s = .next s)
    ∧ (∀ (m : PairMsg) (d : Tbl Drive) (g : Tbl Group) (s : State), Heard m s → s.pair.role = .companion → (d.map (·.1)).Nodup →
        ∃ t, exec (.seqState m d g) s = .next t ∧ t.pair = { s.pair with lastSeq := m.mseq } ∧ t.line = s.line ∧ t.safe = s.safe
          ∧ ∀ p, tget t.chg.drives p = if isLocal (chainOfPos p) then tget s.chg.drives p else tget d p)
    ∧ (∀ (m : PairMsg) (x : Trip) (s : State), Heard m s → isLocal (chainOfChi x.chi) = false →
        (∀ y ∈ s.safe.trips, ¬ (y.cause = x.cause ∧ y.chi = x.chi ∧ y.mux = x.mux ∧ y.wset = x.wset)) →
        ∃ t y, exec (.demand m x) s = .next t ∧ t.safe.trips = s.safe.trips ++ [y] ∧ y.cause = x.cause ∧ y.chi = x.chi ∧ y.scope = x.scope
          ∧ y.fn = ownerOf s (chainOfChi x.chi) ∧ t.line = s.line ∧ t.safe.island = s.safe.island)
    ∧ (∀ (m : PairMsg) (s : State), Heard m s →
        exec (.handover m) s = .next { s with pair := { s.pair with
          lastSeq := m.mseq, handing := some { x := of64 (m.body.getD 0 0) (m.body.getD 1 0), epoch := (m.body.getD 2 0).toNat
                                               take := (heldLanes s).isEmpty } } })
    ∧ (∀ (m : PairMsg) (s : State), Heard m s →
        exec (.localFault m) s = .next { s with pair := { s.pair with lastSeq := m.mseq, twinFaults := m.body :: s.pair.twinFaults } })
    ∧ (∀ (m : PairMsg) (s : State), Heard m s → ∃ t, exec (.image m) s = .next t ∧ t.pair.updating.isSome = true ∧ t.pair.lastSeq = m.mseq
        ∧ t = { s with pair := t.pair } ∧ t.pair.imageHead = ((if s.pair.updating.isSome then s.pair.imageHead else []) ++ m.body).take 128
        ∧ (s.pair.updating.isSome = true → t.pair.imageWords = s.pair.imageWords + m.body.length)
        ∧ (s.pair.updating = none → t.pair.imageWords = m.body.length ∧ t.pair.step = 1))
    ∧ ∀ s : State, s.up = true → (∃ u ∈ s.pair.unacked, u.sent + 4 ≤ s.spc) →
        ∃ t, exec .pairMessageResend s = .next t ∧ t.out.pair = (s.pair.unacked.map (·.msg)).reverse ++ s.out.pair
          ∧ (∀ u ∈ t.pair.unacked, u.sent = s.spc) ∧ t.pair.unacked.map (·.msg) = s.pair.unacked.map (·.msg))
    ∧ ((∀ (m : PairMsg) (c : Tbl Count) (l : List Trip) (a : List (Nat × Nat)) (k : List (Nat × Bool)) (s : State), Heard m s → (k.map (·.1)).Nodup →
      ∃ t, exec (.safeState m c l a k) s = .next t ∧ t.pair = { s.pair with lastSeq := m.mseq } ∧ t.safe.island = s.safe.island
        ∧ t.safe.kill = s.safe.kill ∧ t.line = s.line
        ∧ (∀ x ∈ s.safe.trips, isLocal (chainOfChi x.chi) = true ∨ (x.fn, x.id) ∉ a → x ∈ t.safe.trips)
        ∧ (∀ x ∈ l, isLocal (chainOfChi x.chi) = false → (x.fn, x.id) ∉ a → ∃ y ∈ t.safe.trips, y.fn = x.fn ∧ y.id = x.id)
        ∧ (∀ y ∈ t.safe.trips, isLocal (chainOfChi y.chi) = false → (y.fn, y.id) ∉ a)
        ∧ (∀ e ∈ k, isLocal e.1 = false → thas t.safe.stops e.1 = e.2)
        ∧ ∀ j, isLocal j = true ∨ (∀ e ∈ k, e.1 ≠ j) → tget t.safe.stops j = tget s.safe.stops j)
    ∧ (∀ (m : PairMsg) (b : ResyncBlock) (s : State), Heard m s → s.pair.role = .companion → s.pair.resync = true →
        ∃ t, exec (.resync m b) s = .next t ∧ blockNumber b ∈ t.pair.taken ∧ t.pair.progress = resyncProgress t.pair.taken
          ∧ (∀ i ∈ s.pair.taken, i ∈ t.pair.taken) ∧ t.line = s.line ∧ t.safe.island = s.safe.island ∧ t.safe.kill = s.safe.kill
          ∧ (∀ w, b = .windows w → (w.map (·.1)).Nodup →
              (∀ e ∈ w, ownWindow e.2 = false → tget t.acc.windows e.1 = some (pairWindow e.2))
                ∧ ∀ j x, tget s.acc.windows j = some x → ownWindow x = true → (∀ e ∈ w, e.1 ≠ j) → tget t.acc.windows j = some x)
          ∧ (∀ x p, b = .armed x p → t.safe.armed = x ∧ t.safe.password = p)
          ∧ ∀ p, isLocal (chainOfPos p) = true → tget t.cal.tags p = tget s.cal.tags p ∧ tget t.chg.drives p = tget s.chg.drives p
              ∧ tget t.safe.assign p = tget s.safe.assign p ∧ tget t.map.bind.drive p = tget s.map.bind.drive p
              ∧ tget t.est.strs p = tget s.est.strs p)
    ∧ (∀ s : State, s.up = true → s.pair.role = .companion → s.pair.resync = true → (∀ i, i < 14 → i ∈ s.pair.taken) → s.safe.island = .run →
        ∃ t, exec .resyncComplete s = .next t ∧ t.pair.resync = false ∧ t.pair.progress = 1000 ∧ t.pair.epoch = s.pair.twin.epoch
          ∧ t.pair.role = .companion ∧ t.line = s.line ∧ t.safe = s.safe)
    ∧ (∀ (m : PairMsg) (accept op : Nat) (r : Req) (s : State), Heard m s → s.pair.role = .companion →
        ∃ t x l, exec (.mirror m accept op r) s = .next t
          ∧ t = applyMirror accept op { r with mseq := m.mseq } { s with pair := { s.pair with lastSeq := m.mseq } } ∧ t.out.pair = x :: l ∧ x.kind = .mirrorAck ∧ x.body.head? = some m.mseq
          ∧ t.time.spc = s.time.spc)
    ∧ (∀ (m : PairMsg) (accept op : Nat) (r : Req) (s : State), Heard m s → s.pair.role = .primary →
        ∃ t, exec (.mirror m accept op r) s = .next t ∧ t.time.spc = s.time.spc
          ∧ t = runAsked op { r with mseq := m.mseq, twin := true, back := false } { s with pair := { s.pair with lastSeq := m.mseq } })
    ∧ ∀ (m : PairMsg) (d : Deferred) (s : State), Heard m s → s.cmd.deferred.filter (acked (m.body.getD 0 0).toNat) = [d] → d.ref.twin = false →
        ∃ t c, exec (.mirrorAck m) s = .next t ∧ t.cmd.deferred = s.cmd.deferred.filter (fun d => !acked (m.body.getD 0 0).toNat d)
          ∧ t.out.completions = c :: s.out.completions ∧ c.fn = d.ref.fn ∧ c.ring = d.ref.ring ∧ c.cmdId = d.ref.cmdId ∧ c.spc = d.accept
          ∧ c.status = (if s.pair.role = .companion then (m.body.getD 1 0).toNat else d.status))

/-- A valid heartbeat is taken as the twin's figures, one that is not valid changes nothing; two commands that have met form the pair with
their roles, or fail with nothing changed; formation times out (R417, R423, R468, R477). -/
def Obligations.HeartbeatsAndFormation : Prop :=
  (∀ (h : PairMsg) (peer : Option PeerView) (s : State), beatValid h s = false → exec (.heartbeat h peer) s = .next s)
    ∧ (∀ (h : PairMsg) (peer : Option PeerView) (s : State), beatValid h s = true → s.pair.forming = none ∨ peer = none → s.pair.held = [] →
        ∃ t, exec (.heartbeat h peer) s = .next t ∧ t.time = s.time ∧ t.line = s.line ∧ t.safe = s.safe ∧ t.pair.lastBeat = s.spc
          ∧ t.pair.twin.epoch = (h.body.getD 1 0).toNat ∧ t.pair.twin.role = bits (h.body.getD 0 0) 1 0
          ∧ t.pair.twin.pid = bits (h.body.getD 0 0) 31 16 ∧ t.pair.twin.spc = of64 (h.body.getD 2 0) (h.body.getD 3 0)
          ∧ t.pair.twin.leases = (h.body.getD 6 0).toNat ∧ t.therm.twin = bits (h.body.getD 0 0) 8 6
          ∧ (0 < s.pair.beats → s.pair.lastBeat + 1 = s.spc → t.pair.beats = s.pair.beats + 1))
    ∧ (∀ (h : PairMsg) (v : PeerView) (f : Forming) (s : State), beatValid h s = true → s.pair.forming = some f → s.pair.role = .single →
        s.pair.link = false → formationFails f v (takeBeat h s) = false →
        ∃ t, exec (.heartbeat h (some v)) s = .next t ∧ t.pair.role = (if f.join then .companion else .primary) ∧ t.pair.pid = f.pid
          ∧ t.pair.forming = none ∧ t.pair.link = true ∧ t.nvm.kept.pid = f.pid ∧ t.nvm.kept.laneMap = f.laneMap
          ∧ (f.join = true → t.pair.resync = true ∧ t.pair.epoch = (h.body.getD 1 0).toNat)
          ∧ (f.join = true → v.inService = true → t.time.spc = of64 (h.body.getD 2 0) (h.body.getD 3 0))
          ∧ (f.join = false → inService s = true → t.time.spc = s.time.spc)
          ∧ ∀ u ∈ t.cmd.unfinished, u.ref ≠ f.cmd)
    ∧ (∀ (h : PairMsg) (v : PeerView) (f : Forming) (s : State), beatValid h s = true → s.pair.forming = some f → s.pair.role = .single →
        s.pair.link = false → formationFails f v (takeBeat h s) = true →
        ∃ t, exec (.heartbeat h (some v)) s = .next t ∧ t.pair.role = .single ∧ t.pair.forming = none ∧ t.pair.pid = s.pair.pid
          ∧ t.time = s.time ∧ t.nvm = s.nvm ∧ t.line = s.line ∧ ∀ u ∈ t.cmd.unfinished, u.ref ≠ f.cmd)
    ∧ ∀ (f : Forming) (s : State), s.up = true → s.pair.forming = some f → f.deadline ≤ s.spc →
        ∃ t, exec .pairFormationTimeout s = .next t ∧ t.pair = { s.pair with forming := none } ∧ t.line = s.line ∧ t.time = s.time
          ∧ ∀ u ∈ t.cmd.unfinished, u.ref ≠ f.cmd

/-- The twin link lost stops mirroring and answers what waits for the twin; restored, the devices merge and the one with the later epoch, then
more leases, then the lower identifier is primary; while it is lost, the minority of two healthy devices becomes companion and releases
its leases. The REFCLK offset out of its limit stops mirroring too (R421, R431 to R433). -/
def Obligations.LinkAndMerge : Prop :=
  (∀ s : State, s.up = true → s.pair.link = true → s.pair.lastBeat + 2 ≤ s.spc ∨ twinMask s = 0 → s.pair.held = [] → s.pair.updating = none →
      ∃ t, exec .twinLinkLost s = .next t ∧ t.pair.link = false ∧ t.pair.lostAt = s.spc ∧ t.pair.role = s.pair.role ∧ t.pair.unacked = []
        ∧ (∀ d ∈ t.cmd.deferred, ∀ q, d.kind ≠ .mirror q) ∧ t.therm.force = s.therm.steps ∧ t.time = s.time ∧ t.safe = s.safe)
    ∧ (∀ s : State, s.up = true → s.pair.link = false → 8 ≤ s.pair.beats → s.pair.role ≠ .single ∨ s.pair.pid ≠ 0 → s.pair.key = true →
        s.pair.offsetOut = false →
        ∃ t, exec .twinLinkRestored s = .next t ∧ t.pair.link = true ∧ t.time = s.time ∧ t.line = s.line ∧ t.safe = s.safe
          ∧ (epochFollows s.pair.epoch s.pair.twin.epoch = true ∨ s.pair.epoch = s.pair.twin.epoch ∧ (s.pair.twin.leases < (heldLanes s).length
              ∨ s.pair.twin.leases = (heldLanes s).length ∧ s.pair.pid < s.pair.twin.pid) → t.pair.role = .primary)
          ∧ (epochFollows s.pair.epoch s.pair.twin.epoch = false → (s.pair.epoch ≠ s.pair.twin.epoch ∨ (heldLanes s).length < s.pair.twin.leases
              ∨ (heldLanes s).length = s.pair.twin.leases ∧ s.pair.twin.pid ≤ s.pair.pid) →
              t.pair.role = .companion ∧ t.pair.resync = true))
    ∧ (∀ s : State, s.up = true → s.pair.role ≠ .single → mirrors s = false → s.spc % 200 = 0 →
        (∀ l ∈ bridgeLanes s, noLease s l = false → flagOf (laneOf s l).lease 101 = true ∧ flagOf (laneOf s l).lease 102 = true) →
        (heldLanes s).length < ((bridgeLanes s).filter (otherHolds s)).length →
        ∃ t, exec .leaseAssessment s = .next t ∧ t.pair.role = .companion ∧ t.pair.releasing = heldLanes s ∧ t.pair.claims = []
          ∧ t.line = s.line ∧ t.lane = s.lane ∧ t.safe = s.safe)
    ∧ (∀ s : State, s.up = true → s.pair.role ≠ .single → mirrors s = false → s.spc % 200 = 0 →
        ((bridgeLanes s).filter (otherHolds s)).length < (heldLanes s).length →
        ∃ t, exec .leaseAssessment s = .next t ∧ t.pair.role = s.pair.role ∧ t.pair.releasing = s.pair.releasing
          ∧ (∀ l, l ∈ t.pair.claims ↔ l ∈ s.pair.claims ∧ noLease s l = true ∨ l ∈ bridgeLanes s ∧ noLease s l = true)
          ∧ t.line = s.line ∧ t.lane = s.lane ∧ t.safe = s.safe)
    ∧ (∀ (x : Int) (s : State), s.up = true → 200 < x.natAbs → s.pair.role ≠ .single → s.pair.offsetOut = false →
        ∃ t, exec (.refclkOffsetOut x) s = .next t ∧ t.pair.offset = x ∧ t.pair.offsetOut = true ∧ mirrors t = false ∧ t.pair.link = s.pair.link
          ∧ (∀ d ∈ t.cmd.deferred, ∀ q, d.kind ≠ .mirror q) ∧ t.time = s.time)
    ∧ (∀ (x : Int) (s : State), s.up = true → x.natAbs ≤ 200 →
        ∃ t, exec (.refclkOffsetBack x) s = .next t ∧ t.pair.offset = x ∧ t.pair.offsetOut = false ∧ t.time = s.time ∧ t.line = s.line
          ∧ (s.pair.role = .single ∨ s.pair.offsetOut = false → t.pair.role = s.pair.role))
    ∧ ∀ (b : Nat) (s : State), s.up = true → s.pair.stale = some b → b ≤ s.spc → s.pair.role = .primary →
        ∃ t, exec .demotionBoundary s = .next t ∧ t.pair.role = .companion ∧ t.pair.stale = none ∧ t.pair.resync = true ∧ t.line = s.line
          ∧ t.lane = s.lane ∧ t.time = s.time

/-- `PAIR.CONFIG` begins a formation of at most 10 s, or leaves the pair; `PAIR.HANDOVER` announces its pick X, and at X the roles change with
the new epoch; `PAIR.STATUS` and `PAIR.LEASE` report (R417, R418, R424, R429, R438). -/
def Obligations.PairCommands : Prop :=
  (∀ (r : Req) (s : State), Accepted (checksPairConfig r s) r s → bits (reqWord r 4) 1 0 ≠ 2 →
      let f : Forming :=
        { join := bits (reqWord r 4) 1 0 == 1, pid := (reqWord r 5).toNat
          laneMap := if (reqWord r 6).toNat = 0 then [] else mapEntries r, deadline := s.spc + 1000000, cmd := reqRef r }
      Begins (exec (.pairConfig r) s) r 0x0D00 0 [] s { s with pair := { s.pair with forming := some f } })
    ∧ (∀ (r : Req) (s : State), Accepted (checksPairConfig r s) r s → bits (reqWord r 4) 1 0 = 2 →
        ∃ t, exec (.pairConfig r) s = .next t ∧ (∃ c ∈ t.out.completions, c.cmdId = r.cmdId ∧ c.status = ST_ACCEPTED) ∧ t.pair.role = .single
          ∧ t.pair.pid = 0 ∧ t.pair.claims = [] ∧ t.nvm.kept.pid = 0 ∧ t.line = s.line ∧ t.safe = s.safe
          ∧ (s.pair.role = .companion → ∀ l ∈ bridgeLanes s, holdsLease t l = false) ∧ ∀ u ∈ t.cmd.unfinished, u.ref ≠ reqRef r)
    ∧ (∀ (r : Req) (s : State), Accepted (checksPairHandover r s) r s →
        let x := nextMult 200 (s.spc + 400)
        let e := (s.pair.epoch + 1) % 2 ^ 32
        let h : Handing := { x := x, epoch := e, take := false, cmd := some (reqRef r) }
        ∃ t, exec (.pairHandover r) s = .next t ∧ Completes r ST_ACCEPTED [] s t ∧ t.pair.handing = some h ∧ t.pair.role = s.pair.role
          ∧ (∃ m ∈ t.out.pair, m.kind = .handover ∧ m.body = [x % 2 ^ 32, x / 2 ^ 32, e])
          ∧ Only (holdUnfinished (reqRef r) 0x0D02 0 { s with pair := t.pair }) t)
    ∧ (∀ (h : Handing) (s : State), s.up = true → s.pair.handing = some h → h.x ≤ s.spc →
        ∃ t, exec .handoverPick s = .next t ∧ t.pair.epoch = h.epoch ∧ t.pair.role = (if h.take then .primary else .companion)
          ∧ (h.take = true → t.pair.handing = none ∧ ∀ l ∈ bridgeLanes s, holdsLease s l = false → l ∈ t.pair.claims)
          ∧ (h.take = false → t.pair.claims = []) ∧ t.line = s.line ∧ t.time = s.time)
    ∧ (∀ (m : PairMsg) (s : State), Heard m s → s.pair.role = .companion → s.pair.updating = none →
        ∃ t, exec (.yield m) s = .next t ∧ (∀ l ∈ bridgeLanes s, holdsLease s l = false → l ∈ t.pair.claims) ∧ t.pair.role = .companion
          ∧ t.line = s.line ∧ ((m.body.headD 0).toNat = 1 → ∀ c, thas s.line.chains c = true → isLocal c = false → thas t.safe.stops c = true))
    ∧ (∀ (r : Req) (s : State), Accepted (checksPairStatus r s) r s →
        Reports (exec (.pairStatus r) s) r 0x4B545354 0x0D 0
          (fun res _ => res = [wd (roleCode s.pair.role), wd s.pair.epoch, wd (heldLanes s).length, wdI s.pair.offset]) s s)
    ∧ ∀ (r : Req) (s : State), Accepted (checksPairLease r s) r s →
        Reports (exec (.pairLease r) s) r 0x4B545354 0x0D 0 (fun res _ => ∃ n, n ≤ lanesOf s.otp.variant ∧ res = [wd n]) s s

/-- `PAIR.UPDATE` sends the image and goes through its five steps; an image that fails on a device, or that does not start, ends the update
with nothing else changed (R436). -/
def Obligations.PairUpdate : Prop :=
  (∀ (r : Req) (s : State), Accepted (checksPairUpdate r s) r s →
      ∃ t, exec (.pairUpdate r) s = .next t ∧ (∃ c ∈ t.out.completions, c.cmdId = r.cmdId ∧ c.status = ST_ACCEPTED)
        ∧ t.pair.updating = some (some (reqRef r)) ∧ t.pair.step = 1 ∧ t.pair.imageHead = r.inb.take 128 ∧ (∃ m ∈ t.out.pair, m.kind = .image ∧ m.body = r.inb.map (·.toNat))
        ∧ t.nvm = s.nvm ∧ t.line = s.line ∧ t.boot = s.boot)
    ∧ (∀ (k : ImageChecks) (parts : ImageParts) (s : State), s.up = true → s.pair.updating.isSome = true → s.pair.step = 1 → s.safe.island = .run →
        imageSound s.otp.keyHash k s.pair.imageHead = false ∨ k.twin ≠ 0 ∨ imageFits s (imageOf s.pair.imageHead parts) = false →
        ∃ t, exec (.pairUpdateStepDone k parts) s = .next t ∧ t.pair.updating = none ∧ t.pair.step = 7 ∧ t.nvm = s.nvm ∧ t.boot = s.boot
          ∧ t.line = s.line)
    ∧ (∀ (k : ImageChecks) (parts : ImageParts) (s : State), s.up = true → s.pair.updating.isSome = true → s.pair.step = 1 →
        imageSound s.otp.keyHash k s.pair.imageHead = true → k.twin = 0 → imageFits s (imageOf s.pair.imageHead parts) = true →
        ∃ t, exec (.pairUpdateStepDone k parts) s = .next t ∧ slotImage t (!s.boot.slotB) = some (imageOf s.pair.imageHead parts)
          ∧ slotImage t s.boot.slotB = slotImage s s.boot.slotB ∧ t.pair.updating = s.pair.updating ∧ t.pair.step = 2
          ∧ (s.pair.role = .companion → t.nvm.prefB = !s.boot.slotB ∧ t.boot.warmReq = some 3)
          ∧ (s.pair.role ≠ .companion → t.nvm.prefB = s.nvm.prefB ∧ t.boot = s.boot) ∧ t.line = s.line)
    ∧ (∀ (k : ImageChecks) (parts : ImageParts) (s : State), s.up = true → s.pair.updating.isSome = true → s.pair.step = 3 → s.pair.resync = false →
        s.pair.twin.sub ≠ 1 → mirrors s = true → s.pair.role = .primary →
        ∃ t, exec (.pairUpdateStepDone k parts) s = .next t ∧ t.pair.step = 4 ∧ t.pair.handing.isSome = true ∧ t.nvm = s.nvm ∧ t.line = s.line
          ∧ ∃ m ∈ t.out.pair, m.kind = .handover)
    ∧ (∀ (k : ImageChecks) (parts : ImageParts) (s : State), s.up = true → s.pair.updating.isSome = true → s.pair.step = 2 ∨ s.pair.step = 5 →
        s.boot.fallback = true ∨ s.nvm.trialFailed = true → s.safe.island = .run →
        ∃ t, exec (.pairUpdateStepDone k parts) s = .next t ∧ t.pair.updating = none ∧ t.pair.step = 7 ∧ t.nvm = s.nvm ∧ t.boot = s.boot
          ∧ t.pair.role = s.pair.role ∧ t.line = s.line)
    ∧ (∀ (k : ImageChecks) (parts : ImageParts) (s : State), s.up = true → s.pair.updating.isSome = true → s.pair.step = 2 → s.boot.fallback = false →
        s.nvm.trialFailed = false → s.boot.warmReq = none → s.pair.link = true →
        ∃ t, exec (.pairUpdateStepDone k parts) s = .next t ∧ t.pair.step = 3 ∧ t.pair.updating = s.pair.updating ∧ t.nvm = s.nvm
          ∧ t.boot = s.boot ∧ t.line = s.line)
    ∧ (∀ (k : ImageChecks) (parts : ImageParts) (s : State), s.up = true → s.pair.updating.isSome = true → s.pair.step = 4 → s.pair.handing = none →
        ∃ t, exec (.pairUpdateStepDone k parts) s = .next t ∧ t.pair.step = 5 ∧ t.pair.updating = s.pair.updating ∧ t.line = s.line
          ∧ (s.pair.role = .companion → t.nvm.prefB = !s.boot.slotB ∧ t.nvm.trialFlag = true ∧ t.boot.warmReq = some 3)
          ∧ (s.pair.role ≠ .companion → t.nvm = s.nvm ∧ t.boot = s.boot))
    ∧ ∀ (k : ImageChecks) (parts : ImageParts) (s : State), s.up = true → s.pair.updating.isSome = true → s.pair.step = 5 → s.boot.fallback = false →
        s.nvm.trialFailed = false → s.boot.warmReq = none → s.pair.link = true → s.pair.resync = false → s.pair.twin.sub ≠ 1 →
        s.safe.island = .run →
        ∃ t, exec (.pairUpdateStepDone k parts) s = .next t ∧ t.pair.updating = none ∧ t.pair.step = 6 ∧ t.nvm = s.nvm ∧ t.line = s.line

/-! ### Registers, rings and refusals -/

/-- A submission tail brings its packets to the ring in order, a completion head makes room; either index beyond its limit disables the ring
pair with `RING_ERR`, and a ring that is not enabled ignores its doorbells. The management function's packets start at once (R384, R385;
the latter is the model's choice, log 24). Enabling a ring pair or an event queue validates its configuration and starts its indices at 0,
or sets `CFG_ERR`; disabling discards the packets not started; a consumer index beyond P disables the queue with `EVQ_ERR` (R374, R383,
R507, R508). -/
def Obligations.DoorbellsAndRings : Prop :=
  ((∀ (fn q tail : Nat) (ps : List Packet) (s : State), fn < mgmt → q < 16 → doorbellActs s fn = true → (ringAt s fn q).enable = true →
      let g := ringAt s fn q
      let m := 2 ^ (g.log2 + 1)
      ringDist g (oldestOpen g) (tail % m) ≤ 2 ^ g.log2 →
      ringDist g (oldestOpen g) g.tail + ps.length = ringDist g (oldestOpen g) (tail % m) → ps ≠ [] →
      ∃ t l, exec (.sqTailDoorbell fn q tail ps) s = .next t ∧ t = { s with cmd := { s.cmd with rings := t.cmd.rings } }
        ∧ ringAt t fn q = { g with tail := tail % m, fetch := tail % m, waiting := g.waiting ++ l } ∧ l.length = ps.length
        ∧ l.map (·.packet.op) = ps.map (·.op) ∧ l.map (·.index) = (List.range ps.length).map (fun i => (g.tail + i) % m)
        ∧ (∀ w ∈ l, w.packet.req.fn = fn ∧ w.packet.req.ring = q) ∧ ∀ k, k ≠ fn * 16 + q → tget t.cmd.rings k = tget s.cmd.rings k)
    ∧ (∀ (fn q tail : Nat) (ps : List Packet) (s : State), fn ≤ mgmt → q < 16 → doorbellActs s fn = true → (ringAt s fn q).enable = true →
        let g := ringAt s fn q
        2 ^ g.log2 < ringDist g (oldestOpen g) (tail % 2 ^ (g.log2 + 1)) →
        ∃ t, exec (.sqTailDoorbell fn q tail ps) s = .next t ∧ t = { s with cmd := { s.cmd with rings := t.cmd.rings } }
          ∧ ringAt t fn q = { g with enable := false, ringErr := true, waiting := [] })
    ∧ (∀ (fn q head : Nat) (s : State), fn ≤ mgmt → q < 16 → doorbellActs s fn = true → (ringAt s fn q).enable = true →
        let g := ringAt s fn q
        ringDist g g.head g.prod < ringDist g g.head (head % 2 ^ (g.log2 + 1)) →
        ∃ t, exec (.cqHeadDoorbell fn q head) s = .next t ∧ t = { s with cmd := { s.cmd with rings := t.cmd.rings } }
          ∧ ringAt t fn q = { g with enable := false, ringErr := true, waiting := [] })
    ∧ (∀ (fn q head : Nat) (s : State), fn ≤ mgmt → q < 16 → doorbellActs s fn = true → (ringAt s fn q).enable = true →
        fn ≠ mgmt ∨ (ringAt s fn q).waiting = [] →
        let g := ringAt s fn q
        ringDist g g.head (head % 2 ^ (g.log2 + 1)) ≤ ringDist g g.head g.prod →
        ∃ t, exec (.cqHeadDoorbell fn q head) s = .next t ∧ t = { s with cmd := { s.cmd with rings := t.cmd.rings } }
          ∧ ringAt t fn q = { g with head := head % 2 ^ (g.log2 + 1) } ∧ ∀ k, k ≠ fn * 16 + q → tget t.cmd.rings k = tget s.cmd.rings k)
    ∧ (∀ (fn q x : Nat) (ps : List Packet) (s : State), fn ≤ mgmt → q < 16 → doorbellActs s fn = true → (ringAt s fn q).enable = false →
        (∃ t, exec (.sqTailDoorbell fn q x ps) s = .next t ∧ t = { s with cmd := { s.cmd with rings := t.cmd.rings } } ∧ ringAt t fn q = ringAt s fn q)
          ∧ ∃ t, exec (.cqHeadDoorbell fn q x) s = .next t ∧ t = { s with cmd := { s.cmd with rings := t.cmd.rings } } ∧ ringAt t fn q = ringAt s fn q)
    ∧ ∀ (q tail : Nat) (p : Packet) (w : Waiting) (s : State), q < 16 → doorbellActs s mgmt = true → (ringAt s mgmt q).waiting = [] →
        startable (modRing mgmt q (writeTail mgmt q tail [p]) s) mgmt q = some (w, []) →
        exec (.sqTailDoorbell mgmt q tail [p]) s = .next (runPacket w.packet.op w.packet.req
          (modRing mgmt q (fun g => { g with waiting := [], started := g.started ++ [(w.index, w.packet.req.cmdId)] })
            (modRing mgmt q (writeTail mgmt q tail [p]) s))))
    ∧ ((∀ (fn q : Nat) (s : State), fn ≤ mgmt → q < 16 → writesAct s fn = true → (ringAt s fn q).enable = false →
      let g := ringAt s fn q
      let ok : Prop := 4 ≤ g.log2 ∧ g.log2 ≤ 12 ∧ g.sqBase.toNat % (64 * 2 ^ g.log2) = 0 ∧ g.cqBase.toNat % (32 * 2 ^ g.log2) = 0
        ∧ g.vector < (if fn = mgmt then 256 else 64) ∧ g.ringErr = false
      ∃ t, exec (.ringEnable fn q) s = .next t ∧ t = { s with cmd := { s.cmd with rings := t.cmd.rings } }
        ∧ (ok → ringAt t fn q = { g with enable := true, fetch := 0, prod := 0, tail := 0, head := 0, waiting := [] })
        ∧ (¬ ok → ringAt t fn q = { g with cfgErr := true }) ∧ ∀ k, k ≠ fn * 16 + q → tget t.cmd.rings k = tget s.cmd.rings k)
    ∧ (∀ (fn q : Nat) (s : State), fn ≤ mgmt → q < 16 → writesAct s fn = true → (ringAt s fn q).enable = true →
        ∃ t, exec (.ringDisable fn q) s = .next t ∧ t = { s with cmd := { s.cmd with rings := t.cmd.rings } }
          ∧ ringAt t fn q = { ringAt s fn q with enable := false, waiting := [] } ∧ ∀ k, k ≠ fn * 16 + q → tget t.cmd.rings k = tget s.cmd.rings k)
    ∧ (∀ (fn : Nat) (s : State), fn ≤ mgmt → writesAct s fn = true → (tgetD s.ten.queues fn {}).enable = false →
        let g := tgetD s.ten.queues fn {}
        let ok : Prop := 6 ≤ g.log2 ∧ g.log2 ≤ 16 ∧ g.base.toNat % (16 * 2 ^ g.log2) = 0 ∧ g.evqErr = false
        ∃ t, exec (.eqEnable fn) s = .next t ∧ t = { s with ten := { s.ten with queues := t.ten.queues } }
          ∧ (ok → tgetD t.ten.queues fn {} = { g with enable := true, prod := 0, cons := 0 })
          ∧ (¬ ok → tgetD t.ten.queues fn {} = { g with cfgErr := true }))
    ∧ (∀ (fn : Nat) (s : State), fn ≤ mgmt → writesAct s fn = true →
        ∃ t, exec (.eqDisable fn) s = .next t ∧ t = { s with ten := { s.ten with queues := t.ten.queues } }
          ∧ tgetD t.ten.queues fn {} = { tgetD s.ten.queues fn {} with enable := false })
    ∧ ∀ (fn c : Nat) (s : State), fn ≤ mgmt → writesAct s fn = true →
        let g := tgetD s.ten.queues fn {}
        let m := 2 ^ (g.log2 + 1)
        ∃ t, exec (.eqConsWrite fn c) s = .next t ∧ t = { s with ten := { s.ten with queues := t.ten.queues } }
          ∧ ((c % m + m - g.cons % m) % m ≤ (g.prod + m - g.cons % m) % m → tgetD t.ten.queues fn {} = { g with cons := c % m })
          ∧ ((g.prod + m - g.cons % m) % m < (c % m + m - g.cons % m) % m → tgetD t.ten.queues fn {} = { g with enable := false, evqErr := true }))

/-- `WARM_REQ` acts only with its key, and writes the wear counters unless a write of the last 50 ms serves; `ALERT_STAT` is cleared by ones,
but for what the device sets in the same pick; a read of the low register of a pair latches the high one, over I²C as over PCIe; `SCRATCH`
and the bases of a disabled ring are written; every other row of an absent object or offset has no effect (R483, R492, R494, R499 to R501,
R506, R515, R516, R518; that function 0x101 names the I²C view is the model's choice, log 80). A mailbox message goes to its receiver's
queue, is discarded while the previous one waits, and is dropped for a tenant that is being reset or does not exist (R373, R512). -/
def Obligations.RegistersAndMailboxes : Prop :=
  ((∀ (v : Word) (s : State), barLive s = true → bits v 31 16 = 0x5A17 → bits v 0 0 = 1 → s.boot.warmReq = none → s.boot.nvmLoaded = true →
      s.wear.written = 0 ∨ s.spc < s.wear.written ∨ s.wear.written + 5000 < s.spc →
      ∃ t, exec (.warmReqWrite v) s = .next t ∧ t.boot.warmReq = some 3 ∧ t.wear.written = s.spc ∧ t.nvm.wear = t.wear ∧ t.line = s.line
        ∧ t.safe = s.safe ∧ t.time = s.time)
    ∧ (∀ (v : Word) (s : State), barLive s = true → bits v 31 16 = 0x5A17 → bits v 0 0 = 1 → s.boot.warmReq = none → s.wear.written ≠ 0 →
        s.wear.written ≤ s.spc → s.spc ≤ s.wear.written + 5000 →
        ∃ t, exec (.warmReqWrite v) s = .next t ∧ t.boot = { s.boot with warmReq := some 3 } ∧ t.wear = s.wear ∧ t.nvm = s.nvm ∧ t.line = s.line
          ∧ t.safe = s.safe ∧ t.time = s.time)
    ∧ (∀ (v : Word) (s : State), bits v 31 16 ≠ 0x5A17 ∨ bits v 0 0 = 0 ∨ barLive s = false ∨ s.boot.warmReq.isSome = true → exec (.warmReqWrite v) s = .next s)
    ∧ (∀ (v : Word) (s : State), s.boot.phase ≠ .off →
        ∃ t, exec (.alertStatClear v) s = .next t ∧ t = { s with boot := { s.boot with alertStat := t.boot.alertStat } }
          ∧ ∀ i, i < 9 → t.boot.alertStat.getLsbD i = (s.boot.alertStat.getLsbD i
              && (!v.getLsbD i || (s.boot.alertAt == s.spc && s.boot.alertNew.getLsbD i))))
    ∧ (∀ (fn off : Nat) (s : State), fn ≤ mgmt → isPairLow fn off = true → ¬ (fn = mgmt ∧ off = 0x18) →
        exec (.regPairLowRead fn off) s = .next { s with regs := { s.regs with
          latch := tset s.regs.latch (fn * 2 ^ 24 + off) (readReg s fn (off + 4)), read := readReg s fn off } })
    ∧ (∀ s : State, barLive s = true →
        ∃ t, exec (.regPairLowRead mgmt 0x18) s = .next t ∧ t.regs.read = lowWord s.spc
          ∧ tget t.regs.latch (mgmt * 2 ^ 24 + 0x18) = some (highWord s.spc) ∧ t.time.spc = s.time.spc ∧ t.line = s.line ∧ t.safe = s.safe)
    ∧ (∀ s : State, s.boot.phase ≠ .off → 1000 ≤ s.spc →
        exec (.regPairLowRead 0x101 0x10) s = .next { s with regs := { s.regs with
          latch := tset s.regs.latch (0x101 * 2 ^ 24 + 0x10) (highWord s.spc), read := lowWord s.spc } })
    ∧ (∀ (off : Nat) (v : Word) (s : State), s.boot.phase ≠ .off → 1000 ≤ s.spc → off ≠ 0x400 →
        exec (.registerWrite 0x101 off v) s
          = .next { s with boot := if off = 0x08 then (clearAlert v s).boot else if off = 0x0C then { s.boot with alertEn := (v.setWidth 9 &&& 0x1FC) ||| 3 }
              else s.boot })
    ∧ (∀ (v : Word) (s : State), writesAct s mgmt = true →
        exec (.registerWrite mgmt 0x200C v) s = .next { s with boot := { s.boot with scratch := v } })
    ∧ (∀ (fn q : Nat) (v : Word) (s : State), fn < mgmt → q < 16 → writesAct s fn = true →
        ∃ t, exec (.registerWrite fn (64 * q) v) s = .next t ∧ t = { s with cmd := { s.cmd with rings := t.cmd.rings } }
          ∧ ringAt t fn q = (let g := ringAt s fn q
              if g.enable then { g with cfgErr := true } else { g with sqBase := g.sqBase.extractLsb' 32 32 ++ v }))
    ∧ ∀ (fn off : Nat) (v : Word) (s : State), fn ≤ mgmt → writesAct s fn = false ∨ off % 4 ≠ 0 ∨ fn = mgmt ∧ 0x101020 ≤ off →
        exec (.registerWrite fn off v) s = .next s)
    ∧ ((∀ (n k : Nat) (v : Word) (s : State), n < 256 → k < 4 → barLive s = true → (tget s.ten.tenants n).map Tenant.state = some .active →
      (tgetD s.ten.mbx (n * 8 + k) {}).busy = false → (tgetD s.ten.queues n {}).store.length < 1024 → bits (tgetD s.ten.clsTab (n * 16) 1) 0 0 = 1 →
      ∃ t, exec (.mgmtMailboxWrite n k v) s = .next t ∧ (tgetD t.ten.mbx (n * 8 + k) {}).busy = true ∧ t.line = s.line ∧ t.cmd = s.cmd
        ∧ ∃ e ∈ (tgetD t.ten.queues n {}).store, e.source = 0x800 + 8 * n + k ∧ e.kind = 1 ∧ e.arg = k * 2 ^ 32 + v.toNat ∧ e.spc = s.spc)
    ∧ (∀ (n k : Nat) (v : Word) (s : State), n < 256 → k < 4 → barLive s = true →
        (tget s.ten.tenants n).map Tenant.state = some .resetting ∨ tget s.ten.tenants n = none →
        ∃ t, exec (.mgmtMailboxWrite n k v) s = .next t ∧ t = { s with ten := { s.ten with mbx := t.ten.mbx } }
          ∧ tgetD t.ten.mbx (n * 8 + k) {} = { tgetD s.ten.mbx (n * 8 + k) {} with drop := true })
    ∧ (∀ (n k : Nat) (v : Word) (s : State), n < 256 → k < 4 → barLive s = true → (tget s.ten.tenants n).map Tenant.state = some .active →
        (tgetD s.ten.mbx (n * 8 + k) {}).busy = true → exec (.mgmtMailboxWrite n k v) s = .next s)
    ∧ (∀ (n k : Nat) (v : Word) (s : State), n < 256 → 4 ≤ k → k < 8 → writesAct s n = true → (tgetD s.ten.mbx (n * 8 + k) {}).busy = false →
        (tgetD s.ten.queues mgmt {}).store.length < 1024 → bits (tgetD s.ten.srcTab (0x800 + 8 * n + k) 1) 0 0 = 1 →
        ∃ t, exec (.tenantMailboxWrite n k v) s = .next t ∧ (tgetD t.ten.mbx (n * 8 + k) {}).busy = true ∧ t.line = s.line ∧ t.cmd = s.cmd
          ∧ ∃ e ∈ (tgetD t.ten.queues mgmt {}).store, e.source = 0x800 + 8 * n + k ∧ e.kind = 1 ∧ e.arg = k % 4 * 2 ^ 32 + v.toNat ∧ e.spc = s.spc)
    ∧ ∀ (n k : Nat) (v : Word) (s : State), n < 256 → 4 ≤ k → k < 8 → writesAct s n = true → (tgetD s.ten.mbx (n * 8 + k) {}).busy = true →
        exec (.tenantMailboxWrite n k v) s = .next s)

/-- A command that a check of R397 refuses completes with that check's status, and nothing else has changed; one that no function is served
for has no effect; a packet runs the meaning of its opcode, and an unknown opcode answers ST_BAD_OPCODE or ST_CHECK_FAIL (R386, R390,
R397). -/
def Obligations.Refusals : Prop :=
  (∀ (k : Checks) (r : Req) (s : State) (act : State → Reply) (e : Nat), served r s = true → r.twin = false → r.back = false →
      routeOf k.op r s = .here → firstFail k r s = some e →
      Completes r e [] s (command k r s act) ∧ Only s (command k r s act))
    ∧ (∀ (k : Checks) (r : Req) (s : State) (act : State → Reply), served r s = false → command k r s act = s)
    ∧ (∀ (op : Nat) (r : Req) (s : State), opMeaning op = none → served r s = true → r.twin = false →
        ∃ st, (st = ST_BAD_OPCODE ∨ st = ST_CHECK_FAIL) ∧ Completes r st [] s (runPacket op r s) ∧ Only s (runPacket op r s))
    ∧ ∀ (r : Req) (s t : State),
        (exec (.safeArm r) s = .next t → runPacket 0x0B01 r s = t) ∧ (exec (.chainPower r) s = .next t → runPacket 0x0200 r s = t)
          ∧ (exec (.accHarvest r) s = .next t → runPacket 0x0502 r s = t) ∧ (exec (.chgStart r) s = .next t → runPacket 0x0A01 r s = t)
          ∧ (exec (.laneUp r) s = .next t → runPacket 0x0300 r s = t) ∧ (exec (.hkFw r) s = .next t → runPacket 0x0E04 r s = t)
end

