-- ==== Sys2Proof/Laws/View.lean ====
section
/-! SUPPORT. The view of the state that almost every operation leaves alone, and how a view passes through the forms of an operation. -/

namespace Sys2Proof.Machine

/-- The fields of the state that few rows change: the queue, the SPC, power, OTP, bring-up, the island with its kill line and password, the run
counts and holdover. -/
structure View where
  pending : List Instr
  spc : Nat
  powered : Bool
  otp : Otp
  phase : Phase
  scan : Bool
  island : Island
  kill : Bool
  password : Option (List Nat)
  aonRun : Nat
  coldRun : Nat
  holdover : Bool
  deriving DecidableEq, Repr

/-- The view of a state. -/
def view (s : State) : View :=
  { pending := s.pending, spc := s.time.spc, powered := s.time.powered, otp := s.otp, phase := s.boot.phase, scan := s.boot.scan
    island := s.safe.island, kill := s.safe.kill, password := s.safe.password
    aonRun := s.nvm.aonRun, coldRun := s.nvm.coldRun, holdover := s.time.holdover }

theorem view_forEach {α : Type} (l : List α) (s : State) (f : α → State → State) (h : ∀ a t, view (f a t) = view t) :
    view (forEach l s f) = view s := by
  induction l generalizing s with
  | nil => rfl
  | cons a r ih => exact (ih (f a s)).trans (h a s)

theorem view_ite (c : Prop) [Decidable c] (a b s : State) (ha : view a = view s) (hb : view b = view s) :
    view (if c then a else b) = view s := by split <;> assumption

theorem view_modSafe (f : SafeUnit → SafeUnit) (s : State)
    (h : ∀ u, (f u).island = u.island ∧ (f u).kill = u.kill ∧ (f u).password = u.password) : view (modSafe f s) = view s := by
  simp [view, modSafe, h]

theorem view_modBoot (f : Boot → Boot) (s : State) (h : ∀ u, (f u).phase = u.phase ∧ (f u).scan = u.scan) :
    view (modBoot f s) = view s := by
  simp [view, modBoot, h]

theorem view_elim {α : Type} (o : Option α) (a : State) (f : α → State) (s : State) (ha : view a = view s) (hf : ∀ x, view (f x) = view s) :
    view (o.elim a f) = view s := by
  cases o <;> simp [ha, hf]

/-- The state in a reply. -/
def Reply.state : Reply → State
  | .now _ _ s => s
  | .long _ _ s => s
  | .longNow _ _ s => s
  | .later _ s => s

theorem rview_now (a : Nat) (b : List Word) (s : State) : view (Reply.now a b s).state = view s := rfl
theorem rview_long (a : Nat) (b : List Word) (s : State) : view (Reply.long a b s).state = view s := rfl
theorem rview_longNow (a : Nat) (b : List Word) (s : State) : view (Reply.longNow a b s).state = view s := rfl
theorem rview_later (k : DeferKind) (s : State) : view (Reply.later k s).state = view s := rfl
theorem rview_ite (c : Prop) [Decidable c] (a b : Reply) (s : State) (ha : view a.state = view s) (hb : view b.state = view s) :
    view (if c then a else b).state = view s := by split <;> assumption

/-- A next state has the view of the state before. -/
def Keeps (o : Host.Outcome State Fault Refusal) (s : State) : Prop := ∀ t, o = .next t → view t = view s

theorem keeps_next {t s : State} (h : view t = view s) : Keeps (.next t) s := by
  intro u hu; cases hu; exact h

theorem keeps_onObject {b : Bool} {t s : State} (h : view t = view s) : Keeps (onObject b t) s := by
  intro u hu
  unfold onObject at hu
  split at hu
  · cases hu; exact h
  · cases hu

theorem view_mk (time otp boot line lane loom cal map bal acc safe chg est spec therm wear trace nvm pair ten cmd regs out pending fresh) :
    view ⟨time, otp, boot, line, lane, loom, cal, map, bal, acc, safe, chg, est, spec, therm, wear, trace, nvm, pair, ten, cmd, regs, out,
      pending, fresh⟩
    = ⟨pending, time.spc, time.powered, otp, boot.phase, boot.scan, safe.island, safe.kill, safe.password, nvm.aonRun,
      nvm.coldRun, time.holdover⟩ := rfl

theorem view_eta (s : State) :
    (⟨s.pending, s.time.spc, s.time.powered, s.otp, s.boot.phase, s.boot.scan, s.safe.island, s.safe.kill, s.safe.password, s.nvm.aonRun,
      s.nvm.coldRun, s.time.holdover⟩ : View)
    = view s := rfl

end Sys2Proof.Machine
end

