-- ==== Sys2Proof/Laws/ViewOps.lean ====
section
/-! SUPPORT. What keeps the view: the shared operations, lines, calibration, accumulators, the island, balancing, spectra and words. Each lemma says it of one operation or row. -/

set_option linter.unusedSimpArgs false
set_option linter.unusedVariables false

namespace Sys2Proof.Machine

/-! ### Machine/Ops.lean -/

theorem view_State_takeFrac (s : State) : view (State.takeFrac s) = view s := by
  unfold State.takeFrac
  repeat' first
    | with_reducible first | rfl
    | simp only [↓view_mk, view_eta] | dsimp only

theorem view_sendMsix (fn : Nat) (v : Nat) (s : State) : view (sendMsix fn v s) = view s := by
  unfold sendMsix
  repeat' first
    | with_reducible first | rfl
    | simp only [↓view_mk, view_eta] | dsimp only

theorem view_signal (fn : Nat) (v : Nat) (s : State) : view (signal fn v s) = view s := by
  unfold signal
  repeat' first
    | with_reducible first | rfl | refine (view_sendMsix ..).trans ?_ | apply view_ite
    | simp only [↓view_mk, view_eta] | split | dsimp only

theorem view_traceTake (e : TraceRec) (s : State) : view (traceTake e s) = view s := by
  unfold traceTake
  repeat' first
    | with_reducible first | rfl | apply view_ite
    | simp only [↓view_mk, view_eta] | split | dsimp only

theorem view_traceMarker (code : Nat) (uclass : Nat) (unit : Nat) (words : List Word) (s : State) :
    view (traceMarker code uclass unit words s) = view s := by
  unfold traceMarker
  repeat' first
    | with_reducible first | rfl | refine (view_traceTake ..).trans ?_
    | dsimp only

theorem view_traceNote (cls : Nat) (kind : Nat) (arg : Nat) (spc : Nat) (u : Nat × Nat) (s : State) :
    view (traceNote cls kind arg spc u s) = view s := by
  unfold traceNote
  repeat' first
    | with_reducible first | rfl | refine (view_traceTake ..).trans ?_
    | simp only [↓view_mk, view_eta] | dsimp only

theorem view_gateUnit (cls : Nat) (u : Nat) (on : Bool) (s : State) : view (gateUnit cls u on s) = view s := by
  unfold gateUnit
  repeat' first
    | with_reducible first | rfl | refine (view_traceMarker ..).trans ?_ | apply view_ite
    | simp only [↓view_mk, view_eta] | split | dsimp only

theorem view_wantGate (cls : Nat) (u : Nat) (on : Bool) (s : State) : view (wantGate cls u on s) = view s := by
  unfold wantGate
  repeat' first
    | with_reducible first | rfl | apply view_ite
    | simp only [↓view_mk, view_eta] | split | dsimp only

theorem view_nextGate (s : State) : view (nextGate s) = view s := by
  unfold nextGate
  repeat' first
    | with_reducible first | rfl | refine (view_gateUnit ..).trans ?_ | apply view_ite
    | simp only [↓view_mk, view_eta] | split | dsimp only

theorem view_pushEv (fn : Nat) (e : EvRec) (s : State) : view (pushEv fn e s) = view s := by
  unfold pushEv
  repeat' first
    | with_reducible first | rfl | apply view_ite
    | simp only [↓view_mk, view_eta] | split | dsimp only

theorem view_raise (src : Nat) (kind : Nat) (arg : Nat) (spc : Nat) (s0 : State) : view (raise src kind arg spc s0) = view s0 := by
  unfold raise
  repeat' first
    | with_reducible first | rfl | refine (view_pushEv ..).trans ?_ | refine (view_traceNote ..).trans ?_ | apply view_ite
    | with_reducible first | refine view_elim _ _ _ _ ?_ (fun _ => ?_)
    | split | dsimp only

theorem view_raiseNow (src : Nat) (kind : Nat) (arg : Nat) (s : State) : view (raiseNow src kind arg s) = view s := by
  unfold raiseNow
  repeat' first
    | with_reducible first | rfl | refine (view_raise ..).trans ?_
    | dsimp only

theorem view_raiseChi (chi : Nat) (named : Nat) (kind : Nat) (detail : Nat) (s : State) :
    view (raiseChi chi named kind detail s) = view s := by
  unfold raiseChi
  repeat' first
    | with_reducible first | rfl | refine (view_raiseNow ..).trans ?_
    | dsimp only

theorem view_raisePos (pos : Nat) (named : Nat) (kind : Nat) (detail : Nat) (s : State) :
    view (raisePos pos named kind detail s) = view s := by
  unfold raisePos
  repeat' first
    | with_reducible first | rfl | refine (view_raiseChi ..).trans ?_
    | dsimp only

theorem view_raiseChain (chain : Nat) (named : Nat) (kind : Nat) (detail : Nat) (s : State) :
    view (raiseChain chain named kind detail s) = view s := by
  unfold raiseChain
  repeat' first
    | with_reducible first | rfl | refine (view_raiseChi ..).trans ?_
    | dsimp only

theorem view_traceCommand (kind : Nat) (ref : CmdRef) (status : Nat) (s : State) : view (traceCommand kind ref status s) = view s := by
  unfold traceCommand
  repeat' first
    | with_reducible first | rfl | refine (view_traceNote ..).trans ?_ | apply view_ite
    | split | dsimp only

theorem view_writeCompletion (ref : CmdRef) (status : Nat) (results : List Word) (accept : Nat) (s : State) :
    view (writeCompletion ref status results accept s) = view s := by
  unfold writeCompletion
  repeat' first
    | with_reducible first | rfl | refine (view_traceCommand ..).trans ?_ | refine (view_signal ..).trans ?_ | apply view_ite
    | simp only [↓view_mk, view_eta] | split | dsimp only

theorem view_completeAt (ref : CmdRef) (status : Nat) (results : List Word) (accept : Nat) (s : State) :
    view (completeAt ref status results accept s) = view s := by
  unfold completeAt
  repeat' first
    | with_reducible first | rfl | refine (view_writeCompletion ..).trans ?_ | apply view_ite
    | simp only [↓view_mk, view_eta] | split | dsimp only

theorem view_complete (ref : CmdRef) (status : Nat) (results : List Word) (s : State) : view (complete ref status results s) = view s := by
  unfold complete
  repeat' first
    | with_reducible first | rfl | refine (view_completeAt ..).trans ?_
    | dsimp only

theorem view_finishOn (src : Nat) (ref : CmdRef) (status : Nat) (spc : Nat) (s : State) :
    view (finishOn src ref status spc s) = view s := by
  unfold finishOn
  repeat' first
    | with_reducible first | rfl | refine (view_raise ..).trans ?_ | apply view_ite
    | simp only [↓view_mk, view_eta] | split | dsimp only

theorem view_finish (ref : CmdRef) (status : Nat) (s : State) : view (finish ref status s) = view s := by
  unfold finish
  repeat' first
    | with_reducible first | rfl | refine (view_finishOn ..).trans ?_
    | dsimp only

theorem view_finishObj (op : Nat) (obj : Nat) (status : Nat) (s : State) : view (finishObj op obj status s) = view s := by
  unfold finishObj
  repeat' first
    | with_reducible first | rfl | refine (view_finish ..).trans ?_ | refine (view_forEach _ _ _ fun _ _ => ?_).trans ?_
    | dsimp only

theorem view_holdUnfinished (ref : CmdRef) (op : Nat) (obj : Nat) (s : State) : view (holdUnfinished ref op obj s) = view s := by
  unfold holdUnfinished
  repeat' first
    | with_reducible first | rfl
    | simp only [↓view_mk, view_eta] | dsimp only

theorem view_completeDeferred (kind : DeferKind) (status : Nat) (results : List Word) (s : State) :
    view (completeDeferred kind status results s) = view s := by
  unfold completeDeferred
  repeat' first
    | with_reducible first | rfl | refine (view_completeAt ..).trans ?_ | refine (view_forEach _ _ _ fun _ _ => ?_).trans ?_
    | simp only [↓view_mk, view_eta] | dsimp only

theorem view_countAppended (fn : Nat) (cls : Nat) (s : State) : view (countAppended fn cls s) = view s := by
  unfold countAppended
  repeat' first
    | with_reducible first | rfl
    | simp only [↓view_mk, view_eta] | dsimp only

theorem view_countChecked (fn : Nat) (cls : Nat) (bad : Bool) (s : State) : view (countChecked fn cls bad s) = view s := by
  unfold countChecked
  repeat' first
    | with_reducible first | rfl
    | simp only [↓view_mk, view_eta] | dsimp only

theorem view_noteInbound (k : Checks) (r : Req) (s : State) : view (noteInbound k r s) = view s := by
  unfold noteInbound
  repeat' first
    | with_reducible first | rfl | refine (view_countChecked ..).trans ?_ | apply view_ite
    | simp only [↓view_mk, view_eta] | split | dsimp only

theorem view_sendPair (kind : PairKind) (body : List Nat) (s : State) : view (sendPair kind body s) = view s := by
  unfold sendPair
  repeat' first
    | with_reducible first | rfl
    | simp only [↓view_mk, view_eta] | dsimp only

theorem view_reportLocal (body : List Nat) (s : State) : view (reportLocal body s) = view s := by
  unfold reportLocal
  repeat' first
    | with_reducible first | rfl | refine (view_sendPair ..).trans ?_ | apply view_ite
    | split | dsimp only

theorem view_deferMirror (ref : CmdRef) (status : Nat) (results : List Word) (s : State) :
    view (deferMirror ref status results s) = view s := by
  unfold deferMirror
  repeat' first
    | with_reducible first | rfl | apply view_ite
    | simp only [↓view_mk, view_eta] | split | dsimp only

theorem view_completeRouted (both : Bool) (ref : CmdRef) (status : Nat) (results : List Word) (s : State) :
    view (completeRouted both ref status results s) = view s := by
  unfold completeRouted
  repeat' first
    | with_reducible first | rfl | refine (view_deferMirror ..).trans ?_ | refine (view_completeAt ..).trans ?_ | apply view_ite
    | split | dsimp only

theorem view_emitBuffer (h : BufHead) (r : Req) (secs : List Section) (s : State) : view (emitBuffer h r secs s).2.2 = view s := by
  unfold emitBuffer
  repeat' first
    | with_reducible first | rfl | refine (view_countAppended ..).trans ?_ | apply view_ite
    | simp only [↓view_mk, view_eta] | split | dsimp only

theorem view_harvestOut (h : BufHead) (r : Req) (sel : List Nat) (secs : List (Nat × Section)) (s : State) :
    view (harvestOut h r sel secs s).2.2 = view s := by
  unfold harvestOut
  repeat' first
    | with_reducible first | rfl | refine (view_emitBuffer ..).trans ?_
    | simp only [↓view_mk, view_eta] | split | dsimp only

theorem view_emitStatus (op : Nat) (r : Req) (recs : List (List (List Word))) (s : State) (chkClass : Nat) :
    view (emitStatus op r recs s chkClass).2.2 = view s := by
  unfold emitStatus
  repeat' first
    | with_reducible first | rfl | refine (view_harvestOut ..).trans ?_
    | dsimp only
/-- What every shared operation of a command keeps, and its effect keeps, the command keeps. -/
theorem command_keeps (P : State → Prop) (hP : ∀ a b, view a = view b → P b → P a) (k : Checks) (r : Req) (s : State)
    (act : State → Reply) (h : ∀ t, P t → P (act t).state) (hs : P s) : P (command k r s act) := by
  unfold command
  split
  · exact hs
  · extract_lets s1 route st s2 u both s3
    have h1 : P s1 := by
      refine hP _ s ?_ hs
      show view (if _ then _ else _) = _
      exact view_ite _ _ _ _ rfl (view_traceCommand ..)
    have h2 : P s2 := by
      refine hP _ s1 ?_ h1
      show view (if _ then _ else _) = _
      exact view_ite _ _ _ _ rfl (view_noteInbound ..)
    have h3 : P s3 := by
      refine hP _ s2 ?_ h2
      show view (if _ then _ else _) = _
      exact view_ite _ _ _ _ (view_sendPair ..) rfl
    have h4 := h s3 h3
    clear_value s1 route st s2 u both s3
    split
    · exact hP _ _ (view_complete ..) h2
    · split
      · exact hP _ s2 (by simp only [↓view_mk, view_eta]) h2
      · split
        · exact hP _ _ ((view_deferMirror ..).trans (view_sendPair ..)) h2
        · generalize act s3 = rep at h4 ⊢
          cases rep with
          | now status res t => exact hP _ _ (view_completeRouted ..) h4
          | long obj res t => exact hP _ _ ((view_completeRouted ..).trans (view_holdUnfinished ..)) h4
          | longNow status res t =>
            exact hP _ _ ((view_finish ..).trans ((view_completeRouted ..).trans (view_holdUnfinished ..))) h4
          | later kind t => exact hP _ t rfl h4

theorem view_command (k : Checks) (r : Req) (s : State) (act : State → Reply) (h : ∀ t, view (act t).state = view t) :
    view (command k r s act) = view s :=
  command_keeps (fun t => view t = view s) (fun _ _ e h => e.trans h) k r s act (fun t ht => (h t).trans ht) rfl

/-! ### Machine/LineOps.lean -/

theorem view_modChain (c : Nat) (f : Chain → Chain) (s : State) : view (modChain c f s) = view s := by
  unfold modChain
  repeat' first
    | with_reducible first | rfl
    | simp only [↓view_mk, view_eta] | dsimp only

theorem view_modPos (p : Nat) (f : Posn → Posn) (s : State) : view (modPos p f s) = view s := by
  unfold modPos
  repeat' first
    | with_reducible first | rfl
    | simp only [↓view_mk, view_eta] | dsimp only

theorem view_modOcc (c : Nat) (f : Posn → Posn) (s : State) : view (modOcc c f s) = view s := by
  unfold modOcc
  repeat' first
    | with_reducible first | rfl | refine (view_modPos ..).trans ?_ | refine (view_forEach _ _ _ fun _ _ => ?_).trans ?_
    | dsimp only

theorem view_moveSplit (c : Nat) (h : Nat) (s : State) : view (moveSplit c h s) = view s := by
  unfold moveSplit
  repeat' first
    | with_reducible first | rfl | refine (view_modPos ..).trans ?_ | refine (view_modChain ..).trans ?_ | apply view_ite
    | with_reducible first | refine (view_forEach _ _ _ fun _ _ => ?_).trans ?_
    | simp only [↓view_mk, view_eta] | split | dsimp only

theorem view_noteRing (c : Nat) (bit : Nat) (s : State) : view (noteRing c bit s) = view s := by
  unfold noteRing
  repeat' first
    | with_reducible first | rfl | refine (view_modChain ..).trans ?_
    | simp only [↓view_mk, view_eta] | dsimp only

theorem view_ringEvent (c : Nat) (kind : Nat) (detail : Nat) (s : State) : view (ringEvent c kind detail s) = view s := by
  unfold ringEvent
  repeat' first
    | with_reducible first | rfl | refine (view_raiseChain ..).trans ?_
    | dsimp only

theorem view_posEvent (p : Nat) (kind : Nat) (detail : Nat) (s : State) : view (posEvent p kind detail s) = view s := by
  unfold posEvent
  repeat' first
    | with_reducible first | rfl | refine (view_raisePos ..).trans ?_
    | dsimp only

theorem view_endProc (c : Nat) (status : Nat) (s : State) : view (endProc c status s) = view s := by
  unfold endProc
  repeat' first
    | with_reducible first | rfl | refine (view_modChain ..).trans ?_ | refine (view_finish ..).trans ?_
    | simp only [↓view_mk, view_eta] | split | dsimp only

theorem view_settleProc (c : Nat) (s : State) : view (settleProc c s) = view s := by
  unfold settleProc
  repeat' first
    | with_reducible first | rfl | refine (view_endProc ..).trans ?_ | apply view_ite
    | simp only [↓view_mk, view_eta] | split | dsimp only

theorem view_setDelays (c : Nat) (ds : List Nat) (s : State) : view (setDelays c ds s) = view s := by
  unfold setDelays
  repeat' first
    | with_reducible first | rfl | refine (view_modPos ..).trans ?_ | refine (view_forEach _ _ _ fun _ _ => ?_).trans ?_
    | dsimp only

theorem view_stopChain (m : CMode) (st : PState) (c : Nat) (s : State) : view (stopChain m st c s) = view s := by
  unfold stopChain
  repeat' first
    | with_reducible first | rfl | refine (view_hopFault ..).trans ?_ | refine (view_modOcc ..).trans ?_
    | with_reducible first | refine (view_modChain ..).trans ?_
    | simp only [↓view_mk, view_eta] | dsimp only

theorem view_startProc (c : Nat) (op : Nat) (cmd : Option CmdRef) (s : State) : view (startProc c op cmd s) = view s := by
  unfold startProc
  repeat' first
    | with_reducible first | rfl | refine (view_modChain ..).trans ?_ | apply view_ite
    | simp only [↓view_mk, view_eta] | split | dsimp only

theorem view_powerUp (c : Nat) (op : Nat) (cmd : Option CmdRef) (s : State) : view (powerUp c op cmd s) = view s := by
  unfold powerUp
  repeat' first
    | with_reducible first | rfl | refine (view_hopFault ..).trans ?_ | refine (view_startProc ..).trans ?_
    | with_reducible first | refine (view_modOcc ..).trans ?_ | refine (view_modChain ..).trans ?_ | apply view_ite
    | simp only [↓view_mk, view_eta] | split | dsimp only

theorem view_holdMsg (p : Nat) (typ : Nat) (part : Nat) (msg : BitVec 512) (s : State) : view (holdMsg p typ part msg s) = view s := by
  unfold holdMsg
  repeat' first
    | with_reducible first | rfl | refine (view_modPos ..).trans ?_ | refine (view_finish ..).trans ?_
    | with_reducible first | refine (view_forEach _ _ _ fun _ _ => ?_).trans ?_
    | simp only [↓view_mk, view_eta] | split | dsimp only

theorem view_modLane (l : Nat) (f : Lane → Lane) (s : State) : view (modLane l f s) = view s := by
  unfold modLane
  repeat' first
    | with_reducible first | rfl
    | simp only [↓view_mk, view_eta] | dsimp only

theorem view_modBridge (pl : Nat) (f : Bridge → Bridge) (s : State) : view (modBridge pl f s) = view s := by
  unfold modBridge
  repeat' first
    | with_reducible first | rfl
    | simp only [↓view_mk, view_eta] | dsimp only

theorem view_noteLane (l : Nat) (bit : Nat) (s : State) : view (noteLane l bit s) = view s := by
  unfold noteLane
  repeat' first
    | with_reducible first | rfl | refine (view_modLane ..).trans ?_
    | simp only [↓view_mk, view_eta] | dsimp only

/-! ### Machine/CalOps.lean -/

theorem view_modTagCal (p : Nat) (f : TagCal → TagCal) (s : State) : view (modTagCal p f s) = view s := by
  unfold modTagCal
  repeat' first
    | with_reducible first | rfl
    | simp only [↓view_mk, view_eta] | dsimp only

theorem view_modChainCal (c : Nat) (f : ChainCal → ChainCal) (s : State) : view (modChainCal c f s) = view s := by
  unfold modChainCal
  repeat' first
    | with_reducible first | rfl
    | simp only [↓view_mk, view_eta] | dsimp only

theorem view_formFactory (p : Nat) (s : State) : view (formFactory p s) = view s := by
  unfold formFactory
  repeat' first
    | with_reducible first | rfl | refine (view_modTagCal ..).trans ?_ | apply view_ite
    | simp only [↓view_mk, view_eta] | split | dsimp only

theorem view_uncoverTag (p : Nat) (s : State) : view (uncoverTag p s) = view s := by
  unfold uncoverTag
  repeat' first
    | with_reducible first | rfl | refine (view_modTagCal ..).trans ?_
    | simp only [↓view_mk, view_eta] | dsimp only

theorem view_decideCommit (c : Nat) (q : Commit) (s : State) : view (decideCommit c q s).2.2 = view s := by
  unfold decideCommit
  repeat' first
    | with_reducible first | rfl | refine (view_modChainCal ..).trans ?_
    | simp only [↓view_mk, view_eta] | dsimp only

theorem view_startSlew (b : Nat) (chi : Nat) (e : Entry) (s : State) : view (startSlew b chi e s) = view s := by
  unfold startSlew
  repeat' first
    | with_reducible first | rfl | refine (view_modTagCal ..).trans ?_ | apply view_ite
    | simp only [↓view_mk, view_eta] | split | dsimp only

theorem view_noteCoverage (q : Commit) (s : State) : view (noteCoverage q s) = view s := by
  unfold noteCoverage
  repeat' first
    | with_reducible first | rfl | refine (view_modTagCal ..).trans ?_ | apply view_ite | refine (view_forEach _ _ _ fun _ _ => ?_).trans ?_
    | simp only [↓view_mk, view_eta] | split | dsimp only

theorem view_flipCommit (c : Nat) (q : Commit) (b : Nat) (s : State) : view (flipCommit c q b s) = view s := by
  unfold flipCommit
  repeat' first
    | with_reducible first | rfl | refine (view_noteCoverage ..).trans ?_ | refine (view_startSlew ..).trans ?_
    | with_reducible first | refine (view_modChainCal ..).trans ?_ | refine (view_finishOn ..).trans ?_
    | with_reducible first | refine (view_forEach _ _ _ fun _ _ => ?_).trans ?_
    | simp only [↓view_mk, view_eta] | split | dsimp only

theorem view_putRun (k : Nat) (r : CalRun) (s : State) : view (putRun k r s) = view s := by
  unfold putRun
  repeat' first
    | with_reducible first | rfl
    | simp only [↓view_mk, view_eta] | dsimp only

theorem view_putLaneRun (l : Nat) (r : LaneRun) (s : State) : view (putLaneRun l r s) = view s := by
  unfold putLaneRun
  repeat' first
    | with_reducible first | rfl
    | simp only [↓view_mk, view_eta] | dsimp only

theorem view_abortRuns (p : Nat → CalRun → Bool) (s : State) : view (abortRuns p s) = view s := by
  unfold abortRuns
  repeat' first
    | with_reducible first | rfl | refine (view_finishOn ..).trans ?_ | apply view_ite | refine (view_forEach _ _ _ fun _ _ => ?_).trans ?_
    | simp only [↓view_mk, view_eta] | split | dsimp only

theorem view_failInRun (p : Nat) (cause : Nat) (f : Nat → Bool) (s : State) : view (failInRun p cause f s) = view s := by
  unfold failInRun
  repeat' first
    | with_reducible first | rfl | apply view_ite
    | simp only [↓view_mk, view_eta] | split | dsimp only

/-! ### Machine/AccOps.lean -/

theorem view_markPosition (p : Nat) (flag : Nat) (s : State) : view (markPosition p flag s) = view s := by
  unfold markPosition
  repeat' first
    | with_reducible first | rfl | apply view_ite
    | simp only [↓view_mk, view_eta] | split | dsimp only

theorem view_markBinding (key : Nat) (s : State) : view (markBinding key s) = view s := by
  unfold markBinding
  repeat' first
    | with_reducible first | rfl
    | simp only [↓view_mk, view_eta] | dsimp only

theorem view_markStdPos (chi : Nat) (s : State) : view (markStdPos chi s) = view s := by
  unfold markStdPos
  repeat' first
    | with_reducible first | rfl
    | simp only [↓view_mk, view_eta] | dsimp only

theorem view_putStdTab (sixty : Bool) (t : Tbl (List StdRec)) (s : State) : view (putStdTab sixty t s) = view s := by
  unfold putStdTab
  repeat' first
    | with_reducible first | rfl | apply view_ite
    | simp only [↓view_mk, view_eta] | split | dsimp only

theorem view_stdAdd (sixty : Bool) (key : Nat) (own : Nat) (gen : Nat) (x : Sample) (s : State) :
    view (stdAdd sixty key own gen x s) = view s := by
  unfold stdAdd
  repeat' first
    | with_reducible first | rfl | refine (view_putStdTab ..).trans ?_ | apply view_ite
    | simp only [↓view_mk, view_eta] | split | dsimp only

theorem view_stdGaps (sixty : Bool) (j : Nat) (key : Nat) (n : Nat) (s : State) : view (stdGaps sixty j key n s) = view s := by
  unfold stdGaps
  repeat' first
    | with_reducible first | rfl | refine (view_putStdTab ..).trans ?_ | apply view_ite
    | simp only [↓view_mk, view_eta] | split | dsimp only

theorem view_commitRec (sixty : Bool) (j : Nat) (key : Nat) (s : State) : view (commitRec sixty j key s) = view s := by
  unfold commitRec
  repeat' first
    | with_reducible first | rfl | refine (view_putStdTab ..).trans ?_ | apply view_ite
    | simp only [↓view_mk, view_eta] | split | dsimp only

theorem view_commitSecond (j : Nat) (key : Nat) (s : State) : view (commitSecond j key s) = view s := by
  unfold commitSecond
  repeat' first
    | with_reducible first | rfl | refine (view_commitRec ..).trans ?_ | refine (view_stdGaps ..).trans ?_ | apply view_ite
    | split | dsimp only

theorem view_commitEntry (sixty : Bool) (j : Nat) (key : Nat) (s : State) : view (commitEntry sixty j key s) = view s := by
  unfold commitEntry
  repeat' first
    | with_reducible first | rfl | refine (view_commitSecond ..).trans ?_ | refine (view_commitRec ..).trans ?_ | apply view_ite
    | split | dsimp only

theorem view_startTrackers (p : Nat) (s : State) : view (startTrackers p s) = view s := by
  unfold startTrackers
  repeat' first
    | with_reducible first | rfl | apply view_ite
    | simp only [↓view_mk, view_eta] | split | dsimp only

theorem view_feedAcc (chi : Nat) (pos : Nat) (own : Nat) (centre : Nat) (gen : Nat) (x : Sample) (s : State) :
    view (feedAcc chi pos own centre gen x s) = view s := by
  unfold feedAcc
  repeat' first
    | with_reducible first | rfl | refine (view_stdAdd ..).trans ?_ | apply view_ite
    | simp only [↓view_mk, view_eta] | split | dsimp only

theorem view_feedDwell (chi : Nat) (pos : Nat) (x : Sample) (s : State) : view (feedDwell chi pos x s) = view s := by
  unfold feedDwell
  repeat' first
    | with_reducible first | rfl | refine (view_feedAcc ..).trans ?_
    | dsimp only

theorem view_feedPrimary (chi : Nat) (x : Sample) (s : State) : view (feedPrimary chi x s) = view s := by
  unfold feedPrimary
  repeat' first
    | with_reducible first | rfl | refine (view_feedAcc ..).trans ?_
    | dsimp only

theorem view_backGaps (p : Nat) (s : State) : view (backGaps p s) = view s := by
  unfold backGaps
  repeat' first
    | with_reducible first | rfl | refine (view_feedPrimary ..).trans ?_ | refine (view_forEach _ _ _ fun _ _ => ?_).trans ?_
    | with_reducible first | refine view_elim _ _ _ _ ?_ (fun _ => ?_)
    | dsimp only

theorem view_modWin (k : Nat) (f : Window → Window) (s : State) : view (modWin k f s) = view s := by
  unfold modWin
  repeat' first
    | with_reducible first | rfl
    | simp only [↓view_mk, view_eta] | dsimp only

theorem view_dropWin (k : Nat) (s : State) : view (dropWin k s) = view s := by
  unfold dropWin
  repeat' first
    | with_reducible first | rfl
    | simp only [↓view_mk, view_eta] | dsimp only

/-! ### Machine/Readiness.lean -/

theorem view_setAlert (bit : Nat) (s : State) : view (setAlert bit s) = view s := by
  unfold setAlert
  repeat' first
    | with_reducible first | rfl | apply view_ite
    | simp only [↓view_mk, view_eta] | split | dsimp only

theorem view_reportShutdowns (old : BitVec 16) (new : BitVec 16) (s : State) : view (reportShutdowns old new s) = view s := by
  unfold reportShutdowns
  repeat' first
    | with_reducible first | rfl | refine (view_raiseNow ..).trans ?_ | apply view_ite | refine (view_forEach _ _ _ fun _ _ => ?_).trans ?_
    | split | dsimp only

theorem view_refreshReady (s : State) : view (refreshReady s) = view s := by
  unfold refreshReady
  repeat' first
    | with_reducible first | rfl | refine (view_reportShutdowns ..).trans ?_ | refine (view_setAlert ..).trans ?_
    | with_reducible first | refine (view_raiseNow ..).trans ?_ | apply view_ite
    | simp only [↓view_mk, view_eta] | split | dsimp only

theorem view_clearReady (s : State) : view (clearReady s) = view s := by
  unfold clearReady
  repeat' first
    | with_reducible first | rfl
    | simp only [↓view_mk, view_eta] | dsimp only

theorem view_unitEvent (src : Nat) (kind : Nat) (chains : List Nat) (s : State) : view (unitEvent src kind chains s) = view s := by
  unfold unitEvent
  repeat' first
    | with_reducible first | rfl | refine (view_raiseNow ..).trans ?_ | refine (view_forEach _ _ _ fun _ _ => ?_).trans ?_
    | simp only [↓view_mk, view_eta] | split | dsimp only

theorem view_setUnit (cls : Nat) (u : Nat) (f : UnitRec → UnitRec) (s : State) : view (setUnit cls u f s) = view s := by
  unfold setUnit
  repeat' first
    | with_reducible first | rfl | refine (view_raiseNow ..).trans ?_ | refine (view_wantGate ..).trans ?_ | apply view_ite
    | simp only [↓view_mk, view_eta] | simp only [id] | split | dsimp only

/-! ### Machine/PairOps.lean -/

theorem view_modPair (f : PairUnit → PairUnit) (s : State) : view (modPair f s) = view s := by
  unfold modPair
  repeat' first
    | with_reducible first | rfl
    | simp only [↓view_mk, view_eta] | dsimp only

theorem view_setRole (r : PRole) (cause : Nat) (s : State) : view (setRole r cause s) = view s := by
  unfold setRole
  repeat' first
    | with_reducible first | rfl | refine (view_modPair ..).trans ?_ | refine (view_raiseNow ..).trans ?_ | apply view_ite
    | simp only [↓view_mk, view_eta] | split | dsimp only

theorem view_setEpoch (e : Nat) (s : State) : view (setEpoch e s) = view s := by
  unfold setEpoch
  repeat' first
    | with_reducible first | rfl | refine (view_modPair ..).trans ?_ | refine (view_raiseNow ..).trans ?_ | apply view_ite
    | simp only [↓view_mk, view_eta] | split | dsimp only

theorem view_startClaims (lanes : List Nat) (cause : Nat) (s : State) : view (startClaims lanes cause s) = view s := by
  unfold startClaims
  repeat' first
    | with_reducible first | rfl | refine (view_modPair ..).trans ?_ | apply view_ite
    | simp only [↓view_mk, view_eta] | split | dsimp only

theorem view_stopClaims (s : State) : view (stopClaims s) = view s := by
  unfold stopClaims
  repeat' first
    | with_reducible first | rfl | refine (view_modPair ..).trans ?_
    | simp only [↓view_mk, view_eta] | dsimp only

theorem view_yieldPair (cause : Nat) (s : State) : view (yieldPair cause s) = view s := by
  unfold yieldPair
  repeat' first
    | with_reducible first | rfl | refine (view_modPair ..).trans ?_ | refine (view_sendPair ..).trans ?_ | apply view_ite
    | simp only [↓view_mk, view_eta] | split | dsimp only

theorem view_findStale (e : Nat) (s : State) : view (findStale e s) = view s := by
  unfold findStale
  repeat' first
    | with_reducible first | rfl | refine (view_yieldPair ..).trans ?_ | refine (view_stopClaims ..).trans ?_
    | with_reducible first | refine (view_modPair ..).trans ?_ | refine (view_completeDeferred ..).trans ?_
    | with_reducible first | refine (view_finish ..).trans ?_ | refine (view_raiseNow ..).trans ?_ | apply view_ite
    | with_reducible first | refine (view_forEach _ _ _ fun _ _ => ?_).trans ?_
    | simp only [↓view_mk, view_eta] | split | dsimp only

theorem view_hearEpoch (e : Nat) (stale : Bool) (s : State) : view (hearEpoch e stale s) = view s := by
  unfold hearEpoch
  repeat' first
    | with_reducible first | rfl | refine (view_findStale ..).trans ?_ | refine (view_modPair ..).trans ?_ | apply view_ite
    | simp only [↓view_mk, view_eta] | split | dsimp only

theorem view_takeGrant (l : Nat) (s : State) : view (takeGrant l s) = view s := by
  unfold takeGrant
  repeat' first
    | with_reducible first | rfl | refine (view_setEpoch ..).trans ?_ | refine (view_setRole ..).trans ?_
    | with_reducible first | refine (view_modPair ..).trans ?_ | refine (view_unitEvent ..).trans ?_ | apply view_ite
    | simp only [↓view_mk, view_eta] | split | dsimp only

theorem view_settleHandover (s : State) : view (settleHandover s) = view s := by
  unfold settleHandover
  repeat' first
    | with_reducible first | rfl | refine (view_modPair ..).trans ?_ | refine (view_finish ..).trans ?_ | apply view_ite
    | simp only [↓view_mk, view_eta] | split | dsimp only

theorem view_claimFree (l : Nat) (s : State) : view (claimFree l s) = view s := by
  unfold claimFree
  repeat' first
    | with_reducible first | rfl | refine (view_startClaims ..).trans ?_ | apply view_ite
    | split | dsimp only

theorem view_takeLease (l : Nat) (x : BitVec 128) (s : State) : view (takeLease l x s) = view s := by
  unfold takeLease
  repeat' first
    | with_reducible first | rfl | refine (view_claimFree ..).trans ?_ | refine (view_settleHandover ..).trans ?_
    | with_reducible first | refine (view_takeGrant ..).trans ?_ | refine (view_modPair ..).trans ?_ | refine (view_modLane ..).trans ?_
    | with_reducible first | refine (view_raiseNow ..).trans ?_ | apply view_ite
    | simp only [↓view_mk, view_eta] | split | dsimp only

theorem view_assembleLeases (s : State) : view (assembleLeases s) = view s := by
  unfold assembleLeases
  repeat' first
    | with_reducible first | rfl | refine (view_modPair ..).trans ?_
    | simp only [↓view_mk, view_eta] | dsimp only

theorem view_startResync (s : State) : view (startResync s) = view s := by
  unfold startResync
  repeat' first
    | with_reducible first | rfl | refine (view_modPair ..).trans ?_
    | simp only [↓view_mk, view_eta] | dsimp only

theorem view_releaseMirrored (s : State) : view (releaseMirrored s) = view s := by
  unfold releaseMirrored
  repeat' first
    | with_reducible first | rfl | refine (view_completeAt ..).trans ?_ | apply view_ite
    | with_reducible first | refine (view_forEach _ _ _ fun _ _ => ?_).trans ?_
    | simp only [↓view_mk, view_eta] | split | dsimp only

theorem view_stopMirroring (s : State) : view (stopMirroring s) = view s := by
  unfold stopMirroring
  repeat' first
    | with_reducible first | rfl | refine (view_releaseMirrored ..).trans ?_ | refine (view_claimFree ..).trans ?_
    | with_reducible first | refine (view_startClaims ..).trans ?_ | apply view_ite | refine (view_forEach _ _ _ fun _ _ => ?_).trans ?_
    | simp only [↓view_mk, view_eta] | split | dsimp only

theorem view_mergePair (s : State) : view (mergePair s) = view s := by
  unfold mergePair
  repeat' first
    | with_reducible first | rfl | refine (view_startResync ..).trans ?_ | refine (view_stopClaims ..).trans ?_
    | with_reducible first | refine (view_setEpoch ..).trans ?_ | refine (view_setRole ..).trans ?_ | refine (view_modPair ..).trans ?_
    | with_reducible first | refine (view_sendPair ..).trans ?_ | apply view_ite
    | simp only [↓view_mk, view_eta] | simp only [id] | split | dsimp only

/-! ### Machine/SafeOps.lean -/

theorem view_logChange (kind : Nat) (fn : Nat) (wset : Nat) (detail : List Word) (s : State) :
    view (logChange kind fn wset detail s) = view s := by
  unfold logChange
  repeat' first
    | with_reducible first | rfl | refine (view_modSafe _ _ fun _ => ?_).trans ?_ | refine (view_raiseNow ..).trans ?_ | apply view_ite
    | exact ⟨rfl, rfl, rfl⟩ | simp only [↓view_mk, view_eta] | split | dsimp only

theorem view_startReanalysis (a : Reanalysis) (s : State) : view (startReanalysis a s) = view s := by
  unfold startReanalysis
  repeat' first
    | with_reducible first | rfl | apply view_ite
    | simp only [↓view_mk, view_eta] | split | dsimp only

theorem view_doTrip (x : TripCase) (s : State) : view (doTrip x s) = view s := by
  unfold doTrip
  repeat' first
    | with_reducible first | rfl | refine (view_startReanalysis ..).trans ?_ | refine (view_modSafe _ _ fun _ => ?_).trans ?_
    | with_reducible first | refine (view_sendPair ..).trans ?_ | refine (view_raiseNow ..).trans ?_ | apply view_ite
    | with_reducible first | refine (view_forEach _ _ _ fun _ _ => ?_).trans ?_
    | exact ⟨rfl, rfl, rfl⟩ | simp only [↓view_mk, view_eta] | simp only [id] | split | dsimp only

theorem view_judgePair (key : Nat) (n : Nat) (v : Bool × Bool) (x : TripCase) (hi : Int) (lo : Int) (s : State) :
    view (judgePair key n v x hi lo s) = view s := by
  unfold judgePair
  repeat' first
    | with_reducible first | rfl | refine (view_doTrip ..).trans ?_ | refine (view_modSafe _ _ fun _ => ?_).trans ?_ | apply view_ite
    | exact ⟨rfl, rfl, rfl⟩ | simp only [↓view_mk, view_eta] | split | dsimp only

theorem view_noteSeen (key : Nat) (period : Nat) (subst : Bool) (s : State) : view (noteSeen key period subst s) = view s := by
  unfold noteSeen
  repeat' first
    | with_reducible first | rfl | refine (view_modSafe _ _ fun _ => ?_).trans ?_ | apply view_ite
    | with_reducible first | refine view_elim _ _ _ _ ?_ (fun _ => ?_)
    | exact ⟨rfl, rfl, rfl⟩ | simp only [↓view_mk, view_eta] | split | dsimp only

theorem view_feedFast (key : Nat) (m : Nat) (x : Sample) (s : State) : view (feedFast key m x s) = view s := by
  unfold feedFast
  repeat' first
    | with_reducible first | rfl
    | simp only [↓view_mk, view_eta] | dsimp only

theorem view_judgeCells (p : Nat) (m : Nat) (num : Nat) (w : WSet) (xs : List Sample) (s : State) :
    view (judgeCells p m num w xs s) = view s := by
  unfold judgeCells
  repeat' first
    | with_reducible first | rfl | refine (view_feedFast ..).trans ?_ | refine (view_noteSeen ..).trans ?_
    | with_reducible first | refine (view_judgePair ..).trans ?_ | apply view_ite | refine (view_forEach _ _ _ fun _ _ => ?_).trans ?_
    | split | dsimp only

theorem view_judgeTherm (p : Nat) (m : Nat) (num : Nat) (w : WSet) (x : Sample) (s : State) : view (judgeTherm p m num w x s) = view s := by
  unfold judgeTherm
  repeat' first
    | with_reducible first | rfl | refine (view_feedFast ..).trans ?_ | refine (view_noteSeen ..).trans ?_
    | with_reducible first | refine (view_judgePair ..).trans ?_ | apply view_ite
    | simp only [↓view_mk, view_eta] | split | dsimp only

theorem view_judgeCurrent (p : Nat) (m : Nat) (num : Nat) (w : WSet) (g : Merge) (x : Sample) (s : State) :
    view (judgeCurrent p m num w g x s) = view s := by
  unfold judgeCurrent
  repeat' first
    | with_reducible first | rfl | refine (view_feedFast ..).trans ?_ | refine (view_noteSeen ..).trans ?_
    | with_reducible first | refine (view_judgePair ..).trans ?_ | apply view_ite
    | simp only [↓view_mk, view_eta] | split | dsimp only

theorem view_judgeLive (p : Nat) (m : Nat) (xs : List Sample) (s : State) : view (judgeLive p m xs s) = view s := by
  unfold judgeLive
  repeat' first
    | with_reducible first | rfl | refine (view_judgeCurrent ..).trans ?_ | refine (view_judgeTherm ..).trans ?_
    | with_reducible first | refine (view_judgeCells ..).trans ?_
    | simp only [↓view_mk, view_eta] | split | dsimp only

theorem view_sweepUnmeasured (s : State) : view (sweepUnmeasured s) = view s := by
  unfold sweepUnmeasured
  repeat' first
    | with_reducible first | rfl | refine (view_doTrip ..).trans ?_ | refine (view_modSafe _ _ fun _ => ?_).trans ?_ | apply view_ite
    | with_reducible first | refine (view_forEach _ _ _ fun _ _ => ?_).trans ?_ | refine view_elim _ _ _ _ ?_ (fun _ => ?_)
    | exact ⟨rfl, rfl, rfl⟩ | simp only [↓view_mk, view_eta] | split | dsimp only

/-! ### Machine/BalOps.lean -/

theorem view_modDiag (p : Nat) (f : TagDiag → TagDiag) (s : State) : view (modDiag p f s) = view s := by
  unfold modDiag
  repeat' first
    | with_reducible first | rfl
    | simp only [↓view_mk, view_eta] | dsimp only

theorem view_modCell (k : Nat) (f : BalCell → BalCell) (s : State) : view (modCell k f s) = view s := by
  unfold modCell
  repeat' first
    | with_reducible first | rfl
    | simp only [↓view_mk, view_eta] | dsimp only

theorem view_decideCell (p : Nat) (j : Nat) (ref : Int) (s : State) : view (decideCell p j ref s) = view s := by
  unfold decideCell
  repeat' first
    | with_reducible first | rfl | refine (view_modCell ..).trans ?_ | refine (view_raiseChi ..).trans ?_ | apply view_ite
    | with_reducible first | refine view_elim _ _ _ _ ?_ (fun _ => ?_)
    | simp only [↓view_mk, view_eta] | split | dsimp only

theorem view_noteCellCalm (chi : Nat) (x : Sample) (s : State) : view (noteCellCalm chi x s) = view s := by
  unfold noteCellCalm
  repeat' first
    | with_reducible first | rfl | refine (view_modDiag ..).trans ?_ | apply view_ite
    | simp only [↓view_mk, view_eta] | split | dsimp only

theorem view_noteCurrentCalm (d : Nat) (x : Sample) (s : State) : view (noteCurrentCalm d x s) = view s := by
  unfold noteCurrentCalm
  repeat' first
    | with_reducible first | rfl | refine (view_modDiag ..).trans ?_ | apply view_ite | refine (view_forEach _ _ _ fun _ _ => ?_).trans ?_
    | simp only [↓view_mk, view_eta] | split | dsimp only

theorem view_placeQuiet (p : Nat) (f : Nat) (s : State) : view (placeQuiet p f s) = view s := by
  unfold placeQuiet
  repeat' first
    | with_reducible first | rfl | refine (view_modDiag ..).trans ?_ | apply view_ite
    | simp only [↓view_mk, view_eta] | split | dsimp only

theorem view_setFault (p : Nat) (i : Nat) (on : Bool) (s : State) : view (setFault p i on s) = view s := by
  unfold setFault
  repeat' first
    | with_reducible first | rfl | refine (view_modDiag ..).trans ?_ | refine (view_raisePos ..).trans ?_ | apply view_ite
    | simp only [↓view_mk, view_eta] | split | dsimp only

theorem view_tagCheck (p : Nat) (i : Nat) (n : Nat) (bad : Bool) (s : State) : view (tagCheck p i n bad s) = view s := by
  unfold tagCheck
  repeat' first
    | with_reducible first | rfl | refine (view_setFault ..).trans ?_ | refine (view_modDiag ..).trans ?_ | apply view_ite
    | simp only [↓view_mk, view_eta] | split | dsimp only

theorem view_checkDwell (p : Nat) (pos : Nat) (x : Sample) (s : State) : view (checkDwell p pos x s) = view s := by
  unfold checkDwell
  repeat' first
    | with_reducible first | rfl | refine (view_tagCheck ..).trans ?_ | refine (view_modDiag ..).trans ?_
    | with_reducible first | refine (view_modTagCal ..).trans ?_ | apply view_ite
    | simp only [↓view_mk, view_eta] | split | dsimp only

theorem view_keepRaw (p : Nat) (m : Nat) (s : State) : view (keepRaw p m s) = view s := by
  unfold keepRaw
  repeat' first
    | with_reducible first | rfl
    | simp only [↓view_mk, view_eta] | dsimp only

theorem view_cellResponse (p : Nat) (j : Nat) (bad : Bool) (s : State) : view (cellResponse p j bad s) = view s := by
  unfold cellResponse
  repeat' first
    | with_reducible first | rfl | refine (view_setFault ..).trans ?_ | refine (view_modDiag ..).trans ?_ | apply view_ite
    | simp only [↓view_mk, view_eta] | split | dsimp only

theorem view_checkBleed (p : Nat) (m : Nat) (s : State) : view (checkBleed p m s) = view s := by
  unfold checkBleed
  repeat' first
    | with_reducible first | rfl | refine (view_cellResponse ..).trans ?_ | refine (view_modCell ..).trans ?_ | apply view_ite
    | with_reducible first | refine (view_forEach _ _ _ fun _ _ => ?_).trans ?_
    | simp only [↓view_mk, view_eta] | split | dsimp only

theorem view_notePassive (p : Nat) (xs : List Sample) (before : List Sample) (s : State) : view (notePassive p xs before s) = view s := by
  unfold notePassive
  repeat' first
    | with_reducible first | rfl | refine (view_modDiag ..).trans ?_ | apply view_ite
    | simp only [↓view_mk, view_eta] | split | dsimp only

theorem view_suspectWire (p : Nat) (w : Nat) (n : Nat) (passive : Bool) (s : State) : view (suspectWire p w n passive s) = view s := by
  unfold suspectWire
  repeat' first
    | with_reducible first | rfl | refine (view_modDiag ..).trans ?_ | apply view_ite
    | simp only [↓view_mk, view_eta] | split | dsimp only

theorem view_checkHighR (p : Nat) (s : State) : view (checkHighR p s) = view s := by
  unfold checkHighR
  repeat' first
    | with_reducible first | rfl | refine (view_setFault ..).trans ?_
    | dsimp only

theorem view_freshDiag (p : Nat) (s : State) : view (freshDiag p s) = view s := by
  unfold freshDiag
  repeat' first
    | with_reducible first | rfl | refine (view_modCell ..).trans ?_ | refine (view_finish ..).trans ?_
    | with_reducible first | refine (view_forEach _ _ _ fun _ _ => ?_).trans ?_
    | simp only [↓view_mk, view_eta] | dsimp only

theorem view_resetBalancing (c : Nat) (s : State) : view (resetBalancing c s) = view s := by
  unfold resetBalancing
  repeat' first
    | with_reducible first | rfl | refine (view_modCell ..).trans ?_ | refine (view_forEach _ _ _ fun _ _ => ?_).trans ?_
    | simp only [↓view_mk, view_eta] | dsimp only

/-! ### Machine/SpecOps.lean -/

theorem view_modCtx (chi : Nat) (f : SpecCtx → SpecCtx) (s : State) : view (modCtx chi f s) = view s := by
  unfold modCtx
  repeat' first
    | with_reducible first | rfl
    | simp only [↓view_mk, view_eta] | dsimp only

theorem view_stepCurrent (p : Nat) (m : Nat) (s : State) : view (stepCurrent p m s) = view s := by
  unfold stepCurrent
  repeat' first
    | with_reducible first | rfl | apply view_ite | refine (view_forEach _ _ _ fun _ _ => ?_).trans ?_
    | with_reducible first | refine view_elim _ _ _ _ ?_ (fun _ => ?_)
    | simp only [↓view_mk, view_eta] | split | dsimp only

theorem view_passOn (chi : Nat) (x : Nat × Rat) (s : State) : view (passOn chi x s) = view s := by
  unfold passOn
  repeat' first
    | with_reducible first | rfl | refine (view_stepCurrent ..).trans ?_ | apply view_ite
    | simp only [↓view_mk, view_eta] | split | dsimp only

theorem view_feedSpec (chi : Nat) (x : Sample) (s : State) : view (feedSpec chi x s) = view s := by
  unfold feedSpec
  repeat' first
    | with_reducible first | rfl | refine (view_passOn ..).trans ?_ | refine (view_forEach _ _ _ fun _ _ => ?_).trans ?_
    | simp only [↓view_mk, view_eta] | dsimp only

theorem view_restartCtx (chi : Nat) (s : State) : view (restartCtx chi s) = view s := by
  unfold restartCtx
  repeat' first
    | with_reducible first | rfl | refine (view_modCtx ..).trans ?_
    | dsimp only

theorem view_cutCtx (chi : Nat) (s : State) : view (cutCtx chi s) = view s := by
  unfold cutCtx
  repeat' first
    | with_reducible first | rfl | refine (view_restartCtx ..).trans ?_ | refine (view_modCtx ..).trans ?_
    | simp only [↓view_mk, view_eta] | dsimp only

theorem view_loseStage (chi : Nat) (o : Nat) (s : State) : view (loseStage chi o s) = view s := by
  unfold loseStage
  repeat' first
    | with_reducible first | rfl | refine (view_modCtx ..).trans ?_ | apply view_ite
    | simp only [↓view_mk, view_eta] | split | dsimp only

theorem view_restartFocus (chi : Nat) (s : State) : view (restartFocus chi s) = view s := by
  unfold restartFocus
  repeat' first
    | with_reducible first | rfl | apply view_ite
    | simp only [↓view_mk, view_eta] | split | dsimp only

theorem view_restartTag (p : Nat) (s : State) : view (restartTag p s) = view s := by
  unfold restartTag
  repeat' first
    | with_reducible first | rfl | refine (view_restartFocus ..).trans ?_ | refine (view_restartCtx ..).trans ?_
    | with_reducible first | refine (view_forEach _ _ _ fun _ _ => ?_).trans ?_
    | dsimp only

theorem view_cutTag (p : Nat) (s : State) : view (cutTag p s) = view s := by
  unfold cutTag
  repeat' first
    | with_reducible first | rfl | refine (view_restartFocus ..).trans ?_ | refine (view_cutCtx ..).trans ?_
    | with_reducible first | refine (view_forEach _ _ _ fun _ _ => ?_).trans ?_
    | dsimp only

theorem view_modFocus (k : Nat) (f : Focus → Focus) (s : State) : view (modFocus k f s) = view s := by
  unfold modFocus
  repeat' first
    | with_reducible first | rfl
    | simp only [↓view_mk, view_eta] | dsimp only

theorem view_finishSegment (w : InWork) (s : State) : view (finishSegment w s) = view s := by
  unfold finishSegment
  repeat' first
    | with_reducible first | rfl | refine (view_modFocus ..).trans ?_ | refine (view_modCtx ..).trans ?_
    | with_reducible first | refine (view_complete ..).trans ?_ | refine (view_raiseNow ..).trans ?_ | apply view_ite
    | simp only [↓view_mk, view_eta] | simp only [id] | split | dsimp only

theorem view_finishRound (s : State) : view (finishRound s) = view s := by
  unfold finishRound
  repeat' first
    | with_reducible first | rfl | refine (view_finishSegment ..).trans ?_ | refine (view_forEach _ _ _ fun _ _ => ?_).trans ?_
    | simp only [↓view_mk, view_eta] | dsimp only

theorem view_skipWork (w : SegmentWork) (s : State) : view (skipWork w s) = view s := by
  unfold skipWork
  repeat' first
    | with_reducible first | rfl | refine (view_modFocus ..).trans ?_ | refine (view_modCtx ..).trans ?_ | apply view_ite
    | simp only [↓view_mk, view_eta] | simp only [id] | split | dsimp only

theorem view_advance (s : State) : view (advance s) = view s := by
  unfold advance
  repeat' first
    | with_reducible first | rfl | refine (view_modCtx ..).trans ?_ | apply view_ite | refine (view_forEach _ _ _ fun _ _ => ?_).trans ?_
    | simp only [↓view_mk, view_eta] | split | dsimp only

theorem view_startWork (tile : Nat) (w : SegmentWork) (s : State) : view (startWork tile w s) = view s := by
  unfold startWork
  repeat' first
    | with_reducible first | rfl | refine (view_skipWork ..).trans ?_ | apply view_ite
    | simp only [↓view_mk, view_eta] | simp only [id] | split | dsimp only

theorem view_workShare (a b : Rat) (l : List SegmentWork) (s : State) : view (workShare a b l s) = view s := by
  induction l generalizing a b s with
  | nil => rfl
  | cons w r ih =>
    unfold workShare
    exact view_ite _ _ _ _ ((ih ..).trans (view_startWork ..)) ((ih ..).trans (view_skipWork ..))

theorem view_runRound (s : State) : view (runRound s) = view s := by
  unfold runRound
  refine (view_forEach _ _ _ fun _ _ => view_workShare ..).trans ?_
  exact (view_advance ..).trans (view_finishRound ..)

theorem view_loseTile (u : Nat) (s : State) : view (loseTile u s) = view s := by
  unfold loseTile
  repeat' first
    | with_reducible first | rfl | refine (view_raiseNow ..).trans ?_ | apply view_ite
    | simp only [↓view_mk, view_eta] | split | dsimp only

/-! ### Machine/WordOps.lean -/

theorem view_noteSwitch (p : Nat) (d : Disturb) (s : State) : view (noteSwitch p d s) = view s := by
  unfold noteSwitch
  repeat' first
    | with_reducible first | rfl | apply view_ite
    | simp only [↓view_mk, view_eta] | split | dsimp only

theorem view_putWord (p : Nat) (frame : Nat) (w : Word) (f : Posted → Posted) (s : State) : view (putWord p frame w f s) = view s := by
  unfold putWord
  repeat' first
    | with_reducible first | rfl | refine (view_modPos ..).trans ?_
    | simp only [↓view_mk, view_eta] | dsimp only

theorem view_putNormal (p : Nat) (frame : Nat) (off : Bool) (s : State) : view (putNormal p frame off s) = view s := by
  unfold putNormal
  repeat' first
    | with_reducible first | rfl | refine (view_putWord ..).trans ?_ | refine (view_noteSwitch ..).trans ?_ | apply view_ite
    | simp only [↓view_mk, view_eta] | split | dsimp only

theorem view_dropInjection (p : Nat) (q : Nat) (s : State) : view (dropInjection p q s) = view s := by
  unfold dropInjection
  repeat' first
    | with_reducible first | rfl | refine (view_modDiag ..).trans ?_
    | simp only [↓view_mk, view_eta] | split | dsimp only

theorem view_putSpecial (p frame : Nat) (s t : State) (h : putSpecial p frame s = some t) : view t = view s := by
  unfold putSpecial at h
  dsimp only at h
  split at h
  · cases h; exact view_putWord ..
  · split at h
    · cases h; exact (view_modPos ..).trans (view_putWord ..)
    · cases h

theorem view_assemble (p : Nat) (s : State) : view (assemble p s) = view s := by
  have hd (o : Option State) (a b : State) (ho : ∀ t, o = some t → view t = view b) (ha : view a = view b) : view (o.getD a) = view b := by
    cases o with
    | none => exact ha
    | some t => exact ho t rfl
  unfold assemble
  extract_lets x c ch frame special enumerating typed demanded s1
  have h1 : view s1 = view s := view_dropInjection ..
  refine view_ite _ _ _ _ rfl (view_ite _ _ _ _ ((view_putNormal ..).trans h1) (view_ite _ _ _ _ ((view_putNormal ..).trans h1) ?_))
  refine view_ite _ _ _ _ (view_putWord ..) (view_ite _ _ _ _ ?_ (view_ite _ _ _ _ ?_ ?_))
  · exact hd _ _ _ (fun t ht => view_putSpecial _ _ _ _ ht) (view_putWord ..)
  · exact (hd _ _ s1 (fun t ht => view_putSpecial _ _ _ _ ht) (view_putNormal ..)).trans h1
  · split
    · next t ht => exact view_putSpecial _ _ _ _ ht
    · exact view_ite _ _ _ _ (view_putWord ..) (view_putNormal ..)

theorem view_postDrive (p : Nat) (iSet : Int) (outEn : Bool) (s : State) : view (postDrive p iSet outEn s) = view s := by
  unfold postDrive
  repeat' first
    | with_reducible first | rfl | refine (view_assemble ..).trans ?_ | refine (view_modPos ..).trans ?_ | apply view_ite
    | simp only [↓view_mk, view_eta] | split | dsimp only

theorem view_noteSchedule (s : State) : view (noteSchedule s) = view s := by
  unfold noteSchedule
  repeat' first
    | with_reducible first | rfl | refine (view_noteSwitch ..).trans ?_ | apply view_ite
    | with_reducible first | refine (view_forEach _ _ _ fun _ _ => ?_).trans ?_
    | split | dsimp only

theorem view_assembleAll (s : State) : view (assembleAll s) = view s := by
  unfold assembleAll
  repeat' first
    | with_reducible first | rfl | refine (view_noteSchedule ..).trans ?_ | refine (view_assemble ..).trans ?_
    | with_reducible first | refine (view_modChain ..).trans ?_ | refine (view_forEach _ _ _ fun _ _ => ?_).trans ?_
    | simp only [↓view_mk, view_eta] | dsimp only

end Sys2Proof.Machine
end

