-- ==== Sys2Proof/Laws/ViewUnits.lean ====
section
/-! SUPPORT. What keeps the view: the estimator, accumulators, the sequencer, units, spectra and the island's rows. Each lemma says it of one operation or row. -/

set_option linter.unusedSimpArgs false
set_option linter.unusedVariables false

namespace Sys2Proof.Machine

/-! ### Machine/EstOps.lean -/

theorem view_modStr (d : Nat) (f : Str → Str) (s : State) : view (modStr d f s) = view s := by
  unfold modStr
  repeat' first
    | with_reducible first | rfl
    | simp only [↓view_mk, view_eta] | dsimp only

theorem view_feedInteg (d : Nat) (x : Sample) (s : State) : view (feedInteg d x s) = view s := by
  unfold feedInteg
  repeat' first
    | with_reducible first | rfl | refine (view_modStr ..).trans ?_ | apply view_ite
    | simp only [↓view_mk, view_eta] | split | dsimp only

theorem view_noteCellGap (p : Nat) (gap : Bool) (s : State) : view (noteCellGap p gap s) = view s := by
  unfold noteCellGap
  repeat' first
    | with_reducible first | rfl | apply view_ite
    | simp only [↓view_mk, view_eta] | split | dsimp only

theorem view_cellOutage (p : Nat) (s : State) : view (cellOutage p s) = view s := by
  unfold cellOutage
  repeat' first
    | with_reducible first | rfl
    | simp only [↓view_mk, view_eta] | dsimp only

theorem view_noteRest (j : Nat) (d : Nat) (s : State) : view (noteRest j d s) = view s := by
  unfold noteRest
  repeat' first
    | with_reducible first | rfl | refine (view_modStr ..).trans ?_ | apply view_ite
    | simp only [↓view_mk, view_eta] | split | dsimp only

theorem view_putCell (chi : Nat) (c : Cell) (s : State) : view (putCell chi c s) = view s := by
  unfold putCell
  repeat' first
    | with_reducible first | rfl
    | simp only [↓view_mk, view_eta] | dsimp only

theorem view_restartCell (id : Bool) (chi : Nat) (s : State) : view (restartCell id chi s) = view s := by
  unfold restartCell
  repeat' first
    | with_reducible first | rfl
    | simp only [↓view_mk, view_eta] | simp only [id] | dsimp only

theorem view_startCells (p : Nat) (s : State) : view (startCells p s) = view s := by
  unfold startCells
  repeat' first
    | with_reducible first | rfl | refine (view_putCell ..).trans ?_ | apply view_ite | refine (view_forEach _ _ _ fun _ _ => ?_).trans ?_
    | split | dsimp only

theorem view_restartCells (id : Bool) (p : Nat) (s : State) : view (restartCells id p s) = view s := by
  unfold restartCells
  repeat' first
    | with_reducible first | rfl | refine (view_restartCell ..).trans ?_ | refine (view_forEach _ _ _ fun _ _ => ?_).trans ?_
    | simp only [id] | dsimp only

theorem view_restartString (d : Nat) (s : State) : view (restartString d s) = view s := by
  unfold restartString
  repeat' first
    | with_reducible first | rfl | refine (view_modStr ..).trans ?_
    | simp only [↓view_mk, view_eta] | dsimp only

theorem view_clearString (d : Nat) (s : State) : view (clearString d s) = view s := by
  unfold clearString
  repeat' first
    | with_reducible first | rfl | refine (view_restartString ..).trans ?_ | refine (view_modStr ..).trans ?_
    | simp only [↓view_mk, view_eta] | dsimp only

theorem view_disqualify (bit : Nat) (chis : List Nat) (s : State) : view (disqualify bit chis s) = view s := by
  unfold disqualify
  repeat' first
    | with_reducible first | rfl
    | simp only [↓view_mk, view_eta] | dsimp only

theorem view_estEvent (chi : Nat) (named : Nat) (kind : Nat) (detail : Nat) (s : State) :
    view (estEvent chi named kind detail s) = view s := by
  unfold estEvent
  repeat' first
    | with_reducible first | rfl | refine (view_raiseChi ..).trans ?_
    | dsimp only

theorem view_applyAnchor (chi : Nat) (typ : Nat) (a : Int) (u : Nat) (s : State) (c : Cell) :
    view (applyAnchor chi typ a u s c).2 = view s := by
  unfold applyAnchor
  repeat' first
    | with_reducible first | rfl | refine (view_estEvent ..).trans ?_ | apply view_ite
    | simp only [↓view_mk, view_eta] | split | dsimp only

theorem view_noteAnchored (fn : Nat) (s : State) : view (noteAnchored fn s) = view s := by
  unfold noteAnchored
  repeat' first
    | with_reducible first | rfl | refine (view_raiseNow ..).trans ?_ | apply view_ite
    | simp only [↓view_mk, view_eta] | split | dsimp only

theorem view_restAnchor (chi : Nat) (a : Nat) (b : Nat) (g : Profile) (s : State) (c : Cell) :
    view (restAnchor chi a b g s c).2 = view s := by
  unfold restAnchor
  repeat' first
    | with_reducible first | rfl | refine (view_applyAnchor ..).trans ?_ | apply view_ite
    | simp only [↓view_mk, view_eta] | split | dsimp only

theorem view_suspectSwap (p : Nat) (s : State) : view (suspectSwap p s) = view s := by
  unfold suspectSwap
  repeat' first
    | with_reducible first | rfl | refine (view_estEvent ..).trans ?_
    | simp only [↓view_mk, view_eta] | dsimp only

theorem view_stepCell (chi : Nat) (j : Nat) (s0 : State) : view (stepCell chi j s0) = view s0 := by
  unfold stepCell
  repeat' first
    | with_reducible first | rfl | refine (view_suspectSwap ..).trans ?_ | refine (view_restAnchor ..).trans ?_
    | with_reducible first | refine (view_noteAnchored ..).trans ?_ | refine (view_applyAnchor ..).trans ?_
    | with_reducible first | refine (view_putCell ..).trans ?_ | apply view_ite | refine view_elim _ _ _ _ ?_ (fun _ => ?_)
    | simp only [↓view_mk, view_eta] | split | dsimp only

theorem view_stepString (d : Nat) (j : Nat) (s : State) : view (stepString d j s) = view s := by
  unfold stepString
  repeat' first
    | with_reducible first | rfl | refine (view_modStr ..).trans ?_ | apply view_ite | refine view_elim _ _ _ _ ?_ (fun _ => ?_)
    | simp only [↓view_mk, view_eta] | split | dsimp only

theorem view_modFn (fn : Nat) (f : FnEst → FnEst) (s : State) : view (modFn fn f s) = view s := by
  unfold modFn
  repeat' first
    | with_reducible first | rfl
    | simp only [↓view_mk, view_eta] | dsimp only

theorem view_stepAll (fn : Nat) (s : State) : view (stepAll fn s) = view s := by
  unfold stepAll
  repeat' first
    | with_reducible first | rfl | refine (view_stepString ..).trans ?_ | refine (view_stepCell ..).trans ?_ | apply view_ite
    | with_reducible first | refine (view_forEach _ _ _ fun _ _ => ?_).trans ?_
    | simp only [↓view_mk, view_eta] | split | dsimp only

theorem view_regate (s : State) : view (regate s) = view s := by
  unfold regate
  repeat' first
    | with_reducible first | rfl | refine (view_wantGate ..).trans ?_ | refine (view_forEach _ _ _ fun _ _ => ?_).trans ?_
    | simp only [↓view_mk, view_eta] | dsimp only

theorem view_hiberEvent (fn : Nat) (d : Nat) (s : State) : view (hiberEvent fn d s) = view s := by
  unfold hiberEvent
  repeat' first
    | with_reducible first | rfl | refine (view_raiseNow ..).trans ?_ | apply view_ite
    | split | dsimp only

theorem view_wakeFn (fn : Nat) (s : State) : view (wakeFn fn s) = view s := by
  unfold wakeFn
  repeat' first
    | with_reducible first | rfl | refine (view_hiberEvent ..).trans ?_ | refine (view_regate ..).trans ?_ | refine (view_modFn ..).trans ?_
    | with_reducible first | apply view_ite
    | simp only [↓view_mk, view_eta] | split | dsimp only

theorem view_hibernate (fn : Nat) (s : State) : view (hibernate fn s) = view s := by
  unfold hibernate
  repeat' first
    | with_reducible first | rfl | refine (view_hiberEvent ..).trans ?_ | refine (view_regate ..).trans ?_ | refine (view_modFn ..).trans ?_
    | simp only [↓view_mk, view_eta] | dsimp only

theorem view_estCommand (fn : Nat) (s : State) : view (estCommand fn s) = view s := by
  unfold estCommand
  repeat' first
    | with_reducible first | rfl | refine (view_wakeFn ..).trans ?_ | refine (view_stepAll ..).trans ?_ | refine (view_modFn ..).trans ?_
    | with_reducible first | apply view_ite
    | simp only [↓view_mk, view_eta] | split | dsimp only

theorem view_noteLiveCurrent (d : Nat) (v : Int) (s : State) : view (noteLiveCurrent d v s) = view s := by
  unfold noteLiveCurrent
  repeat' first
    | with_reducible first | rfl | refine (view_wakeFn ..).trans ?_ | apply view_ite
    | split | dsimp only

theorem view_notePrimaryCurrent (d : Nat) (x : Sample) (s : State) : view (notePrimaryCurrent d x s) = view s := by
  unfold notePrimaryCurrent
  repeat' first
    | with_reducible first | rfl | refine (view_modFn ..).trans ?_ | apply view_ite
    | simp only [↓view_mk, view_eta] | split | dsimp only

theorem view_restoreCell (job : RestoreJob) (a : Nat) (w : List Word) (s : State) : view (restoreCell job a w s).2 = view s := by
  unfold restoreCell
  repeat' first
    | with_reducible first | rfl | refine (view_putCell ..).trans ?_ | apply view_ite | refine view_elim _ _ _ _ ?_ (fun _ => ?_)
    | simp only [↓view_mk, view_eta] | split | dsimp only

theorem view_restoreString (fn : Nat) (w : List Word) (s : State) : view (restoreString fn w s).2 = view s := by
  unfold restoreString
  repeat' first
    | with_reducible first | rfl | refine (view_modStr ..).trans ?_ | apply view_ite
    | simp only [↓view_mk, view_eta] | split | dsimp only

theorem view_restoreJob (a : Nat) (job : RestoreJob) (s : State) : view (restoreJob a job s) = view s := by
  have fold {β α : Type} (f : β × State → α → β × State) (hf : ∀ p w, view (f p w).2 = view p.2) (l : List α) (p : β × State) :
      view (l.foldl f p).2 = view p.2 := by
    induction l generalizing p with
    | nil => rfl
    | cons w r ih => exact (ih _).trans (hf p w)
  unfold restoreJob
  extract_lets put r0 r u mine s1
  have hput (acc : (Nat × Nat × Nat) × State) (x : Taken × State) : view (put acc x).2 = view x.2 := by
    obtain ⟨k, u⟩ := x
    cases k <;> rfl
  have h0 : view r0.2 = view s := fold _ (fun p w => (hput ..).trans (view_restoreCell ..)) _ _
  have h1 : view r.2 = view r0.2 := fold _ (fun p w => (hput ..).trans (view_restoreString ..)) _ _
  refine (view_forEach _ _ _ fun _ _ => view_completeAt ..).trans ?_
  exact h1.trans h0

theorem view_stepBoundary (s : State) : view (stepBoundary s) = view s := by
  unfold stepBoundary
  repeat' first
    | with_reducible first | rfl | refine (view_restoreJob ..).trans ?_ | refine (view_hibernate ..).trans ?_ | apply view_ite
    | with_reducible first | refine (view_forEach _ _ _ fun _ _ => ?_).trans ?_
    | simp only [↓view_mk, view_eta] | split | dsimp only

/-! ### Machine/Acc.lean -/

theorem view_execStandardIntervalCommit (sixty : Bool) (j : Nat) (s : State) : Keeps (execStandardIntervalCommit sixty j s) s := by
  unfold execStandardIntervalCommit
  repeat' first
    | with_reducible first | rfl | refine (view_noteRest ..).trans ?_ | refine (view_commitEntry ..).trans ?_ | apply keeps_next
    | with_reducible first | apply view_ite | refine (view_forEach _ _ _ fun _ _ => ?_).trans ?_
    | simp only [↓view_mk, view_eta] | split | dsimp only

theorem view_commitLeft (k : Nat) (c : Nat) (w : Window) (s : State) : view (commitLeft k c w s) = view s := by
  unfold commitLeft
  repeat' first
    | with_reducible first | rfl | refine (view_modWin ..).trans ?_ | refine (view_raise ..).trans ?_ | apply view_ite
    | simp only [↓view_mk, view_eta] | split | dsimp only

theorem view_commitWin (k : Nat) (w : Window) (b : Nat) (partly : Bool) (s : State) : view (commitWin k w b partly s) = view s := by
  unfold commitWin
  repeat' first
    | with_reducible first | rfl | refine (view_dropWin ..).trans ?_ | refine (view_modWin ..).trans ?_ | refine (view_finish ..).trans ?_
    | with_reducible first | refine (view_raise ..).trans ?_ | apply view_ite | refine view_elim _ _ _ _ ?_ (fun _ => ?_)
    | simp only [↓view_mk, view_eta] | split | dsimp only

theorem view_endBefore (k : Nat) (w : Window) (s : State) : view (endBefore k w s) = view s := by
  unfold endBefore
  repeat' first
    | with_reducible first | rfl | refine (view_dropWin ..).trans ?_ | refine (view_finish ..).trans ?_ | refine (view_raiseNow ..).trans ?_
    | simp only [↓view_mk, view_eta] | split | dsimp only

theorem view_execUserIntervalCommit (fn : Nat) (win : Nat) (s : State) : Keeps (execUserIntervalCommit fn win s) s := by
  unfold execUserIntervalCommit
  repeat' first
    | with_reducible first | rfl | refine (view_endBefore ..).trans ?_ | refine (view_commitWin ..).trans ?_
    | with_reducible first | refine (view_commitLeft ..).trans ?_ | apply keeps_next | apply view_ite
    | with_reducible first | refine view_elim _ _ _ _ ?_ (fun _ => ?_)
    | simp only [↓view_mk, view_eta] | split | dsimp only

theorem view_actAccOpen (r : Req) (x1 : State) (t : State) : view (actAccOpen r x1 t).state = view t := by
  unfold actAccOpen
  repeat' first
    | with_reducible first | rfl | apply rview_ite | refine (rview_now ..).trans ?_ | apply view_ite
    | simp only [↓view_mk, view_eta] | split | dsimp only

theorem view_execAccOpen (r : Req) (s : State) : Keeps (execAccOpen r s) s := by
  unfold execAccOpen
  repeat' first
    | with_reducible first | rfl | refine (view_command _ _ _ _ fun _ => ?_).trans ?_ | apply keeps_next
    | exact view_actAccOpen _ _ _ | dsimp only

theorem view_actAccClose (r : Req) (s : State) (t : State) : view (actAccClose r s t).state = view t := by
  unfold actAccClose
  repeat' first
    | with_reducible first | rfl | refine (view_dropWin ..).trans ?_ | refine (view_modWin ..).trans ?_ | refine (view_finish ..).trans ?_
    | with_reducible first | refine (view_raiseNow ..).trans ?_ | apply rview_ite | refine (rview_now ..).trans ?_
    | with_reducible first | refine (rview_long ..).trans ?_ | refine (rview_longNow ..).trans ?_ | apply view_ite
    | simp only [↓view_mk, view_eta] | split | dsimp only

theorem view_execAccClose (r : Req) (s : State) : Keeps (execAccClose r s) s := by
  unfold execAccClose
  repeat' first
    | with_reducible first | rfl | refine (view_command _ _ _ _ fun _ => ?_).trans ?_ | apply keeps_next
    | exact view_actAccClose _ _ _ | dsimp only

theorem view_releaseWin (k : Nat) (n : Nat) (s : State) : view (releaseWin k n s) = view s := by
  unfold releaseWin
  repeat' first
    | with_reducible first | rfl | refine (view_dropWin ..).trans ?_ | refine (view_modWin ..).trans ?_ | apply view_ite
    | simp only [↓view_mk, view_eta] | split | dsimp only

theorem view_releaseTrips (xs : List (Bool × TripSection)) (ns : List Nat) (s : State) : view (releaseTrips xs ns s) = view s := by
  unfold releaseTrips
  repeat' first
    | with_reducible first | rfl | apply view_ite | refine (view_forEach _ _ _ fun _ _ => ?_).trans ?_
    | simp only [↓view_mk, view_eta] | split | dsimp only

theorem view_actAccHarvest (r : Req) (s0 : State) (t : State) : view (actAccHarvest r s0 t).state = view t := by
  unfold actAccHarvest
  repeat' first
    | with_reducible first | rfl | refine (view_releaseTrips ..).trans ?_ | refine (view_releaseWin ..).trans ?_
    | with_reducible first | refine (view_harvestOut ..).trans ?_ | refine (view_emitBuffer ..).trans ?_ | apply rview_ite
    | with_reducible first | refine (rview_now ..).trans ?_ | apply view_ite | refine (view_forEach _ _ _ fun _ _ => ?_).trans ?_
    | simp only [↓view_mk, view_eta] | split | dsimp only

theorem view_execAccHarvest (r : Req) (s : State) : Keeps (execAccHarvest r s) s := by
  unfold execAccHarvest
  repeat' first
    | with_reducible first | rfl | refine (view_command _ _ _ _ fun _ => ?_).trans ?_ | apply keeps_next
    | exact view_actAccHarvest _ _ _ | dsimp only

theorem view_actAccApsisReset (r : Req) (s0 : State) (t : State) : view (actAccApsisReset r s0 t).state = view t := by
  unfold actAccApsisReset
  repeat' first
    | with_reducible first | rfl | apply rview_ite | refine (rview_now ..).trans ?_ | apply view_ite
    | simp only [↓view_mk, view_eta] | split | dsimp only

theorem view_execAccApsisReset (r : Req) (s : State) : Keeps (execAccApsisReset r s) s := by
  unfold execAccApsisReset
  repeat' first
    | with_reducible first | rfl | refine (view_command _ _ _ _ fun _ => ?_).trans ?_ | apply keeps_next
    | exact view_actAccApsisReset _ _ _ | dsimp only

theorem view_actAccStatus (r : Req) (s : State) (t : State) : view (actAccStatus r s t).state = view t := by
  unfold actAccStatus
  repeat' first
    | with_reducible first | rfl | apply rview_ite | refine (rview_now ..).trans ?_ | apply view_ite
    | simp only [↓view_mk, view_eta] | split | dsimp only

theorem view_execAccStatus (r : Req) (s : State) : Keeps (execAccStatus r s) s := by
  unfold execAccStatus
  repeat' first
    | with_reducible first | rfl | refine (view_command _ _ _ _ fun _ => ?_).trans ?_ | apply keeps_next
    | exact view_actAccStatus _ _ _ | dsimp only

/-! ### Machine/ChgOps.lean -/

theorem view_modDrive (d : Nat) (f : Drive → Drive) (s : State) : view (modDrive d f s) = view s := by
  unfold modDrive
  repeat' first
    | with_reducible first | rfl
    | simp only [↓view_mk, view_eta] | dsimp only

theorem view_chgEvent (d : Nat) (kind : Nat) (detail : Nat) (s : State) : view (chgEvent d kind detail s) = view s := by
  unfold chgEvent
  repeat' first
    | with_reducible first | rfl | refine (view_raisePos ..).trans ?_
    | dsimp only

theorem view_postNow (d : Nat) (i : Int) (on : Bool) (s : State) : view (postNow d i on s) = view s := by
  unfold postNow
  repeat' first
    | with_reducible first | rfl | refine (view_modDrive ..).trans ?_ | refine (view_postDrive ..).trans ?_
    | dsimp only

theorem view_postNext (d : Nat) (i : Int) (on : Bool) (s : State) : view (postNext d i on s) = view s := by
  unfold postNext
  repeat' first
    | with_reducible first | rfl | refine (view_modDrive ..).trans ?_ | refine (view_modPos ..).trans ?_
    | simp only [↓view_mk, view_eta] | dsimp only

theorem view_beginRest (d : Nat) (s : State) : view (beginRest d s) = view s := by
  unfold beginRest
  repeat' first
    | with_reducible first | rfl | refine (view_modDrive ..).trans ?_
    | simp only [↓view_mk, view_eta] | dsimp only

theorem view_endRest (d : Nat) (s : State) : view (endRest d s) = view s := by
  unfold endRest
  repeat' first
    | with_reducible first | rfl | refine (view_modDrive ..).trans ?_
    | dsimp only

theorem view_feedRelax (d : Nat) (chi : Nat) (x : Sample) (s : State) : view (feedRelax d chi x s) = view s := by
  unfold feedRelax
  repeat' first
    | with_reducible first | rfl | refine (view_modDrive ..).trans ?_ | apply view_ite
    | simp only [↓view_mk, view_eta] | split | dsimp only

theorem view_groupChanged (d : Nat) (s : State) : view (groupChanged d s) = view s := by
  unfold groupChanged
  repeat' first
    | with_reducible first | rfl | apply view_ite
    | simp only [↓view_mk, view_eta] | split | dsimp only

theorem view_unloadProgram (d : Nat) (s : State) : view (unloadProgram d s) = view s := by
  unfold unloadProgram
  repeat' first
    | with_reducible first | rfl | refine (view_modDrive ..).trans ?_
    | simp only [↓view_mk, view_eta] | dsimp only

theorem view_programEnded (d : Nat) (st : PrgState) (cause : Nat) (off : Nat) (s : State) :
    view (programEnded d st cause off s) = view s := by
  unfold programEnded
  repeat' first
    | with_reducible first | rfl | refine (view_groupChanged ..).trans ?_ | refine (view_endRest ..).trans ?_
    | with_reducible first | refine (view_chgEvent ..).trans ?_ | refine (view_modDrive ..).trans ?_
    | simp only [↓view_mk, view_eta] | dsimp only

theorem view_finishStop (d : Nat) (s : State) : view (finishStop d s) = view s := by
  unfold finishStop
  repeat' first
    | with_reducible first | rfl | refine (view_unloadProgram ..).trans ?_ | refine (view_groupChanged ..).trans ?_
    | with_reducible first | refine (view_modDrive ..).trans ?_ | refine (view_finishObj ..).trans ?_ | apply view_ite
    | simp only [↓view_mk, view_eta] | split | dsimp only

theorem view_endNow (d : Nat) (cause : Nat) (s : State) : view (endNow d cause s) = view s := by
  unfold endNow
  repeat' first
    | with_reducible first | rfl | refine (view_programEnded ..).trans ?_ | refine (view_postNext ..).trans ?_ | apply view_ite
    | split | dsimp only

theorem view_startRamp (d : Nat) (ending : PrgState) (cause : Nat) (dn : Nat) (s : State) :
    view (startRamp d ending cause dn s) = view s := by
  unfold startRamp
  repeat' first
    | with_reducible first | rfl | refine (view_modDrive ..).trans ?_
    | simp only [↓view_mk, view_eta] | dsimp only

theorem view_endRamp (d : Nat) (ending : PrgState) (cause : Nat) (s : State) : view (endRamp d ending cause s) = view s := by
  unfold endRamp
  repeat' first
    | with_reducible first | rfl | refine (view_startRamp ..).trans ?_ | refine (view_endRest ..).trans ?_ | apply view_ite
    | split | dsimp only

theorem view_rampStep (d : Nat) (s : State) : view (rampStep d s) = view s := by
  unfold rampStep
  repeat' first
    | with_reducible first | rfl | refine (view_programEnded ..).trans ?_ | refine (view_postNow ..).trans ?_
    | with_reducible first | refine (view_modDrive ..).trans ?_ | apply view_ite
    | simp only [↓view_mk, view_eta] | split | dsimp only

theorem view_dropSetpoint (d : Nat) (s : State) : view (dropSetpoint d s) = view s := by
  unfold dropSetpoint
  repeat' first
    | with_reducible first | rfl | refine (view_postNext ..).trans ?_ | refine (view_modDrive ..).trans ?_
    | simp only [↓view_mk, view_eta] | dsimp only

theorem view_forgetError (d : Nat) (s : State) : view (forgetError d s) = view s := by
  unfold forgetError
  repeat' first
    | with_reducible first | rfl | refine (view_modDrive ..).trans ?_
    | simp only [↓view_mk, view_eta] | dsimp only

theorem view_enterPhase (d : Nat) (i : Nat) (s : State) : view (enterPhase d i s) = view s := by
  unfold enterPhase
  repeat' first
    | with_reducible first | rfl | refine (view_forgetError ..).trans ?_ | refine (view_endRest ..).trans ?_
    | with_reducible first | refine (view_beginRest ..).trans ?_ | refine (view_chgEvent ..).trans ?_ | refine (view_modDrive ..).trans ?_
    | with_reducible first | apply view_ite
    | simp only [↓view_mk, view_eta] | split | dsimp only

theorem view_startProgram (d : Nat) (s : State) : view (startProgram d s) = view s := by
  unfold startProgram
  repeat' first
    | with_reducible first | rfl | refine (view_enterPhase ..).trans ?_ | refine (view_forgetError ..).trans ?_
    | with_reducible first | refine (view_groupChanged ..).trans ?_ | refine (view_modDrive ..).trans ?_
    | simp only [↓view_mk, view_eta] | dsimp only

theorem view_notePeak (d : Nat) (s : State) : view (notePeak d s) = view s := by
  unfold notePeak
  repeat' first
    | with_reducible first | rfl | refine (view_modDrive ..).trans ?_ | apply view_ite | refine view_elim _ _ _ _ ?_ (fun _ => ?_)
    | simp only [↓view_mk, view_eta] | split | dsimp only

theorem view_taperEnd (d : Nat) (s : State) : view (taperEnd d s) = view s := by
  unfold taperEnd
  repeat' first
    | with_reducible first | rfl
    | simp only [↓view_mk, view_eta] | dsimp only

theorem view_nextPhase (d : Nat) (s : State) : view (nextPhase d s) = view s := by
  unfold nextPhase
  repeat' first
    | with_reducible first | rfl | refine (view_enterPhase ..).trans ?_ | refine (view_endRamp ..).trans ?_ | apply view_ite
    | split | dsimp only

theorem view_actTerm (d : Nat) (t : Term) (s : State) : view (actTerm d t s) = view s := by
  unfold actTerm
  repeat' first
    | with_reducible first | rfl | refine (view_nextPhase ..).trans ?_ | refine (view_taperEnd ..).trans ?_
    | with_reducible first | refine (view_enterPhase ..).trans ?_ | refine (view_endRamp ..).trans ?_ | apply view_ite
    | simp only [↓view_mk, view_eta] | split | dsimp only

theorem view_track (d : Nat) (s : State) : view (track d s) = view s := by
  unfold track
  repeat' first
    | with_reducible first | rfl | refine (view_endNow ..).trans ?_ | refine (view_modDrive ..).trans ?_ | apply view_ite
    | simp only [↓view_mk, view_eta] | split | dsimp only

theorem view_zonesNow (d : Nat) (s : State) : view (zonesNow d s) = view s := by
  unfold zonesNow
  repeat' first
    | with_reducible first | rfl | refine (view_modDrive ..).trans ?_ | apply view_ite
    | simp only [↓view_mk, view_eta] | split | dsimp only

theorem view_holdNow (d : Nat) (s : State) : view (holdNow d s) = view s := by
  unfold holdNow
  repeat' first
    | with_reducible first | rfl | refine (view_modDrive ..).trans ?_ | apply view_ite
    | simp only [↓view_mk, view_eta] | split | dsimp only

theorem view_tickProgram (d : Nat) (s : State) : view (tickProgram d s) = view s := by
  unfold tickProgram
  repeat' first
    | with_reducible first | rfl | refine (view_holdNow ..).trans ?_ | refine (view_zonesNow ..).trans ?_
    | with_reducible first | refine (view_actTerm ..).trans ?_ | refine (view_nextPhase ..).trans ?_ | refine (view_notePeak ..).trans ?_
    | with_reducible first | refine (view_endRamp ..).trans ?_ | refine (view_endNow ..).trans ?_ | refine (view_modDrive ..).trans ?_
    | with_reducible first | apply view_ite
    | simp only [↓view_mk, view_eta] | split | dsimp only

theorem view_limiter (d : Nat) (s : State) : view (limiter d s) = view s := by
  unfold limiter
  repeat' first
    | with_reducible first | rfl | refine (view_modDrive ..).trans ?_ | apply view_ite
    | simp only [↓view_mk, view_eta] | split | dsimp only

theorem view_shares (s : State) : view (shares s) = view s := by
  unfold shares
  repeat' first
    | with_reducible first | rfl | refine (view_modDrive ..).trans ?_ | apply view_ite | refine (view_forEach _ _ _ fun _ _ => ?_).trans ?_
    | simp only [↓view_mk, view_eta] | split | dsimp only

theorem view_commandProgram (d : Nat) (s : State) : view (commandProgram d s) = view s := by
  unfold commandProgram
  repeat' first
    | with_reducible first | rfl | refine (view_postNow ..).trans ?_ | refine (view_modDrive ..).trans ?_ | apply view_ite
    | simp only [↓view_mk, view_eta] | split | dsimp only

theorem view_commandSetpoint (d : Nat) (s : State) : view (commandSetpoint d s) = view s := by
  unfold commandSetpoint
  repeat' first
    | with_reducible first | rfl | refine (view_postNow ..).trans ?_ | apply view_ite
    | simp only [↓view_mk, view_eta] | split | dsimp only

theorem view_pulseEdge (d : Nat) (s : State) : view (pulseEdge d s) = view s := by
  unfold pulseEdge
  repeat' first
    | with_reducible first | rfl | refine (view_endRest ..).trans ?_ | refine (view_beginRest ..).trans ?_
    | with_reducible first | refine (view_postNow ..).trans ?_ | refine (view_modDrive ..).trans ?_ | apply view_ite
    | simp only [↓view_mk, view_eta] | split | dsimp only

theorem view_taperPost (d : Nat) (s : State) : view (taperPost d s) = view s := by
  unfold taperPost
  repeat' first
    | with_reducible first | rfl | refine (view_postNow ..).trans ?_ | apply view_ite
    | split | dsimp only

theorem view_loopTick (s : State) : view (loopTick s) = view s := by
  unfold loopTick
  repeat' first
    | with_reducible first | rfl | refine (view_commandSetpoint ..).trans ?_ | refine (view_commandProgram ..).trans ?_
    | with_reducible first | refine (view_shares ..).trans ?_ | refine (view_limiter ..).trans ?_ | refine (view_tickProgram ..).trans ?_
    | with_reducible first | refine (view_track ..).trans ?_ | refine (view_startProgram ..).trans ?_ | refine (view_endNow ..).trans ?_
    | with_reducible first | refine (view_modDrive ..).trans ?_ | apply view_ite | refine (view_forEach _ _ _ fun _ _ => ?_).trans ?_
    | simp only [↓view_mk, view_eta] | split | dsimp only

theorem view_sequencerPick (s : State) : view (sequencerPick s) = view s := by
  unfold sequencerPick
  repeat' first
    | with_reducible first | rfl | refine (view_taperPost ..).trans ?_ | refine (view_pulseEdge ..).trans ?_
    | with_reducible first | refine (view_rampStep ..).trans ?_ | refine (view_finishStop ..).trans ?_
    | with_reducible first | refine (view_forEach _ _ _ fun _ _ => ?_).trans ?_
    | dsimp only

theorem view_feedInrush (d : Nat) (m : Nat) (s : State) : view (feedInrush d m s) = view s := by
  unfold feedInrush
  repeat' first
    | with_reducible first | rfl | refine (view_dropSetpoint ..).trans ?_ | refine (view_endNow ..).trans ?_
    | with_reducible first | refine (view_modDrive ..).trans ?_ | apply view_ite
    | simp only [↓view_mk, view_eta] | split | dsimp only

theorem view_feedBlock (key : Nat) (at_ : Nat) (keep : Nat) (v : Int) (s : State) : view (feedBlock key at_ keep v s) = view s := by
  unfold feedBlock
  repeat' first
    | with_reducible first | rfl | apply view_ite
    | simp only [↓view_mk, view_eta] | split | dsimp only

theorem view_feedTherm (key : Nat) (x : Sample) (s : State) : view (feedTherm key x s) = view s := by
  unfold feedTherm
  repeat' first
    | with_reducible first | rfl | refine (view_feedBlock ..).trans ?_ | apply view_ite
    | simp only [↓view_mk, view_eta] | split | dsimp only

theorem view_searchGroup (k : Nat) (g : Group) (s : State) : view (searchGroup k g s) = view s := by
  unfold searchGroup
  repeat' first
    | with_reducible first | rfl | refine (view_raiseNow ..).trans ?_ | apply view_ite
    | simp only [↓view_mk, view_eta] | split | dsimp only

theorem view_endUsing (p : Nat) (cause : Nat) (s : State) : view (endUsing p cause s) = view s := by
  unfold endUsing
  repeat' first
    | with_reducible first | rfl | refine (view_endNow ..).trans ?_ | apply view_ite | refine (view_forEach _ _ _ fun _ _ => ?_).trans ?_
    | split | dsimp only

theorem view_offUsing (p : Nat) (cause : Nat) (s : State) : view (offUsing p cause s) = view s := by
  unfold offUsing
  repeat' first
    | with_reducible first | rfl | refine (view_endUsing ..).trans ?_ | refine (view_dropSetpoint ..).trans ?_ | apply view_ite
    | split | dsimp only

/-! ### Machine/Cascade.lean -/

theorem view_onSilent (p : Nat) (s : State) : view (onSilent p s) = view s := by
  unfold onSilent
  repeat' first
    | with_reducible first | rfl | refine (view_offUsing ..).trans ?_ | refine (view_cellOutage ..).trans ?_ | apply view_ite
    | split | dsimp only

theorem view_onIncarnation (p : Nat) (s : State) : view (onIncarnation p s) = view s := by
  unfold onIncarnation
  repeat' first
    | with_reducible first | rfl | refine (view_onSilent ..).trans ?_ | refine (view_disqualify ..).trans ?_
    | with_reducible first | refine (view_restartTag ..).trans ?_ | refine (view_markPosition ..).trans ?_
    | with_reducible first | refine (view_failInRun ..).trans ?_ | refine (view_modTagCal ..).trans ?_
    | simp only [↓view_mk, view_eta] | dsimp only

theorem view_onTagChange (p : Nat) (s : State) : view (onTagChange p s) = view s := by
  unfold onTagChange
  repeat' first
    | with_reducible first | rfl | refine (view_onSilent ..).trans ?_ | refine (view_disqualify ..).trans ?_
    | with_reducible first | refine (view_clearString ..).trans ?_ | refine (view_restartCells ..).trans ?_
    | with_reducible first | refine (view_restartTag ..).trans ?_ | refine (view_freshDiag ..).trans ?_
    | with_reducible first | refine (view_markPosition ..).trans ?_ | refine (view_failInRun ..).trans ?_
    | with_reducible first | refine (view_uncoverTag ..).trans ?_ | refine (view_raisePos ..).trans ?_ | apply view_ite
    | simp only [↓view_mk, view_eta] | split | dsimp only

theorem view_startUncopied (s : State) : view (startUncopied s) = view s := by
  unfold startUncopied
  repeat' first
    | with_reducible first | rfl | refine (view_restartString ..).trans ?_ | refine (view_restartCells ..).trans ?_
    | with_reducible first | refine (view_restartTag ..).trans ?_ | refine (view_modPair ..).trans ?_ | apply view_ite
    | with_reducible first | refine (view_forEach _ _ _ fun _ _ => ?_).trans ?_
    | simp only [↓view_mk, view_eta] | split | dsimp only

theorem view_onCoefficients (p : Nat) (s : State) : view (onCoefficients p s) = view s := by
  unfold onCoefficients
  repeat' first
    | with_reducible first | rfl | refine (view_formFactory ..).trans ?_
    | dsimp only

theorem view_onRelease (p : Nat) (s : State) : view (onRelease p s) = view s := by
  unfold onRelease
  repeat' first
    | with_reducible first | rfl | refine (view_startCells ..).trans ?_ | refine (view_modStr ..).trans ?_
    | with_reducible first | refine (view_modCell ..).trans ?_ | refine (view_modDiag ..).trans ?_ | refine (view_startTrackers ..).trans ?_
    | with_reducible first | apply view_ite | refine (view_forEach _ _ _ fun _ _ => ?_).trans ?_
    | simp only [↓view_mk, view_eta] | split | dsimp only

theorem view_onDither (p : Nat) (ok : Bool) (s : State) : view (onDither p ok s) = view s := by
  unfold onDither
  repeat' first
    | with_reducible first | rfl
    | simp only [↓view_mk, view_eta] | dsimp only

theorem view_onBlock (p : Nat) (fault : Bool) (s : State) : view (onBlock p fault s) = view s := by
  unfold onBlock
  repeat' first
    | with_reducible first | rfl | refine (view_tagCheck ..).trans ?_ | apply view_ite
    | split | dsimp only

/-! ### Machine/Bal.lean -/

theorem view_decideFrame (s : State) : view (decideFrame s) = view s := by
  unfold decideFrame
  repeat' first
    | with_reducible first | rfl | refine (view_placeQuiet ..).trans ?_ | refine (view_decideCell ..).trans ?_ | apply view_ite
    | with_reducible first | refine (view_forEach _ _ _ fun _ _ => ?_).trans ?_
    | simp only [↓view_mk, view_eta] | split | dsimp only

theorem view_execBalanceFrameBoundary (s : State) : Keeps (execBalanceFrameBoundary s) s := by
  unfold execBalanceFrameBoundary
  repeat' first
    | with_reducible first | rfl | refine (view_decideFrame ..).trans ?_ | apply keeps_next | apply view_ite
    | split | dsimp only

theorem view_execBalanceTtlExpiry (pos : Nat) (cell : Nat) (s : State) : Keeps (execBalanceTtlExpiry pos cell s) s := by
  unfold execBalanceTtlExpiry
  repeat' first
    | with_reducible first | rfl | refine (view_modCell ..).trans ?_ | apply keeps_onObject | apply view_ite
    | simp only [↓view_mk, view_eta] | split | dsimp only

theorem view_closeTest (p : Nat) (target : Nat) (why : TestWhy) (again : Bool) (s : State) :
    view (closeTest p target why again s) = view s := by
  unfold closeTest
  repeat' first
    | with_reducible first | rfl | refine (view_modDiag ..).trans ?_ | refine (view_finish ..).trans ?_ | apply view_ite
    | simp only [↓view_mk, view_eta] | split | dsimp only

theorem view_passTest (p : Nat) (tw : Nat) (target : Nat) (t : WireTest) (s : State) : view (passTest p tw target t s) = view s := by
  unfold passTest
  repeat' first
    | with_reducible first | rfl | refine (view_checkHighR ..).trans ?_ | refine (view_modDiag ..).trans ?_ | apply view_ite
    | simp only [↓view_mk, view_eta] | split | dsimp only

theorem view_openTest (p : Nat) (tw : Nat) (target : Nat) (t : WireTest) (s : State) : view (openTest p tw target t s) = view s := by
  unfold openTest
  repeat' first
    | with_reducible first | rfl | refine (view_modDiag ..).trans ?_ | apply view_ite
    | simp only [↓view_mk, view_eta] | split | dsimp only

theorem view_invalidTest (p : Nat) (target : Nat) (s : State) : view (invalidTest p target s) = view s := by
  unfold invalidTest
  repeat' first
    | with_reducible first | rfl | refine (view_setFault ..).trans ?_ | refine (view_modDiag ..).trans ?_ | apply view_ite
    | simp only [↓view_mk, view_eta] | split | dsimp only

theorem view_judgeTest (p : Nat) (tw : Nat) (target : Nat) (why : TestWhy) (t : WireTest) (s : State) :
    view (judgeTest p tw target why t s) = view s := by
  unfold judgeTest
  repeat' first
    | with_reducible first | rfl | refine (view_invalidTest ..).trans ?_ | refine (view_openTest ..).trans ?_
    | with_reducible first | refine (view_passTest ..).trans ?_ | refine (view_closeTest ..).trans ?_ | refine (view_setFault ..).trans ?_
    | with_reducible first | refine (view_modDiag ..).trans ?_ | apply view_ite
    | simp only [↓view_mk, view_eta] | split | dsimp only

theorem view_execOpenWireResult (pos : Nat) (start : Nat) (s : State) : Keeps (execOpenWireResult pos start s) s := by
  unfold execOpenWireResult
  repeat' first
    | with_reducible first | rfl | refine (view_judgeTest ..).trans ?_ | apply keeps_onObject | apply view_ite
    | simp only [↓view_mk, view_eta] | split | dsimp only

theorem view_execPassiveClassification (pos : Nat) (k : Nat) (s : State) : Keeps (execPassiveClassification pos k s) s := by
  unfold execPassiveClassification
  repeat' first
    | with_reducible first | rfl | refine (view_suspectWire ..).trans ?_ | refine (view_tagCheck ..).trans ?_
    | with_reducible first | refine (view_modDiag ..).trans ?_ | apply keeps_onObject | apply view_ite
    | with_reducible first | refine (view_forEach _ _ _ fun _ _ => ?_).trans ?_
    | simp only [↓view_mk, view_eta] | split | dsimp only

theorem view_actBalSet (r : Req) (s : State) (t : State) : view (actBalSet r s t).state = view t := by
  unfold actBalSet
  repeat' first
    | with_reducible first | rfl | refine (view_modCell ..).trans ?_ | apply rview_ite | refine (rview_now ..).trans ?_ | apply view_ite
    | with_reducible first | refine (view_forEach _ _ _ fun _ _ => ?_).trans ?_
    | simp only [↓view_mk, view_eta] | split | dsimp only

theorem view_execBalSet (r : Req) (s : State) : Keeps (execBalSet r s) s := by
  unfold execBalSet
  repeat' first
    | with_reducible first | rfl | refine (view_command _ _ _ _ fun _ => ?_).trans ?_ | apply keeps_next
    | exact view_actBalSet _ _ _ | dsimp only

theorem view_actBalStatus (r : Req) (x1 : State) (t : State) : view (actBalStatus r x1 t).state = view t := by
  unfold actBalStatus
  repeat' first
    | with_reducible first | rfl | refine (view_emitStatus ..).trans ?_ | refine (rview_now ..).trans ?_
    | dsimp only

theorem view_execBalStatus (r : Req) (s : State) : Keeps (execBalStatus r s) s := by
  unfold execBalStatus
  repeat' first
    | with_reducible first | rfl | refine (view_command _ _ _ _ fun _ => ?_).trans ?_ | apply keeps_next
    | exact view_actBalStatus _ _ _ | dsimp only

theorem view_actDiagOpenwire (r : Req) (s : State) (t : State) : view (actDiagOpenwire r s t).state = view t := by
  unfold actDiagOpenwire
  repeat' first
    | with_reducible first | rfl | refine (view_modDiag ..).trans ?_ | apply rview_ite | refine (rview_now ..).trans ?_
    | with_reducible first | refine (rview_long ..).trans ?_ | apply view_ite
    | simp only [↓view_mk, view_eta] | split | dsimp only

theorem view_execDiagOpenwire (r : Req) (s : State) : Keeps (execDiagOpenwire r s) s := by
  unfold execDiagOpenwire
  repeat' first
    | with_reducible first | rfl | refine (view_command _ _ _ _ fun _ => ?_).trans ?_ | apply keeps_next
    | exact view_actDiagOpenwire _ _ _ | dsimp only

theorem view_actDiagTag (r : Req) (s : State) (t : State) : view (actDiagTag r s t).state = view t := by
  unfold actDiagTag
  repeat' first
    | with_reducible first | rfl | refine (view_emitStatus ..).trans ?_ | refine (rview_now ..).trans ?_
    | dsimp only

theorem view_execDiagTag (r : Req) (s : State) : Keeps (execDiagTag r s) s := by
  unfold execDiagTag
  repeat' first
    | with_reducible first | rfl | refine (view_command _ _ _ _ fun _ => ?_).trans ?_ | apply keeps_next
    | exact view_actDiagTag _ _ _ | dsimp only

theorem view_actDiagReport (r : Req) (x1 : State) (t : State) : view (actDiagReport r x1 t).state = view t := by
  unfold actDiagReport
  repeat' first
    | with_reducible first | rfl | refine (view_emitStatus ..).trans ?_ | refine (rview_now ..).trans ?_
    | dsimp only

theorem view_execDiagReport (r : Req) (s : State) : Keeps (execDiagReport r s) s := by
  unfold execDiagReport
  repeat' first
    | with_reducible first | rfl | refine (view_command _ _ _ _ fun _ => ?_).trans ?_ | apply keeps_next
    | exact view_actDiagReport _ _ _ | dsimp only

/-! ### Machine/UnitOps.lean -/

theorem view_recordFence (cls : Nat) (u : Nat) (fkind : Nat) (result : Nat) (s : State) :
    view (recordFence cls u fkind result s) = view s := by
  unfold recordFence
  repeat' first
    | with_reducible first | rfl | refine (view_loseTile ..).trans ?_ | refine (view_reportLocal ..).trans ?_
    | with_reducible first | refine (view_raiseNow ..).trans ?_ | apply view_ite
    | simp only [↓view_mk, view_eta] | simp only [id] | split | dsimp only

theorem view_failService (cls : Nat) (u : Nat) (s : State) : view (failService cls u s) = view s := by
  unfold failService
  repeat' first
    | with_reducible first | rfl | refine (view_recordFence ..).trans ?_ | refine (view_setUnit ..).trans ?_
    | simp only [↓view_mk, view_eta] | dsimp only

theorem view_fenceTile (t : Nat) (s : State) : view (fenceTile t s) = view s := by
  unfold fenceTile
  repeat' first
    | with_reducible first | rfl | refine (view_offUsing ..).trans ?_ | refine (view_unitEvent ..).trans ?_
    | with_reducible first | refine (view_modPos ..).trans ?_ | apply view_ite | refine (view_forEach _ _ _ fun _ _ => ?_).trans ?_
    | simp only [↓view_mk, view_eta] | split | dsimp only

theorem view_useSpare (t : Nat) (u : Nat) (s : State) : view (useSpare t u s) = view s := by
  unfold useSpare
  repeat' first
    | with_reducible first | rfl | refine (view_setUnit ..).trans ?_
    | simp only [↓view_mk, view_eta] | dsimp only

theorem view_storeNvm (s : State) : view (storeNvm s) = view s := by
  unfold storeNvm
  split <;> rfl

theorem view_keepNvm (s : State) : view (keepNvm s) = view s := by
  unfold keepNvm
  split <;> rfl

theorem view_putSlot (b : Bool) (img : Option FwImage) (s : State) : view (putSlot b img s) = view s := by
  unfold putSlot
  repeat' first
    | with_reducible first | rfl | apply view_ite
    | simp only [↓view_mk, view_eta] | split | dsimp only

/-! ### Machine/Est.lean -/

theorem view_execEstimatorStep (chi : Nat) (j : Nat) (s : State) : Keeps (execEstimatorStep chi j s) s := by
  unfold execEstimatorStep
  repeat' first
    | with_reducible first | rfl | refine (view_stepString ..).trans ?_ | refine (view_stepCell ..).trans ?_ | apply keeps_onObject
    | with_reducible first | apply view_ite
    | split | dsimp only

theorem view_execSynthAnchorDue (chi : Nat) (s : State) : Keeps (execSynthAnchorDue chi s) s := by
  unfold execSynthAnchorDue
  repeat' first
    | with_reducible first | rfl | refine (view_applyAnchor ..).trans ?_ | refine (view_estEvent ..).trans ?_
    | with_reducible first | refine (view_putCell ..).trans ?_ | apply keeps_onObject | apply view_ite
    | with_reducible first | refine view_elim _ _ _ _ ?_ (fun _ => ?_)
    | simp only [↓view_mk, view_eta] | split | dsimp only

theorem view_execHibernateEntry (fn : Nat) (s : State) : Keeps (execHibernateEntry fn s) s := by
  unfold execHibernateEntry
  repeat' first
    | with_reducible first | rfl | refine (view_hibernate ..).trans ?_ | apply keeps_next | apply view_ite
    | split | dsimp only

theorem view_execAnchorPass (fn : Nat) (s : State) : Keeps (execAnchorPass fn s) s := by
  unfold execAnchorPass
  repeat' first
    | with_reducible first | rfl | refine (view_stepAll ..).trans ?_ | apply keeps_next | apply view_ite
    | split | dsimp only

theorem view_actEstRead (r : Req) (s0 : State) (t : State) : view (actEstRead r s0 t).state = view t := by
  unfold actEstRead
  repeat' first
    | with_reducible first | rfl | refine (view_estCommand ..).trans ?_ | refine (view_harvestOut ..).trans ?_ | apply rview_ite
    | with_reducible first | refine (rview_now ..).trans ?_ | apply view_ite
    | simp only [↓view_mk, view_eta] | split | dsimp only

theorem view_execEstRead (r : Req) (s : State) : Keeps (execEstRead r s) s := by
  unfold execEstRead
  repeat' first
    | with_reducible first | rfl | refine (view_command _ _ _ _ fun _ => ?_).trans ?_ | apply keeps_next
    | exact view_actEstRead _ _ _ | dsimp only

theorem view_actEstSave (r : Req) (x1 : State) (t : State) : view (actEstSave r x1 t).state = view t := by
  unfold actEstSave
  repeat' first
    | with_reducible first | rfl | refine (view_estCommand ..).trans ?_ | refine (view_harvestOut ..).trans ?_ | apply rview_ite
    | with_reducible first | refine (rview_now ..).trans ?_ | apply view_ite
    | split | dsimp only

theorem view_execEstSave (r : Req) (s : State) : Keeps (execEstSave r s) s := by
  unfold execEstSave
  repeat' first
    | with_reducible first | rfl | refine (view_command _ _ _ _ fun _ => ?_).trans ?_ | apply keeps_next
    | exact view_actEstSave _ _ _ | dsimp only

theorem view_actEstRestore (r : Req) (x1 : State) (t : State) : view (actEstRestore r x1 t).state = view t := by
  unfold actEstRestore
  repeat' first
    | with_reducible first | rfl | refine (view_estCommand ..).trans ?_ | apply rview_ite | refine (rview_later ..).trans ?_
    | with_reducible first | apply view_ite
    | simp only [↓view_mk, view_eta] | split | dsimp only

theorem view_execEstRestore (r : Req) (s : State) : Keeps (execEstRestore r s) s := by
  unfold execEstRestore
  repeat' first
    | with_reducible first | rfl | refine (view_command _ _ _ _ fun _ => ?_).trans ?_ | apply keeps_next
    | exact view_actEstRestore _ _ _ | dsimp only

theorem view_actEstConfig (r : Req) (x1 : State) (t : State) : view (actEstConfig r x1 t).state = view t := by
  unfold actEstConfig
  repeat' first
    | with_reducible first | rfl | refine (view_estCommand ..).trans ?_ | refine (view_putCell ..).trans ?_
    | with_reducible first | refine (view_modStr ..).trans ?_ | apply rview_ite | refine (rview_now ..).trans ?_ | apply view_ite
    | with_reducible first | refine (view_forEach _ _ _ fun _ _ => ?_).trans ?_
    | simp only [↓view_mk, view_eta] | split | dsimp only

theorem view_execEstConfig (r : Req) (s : State) : Keeps (execEstConfig r s) s := by
  unfold execEstConfig
  repeat' first
    | with_reducible first | rfl | refine (view_command _ _ _ _ fun _ => ?_).trans ?_ | apply keeps_next
    | exact view_actEstConfig _ _ _ | dsimp only

theorem view_actEstLearn (r : Req) (s0 : State) (t : State) : view (actEstLearn r s0 t).state = view t := by
  unfold actEstLearn
  repeat' first
    | with_reducible first | rfl | refine (view_estCommand ..).trans ?_ | refine (view_putCell ..).trans ?_
    | with_reducible first | refine (view_emitStatus ..).trans ?_ | apply rview_ite | refine (rview_now ..).trans ?_ | apply view_ite
    | with_reducible first | refine (view_forEach _ _ _ fun _ _ => ?_).trans ?_
    | simp only [↓view_mk, view_eta] | split | dsimp only

theorem view_execEstLearn (r : Req) (s : State) : Keeps (execEstLearn r s) s := by
  unfold execEstLearn
  repeat' first
    | with_reducible first | rfl | refine (view_command _ _ _ _ fun _ => ?_).trans ?_ | apply keeps_next
    | exact view_actEstLearn _ _ _ | dsimp only

theorem view_actEstReset (r : Req) (s0 : State) (t : State) : view (actEstReset r s0 t).state = view t := by
  unfold actEstReset
  repeat' first
    | with_reducible first | rfl | refine (view_estCommand ..).trans ?_ | refine (view_restartCell ..).trans ?_
    | with_reducible first | refine (view_putCell ..).trans ?_ | apply rview_ite | refine (rview_now ..).trans ?_ | apply view_ite
    | with_reducible first | refine (view_forEach _ _ _ fun _ _ => ?_).trans ?_
    | simp only [↓view_mk, view_eta] | split | dsimp only

theorem view_execEstReset (r : Req) (s : State) : Keeps (execEstReset r s) s := by
  unfold execEstReset
  repeat' first
    | with_reducible first | rfl | refine (view_command _ _ _ _ fun _ => ?_).trans ?_ | apply keeps_next
    | exact view_actEstReset _ _ _ | dsimp only

theorem view_actEstHibernate (r : Req) (x1 : State) (t : State) : view (actEstHibernate r x1 t).state = view t := by
  unfold actEstHibernate
  repeat' first
    | with_reducible first | rfl | refine (view_estCommand ..).trans ?_ | refine (view_modFn ..).trans ?_ | apply rview_ite
    | with_reducible first | refine (rview_now ..).trans ?_ | apply view_ite
    | simp only [↓view_mk, view_eta] | split | dsimp only

theorem view_execEstHibernate (r : Req) (s : State) : Keeps (execEstHibernate r s) s := by
  unfold execEstHibernate
  repeat' first
    | with_reducible first | rfl | refine (view_command _ _ _ _ fun _ => ?_).trans ?_ | apply keeps_next
    | exact view_actEstHibernate _ _ _ | dsimp only

/-! ### Machine/Chg.lean -/

theorem view_execLoopTick (s : State) : Keeps (execLoopTick s) s := by
  unfold execLoopTick
  repeat' first
    | with_reducible first | rfl | refine (view_loopTick ..).trans ?_ | refine (view_sendPair ..).trans ?_ | apply keeps_next
    | with_reducible first | apply view_ite
    | split | dsimp only

theorem view_execInrushWindowEnd (pos : Nat) (s : State) : Keeps (execInrushWindowEnd pos s) s := by
  unfold execInrushWindowEnd
  repeat' first
    | with_reducible first | rfl | refine (view_modDrive ..).trans ?_ | apply keeps_onObject | apply view_ite
    | simp only [↓view_mk, view_eta] | split | dsimp only

theorem view_execSetpointTtlExpiry (pos : Nat) (s : State) : Keeps (execSetpointTtlExpiry pos s) s := by
  unfold execSetpointTtlExpiry
  repeat' first
    | with_reducible first | rfl | refine (view_chgEvent ..).trans ?_ | refine (view_modDrive ..).trans ?_ | apply keeps_onObject
    | with_reducible first | apply view_ite
    | simp only [↓view_mk, view_eta] | split | dsimp only

theorem view_execGroupSearch (s : State) : Keeps (execGroupSearch s) s := by
  unfold execGroupSearch
  repeat' first
    | with_reducible first | rfl | refine (view_searchGroup ..).trans ?_ | apply keeps_next | apply view_ite
    | with_reducible first | refine (view_forEach _ _ _ fun _ _ => ?_).trans ?_
    | split | dsimp only

theorem view_execRelaxationSetComplete (pos : Nat) (s : State) : Keeps (execRelaxationSetComplete pos s) s := by
  unfold execRelaxationSetComplete
  repeat' first
    | with_reducible first | rfl | refine (view_chgEvent ..).trans ?_ | refine (view_modDrive ..).trans ?_ | apply keeps_onObject
    | with_reducible first | apply view_ite
    | simp only [↓view_mk, view_eta] | split | dsimp only

theorem view_execChargeSequencerSramError (pos : Nat) (s : State) : Keeps (execChargeSequencerSramError pos s) s := by
  unfold execChargeSequencerSramError
  repeat' first
    | with_reducible first | rfl | refine (view_endRamp ..).trans ?_ | apply keeps_onObject | apply view_ite
    | split | dsimp only

theorem view_actChgLoad (r : Req) (s : State) (t : State) : view (actChgLoad r s t).state = view t := by
  unfold actChgLoad
  repeat' first
    | with_reducible first | rfl | refine (view_groupChanged ..).trans ?_ | refine (view_modDrive ..).trans ?_
    | with_reducible first | refine (rview_now ..).trans ?_
    | simp only [↓view_mk, view_eta] | dsimp only

theorem view_execChgLoad (r : Req) (s : State) : Keeps (execChgLoad r s) s := by
  unfold execChgLoad
  repeat' first
    | with_reducible first | rfl | refine (view_command _ _ _ _ fun _ => ?_).trans ?_ | apply keeps_next
    | exact view_actChgLoad _ _ _ | dsimp only

theorem view_actChgStart (r : Req) (s : State) (t : State) : view (actChgStart r s t).state = view t := by
  unfold actChgStart
  repeat' first
    | with_reducible first | rfl | refine (view_modDrive ..).trans ?_ | apply rview_ite | refine (rview_now ..).trans ?_ | apply view_ite
    | simp only [↓view_mk, view_eta] | split | dsimp only

theorem view_execChgStart (r : Req) (s : State) : Keeps (execChgStart r s) s := by
  unfold execChgStart
  repeat' first
    | with_reducible first | rfl | refine (view_command _ _ _ _ fun _ => ?_).trans ?_ | apply keeps_next
    | exact view_actChgStart _ _ _ | dsimp only

theorem view_actChgStop (r : Req) (s : State) (t : State) : view (actChgStop r s t).state = view t := by
  unfold actChgStop
  repeat' first
    | with_reducible first | rfl | refine (view_endRamp ..).trans ?_ | refine (view_unloadProgram ..).trans ?_
    | with_reducible first | refine (view_groupChanged ..).trans ?_ | refine (view_modDrive ..).trans ?_ | apply rview_ite
    | with_reducible first | refine (rview_now ..).trans ?_ | refine (rview_long ..).trans ?_ | apply view_ite
    | simp only [↓view_mk, view_eta] | split | dsimp only

theorem view_execChgStop (r : Req) (s : State) : Keeps (execChgStop r s) s := by
  unfold execChgStop
  repeat' first
    | with_reducible first | rfl | refine (view_command _ _ _ _ fun _ => ?_).trans ?_ | apply keeps_next
    | exact view_actChgStop _ _ _ | dsimp only

theorem view_actChgStatus (r : Req) (s : State) (t : State) : view (actChgStatus r s t).state = view t := by
  unfold actChgStatus
  repeat' first
    | with_reducible first | rfl | refine (view_modDrive ..).trans ?_ | refine (view_emitStatus ..).trans ?_
    | with_reducible first | refine (view_emitBuffer ..).trans ?_ | apply rview_ite | refine (rview_now ..).trans ?_ | apply view_ite
    | simp only [↓view_mk, view_eta] | split | dsimp only

theorem view_execChgStatus (r : Req) (s : State) : Keeps (execChgStatus r s) s := by
  unfold execChgStatus
  repeat' first
    | with_reducible first | rfl | refine (view_command _ _ _ _ fun _ => ?_).trans ?_ | apply keeps_next
    | exact view_actChgStatus _ _ _ | dsimp only

theorem view_actChgGroup (r : Req) (s : State) (t : State) : view (actChgGroup r s t).state = view t := by
  unfold actChgGroup
  repeat' first
    | with_reducible first | rfl | refine (view_modDrive ..).trans ?_ | apply rview_ite | refine (rview_now ..).trans ?_ | apply view_ite
    | with_reducible first | refine (view_forEach _ _ _ fun _ _ => ?_).trans ?_
    | simp only [↓view_mk, view_eta] | split | dsimp only

theorem view_execChgGroup (r : Req) (s : State) : Keeps (execChgGroup r s) s := by
  unfold execChgGroup
  repeat' first
    | with_reducible first | rfl | refine (view_command _ _ _ _ fun _ => ?_).trans ?_ | apply keeps_next
    | exact view_actChgGroup _ _ _ | dsimp only

theorem view_actChgSetpoint (r : Req) (s : State) (t : State) : view (actChgSetpoint r s t).state = view t := by
  unfold actChgSetpoint
  repeat' first
    | with_reducible first | rfl | refine (view_postNext ..).trans ?_ | refine (view_modDrive ..).trans ?_ | apply rview_ite
    | with_reducible first | refine (rview_now ..).trans ?_ | apply view_ite
    | simp only [↓view_mk, view_eta] | split | dsimp only

theorem view_execChgSetpoint (r : Req) (s : State) : Keeps (execChgSetpoint r s) s := by
  unfold execChgSetpoint
  repeat' first
    | with_reducible first | rfl | refine (view_command _ _ _ _ fun _ => ?_).trans ?_ | apply keeps_next
    | exact view_actChgSetpoint _ _ _ | dsimp only

/-! ### Machine/Spec.lean -/

theorem view_execSpectralRound (round : Nat) (s : State) : Keeps (execSpectralRound round s) s := by
  unfold execSpectralRound
  repeat' first
    | with_reducible first | rfl | refine (view_runRound ..).trans ?_ | apply keeps_next | apply view_ite
    | simp only [↓view_mk, view_eta] | split | dsimp only

theorem view_actSpecConfig (r : Req) (x1 : State) (t : State) : view (actSpecConfig r x1 t).state = view t := by
  unfold actSpecConfig
  repeat' first
    | with_reducible first | rfl | refine (view_restartCtx ..).trans ?_ | apply rview_ite | refine (rview_now ..).trans ?_ | apply view_ite
    | with_reducible first | refine (view_forEach _ _ _ fun _ _ => ?_).trans ?_
    | simp only [↓view_mk, view_eta] | split | dsimp only

theorem view_execSpecConfig (r : Req) (s : State) : Keeps (execSpecConfig r s) s := by
  unfold execSpecConfig
  repeat' first
    | with_reducible first | rfl | refine (view_command _ _ _ _ fun _ => ?_).trans ?_ | apply keeps_next
    | exact view_actSpecConfig _ _ _ | dsimp only

theorem view_actSpecFocus (r : Req) (s : State) (t : State) : view (actSpecFocus r s t).state = view t := by
  unfold actSpecFocus
  repeat' first
    | with_reducible first | rfl | refine (rview_now ..).trans ?_
    | simp only [↓view_mk, view_eta] | simp only [id] | dsimp only

theorem view_execSpecFocus (r : Req) (s : State) : Keeps (execSpecFocus r s) s := by
  unfold execSpecFocus
  repeat' first
    | with_reducible first | rfl | refine (view_command _ _ _ _ fun _ => ?_).trans ?_ | apply keeps_next
    | exact view_actSpecFocus _ _ _ | dsimp only

theorem view_actSpecHarvest (r : Req) (s0 : State) (t : State) : view (actSpecHarvest r s0 t).state = view t := by
  unfold actSpecHarvest
  repeat' first
    | with_reducible first | rfl | refine (view_modCtx ..).trans ?_ | refine (view_harvestOut ..).trans ?_
    | with_reducible first | refine (view_complete ..).trans ?_ | apply rview_ite | refine (rview_now ..).trans ?_ | apply view_ite
    | with_reducible first | refine (view_forEach _ _ _ fun _ _ => ?_).trans ?_ | refine view_elim _ _ _ _ ?_ (fun _ => ?_)
    | simp only [↓view_mk, view_eta] | simp only [id] | split | dsimp only

theorem view_execSpecHarvest (r : Req) (s : State) : Keeps (execSpecHarvest r s) s := by
  unfold execSpecHarvest
  repeat' first
    | with_reducible first | rfl | refine (view_command _ _ _ _ fun _ => ?_).trans ?_ | apply keeps_next
    | exact view_actSpecHarvest _ _ _ | dsimp only

theorem view_ditherOff (p : Nat) (s : State) : view (ditherOff p s) = view s := by
  unfold ditherOff
  repeat' first
    | with_reducible first | rfl | refine (view_modPos ..).trans ?_
    | simp only [↓view_mk, view_eta] | dsimp only

theorem view_actSpecDither (r : Req) (x1 : State) (t : State) : view (actSpecDither r x1 t).state = view t := by
  unfold actSpecDither
  repeat' first
    | with_reducible first | rfl | refine (view_ditherOff ..).trans ?_ | refine (view_modPos ..).trans ?_ | apply rview_ite
    | with_reducible first | refine (rview_now ..).trans ?_ | refine (rview_long ..).trans ?_ | apply view_ite
    | simp only [↓view_mk, view_eta] | split | dsimp only

theorem view_execSpecDither (r : Req) (s : State) : Keeps (execSpecDither r s) s := by
  unfold execSpecDither
  repeat' first
    | with_reducible first | rfl | refine (view_command _ _ _ _ fun _ => ?_).trans ?_ | apply keeps_next
    | exact view_actSpecDither _ _ _ | dsimp only

theorem view_actSpecStop (r : Req) (x1 : State) (t : State) : view (actSpecStop r x1 t).state = view t := by
  unfold actSpecStop
  repeat' first
    | with_reducible first | rfl | refine (view_restartCtx ..).trans ?_ | refine (view_complete ..).trans ?_ | apply rview_ite
    | with_reducible first | refine (rview_now ..).trans ?_ | apply view_ite | refine (view_forEach _ _ _ fun _ _ => ?_).trans ?_
    | with_reducible first | refine view_elim _ _ _ _ ?_ (fun _ => ?_)
    | simp only [↓view_mk, view_eta] | split | dsimp only

theorem view_execSpecStop (r : Req) (s : State) : Keeps (execSpecStop r s) s := by
  unfold execSpecStop
  repeat' first
    | with_reducible first | rfl | refine (view_command _ _ _ _ fun _ => ?_).trans ?_ | apply keeps_next
    | exact view_actSpecStop _ _ _ | dsimp only

/-! ### Machine/Safe.lean -/

theorem view_execSafeRstNPulse (lowMs : Nat) (s : State) : Keeps (execSafeRstNPulse lowMs s) s := by
  unfold execSafeRstNPulse
  repeat' first
    | with_reducible first | rfl | refine (view_modSafe _ _ fun _ => ?_).trans ?_ | refine (view_raiseNow ..).trans ?_ | apply keeps_next
    | with_reducible first | apply view_ite
    | exact ⟨rfl, rfl, rfl⟩ | simp only [↓view_mk, view_eta] | split | dsimp only

theorem view_execAckWindowExpiry (s : State) : Keeps (execAckWindowExpiry s) s := by
  unfold execAckWindowExpiry
  repeat' first
    | with_reducible first | rfl | refine (view_modSafe _ _ fun _ => ?_).trans ?_ | apply keeps_next | apply view_ite
    | with_reducible first | refine view_elim _ _ _ _ ?_ (fun _ => ?_)
    | exact ⟨rfl, rfl, rfl⟩ | simp only [↓view_mk, view_eta] | split | dsimp only

theorem view_recogniseIn (k : Nat) (s : State) : view (recogniseIn k s) = view s := by
  unfold recogniseIn
  repeat' first
    | with_reducible first | rfl | refine (view_modSafe _ _ fun _ => ?_).trans ?_ | refine (view_raiseNow ..).trans ?_ | apply view_ite
    | exact ⟨rfl, rfl, rfl⟩ | simp only [↓view_mk, view_eta] | split | dsimp only

theorem view_execSafeInDemand (k : Nat) (a : Bool) (b : Bool) (s : State) : Keeps (execSafeInDemand k a b s) s := by
  unfold execSafeInDemand
  repeat' first
    | with_reducible first | rfl | refine (view_recogniseIn ..).trans ?_ | refine (view_modSafe _ _ fun _ => ?_).trans ?_
    | with_reducible first | apply keeps_onObject | apply view_ite
    | exact ⟨rfl, rfl, rfl⟩ | simp only [↓view_mk, view_eta] | split | dsimp only

theorem view_execSafeInRelease (k : Nat) (s : State) : Keeps (execSafeInRelease k s) s := by
  unfold execSafeInRelease
  repeat' first
    | with_reducible first | rfl | refine (view_modSafe _ _ fun _ => ?_).trans ?_ | apply keeps_onObject | apply view_ite
    | exact ⟨rfl, rfl, rfl⟩ | simp only [↓view_mk, view_eta] | split | dsimp only

theorem view_execBlindTimeout (chi : Nat) (s : State) : Keeps (execBlindTimeout chi s) s := by
  unfold execBlindTimeout
  repeat' first
    | with_reducible first | rfl | refine (view_sweepUnmeasured ..).trans ?_ | refine (view_doTrip ..).trans ?_ | apply keeps_onObject
    | with_reducible first | apply view_ite | refine view_elim _ _ _ _ ?_ (fun _ => ?_)
    | simp only [↓view_mk, view_eta] | split | dsimp only

theorem view_applyChange (c : CfgChange) (s : State) : view (applyChange c s) = view s := by
  unfold applyChange
  repeat' first
    | with_reducible first | rfl | refine (view_recogniseIn ..).trans ?_ | refine (view_modSafe _ _ fun _ => ?_).trans ?_ | apply view_ite
    | with_reducible first | refine (view_forEach _ _ _ fun _ _ => ?_).trans ?_
    | exact ⟨rfl, rfl, rfl⟩ | simp only [↓view_mk, view_eta] | split | dsimp only

theorem view_startCover (before : List Nat) (armed : Option Nat) (b : Nat) (s : State) : view (startCover before armed b s) = view s := by
  unfold startCover
  repeat' first
    | with_reducible first | rfl | refine (view_modSafe _ _ fun _ => ?_).trans ?_
    | exact ⟨rfl, rfl, rfl⟩ | simp only [↓view_mk, view_eta] | dsimp only

theorem view_flipChange (c : CfgPending) (s : State) : view (flipChange c s) = view s := by
  unfold flipChange
  repeat' first
    | with_reducible first | rfl | refine (view_startCover ..).trans ?_ | refine (view_applyChange ..).trans ?_
    | with_reducible first | refine (view_finishOn ..).trans ?_ | refine (view_raise ..).trans ?_ | apply view_ite
    | simp only [↓view_mk, view_eta] | split | dsimp only

theorem view_execSafetyConfigFlip (s : State) : Keeps (execSafetyConfigFlip s) s := by
  unfold execSafetyConfigFlip
  repeat' first
    | with_reducible first | rfl | refine (view_flipChange ..).trans ?_ | refine (view_sweepUnmeasured ..).trans ?_
    | with_reducible first | refine (view_modSafe _ _ fun _ => ?_).trans ?_ | apply keeps_next | apply view_ite
    | with_reducible first | refine (view_forEach _ _ _ fun _ _ => ?_).trans ?_
    | exact ⟨rfl, rfl, rfl⟩ | simp only [↓view_mk, view_eta] | split | dsimp only

theorem view_execPasswordSuspensionEnd (s : State) : Keeps (execPasswordSuspensionEnd s) s := by
  unfold execPasswordSuspensionEnd
  repeat' first
    | with_reducible first | rfl | refine (view_modSafe _ _ fun _ => ?_).trans ?_ | apply keeps_next | apply view_ite
    | with_reducible first | refine view_elim _ _ _ _ ?_ (fun _ => ?_)
    | exact ⟨rfl, rfl, rfl⟩ | simp only [↓view_mk, view_eta] | split | dsimp only

/-! ### Machine/SafeCmd.lean -/

theorem view_pwWrong (s : State) : view (pwWrong s) = view s := by
  unfold pwWrong
  repeat' first
    | with_reducible first | rfl | refine (view_logChange ..).trans ?_ | refine (view_modSafe _ _ fun _ => ?_).trans ?_ | apply view_ite
    | exact ⟨rfl, rfl, rfl⟩ | simp only [↓view_mk, view_eta] | split | dsimp only

/-- What a password check and the command keep, a command with a password keeps. -/
theorem pwCommand_keeps (P : State → Prop) (hP : ∀ a b, view a = view b → P b → P a) (k : Checks) (r : Req) (s : State)
    (act : State → Reply) (h : ∀ t, P t → P (act t).state) (hs : P s) : P (pwCommand k r s act) := by
  unfold pwCommand
  extract_lets route st s1
  have h1 : P s1 := by
    refine hP _ s ?_ hs
    refine view_ite _ _ _ _ (view_pwWrong ..) (view_ite _ _ _ _ ?_ rfl)
    exact view_modSafe _ _ fun _ => ⟨rfl, rfl, rfl⟩
  split
  · exact command_keeps P hP k r s act h hs
  · exact command_keeps P hP k r s1 act h h1

theorem view_pwCommand (k : Checks) (r : Req) (s : State) (act : State → Reply) (h : ∀ t, view (act t).state = view t) :
    view (pwCommand k r s act) = view s :=
  pwCommand_keeps (fun t => view t = view s) (fun _ _ e h => e.trans h) k r s act (fun t ht => (h t).trans ht) rfl

theorem view_acceptChange (r : Req) (kind : Nat) (wset : Nat) (detail : List Word) (c : CfgChange) (s : State) :
    view (acceptChange r kind wset detail c s).2 = view s := by
  unfold acceptChange
  repeat' first
    | with_reducible first | rfl | refine (view_logChange ..).trans ?_ | refine (view_modSafe _ _ fun _ => ?_).trans ?_
    | exact ⟨rfl, rfl, rfl⟩ | simp only [↓view_mk, view_eta] | dsimp only

theorem view_actSafeConfig (r : Req) (s : State) (t : State) : view (actSafeConfig r s t).state = view t := by
  unfold actSafeConfig
  repeat' first
    | with_reducible first | rfl | refine (view_acceptChange ..).trans ?_ | refine (rview_now ..).trans ?_ | refine (rview_long ..).trans ?_
    | simp only [↓view_mk, view_eta] | split | dsimp only

theorem view_execSafeConfig (r : Req) (s : State) : Keeps (execSafeConfig r s) s := by
  unfold execSafeConfig
  repeat' first
    | with_reducible first | rfl | refine (view_pwCommand _ _ _ _ fun _ => ?_).trans ?_ | apply keeps_next
    | exact view_actSafeConfig _ _ _ | dsimp only

theorem view_actSafeArm (r : Req) (x1 : State) (t : State) : view (actSafeArm r x1 t).state = view t := by
  unfold actSafeArm
  repeat' first
    | with_reducible first | rfl | refine (view_acceptChange ..).trans ?_ | apply rview_ite | refine (rview_long ..).trans ?_
    | with_reducible first | apply view_ite
    | split | dsimp only

theorem view_execSafeArm (r : Req) (s : State) : Keeps (execSafeArm r s) s := by
  unfold execSafeArm
  repeat' first
    | with_reducible first | rfl | refine (view_pwCommand _ _ _ _ fun _ => ?_).trans ?_ | refine (view_command _ _ _ _ fun _ => ?_).trans ?_
    | with_reducible first | apply keeps_next | apply view_ite
    | exact view_actSafeArm _ _ _ | split | dsimp only

theorem view_actSafeStatus (r : Req) (x1 : State) (t : State) : view (actSafeStatus r x1 t).state = view t := by
  unfold actSafeStatus
  repeat' first
    | with_reducible first | rfl | refine (view_modSafe _ _ fun _ => ?_).trans ?_ | refine (view_emitStatus ..).trans ?_
    | with_reducible first | refine (view_harvestOut ..).trans ?_ | apply rview_ite | refine (rview_now ..).trans ?_ | apply view_ite
    | exact ⟨rfl, rfl, rfl⟩ | simp only [↓view_mk, view_eta] | split | dsimp only

theorem view_execSafeStatus (r : Req) (s : State) : Keeps (execSafeStatus r s) s := by
  unfold execSafeStatus
  repeat' first
    | with_reducible first | rfl | refine (view_command _ _ _ _ fun _ => ?_).trans ?_ | apply keeps_next
    | exact view_actSafeStatus _ _ _ | dsimp only

theorem view_actSafeAck (r : Req) (s : State) (t : State) : view (actSafeAck r s t).state = view t := by
  unfold actSafeAck
  repeat' first
    | with_reducible first | rfl | refine (view_modSafe _ _ fun _ => ?_).trans ?_ | refine (rview_now ..).trans ?_
    | with_reducible first | refine (rview_later ..).trans ?_
    | exact ⟨rfl, rfl, rfl⟩ | simp only [↓view_mk, view_eta] | simp only [id] | split | dsimp only

theorem view_execSafeAck (r : Req) (s : State) : Keeps (execSafeAck r s) s := by
  unfold execSafeAck
  repeat' first
    | with_reducible first | rfl | refine (view_command _ _ _ _ fun _ => ?_).trans ?_ | apply keeps_next
    | exact view_actSafeAck _ _ _ | dsimp only

theorem view_actSafeLog (r : Req) (x1 : State) (t : State) : view (actSafeLog r x1 t).state = view t := by
  unfold actSafeLog
  repeat' first
    | with_reducible first | rfl | refine (view_logChange ..).trans ?_ | refine (view_modSafe _ _ fun _ => ?_).trans ?_
    | with_reducible first | refine (view_emitStatus ..).trans ?_ | apply rview_ite | refine (rview_now ..).trans ?_ | apply view_ite
    | exact ⟨rfl, rfl, rfl⟩ | simp only [↓view_mk, view_eta] | split | dsimp only

theorem view_execSafeLog (r : Req) (s : State) : Keeps (execSafeLog r s) s := by
  unfold execSafeLog
  repeat' first
    | with_reducible first | rfl | refine (view_pwCommand _ _ _ _ fun _ => ?_).trans ?_ | refine (view_command _ _ _ _ fun _ => ?_).trans ?_
    | with_reducible first | apply keeps_next | apply view_ite
    | exact view_actSafeLog _ _ _ | split | dsimp only

theorem view_actSafeTighten (r : Req) (s : State) (t : State) : view (actSafeTighten r s t).state = view t := by
  unfold actSafeTighten
  repeat' first
    | with_reducible first | rfl | refine (view_acceptChange ..).trans ?_ | refine (view_modSafe _ _ fun _ => ?_).trans ?_ | apply rview_ite
    | with_reducible first | refine (rview_now ..).trans ?_ | refine (rview_long ..).trans ?_ | apply view_ite
    | exact ⟨rfl, rfl, rfl⟩ | simp only [↓view_mk, view_eta] | split | dsimp only

theorem view_execSafeTighten (r : Req) (s : State) : Keeps (execSafeTighten r s) s := by
  unfold execSafeTighten
  repeat' first
    | with_reducible first | rfl | refine (view_command _ _ _ _ fun _ => ?_).trans ?_ | apply keeps_next
    | exact view_actSafeTighten _ _ _ | dsimp only

end Sys2Proof.Machine
end

