-- ==== Sys2Proof/Laws/ViewRows.lean ====
section
/-! SUPPORT. What keeps the view: tenancy, chains, lanes, heat, rings, bring-up, calibration, maps, the pair, packets, the Loom and registers. Each lemma says it of one operation or row. -/

set_option linter.unusedSimpArgs false
set_option linter.unusedVariables false

namespace Sys2Proof.Machine

/-! ### Machine/TenOps.lean -/

theorem view_modTen (f : TenUnit → TenUnit) (s : State) : view (modTen f s) = view s := by
  unfold modTen
  repeat' first
    | with_reducible first | rfl
    | simp only [↓view_mk, view_eta] | dsimp only

theorem view_modTenant (t : Nat) (f : Tenant → Tenant) (s : State) : view (modTenant t f s) = view s := by
  unfold modTenant
  repeat' first
    | with_reducible first | rfl | refine (view_modTen ..).trans ?_
    | simp only [↓view_mk, view_eta] | dsimp only

theorem view_endProgram (d : Nat) (s : State) : view (endProgram d s) = view s := by
  unfold endProgram
  repeat' first
    | with_reducible first | rfl | refine (view_endRamp ..).trans ?_ | refine (view_unloadProgram ..).trans ?_
    | with_reducible first | refine (view_groupChanged ..).trans ?_ | refine (view_modDrive ..).trans ?_ | apply view_ite
    | simp only [↓view_mk, view_eta] | split | dsimp only

theorem view_endSetpoint (d : Nat) (s : State) : view (endSetpoint d s) = view s := by
  unfold endSetpoint
  repeat' first
    | with_reducible first | rfl | refine (view_modDrive ..).trans ?_ | apply view_ite
    | simp only [↓view_mk, view_eta] | split | dsimp only

theorem view_dropDithers (c : Nat) (s : State) : view (dropDithers c s) = view s := by
  unfold dropDithers
  repeat' first
    | with_reducible first | rfl | refine (view_ditherOff ..).trans ?_ | refine (view_forEach _ _ _ fun _ _ => ?_).trans ?_
    | dsimp only

theorem view_resetLimits (c : Nat) (s : State) : view (resetLimits c s) = view s := by
  unfold resetLimits
  repeat' first
    | with_reducible first | rfl | refine (view_modChainCal ..).trans ?_ | apply view_ite
    | simp only [↓view_mk, view_eta] | split | dsimp only

theorem view_leaveWindows (fn : Nat) (c : Nat) (g : Nat) (s : State) : view (leaveWindows fn c g s) = view s := by
  unfold leaveWindows
  repeat' first
    | with_reducible first | rfl | apply view_ite
    | simp only [↓view_mk, view_eta] | split | dsimp only

theorem view_resetTrackers (c : Nat) (g : Nat) (s : State) : view (resetTrackers c g s) = view s := by
  unfold resetTrackers
  repeat' first
    | with_reducible first | rfl | refine (view_State_reset ..).trans ?_ | apply view_ite
    | simp only [↓view_mk, view_eta] | split | dsimp only

theorem view_restartChain (c : Nat) (s : State) : view (restartChain c s) = view s := by
  unfold restartChain
  repeat' first
    | with_reducible first | rfl | refine (view_restartString ..).trans ?_ | refine (view_restartCells ..).trans ?_
    | with_reducible first | refine (view_cutTag ..).trans ?_ | apply view_ite | refine (view_forEach _ _ _ fun _ _ => ?_).trans ?_
    | simp only [↓view_mk, view_eta] | split | dsimp only

theorem view_leaveChain (c : Nat) (fn : Nat) (g : Nat) (s : State) : view (leaveChain c fn g s) = view s := by
  unfold leaveChain
  repeat' first
    | with_reducible first | rfl | refine (view_restartChain ..).trans ?_ | refine (view_resetTrackers ..).trans ?_
    | with_reducible first | refine (view_leaveWindows ..).trans ?_ | refine (view_resetLimits ..).trans ?_
    | with_reducible first | refine (view_dropDithers ..).trans ?_ | refine (view_endSetpoint ..).trans ?_
    | with_reducible first | refine (view_endProgram ..).trans ?_ | refine (view_resetBalancing ..).trans ?_
    | with_reducible first | refine (view_abortRuns ..).trans ?_ | refine (view_endProc ..).trans ?_
    | with_reducible first | refine (view_forEach _ _ _ fun _ _ => ?_).trans ?_
    | simp only [↓view_mk, view_eta] | dsimp only

theorem view_passChain (c : Nat) (f : Nat) (g : Nat) (s : State) : view (passChain c f g s) = view s := by
  unfold passChain
  repeat' first
    | with_reducible first | rfl | refine (view_leaveChain ..).trans ?_ | refine (view_modTen ..).trans ?_
    | with_reducible first | refine (view_modChainCal ..).trans ?_ | apply view_ite
    | simp only [↓view_mk, view_eta] | split | dsimp only

theorem view_startTenantReset (t : Nat) (cause : Nat) (cmd : Option CmdRef) (s : State) :
    view (startTenantReset t cause cmd s) = view s := by
  unfold startTenantReset
  repeat' first
    | with_reducible first | rfl | refine (view_modTenant ..).trans ?_ | refine (view_State_reset ..).trans ?_ | apply view_ite
    | simp only [↓view_mk, view_eta] | split | dsimp only

theorem view_resetDisabled (s : State) : view (resetDisabled s) = view s := by
  unfold resetDisabled
  repeat' first
    | with_reducible first | rfl | refine (view_startTenantReset ..).trans ?_ | refine (view_forEach _ _ _ fun _ _ => ?_).trans ?_
    | dsimp only

theorem view_abortCommand (ref : CmdRef) (accept : Nat) (s : State) : view (abortCommand ref accept s) = view s := by
  unfold abortCommand
  repeat' first
    | with_reducible first | rfl | refine (view_writeCompletion ..).trans ?_ | apply view_ite
    | split | dsimp only

theorem view_clearTransport (fn : Nat) (s : State) : view (clearTransport fn s) = view s := by
  unfold clearTransport
  repeat' first
    | with_reducible first | rfl
    | simp only [↓view_mk, view_eta] | dsimp only

theorem view_clearQueue (fn : Nat) (s : State) : view (clearQueue fn s) = view s := by
  unfold clearQueue
  repeat' first
    | with_reducible first | rfl | refine (view_modTen ..).trans ?_
    | simp only [↓view_mk, view_eta] | dsimp only

theorem view_clearTables (t : Nat) (s : State) : view (clearTables t s) = view s := by
  unfold clearTables
  repeat' first
    | with_reducible first | rfl | refine (view_modTen ..).trans ?_
    | simp only [↓view_mk, view_eta] | dsimp only

theorem view_endTenantWork (t : Nat) (s : State) : view (endTenantWork t s) = view s := by
  unfold endTenantWork
  repeat' first
    | with_reducible first | rfl | refine (view_resetLimits ..).trans ?_ | refine (view_dropDithers ..).trans ?_
    | with_reducible first | refine (view_endSetpoint ..).trans ?_ | refine (view_endProgram ..).trans ?_ | refine (view_wakeFn ..).trans ?_
    | with_reducible first | refine (view_resetBalancing ..).trans ?_ | refine (view_abortRuns ..).trans ?_
    | with_reducible first | refine (view_endProc ..).trans ?_ | refine (view_forEach _ _ _ fun _ _ => ?_).trans ?_
    | simp only [↓view_mk, view_eta] | dsimp only

theorem view_effectReset (t : Nat) (x : TenReset) (s : State) : view (effectReset t x s) = view s := by
  unfold effectReset
  repeat' first
    | with_reducible first | rfl | refine (view_endTenantWork ..).trans ?_ | refine (view_clearTables ..).trans ?_
    | with_reducible first | refine (view_clearQueue ..).trans ?_ | refine (view_clearTransport ..).trans ?_
    | with_reducible first | refine (view_abortCommand ..).trans ?_ | refine (view_modTenant ..).trans ?_
    | with_reducible first | refine (view_State_reset ..).trans ?_ | apply view_ite | refine (view_forEach _ _ _ fun _ _ => ?_).trans ?_
    | simp only [↓view_mk, view_eta] | split | dsimp only

theorem view_completeReset (t : Nat) (x : TenReset) (s : State) : view (completeReset t x s) = view s := by
  unfold completeReset
  repeat' first
    | with_reducible first | rfl | refine (view_passChain ..).trans ?_ | refine (view_modTenant ..).trans ?_
    | with_reducible first | refine (view_modTen ..).trans ?_ | refine (view_completeDeferred ..).trans ?_
    | with_reducible first | refine (view_finish ..).trans ?_ | refine (view_raiseNow ..).trans ?_ | refine (view_State_reset ..).trans ?_
    | with_reducible first | apply view_ite | refine (view_forEach _ _ _ fun _ _ => ?_).trans ?_
    | simp only [↓view_mk, view_eta] | split | dsimp only

theorem view_deliverMail (e : EvRec) (s : State) : view (deliverMail e s) = view s := by
  unfold deliverMail
  repeat' first
    | with_reducible first | rfl | refine (view_modTen ..).trans ?_ | apply view_ite
    | simp only [↓view_mk, view_eta] | split | dsimp only

theorem view_writeEvent (fn : Nat) (s : State) : view (writeEvent fn s) = view s := by
  unfold writeEvent
  repeat' first
    | with_reducible first | rfl | refine (view_deliverMail ..).trans ?_ | refine (view_modTen ..).trans ?_
    | with_reducible first | refine (view_signal ..).trans ?_ | apply view_ite
    | simp only [↓view_mk, view_eta] | split | dsimp only

theorem view_writePlanned (s : State) : view (writePlanned s) = view s := by
  unfold writePlanned
  repeat' first
    | with_reducible first | rfl | refine (view_writeEvent ..).trans ?_ | refine (view_modTen ..).trans ?_
    | with_reducible first | refine (view_forEach _ _ _ fun _ _ => ?_).trans ?_
    | simp only [↓view_mk, view_eta] | dsimp only

theorem view_eventRound (s : State) : view (eventRound s) = view s := by
  unfold eventRound
  repeat' first
    | with_reducible first | rfl | refine (view_writePlanned ..).trans ?_ | refine (view_modTen ..).trans ?_
    | simp only [↓view_mk, view_eta] | dsimp only

/-! ### Machine/Chain.lean -/

theorem view_writeEntry (p : Nat) (e : BoltEntry) (s : State) : view (writeEntry p e s) = view s := by
  unfold writeEntry
  repeat' first
    | with_reducible first | rfl | apply view_ite
    | simp only [↓view_mk, view_eta] | split | dsimp only

theorem view_discardFill (p : Nat) (s : State) : view (discardFill p s) = view s := by
  unfold discardFill
  repeat' first
    | with_reducible first | rfl
    | simp only [↓view_mk, view_eta] | dsimp only

theorem view_fillEntry (p : Nat) (e : BoltEntry) (s : State) : view (fillEntry p e s) = view s := by
  unfold fillEntry
  repeat' first
    | with_reducible first | rfl | refine (view_discardFill ..).trans ?_ | refine (view_modPos ..).trans ?_ | apply view_ite
    | simp only [↓view_mk, view_eta] | split | dsimp only

theorem view_gapEntry (p : Nat) (d : Nat) (s : State) : view (gapEntry p d s) = view s := by
  unfold gapEntry
  repeat' first
    | with_reducible first | rfl | refine (view_modPos ..).trans ?_ | refine (view_reportLocal ..).trans ?_ | apply view_ite
    | simp only [↓view_mk, view_eta] | simp only [id] | split | dsimp only

theorem view_muteEntry (p : Nat) (d : Nat) (s : State) : view (muteEntry p d s) = view s := by
  unfold muteEntry
  repeat' first
    | with_reducible first | rfl | apply view_ite
    | simp only [↓view_mk, view_eta] | split | dsimp only

theorem view_missBlock (fp : Nat) (p : Nat) (s : State) : view (missBlock fp p s) = view s := by
  unfold missBlock
  repeat' first
    | with_reducible first | rfl | refine (view_writeEntry ..).trans ?_ | refine (view_modPos ..).trans ?_
    | with_reducible first | refine (view_modChain ..).trans ?_ | apply view_ite
    | simp only [↓view_mk, view_eta] | split | dsimp only

theorem view_newIncarnation (fp : Nat) (p : Nat) (inc : Option Nat) (s : State) : view (newIncarnation fp p inc s) = view s := by
  unfold newIncarnation
  repeat' first
    | with_reducible first | rfl | refine (view_muteEntry ..).trans ?_ | refine (view_onIncarnation ..).trans ?_
    | with_reducible first | refine (view_posEvent ..).trans ?_ | refine (view_noteRing ..).trans ?_ | refine (view_modPos ..).trans ?_
    | with_reducible first | refine view_elim _ _ _ _ ?_ (fun _ => ?_)
    | simp only [↓view_mk, view_eta] | dsimp only

theorem view_liveBlock (fp : Nat) (p : Nat) (b : BitVec 544) (s : State) : view (liveBlock fp p b s) = view s := by
  unfold liveBlock
  repeat' first
    | with_reducible first | rfl | refine (view_newIncarnation ..).trans ?_ | refine (view_writeEntry ..).trans ?_
    | with_reducible first | refine (view_onBlock ..).trans ?_ | refine (view_modPos ..).trans ?_ | apply view_ite
    | simp only [↓view_mk, view_eta] | split | dsimp only

theorem view_fileBlock (fp : Nat) (p : Nat) (b : BitVec 544) (s : State) : view (fileBlock fp p b s) = view s := by
  unfold fileBlock
  repeat' first
    | with_reducible first | rfl | refine (view_liveBlock ..).trans ?_ | refine (view_missBlock ..).trans ?_ | apply view_ite
    | split | dsimp only

theorem view_fileResend (c : Nat) (q : Nat × Nat) (b : BitVec 544) (s : State) : view (fileResend c q b s) = view s := by
  unfold fileResend
  repeat' first
    | with_reducible first | rfl | refine (view_gapEntry ..).trans ?_ | refine (view_fillEntry ..).trans ?_
    | with_reducible first | refine (view_modPos ..).trans ?_ | refine (view_modChain ..).trans ?_ | apply view_ite
    | simp only [↓view_mk, view_eta] | split | dsimp only

theorem view_askResends (c : Nat) (s : State) : view (askResends c s) = view s := by
  unfold askResends
  repeat' first
    | with_reducible first | rfl | refine (view_modChain ..).trans ?_ | apply view_ite
    | simp only [↓view_mk, view_eta] | split | dsimp only

theorem view_findBreak (c : Nat) (s : State) : view (findBreak c s) = view s := by
  unfold findBreak
  repeat' first
    | with_reducible first | rfl | refine (view_ringEvent ..).trans ?_ | refine (view_moveSplit ..).trans ?_
    | with_reducible first | refine (view_modChain ..).trans ?_
    | simp only [↓view_mk, view_eta] | split | dsimp only

theorem view_receiveFrame (f0 : ChainFrame) (s : State) : view (receiveFrame f0 s) = view s := by
  unfold receiveFrame
  repeat' first
    | with_reducible first | rfl | refine (view_findBreak ..).trans ?_ | refine (view_askResends ..).trans ?_
    | with_reducible first | refine (view_fileResend ..).trans ?_ | refine (view_fileBlock ..).trans ?_
    | with_reducible first | refine (view_missBlock ..).trans ?_ | refine (view_modChain ..).trans ?_ | apply view_ite
    | with_reducible first | refine (view_forEach _ _ _ fun _ _ => ?_).trans ?_ | refine view_elim _ _ _ _ ?_ (fun _ => ?_)
    | simp only [↓view_mk, view_eta] | split | dsimp only

theorem view_execChainFrameRx (f : ChainFrame) (s : State) : Keeps (execChainFrameRx f s) s := by
  unfold execChainFrameRx
  repeat' first
    | with_reducible first | rfl | refine (view_receiveFrame ..).trans ?_ | apply keeps_onObject | apply view_ite
    | split | dsimp only

theorem view_execResendAgeExpiry (pos : Nat) (pick : Nat) (notHeld : Bool) (s : State) :
    Keeps (execResendAgeExpiry pos pick notHeld s) s := by
  unfold execResendAgeExpiry
  repeat' first
    | with_reducible first | rfl | refine (view_gapEntry ..).trans ?_ | refine (view_modChain ..).trans ?_ | apply keeps_onObject
    | with_reducible first | apply view_ite
    | simp only [↓view_mk, view_eta] | split | dsimp only

theorem view_wrapRing (c : Nat) (hop : Option Nat) (delays : List Nat) (s : State) : view (wrapRing c hop delays s) = view s := by
  unfold wrapRing
  repeat' first
    | with_reducible first | rfl | refine (view_askResends ..).trans ?_ | refine (view_setDelays ..).trans ?_
    | with_reducible first | refine (view_ringEvent ..).trans ?_ | refine (view_noteRing ..).trans ?_ | refine (view_moveSplit ..).trans ?_
    | with_reducible first | refine (view_modOcc ..).trans ?_ | refine (view_modChain ..).trans ?_ | apply view_ite
    | with_reducible first | refine view_elim _ _ _ _ ?_ (fun _ => ?_)
    | simp only [↓view_mk, view_eta] | split | dsimp only

theorem view_execRingBreakDeclared (chain : Nat) (outOfLock : Bool) (delays : List Nat) (s : State) :
    Keeps (execRingBreakDeclared chain outOfLock delays s) s := by
  unfold execRingBreakDeclared
  repeat' first
    | with_reducible first | rfl | refine (view_wrapRing ..).trans ?_ | refine (view_modChain ..).trans ?_ | apply keeps_onObject
    | with_reducible first | apply view_ite
    | simp only [↓view_mk, view_eta] | split | dsimp only

theorem view_execUnwrapBoundary (chain : Nat) (valid : Bool) (delays : List Nat) (s : State) :
    Keeps (execUnwrapBoundary chain valid delays s) s := by
  unfold execUnwrapBoundary
  repeat' first
    | with_reducible first | rfl | refine (view_setDelays ..).trans ?_ | refine (view_ringEvent ..).trans ?_
    | with_reducible first | refine (view_noteRing ..).trans ?_ | refine (view_modChain ..).trans ?_ | refine (view_finish ..).trans ?_
    | with_reducible first | apply keeps_onObject | apply view_ite
    | simp only [↓view_mk, view_eta] | split | dsimp only

theorem view_hopFault (c : Nat) (s : State) : view (hopFault c s) = view s := by
  unfold hopFault
  repeat' first
    | with_reducible first | rfl | refine (view_onSilent ..).trans ?_ | refine (view_ringEvent ..).trans ?_
    | with_reducible first | refine (view_modPos ..).trans ?_ | refine (view_modChain ..).trans ?_ | apply view_ite
    | with_reducible first | refine (view_forEach _ _ _ fun _ _ => ?_).trans ?_
    | simp only [↓view_mk, view_eta] | split | dsimp only

theorem view_execHopFault (chain : Nat) (hops : List Nat) (s : State) : Keeps (execHopFault chain hops s) s := by
  unfold execHopFault
  repeat' first
    | with_reducible first | rfl | refine (view_hopFault ..).trans ?_ | apply keeps_onObject | apply view_ite
    | with_reducible first | refine view_elim _ _ _ _ ?_ (fun _ => ?_)
    | split | dsimp only

theorem view_losePosition (p : Nat) (s : State) : view (losePosition p s) = view s := by
  unfold losePosition
  repeat' first
    | with_reducible first | rfl | refine (view_onSilent ..).trans ?_ | refine (view_posEvent ..).trans ?_
    | with_reducible first | refine (view_noteRing ..).trans ?_ | refine (view_modPos ..).trans ?_
    | simp only [↓view_mk, view_eta] | dsimp only

theorem view_execPositionLost (pos : Nat) (s : State) : Keeps (execPositionLost pos s) s := by
  unfold execPositionLost
  repeat' first
    | with_reducible first | rfl | refine (view_losePosition ..).trans ?_ | apply keeps_onObject | apply view_ite
    | split | dsimp only

theorem view_enumerated (c : Nat) (n : Nat) (occ : List Nat) (delays : List Nat) (s : State) :
    view (enumerated c n occ delays s) = view s := by
  unfold enumerated
  repeat' first
    | with_reducible first | rfl | refine (view_hopFault ..).trans ?_ | refine (view_setDelays ..).trans ?_
    | with_reducible first | refine (view_settleProc ..).trans ?_ | refine (view_modPos ..).trans ?_ | refine (view_modChain ..).trans ?_
    | with_reducible first | refine (view_forEach _ _ _ fun _ _ => ?_).trans ?_
    | simp only [↓view_mk, view_eta] | dsimp only

theorem view_retryEnum (c : Nat) (s : State) : view (retryEnum c s) = view s := by
  unfold retryEnum
  repeat' first
    | with_reducible first | rfl | refine (view_hopFault ..).trans ?_ | refine (view_endProc ..).trans ?_
    | with_reducible first | refine (view_modChain ..).trans ?_ | apply view_ite
    | simp only [↓view_mk, view_eta] | split | dsimp only

theorem view_countWrapped (c : Nat) (a : Nat) (b : Nat) (delays : List Nat) (s : State) : view (countWrapped c a b delays s) = view s := by
  unfold countWrapped
  repeat' first
    | with_reducible first | rfl | refine (view_enumerated ..).trans ?_ | refine (view_ringEvent ..).trans ?_
    | with_reducible first | refine (view_noteRing ..).trans ?_ | refine (view_moveSplit ..).trans ?_ | refine (view_modChain ..).trans ?_
    | with_reducible first | apply view_ite | refine view_elim _ _ _ _ ?_ (fun _ => ?_)
    | simp only [↓view_mk, view_eta] | split | dsimp only

theorem view_execChainEnumPicks (chain : Nat) (hops : List (Option Nat)) (delays : List Nat) (s : State) :
    Keeps (execChainEnumPicks chain hops delays s) s := by
  unfold execChainEnumPicks
  repeat' first
    | with_reducible first | rfl | refine (view_retryEnum ..).trans ?_ | refine (view_enumerated ..).trans ?_
    | with_reducible first | refine (view_wrapRing ..).trans ?_ | refine (view_moveSplit ..).trans ?_ | apply keeps_onObject
    | with_reducible first | apply view_ite
    | simp only [↓view_mk, view_eta] | split | dsimp only

theorem view_execOpenRingDetected (chain : Nat) (countsA : List (Option Nat)) (countsB : List (Option Nat)) (delays : List Nat) (s : State)
    :
    Keeps (execOpenRingDetected chain countsA countsB delays s) s := by
  unfold execOpenRingDetected
  repeat' first
    | with_reducible first | rfl | refine (view_countWrapped ..).trans ?_ | refine (view_retryEnum ..).trans ?_
    | with_reducible first | refine (view_modChain ..).trans ?_ | apply keeps_onObject | apply view_ite
    | simp only [↓view_mk, view_eta] | split | dsimp only

theorem view_takeIdentity (p : Nat) (msg : BitVec 512) (s : State) : view (takeIdentity p msg s) = view s := by
  unfold takeIdentity
  repeat' first
    | with_reducible first | rfl | refine (view_onTagChange ..).trans ?_ | refine (view_onIncarnation ..).trans ?_
    | with_reducible first | refine (view_backGaps ..).trans ?_ | refine (view_holdMsg ..).trans ?_ | refine (view_posEvent ..).trans ?_
    | with_reducible first | refine (view_noteRing ..).trans ?_ | refine (view_modPos ..).trans ?_ | apply view_ite
    | simp only [↓view_mk, view_eta] | split | dsimp only

theorem view_takeUpMsg (p : Nat) (s : State) : view (takeUpMsg p s) = view s := by
  unfold takeUpMsg
  repeat' first
    | with_reducible first | rfl | refine (view_modPos ..).trans ?_ | refine view_elim _ _ _ _ ?_ (fun _ => ?_)
    | dsimp only

theorem view_execIdentityRx (pos : Nat) (msg : BitVec 512) (s : State) : Keeps (execIdentityRx pos msg s) s := by
  unfold execIdentityRx
  repeat' first
    | with_reducible first | rfl | refine (view_takeUpMsg ..).trans ?_ | refine (view_takeIdentity ..).trans ?_
    | with_reducible first | refine (view_modPos ..).trans ?_ | refine (view_State_reset ..).trans ?_ | apply keeps_onObject
    | with_reducible first | apply view_ite
    | simp only [↓view_mk, view_eta] | split | dsimp only

theorem view_judgeParts (p : Nat) (s : State) : view (judgeParts p s) = view s := by
  unfold judgeParts
  repeat' first
    | with_reducible first | rfl | refine (view_onCoefficients ..).trans ?_ | refine (view_settleProc ..).trans ?_
    | with_reducible first | refine (view_posEvent ..).trans ?_ | refine (view_modPos ..).trans ?_ | apply view_ite
    | simp only [↓view_mk, view_eta] | split | dsimp only

theorem view_execCoefRx (pos : Nat) (msg : BitVec 512) (s : State) : Keeps (execCoefRx pos msg s) s := by
  unfold execCoefRx
  repeat' first
    | with_reducible first | rfl | refine (view_judgeParts ..).trans ?_ | refine (view_takeUpMsg ..).trans ?_
    | with_reducible first | refine (view_holdMsg ..).trans ?_ | refine (view_modPos ..).trans ?_ | apply keeps_onObject | apply view_ite
    | simp only [↓view_mk, view_eta] | split | dsimp only

theorem view_judgeCfg (p : Nat) (f : CfgFlight) (result : Nat) (reported : Bool) (s : State) :
    view (judgeCfg p f result reported s) = view s := by
  unfold judgeCfg
  repeat' first
    | with_reducible first | rfl | refine (view_onDither ..).trans ?_ | refine (view_posEvent ..).trans ?_
    | with_reducible first | refine (view_modPos ..).trans ?_ | refine (view_finish ..).trans ?_ | apply view_ite
    | simp only [↓view_mk, view_eta] | split | dsimp only

theorem view_execTagStatusRx (pos : Nat) (msg : BitVec 512) (s : State) : Keeps (execTagStatusRx pos msg s) s := by
  unfold execTagStatusRx
  repeat' first
    | with_reducible first | rfl | refine (view_judgeCfg ..).trans ?_ | refine (view_takeUpMsg ..).trans ?_
    | with_reducible first | refine (view_holdMsg ..).trans ?_ | refine (view_modPos ..).trans ?_ | apply keeps_onObject | apply view_ite
    | with_reducible first | refine view_elim _ _ _ _ ?_ (fun _ => ?_)
    | simp only [↓view_mk, view_eta] | split | dsimp only

theorem view_nextDown (p : Nat) (s : State) : view (nextDown p s) = view s := by
  unfold nextDown
  repeat' first
    | with_reducible first | rfl | refine (view_modPos ..).trans ?_ | apply view_ite
    | simp only [↓view_mk, view_eta] | split | dsimp only

theorem view_execSelvedgeDownPeriod (s : State) : Keeps (execSelvedgeDownPeriod s) s := by
  unfold execSelvedgeDownPeriod
  repeat' first
    | with_reducible first | rfl | refine (view_nextDown ..).trans ?_ | apply keeps_next | apply view_ite
    | with_reducible first | refine (view_forEach _ _ _ fun _ _ => ?_).trans ?_
    | split | dsimp only

theorem view_execSelvedgeMessageScrcFail (pos : Nat) (msgType : Nat) (part : Nat) (s : State) :
    Keeps (execSelvedgeMessageScrcFail pos msgType part s) s := by
  unfold execSelvedgeMessageScrcFail
  repeat' first
    | with_reducible first | rfl | refine (view_modPos ..).trans ?_ | apply keeps_onObject | apply view_ite
    | simp only [↓view_mk, view_eta] | split | dsimp only

theorem view_execPositionReleased (pos : Nat) (s : State) : Keeps (execPositionReleased pos s) s := by
  unfold execPositionReleased
  repeat' first
    | with_reducible first | rfl | refine (view_onRelease ..).trans ?_ | refine (view_settleProc ..).trans ?_
    | with_reducible first | refine (view_posEvent ..).trans ?_ | refine (view_modPos ..).trans ?_ | apply keeps_onObject | apply view_ite
    | simp only [↓view_mk, view_eta] | split | dsimp only

theorem view_execParkCarrierOff (chain : Nat) (s : State) : Keeps (execParkCarrierOff chain s) s := by
  unfold execParkCarrierOff
  repeat' first
    | with_reducible first | rfl | refine (view_onSilent ..).trans ?_ | refine (view_stopChain ..).trans ?_
    | with_reducible first | refine (view_ringEvent ..).trans ?_ | refine (view_finish ..).trans ?_ | apply keeps_onObject | apply view_ite
    | with_reducible first | refine (view_forEach _ _ _ fun _ _ => ?_).trans ?_
    | simp only [↓view_mk, view_eta] | split | dsimp only

theorem view_execPortOvercurrent (t : PortTrip) (s : State) : Keeps (execPortOvercurrent t s) s := by
  unfold execPortOvercurrent
  repeat' first
    | with_reducible first | rfl | refine (view_wrapRing ..).trans ?_ | refine (view_ringEvent ..).trans ?_
    | with_reducible first | refine (view_noteRing ..).trans ?_ | refine (view_modChain ..).trans ?_ | apply keeps_onObject | apply view_ite
    | with_reducible first | refine view_elim _ _ _ _ ?_ (fun _ => ?_)
    | simp only [↓view_mk, view_eta] | split | dsimp only

theorem view_wakeParked (local_ : Bool) (s : State) : view (wakeParked local_ s) = view s := by
  unfold wakeParked
  repeat' first
    | with_reducible first | rfl | refine (view_powerUp ..).trans ?_ | refine (view_forEach _ _ _ fun _ _ => ?_).trans ?_
    | simp only [↓view_mk, view_eta] | dsimp only

theorem view_actOnWake (s : State) : view (actOnWake s) = view s := by
  unfold actOnWake
  repeat' first
    | with_reducible first | rfl | refine (view_wakeParked ..).trans ?_ | apply view_ite
    | simp only [↓view_mk, view_eta] | split | dsimp only

theorem view_execWakeNFall (s : State) : Keeps (execWakeNFall s) s := by
  unfold execWakeNFall
  repeat' first
    | with_reducible first | rfl | refine (view_actOnWake ..).trans ?_ | apply keeps_next | apply view_ite
    | simp only [↓view_mk, view_eta] | split | dsimp only

/-! ### Machine/Frames.lean -/

theorem view_latchFrame (c : Nat) (s : State) : view (latchFrame c s) = view s := by
  unfold latchFrame
  repeat' first
    | with_reducible first | rfl | refine (view_modChain ..).trans ?_ | apply view_ite
    | simp only [↓view_mk, view_eta] | split | dsimp only

theorem view_latchFrames (s : State) : view (latchFrames s) = view s := by
  unfold latchFrames
  repeat' first
    | with_reducible first | rfl | refine (view_latchFrame ..).trans ?_ | refine (view_forEach _ _ _ fun _ _ => ?_).trans ?_
    | dsimp only

theorem view_sendAllRequests (s : State) : view (sendAllRequests s) = view s := by
  unfold sendAllRequests
  repeat' first
    | with_reducible first | rfl | apply view_ite
    | simp only [↓view_mk, view_eta] | split | dsimp only

theorem view_sendTraining (s : State) : view (sendTraining s) = view s := by
  unfold sendTraining
  repeat' first
    | with_reducible first | rfl | apply view_ite
    | simp only [↓view_mk, view_eta] | split | dsimp only

theorem view_sendBackfill (s : State) : view (sendBackfill s) = view s := by
  unfold sendBackfill
  repeat' first
    | with_reducible first | rfl | apply view_ite
    | simp only [↓view_mk, view_eta] | split | dsimp only

/-! ### Machine/Lanes.lean -/

theorem view_laneEvent (l : Nat) (kind : Nat) (s : State) : view (laneEvent l kind s) = view s := by
  unfold laneEvent
  repeat' first
    | with_reducible first | rfl | refine (view_unitEvent ..).trans ?_
    | dsimp only

theorem view_bridgedIncarnation (fp : Nat) (p : Nat) (b : BitVec 520) (s : State) : view (bridgedIncarnation fp p b s) = view s := by
  unfold bridgedIncarnation
  repeat' first
    | with_reducible first | rfl | refine (view_newIncarnation ..).trans ?_ | apply view_ite
    | split | dsimp only

theorem view_fileStripped (fp : Nat) (p : Nat) (b : BitVec 520) (s : State) : view (fileStripped fp p b s) = view s := by
  unfold fileStripped
  repeat' first
    | with_reducible first | rfl | refine (view_bridgedIncarnation ..).trans ?_ | refine (view_gapEntry ..).trans ?_
    | with_reducible first | refine (view_writeEntry ..).trans ?_ | refine (view_onBlock ..).trans ?_ | refine (view_modPos ..).trans ?_
    | with_reducible first | apply view_ite
    | simp only [↓view_mk, view_eta] | split | dsimp only

theorem view_takeChainState (c : Nat) (h : BitVec 64) (s : State) : view (takeChainState c h s) = view s := by
  unfold takeChainState
  repeat' first
    | with_reducible first | rfl | refine (view_hopFault ..).trans ?_ | refine (view_onSilent ..).trans ?_
    | with_reducible first | refine (view_stopChain ..).trans ?_ | refine (view_ringEvent ..).trans ?_ | refine (view_modPos ..).trans ?_
    | with_reducible first | refine (view_modChain ..).trans ?_ | apply view_ite | refine (view_forEach _ _ _ fun _ _ => ?_).trans ?_
    | simp only [↓view_mk, view_eta] | split | dsimp only

theorem view_fileSub (fp : Nat) (c : Nat) (b : SubBlock) (s : State) : view (fileSub fp c b s) = view s := by
  unfold fileSub
  repeat' first
    | with_reducible first | rfl | refine (view_takeChainState ..).trans ?_ | refine (view_fileStripped ..).trans ?_ | apply view_ite
    | with_reducible first | refine (view_forEach _ _ _ fun _ _ => ?_).trans ?_
    | split | dsimp only

theorem view_requestBlock (q : LaneReq) (s : State) : view (requestBlock q s) = view s := by
  unfold requestBlock
  repeat' first
    | with_reducible first | rfl | refine (view_modBridge ..).trans ?_ | apply view_ite
    | simp only [↓view_mk, view_eta] | split | dsimp only

theorem view_markMissing (fp : Nat) (c : Nat) (s : State) : view (markMissing fp c s) = view s := by
  unfold markMissing
  repeat' first
    | with_reducible first | rfl | refine (view_writeEntry ..).trans ?_ | refine (view_modPos ..).trans ?_ | apply view_ite
    | with_reducible first | refine (view_forEach _ _ _ fun _ _ => ?_).trans ?_
    | simp only [↓view_mk, view_eta] | split | dsimp only

theorem view_missSub (fp : Nat) (c : Nat) (s : State) : view (missSub fp c s) = view s := by
  unfold missSub
  repeat' first
    | with_reducible first | rfl | refine (view_markMissing ..).trans ?_ | refine (view_requestBlock ..).trans ?_ | apply view_ite
    | split | dsimp only

theorem view_takeSub (l : Nat) (fp : Nat) (c : Nat) (b : Option SubBlock) (s : State) : view (takeSub l fp c b s) = view s := by
  unfold takeSub
  repeat' first
    | with_reducible first | rfl | refine (view_missSub ..).trans ?_ | refine (view_markMissing ..).trans ?_
    | with_reducible first | refine (view_fileSub ..).trans ?_ | refine (view_modBridge ..).trans ?_ | apply view_ite
    | simp only [↓view_mk, view_eta] | split | dsimp only

theorem view_missFrame (l : Nat) (fp : Nat) (s : State) : view (missFrame l fp s) = view s := by
  unfold missFrame
  repeat' first
    | with_reducible first | rfl | refine (view_takeSub ..).trans ?_ | refine (view_forEach _ _ _ fun _ _ => ?_).trans ?_
    | dsimp only

theorem view_missFrames (l : Nat) (fp : Nat) (s : State) : view (missFrames l fp s) = view s := by
  unfold missFrames
  repeat' first
    | with_reducible first | rfl | refine (view_missFrame ..).trans ?_ | refine (view_forEach _ _ _ fun _ _ => ?_).trans ?_
    | dsimp only

theorem view_fileEntry (l : Nat) (e : BitVec 600) (s : State) : view (fileEntry l e s) = view s := by
  unfold fileEntry
  repeat' first
    | with_reducible first | rfl | refine (view_gapEntry ..).trans ?_ | refine (view_fillEntry ..).trans ?_
    | with_reducible first | refine (view_modBridge ..).trans ?_ | refine (view_modPos ..).trans ?_ | apply view_ite
    | simp only [↓view_mk, view_eta] | split | dsimp only

theorem view_setBase (pl : Nat) (base : Nat) (s : State) : view (setBase pl base s) = view s := by
  unfold setBase
  repeat' first
    | with_reducible first | rfl | refine (view_modBridge ..).trans ?_ | refine (view_modOcc ..).trans ?_
    | with_reducible first | refine (view_forEach _ _ _ fun _ _ => ?_).trans ?_
    | simp only [↓view_mk, view_eta] | dsimp only

theorem view_noteTiming (l : Nat) (s : State) : view (noteTiming l s) = view s := by
  unfold noteTiming
  repeat' first
    | with_reducible first | rfl | refine (view_setBase ..).trans ?_ | refine (view_modBridge ..).trans ?_ | apply view_ite
    | with_reducible first | refine view_elim _ _ _ _ ?_ (fun _ => ?_)
    | simp only [↓view_mk, view_eta] | split | dsimp only

theorem view_takePage (l : Nat) (g : BitVec 256) (s : State) : view (takePage l g s) = view s := by
  unfold takePage
  repeat' first
    | with_reducible first | rfl | refine (view_modLane ..).trans ?_ | refine (view_modPos ..).trans ?_ | refine (view_modChain ..).trans ?_
    | with_reducible first | apply view_ite | refine (view_forEach _ _ _ fun _ _ => ?_).trans ?_
    | simp only [↓view_mk, view_eta] | split | dsimp only

theorem view_fileFrame (l : Nat) (fp : Nat) (f : UpFrame) (s : State) : view (fileFrame l fp f s) = view s := by
  unfold fileFrame
  repeat' first
    | with_reducible first | rfl | refine (view_takePage ..).trans ?_ | refine (view_fileEntry ..).trans ?_
    | with_reducible first | refine (view_takeSub ..).trans ?_ | refine (view_startUncopied ..).trans ?_
    | with_reducible first | refine (view_takeLease ..).trans ?_ | refine (view_modLane ..).trans ?_ | apply view_ite
    | with_reducible first | refine (view_forEach _ _ _ fun _ _ => ?_).trans ?_
    | simp only [↓view_mk, view_eta] | split | dsimp only

theorem view_receiveUp (l : Nat) (ltype : Nat) (f : UpFrame) (s : State) : view (receiveUp l ltype f s) = view s := by
  unfold receiveUp
  repeat' first
    | with_reducible first | rfl | refine (view_fileFrame ..).trans ?_ | refine (view_noteTiming ..).trans ?_
    | with_reducible first | refine (view_missFrames ..).trans ?_ | refine (view_missFrame ..).trans ?_
    | with_reducible first | refine (view_hearEpoch ..).trans ?_ | refine (view_modLane ..).trans ?_ | apply view_ite
    | simp only [↓view_mk, view_eta] | split | dsimp only

theorem view_forwardUp (f : UpFrame) (s : State) : view (forwardUp f s) = view s := by
  unfold forwardUp
  repeat' first
    | with_reducible first | rfl | apply view_ite
    | simp only [↓view_mk, view_eta] | split | dsimp only

theorem view_execUpLaneFrameRx (f : UpFrame) (s : State) : Keeps (execUpLaneFrameRx f s) s := by
  unfold execUpLaneFrameRx
  repeat' first
    | with_reducible first | rfl | refine (view_forwardUp ..).trans ?_ | refine (view_receiveUp ..).trans ?_
    | with_reducible first | refine (view_modLane ..).trans ?_ | apply keeps_onObject | apply view_ite
    | split | dsimp only

theorem view_execPickFinalGap (pick : Nat) (s : State) : Keeps (execPickFinalGap pick s) s := by
  unfold execPickFinalGap
  repeat' first
    | with_reducible first | rfl | refine (view_gapEntry ..).trans ?_ | apply keeps_next | apply view_ite
    | with_reducible first | refine (view_forEach _ _ _ fun _ _ => ?_).trans ?_
    | split | dsimp only

theorem view_excessUplink (l : Nat) (s : State) : view (excessUplink l s) = view s := by
  unfold excessUplink
  repeat' first
    | with_reducible first | rfl | refine (view_raiseNow ..).trans ?_
    | dsimp only

theorem view_forwardLane (l : Nat) (tl : Nat) (s : State) : view (forwardLane l tl s) = view s := by
  unfold forwardLane
  repeat' first
    | with_reducible first | rfl | refine (view_modLane ..).trans ?_
    | simp only [↓view_mk, view_eta] | dsimp only

theorem view_failTwin (k : Nat) (s : State) : view (failTwin k s) = view s := by
  unfold failTwin
  repeat' first
    | with_reducible first | rfl | refine (view_forwardLane ..).trans ?_ | refine (view_excessUplink ..).trans ?_
    | with_reducible first | refine (view_forEach _ _ _ fun _ _ => ?_).trans ?_
    | simp only [↓view_mk, view_eta] | split | dsimp only

theorem view_reissue (l : Nat) (c : Nat) (s : State) : view (reissue l c s) = view s := by
  unfold reissue
  repeat' first
    | with_reducible first | rfl | refine (view_modChain ..).trans ?_ | apply view_ite
    | simp only [↓view_mk, view_eta] | split | dsimp only

theorem view_repeatLost (l : Nat) (s : State) : view (repeatLost l s) = view s := by
  unfold repeatLost
  repeat' first
    | with_reducible first | rfl | refine (view_reissue ..).trans ?_ | refine (view_modBridge ..).trans ?_
    | with_reducible first | refine (view_forEach _ _ _ fun _ _ => ?_).trans ?_
    | simp only [↓view_mk, view_eta] | dsimp only

theorem view_failover (l : Nat) (s : State) : view (failover l s) = view s := by
  unfold failover
  repeat' first
    | with_reducible first | rfl | refine (view_repeatLost ..).trans ?_ | refine (view_failTwin ..).trans ?_
    | with_reducible first | refine (view_forwardLane ..).trans ?_ | refine (view_excessUplink ..).trans ?_
    | with_reducible first | refine (view_missSub ..).trans ?_ | refine (view_laneEvent ..).trans ?_ | refine (view_noteLane ..).trans ?_
    | with_reducible first | refine (view_modBridge ..).trans ?_ | apply view_ite | refine (view_forEach _ _ _ fun _ _ => ?_).trans ?_
    | simp only [↓view_mk, view_eta] | split | dsimp only

theorem view_execLaneFailed (lane : Nat) (e : LaneFault) (s : State) : Keeps (execLaneFailed lane e s) s := by
  unfold execLaneFailed
  repeat' first
    | with_reducible first | rfl | refine (view_failover ..).trans ?_ | refine (view_setBase ..).trans ?_
    | with_reducible first | refine (view_laneEvent ..).trans ?_ | refine (view_refreshReady ..).trans ?_
    | with_reducible first | refine (view_noteLane ..).trans ?_ | refine (view_modLane ..).trans ?_ | apply keeps_onObject | apply view_ite
    | simp only [↓view_mk, view_eta] | split | dsimp only

theorem view_execLaneDegraded (r : LaneReading) (s : State) : Keeps (execLaneDegraded r s) s := by
  unfold execLaneDegraded
  repeat' first
    | with_reducible first | rfl | refine (view_laneEvent ..).trans ?_ | refine (view_noteLane ..).trans ?_
    | with_reducible first | refine (view_modLane ..).trans ?_ | apply keeps_onObject | apply view_ite
    | with_reducible first | refine view_elim _ _ _ _ ?_ (fun _ => ?_)
    | simp only [↓view_mk, view_eta] | split | dsimp only

theorem view_endBringUp (l : Nat) (status : Nat) (s : State) : view (endBringUp l status s) = view s := by
  unfold endBringUp
  repeat' first
    | with_reducible first | rfl | refine (view_modLane ..).trans ?_ | refine (view_finish ..).trans ?_ | apply view_ite
    | simp only [↓view_mk, view_eta] | split | dsimp only

theorem view_execLanePhaseComplete (lane : Nat) (m : LaneMeasure) (s : State) : Keeps (execLanePhaseComplete lane m s) s := by
  unfold execLanePhaseComplete
  repeat' first
    | with_reducible first | rfl | refine (view_endBringUp ..).trans ?_ | refine (view_setBase ..).trans ?_
    | with_reducible first | refine (view_laneEvent ..).trans ?_ | refine (view_actOnWake ..).trans ?_ | refine (view_setEpoch ..).trans ?_
    | with_reducible first | refine (view_refreshReady ..).trans ?_ | refine (view_noteLane ..).trans ?_ | refine (view_modLane ..).trans ?_
    | with_reducible first | apply keeps_onObject | apply view_ite
    | simp only [↓view_mk, view_eta] | split | dsimp only

theorem view_execTwinForwardFrameRx (tl : Nat) (f : UpFrame) (s : State) : Keeps (execTwinForwardFrameRx tl f s) s := by
  unfold execTwinForwardFrameRx
  repeat' first
    | with_reducible first | rfl | refine (view_receiveUp ..).trans ?_ | apply keeps_onObject | apply view_ite
    | split | dsimp only

theorem view_backfillSub (fp : Nat) (pl : Nat) (b : SubBlock) (s : State) : view (backfillSub fp pl b s) = view s := by
  unfold backfillSub
  repeat' first
    | with_reducible first | rfl | refine (view_gapEntry ..).trans ?_ | refine (view_fillEntry ..).trans ?_ | apply view_ite
    | with_reducible first | refine (view_forEach _ _ _ fun _ _ => ?_).trans ?_
    | split | dsimp only

theorem view_execTwinBackfillFrameRx (tl : Nat) (f : UpFrame) (s : State) : Keeps (execTwinBackfillFrameRx tl f s) s := by
  unfold execTwinBackfillFrameRx
  repeat' first
    | with_reducible first | rfl | refine (view_backfillSub ..).trans ?_ | apply keeps_onObject | apply view_ite
    | with_reducible first | refine (view_forEach _ _ _ fun _ _ => ?_).trans ?_
    | simp only [↓view_mk, view_eta] | split | dsimp only

theorem view_execRelayDownFrameRx (tl : Nat) (f : DownFrame) (s : State) : Keeps (execRelayDownFrameRx tl f s) s := by
  unfold execRelayDownFrameRx
  repeat' first
    | with_reducible first | rfl | apply keeps_onObject | apply view_ite
    | simp only [↓view_mk, view_eta] | split | dsimp only

theorem view_askTwin (op : Nat) (tl : Nat) (lane : Nat) (n : Nat) (pick : Option Nat) (s : State) :
    view (askTwin op tl lane n pick s) = view s := by
  unfold askTwin
  repeat' first
    | with_reducible first | rfl | apply view_ite
    | simp only [↓view_mk, view_eta] | split | dsimp only

theorem view_execForwardingControlWord (w : BitVec 64) (s : State) : Keeps (execForwardingControlWord w s) s := by
  unfold execForwardingControlWord
  repeat' first
    | with_reducible first | rfl | refine (view_askTwin ..).trans ?_ | apply keeps_next | apply view_ite
    | split | dsimp only

theorem view_actLaneUp (r : Req) (s : State) (t : State) : view (actLaneUp r s t).state = view t := by
  unfold actLaneUp
  repeat' first
    | with_reducible first | rfl | refine (view_modBridge ..).trans ?_ | refine (view_modLane ..).trans ?_ | apply rview_ite
    | with_reducible first | refine (rview_long ..).trans ?_ | apply view_ite
    | simp only [↓view_mk, view_eta] | split | dsimp only

theorem view_execLaneUp (r : Req) (s : State) : Keeps (execLaneUp r s) s := by
  unfold execLaneUp
  repeat' first
    | with_reducible first | rfl | refine (view_command _ _ _ _ fun _ => ?_).trans ?_ | apply keeps_next
    | exact view_actLaneUp _ _ _ | dsimp only

theorem view_actLaneStatus (r : Req) (s : State) (t : State) : view (actLaneStatus r s t).state = view t := by
  unfold actLaneStatus
  repeat' first
    | with_reducible first | rfl | refine (rview_now ..).trans ?_
    | dsimp only

theorem view_execLaneStatus (r : Req) (s : State) : Keeps (execLaneStatus r s) s := by
  unfold execLaneStatus
  repeat' first
    | with_reducible first | rfl | refine (view_command _ _ _ _ fun _ => ?_).trans ?_ | apply keeps_next
    | exact view_actLaneStatus _ _ _ | dsimp only

theorem view_actLanePair (r : Req) (x1 : State) (t : State) : view (actLanePair r x1 t).state = view t := by
  unfold actLanePair
  repeat' first
    | with_reducible first | rfl | apply rview_ite | refine (rview_now ..).trans ?_ | apply view_ite
    | simp only [↓view_mk, view_eta] | split | dsimp only

theorem view_execLanePair (r : Req) (s : State) : Keeps (execLanePair r s) s := by
  unfold execLanePair
  repeat' first
    | with_reducible first | rfl | refine (view_command _ _ _ _ fun _ => ?_).trans ?_ | apply keeps_next
    | exact view_actLanePair _ _ _ | dsimp only

theorem view_actLaneEye (r : Req) (s : State) (t : State) : view (actLaneEye r s t).state = view t := by
  unfold actLaneEye
  repeat' first
    | with_reducible first | rfl | refine (view_emitStatus ..).trans ?_ | refine (rview_now ..).trans ?_
    | dsimp only

theorem view_execLaneEye (r : Req) (s : State) : Keeps (execLaneEye r s) s := by
  unfold execLaneEye
  repeat' first
    | with_reducible first | rfl | refine (view_command _ _ _ _ fun _ => ?_).trans ?_ | apply keeps_next
    | exact view_actLaneEye _ _ _ | dsimp only

theorem view_actLaneDown (r : Req) (s : State) (t : State) : view (actLaneDown r s t).state = view t := by
  unfold actLaneDown
  repeat' first
    | with_reducible first | rfl | refine (view_failover ..).trans ?_ | refine (view_laneEvent ..).trans ?_
    | with_reducible first | refine (view_refreshReady ..).trans ?_ | refine (view_noteLane ..).trans ?_ | refine (view_modLane ..).trans ?_
    | with_reducible first | refine (view_finish ..).trans ?_ | apply rview_ite | refine (rview_now ..).trans ?_ | apply view_ite
    | simp only [↓view_mk, view_eta] | split | dsimp only

theorem view_execLaneDown (r : Req) (s : State) : Keeps (execLaneDown r s) s := by
  unfold execLaneDown
  repeat' first
    | with_reducible first | rfl | refine (view_command _ _ _ _ fun _ => ?_).trans ?_ | apply keeps_next
    | exact view_actLaneDown _ _ _ | dsimp only

theorem view_actBridgeStatus (r : Req) (s : State) (t : State) : view (actBridgeStatus r s t).state = view t := by
  unfold actBridgeStatus
  repeat' first
    | with_reducible first | rfl | refine (view_emitStatus ..).trans ?_ | refine (rview_now ..).trans ?_
    | dsimp only

theorem view_execBridgeStatus (r : Req) (s : State) : Keeps (execBridgeStatus r s) s := by
  unfold execBridgeStatus
  repeat' first
    | with_reducible first | rfl | refine (view_command _ _ _ _ fun _ => ?_).trans ?_ | apply keeps_next
    | exact view_actBridgeStatus _ _ _ | dsimp only

/-! ### Machine/ThermOps.lean -/

theorem view_modTherm (f : ThermUnit → ThermUnit) (s : State) : view (modTherm f s) = view s := by
  unfold modTherm
  repeat' first
    | with_reducible first | rfl
    | simp only [↓view_mk, view_eta] | dsimp only

theorem view_hkCheck (e : Nat × Bool) (s : State) : view (hkCheck e s) = view s := by
  unfold hkCheck
  repeat' first
    | with_reducible first | rfl | refine (view_modTherm ..).trans ?_ | refine (view_setAlert ..).trans ?_
    | with_reducible first | refine (view_raiseNow ..).trans ?_ | apply view_ite
    | simp only [↓view_mk, view_eta] | split | dsimp only

theorem view_closeRound (k : Nat) (s : State) : view (closeRound k s) = view s := by
  unfold closeRound
  repeat' first
    | with_reducible first | rfl | refine (view_hkCheck ..).trans ?_ | refine (view_refreshReady ..).trans ?_ | apply view_ite
    | with_reducible first | refine (view_forEach _ _ _ fun _ _ => ?_).trans ?_
    | simp only [↓view_mk, view_eta] | split | dsimp only

theorem view_setBand (b : Nat) (s : State) : view (setBand b s) = view s := by
  unfold setBand
  repeat' first
    | with_reducible first | rfl | refine (view_modTherm ..).trans ?_ | refine (view_raiseNow ..).trans ?_ | apply view_ite
    | simp only [↓view_mk, view_eta] | split | dsimp only

theorem view_noteEyes (s : State) : view (noteEyes s) = view s := by
  unfold noteEyes
  repeat' first
    | with_reducible first | rfl | apply view_ite
    | simp only [↓view_mk, view_eta] | split | dsimp only

theorem view_noteWear (s : State) : view (noteWear s) = view s := by
  unfold noteWear
  repeat' first
    | with_reducible first | rfl | refine (view_setAlert ..).trans ?_ | refine (view_raiseNow ..).trans ?_ | apply view_ite
    | simp only [↓view_mk, view_eta] | split | dsimp only

theorem view_writeWear (s : State) : view (writeWear s) = view s := by
  unfold writeWear
  repeat' first
    | with_reducible first | rfl | refine (view_raiseNow ..).trans ?_ | apply view_ite
    | simp only [↓view_mk, view_eta] | split | dsimp only

theorem view_wearForReset (s : State) : view (wearForReset s) = view s := by
  unfold wearForReset
  repeat' first
    | with_reducible first | rfl | refine (view_writeWear ..).trans ?_ | apply view_ite
    | split | dsimp only

theorem view_noteTrace (s : State) : view (noteTrace s) = view s := by
  unfold noteTrace
  repeat' first
    | with_reducible first | rfl | refine (view_raiseNow ..).trans ?_ | apply view_ite
    | simp only [↓view_mk, view_eta] | split | dsimp only

theorem view_traceRelease (n : Nat) (s : State) : view (traceRelease n s) = view s := by
  unfold traceRelease
  repeat' first
    | with_reducible first | rfl | refine (view_traceMarker ..).trans ?_ | apply view_ite
    | simp only [↓view_mk, view_eta] | split | dsimp only

/-! ### Machine/RingOps.lean -/

theorem view_modRing (fn : Nat) (q : Nat) (f : Ring → Ring) (s : State) : view (modRing fn q f s) = view s := by
  unfold modRing
  repeat' first
    | with_reducible first | rfl
    | simp only [↓view_mk, view_eta] | dsimp only

theorem view_writeRing (fn : Nat) (q : Nat) (i : Nat) (v : Word) (s : State) : view (writeRing fn q i v s) = view s := by
  unfold writeRing
  repeat' first
    | with_reducible first | rfl | refine (view_modRing ..).trans ?_ | apply view_ite
    | simp only [↓view_mk, view_eta] | split | dsimp only

theorem view_modQueue (fn : Nat) (f : EvQueue → EvQueue) (s : State) : view (modQueue fn f s) = view s := by
  unfold modQueue
  repeat' first
    | with_reducible first | rfl | refine (view_modTen ..).trans ?_
    | simp only [↓view_mk, view_eta] | dsimp only

theorem view_writeQueue (fn : Nat) (i : Nat) (v : Word) (s : State) : view (writeQueue fn i v s) = view s := by
  unfold writeQueue
  repeat' first
    | with_reducible first | rfl | refine (view_modQueue ..).trans ?_ | apply view_ite
    | simp only [↓view_mk, view_eta] | split | dsimp only

theorem view_writeModeration (fn : Nat) (v : Nat) (x : Word) (s : State) : view (writeModeration fn v x s) = view s := by
  unfold writeModeration
  repeat' first
    | with_reducible first | rfl | refine (view_modTen ..).trans ?_
    | simp only [↓view_mk, view_eta] | dsimp only

theorem view_writeVector (fn : Nat) (v : Nat) (i : Nat) (x : Word) (s : State) : view (writeVector fn v i x s) = view s := by
  unfold writeVector
  repeat' first
    | with_reducible first | rfl | refine (view_modTen ..).trans ?_ | refine (view_sendMsix ..).trans ?_ | apply view_ite
    | simp only [↓view_mk, view_eta] | split | dsimp only

theorem view_writeSource (src : Nat) (v : Word) (s : State) : view (writeSource src v s) = view s := by
  unfold writeSource
  repeat' first
    | with_reducible first | rfl | refine (view_modTen ..).trans ?_ | apply view_ite
    | simp only [↓view_mk, view_eta] | split | dsimp only

theorem view_writeClass (t : Nat) (c : Nat) (v : Word) (s : State) : view (writeClass t c v s) = view s := by
  unfold writeClass
  repeat' first
    | with_reducible first | rfl | refine (view_modTen ..).trans ?_
    | simp only [↓view_mk, view_eta] | dsimp only

theorem view_sendMail (t : Nat) (k : Nat) (v : Word) (s : State) : view (sendMail t k v s) = view s := by
  unfold sendMail
  repeat' first
    | with_reducible first | rfl | refine (view_modTen ..).trans ?_ | refine (view_raiseNow ..).trans ?_ | apply view_ite
    | simp only [↓view_mk, view_eta] | split | dsimp only

theorem view_mgmtMail (t : Nat) (k : Nat) (v : Word) (s : State) : view (mgmtMail t k v s) = view s := by
  unfold mgmtMail
  repeat' first
    | with_reducible first | rfl | refine (view_sendMail ..).trans ?_ | refine (view_modTen ..).trans ?_
    | simp only [↓view_mk, view_eta] | split | dsimp only

theorem view_clearDrops (t : Nat) (v : Word) (s : State) : view (clearDrops t v s) = view s := by
  unfold clearDrops
  repeat' first
    | with_reducible first | rfl | refine (view_modTen ..).trans ?_ | refine (view_forEach _ _ _ fun _ _ => ?_).trans ?_
    | simp only [↓view_mk, view_eta] | dsimp only

theorem view_clearAlert (v : Word) (s : State) : view (clearAlert v s) = view s := by
  unfold clearAlert
  repeat' first
    | with_reducible first | rfl | apply view_ite
    | simp only [↓view_mk, view_eta] | split | dsimp only

theorem view_writeAlertEn (v : Word) (s : State) : view (writeAlertEn v s) = view s := by
  unfold writeAlertEn
  repeat' first
    | with_reducible first | rfl
    | simp only [↓view_mk, view_eta] | dsimp only

theorem view_requestWarm (v : Word) (s : State) : view (requestWarm v s) = view s := by
  unfold requestWarm
  repeat' first
    | with_reducible first | rfl | refine (view_wearForReset ..).trans ?_ | refine (view_yieldPair ..).trans ?_ | apply view_ite
    | simp only [↓view_mk, view_eta] | split | dsimp only

/-! ### Machine/Therm.lean -/

theorem view_execHkSlotValueFinal (h : Nat) (value : Int) (ovr : Bool) (s : State) : Keeps (execHkSlotValueFinal h value ovr s) s := by
  unfold execHkSlotValueFinal
  repeat' first
    | with_reducible first | rfl | refine (view_modTherm ..).trans ?_ | refine (view_feedAcc ..).trans ?_ | apply keeps_onObject
    | with_reducible first | apply view_ite | refine view_elim _ _ _ _ ?_ (fun _ => ?_)
    | simp only [↓view_mk, view_eta] | split | dsimp only

theorem view_takeSample (x : WearSample) (s : State) : view (takeSample x s) = view s := by
  unfold takeSample
  repeat' first
    | with_reducible first | rfl
    | simp only [↓view_mk, view_eta] | dsimp only

theorem view_execWearDailySample (samples : List WearSample) (s : State) : Keeps (execWearDailySample samples s) s := by
  unfold execWearDailySample
  repeat' first
    | with_reducible first | rfl | refine (view_takeSample ..).trans ?_ | refine (view_noteWear ..).trans ?_
    | with_reducible first | refine (view_modTherm ..).trans ?_ | apply keeps_next | apply view_ite
    | with_reducible first | refine (view_forEach _ _ _ fun _ _ => ?_).trans ?_
    | simp only [↓view_mk, view_eta] | split | dsimp only

theorem view_execWearCounterWrite (s : State) : Keeps (execWearCounterWrite s) s := by
  unfold execWearCounterWrite
  repeat' first
    | with_reducible first | rfl | refine (view_writeWear ..).trans ?_ | apply keeps_next | apply view_ite
    | split | dsimp only

theorem view_actHkThermal (x0 : Req) (x1 : State) (t : State) : view (actHkThermal x0 x1 t).state = view t := by
  unfold actHkThermal
  repeat' first
    | with_reducible first | rfl | refine (rview_now ..).trans ?_
    | dsimp only

theorem view_execHkThermal (r : Req) (s : State) : Keeps (execHkThermal r s) s := by
  unfold execHkThermal
  repeat' first
    | with_reducible first | rfl | refine (view_command _ _ _ _ fun _ => ?_).trans ?_ | apply keeps_next
    | exact view_actHkThermal _ _ _ | dsimp only

theorem view_actHkWear (r : Req) (x1 : State) (t : State) : view (actHkWear r x1 t).state = view t := by
  unfold actHkWear
  repeat' first
    | with_reducible first | rfl | refine (view_emitStatus ..).trans ?_ | refine (rview_now ..).trans ?_
    | with_reducible first | refine view_elim _ _ _ _ ?_ (fun _ => ?_)
    | dsimp only

theorem view_execHkWear (r : Req) (s : State) : Keeps (execHkWear r s) s := by
  unfold execHkWear
  repeat' first
    | with_reducible first | rfl | refine (view_command _ _ _ _ fun _ => ?_).trans ?_ | apply keeps_next
    | exact view_actHkWear _ _ _ | dsimp only

theorem view_actHkTrace (r : Req) (x1 : State) (t : State) : view (actHkTrace r x1 t).state = view t := by
  unfold actHkTrace
  repeat' first
    | with_reducible first | rfl | refine (view_traceRelease ..).trans ?_ | refine (view_emitBuffer ..).trans ?_ | apply rview_ite
    | with_reducible first | refine (rview_now ..).trans ?_ | apply view_ite
    | simp only [↓view_mk, view_eta] | split | dsimp only

theorem view_execHkTrace (r : Req) (s : State) : Keeps (execHkTrace r s) s := by
  unfold execHkTrace
  repeat' first
    | with_reducible first | rfl | refine (view_command _ _ _ _ fun _ => ?_).trans ?_ | apply keeps_next
    | exact view_actHkTrace _ _ _ | dsimp only

/-! ### Machine/Dev.lean -/

theorem view_actDevInfo (r : Req) (x1 : State) (t : State) : view (actDevInfo r x1 t).state = view t := by
  unfold actDevInfo
  repeat' first
    | with_reducible first | rfl | apply rview_ite | refine (rview_now ..).trans ?_ | apply view_ite
    | split | dsimp only

theorem view_execDevInfo (r : Req) (s : State) : Keeps (execDevInfo r s) s := by
  unfold execDevInfo
  repeat' first
    | with_reducible first | rfl | refine (view_command _ _ _ _ fun _ => ?_).trans ?_ | apply keeps_next
    | exact view_actDevInfo _ _ _ | dsimp only

theorem view_actDevReady (x0 : Req) (x1 : State) (t : State) : view (actDevReady x0 x1 t).state = view t := by
  unfold actDevReady
  repeat' first
    | with_reducible first | rfl | refine (rview_now ..).trans ?_
    | dsimp only

theorem view_execDevReady (r : Req) (s : State) : Keeps (execDevReady r s) s := by
  unfold execDevReady
  repeat' first
    | with_reducible first | rfl | refine (view_command _ _ _ _ fun _ => ?_).trans ?_ | apply keeps_next
    | exact view_actDevReady _ _ _ | dsimp only

theorem view_actDevCaps (r : Req) (x1 : State) (t : State) : view (actDevCaps r x1 t).state = view t := by
  unfold actDevCaps
  repeat' first
    | with_reducible first | rfl | refine (view_emitStatus ..).trans ?_ | refine (rview_now ..).trans ?_
    | dsimp only

theorem view_execDevCaps (r : Req) (s : State) : Keeps (execDevCaps r s) s := by
  unfold execDevCaps
  repeat' first
    | with_reducible first | rfl | refine (view_command _ _ _ _ fun _ => ?_).trans ?_ | apply keeps_next
    | exact view_actDevCaps _ _ _ | dsimp only

theorem view_actDevTime (x0 : Req) (x1 : State) (t : State) : view (actDevTime x0 x1 t).state = view t := by
  unfold actDevTime
  repeat' first
    | with_reducible first | rfl | refine (view_State_takeFrac ..).trans ?_ | refine (rview_now ..).trans ?_
    | simp only [↓view_mk, view_eta] | split | dsimp only

theorem view_execDevTime (r : Req) (s : State) : Keeps (execDevTime r s) s := by
  unfold execDevTime
  repeat' first
    | with_reducible first | rfl | refine (view_command _ _ _ _ fun _ => ?_).trans ?_ | apply keeps_next
    | exact view_actDevTime _ _ _ | dsimp only

theorem view_actDevNop (x0 : Req) (x1 : State) (t : State) : view (actDevNop x0 x1 t).state = view t := by
  unfold actDevNop
  repeat' first
    | with_reducible first | rfl | refine (rview_now ..).trans ?_
    | dsimp only

theorem view_execDevNop (r : Req) (s : State) : Keeps (execDevNop r s) s := by
  unfold execDevNop
  repeat' first
    | with_reducible first | rfl | refine (view_command _ _ _ _ fun _ => ?_).trans ?_ | apply keeps_next
    | exact view_actDevNop _ _ _ | dsimp only

theorem view_execPtmResponse (host : BitVec 64) (s : State) : Keeps (execPtmResponse host s) s := by
  unfold execPtmResponse
  repeat' first
    | with_reducible first | rfl | refine (view_State_takeFrac ..).trans ?_ | apply keeps_next | apply view_ite
    | simp only [↓view_mk, view_eta] | split | dsimp only

theorem view_actChkBind (r : Req) (x1 : State) (t : State) : view (actChkBind r x1 t).state = view t := by
  unfold actChkBind
  repeat' first
    | with_reducible first | rfl | apply rview_ite | refine (rview_now ..).trans ?_ | apply view_ite
    | simp only [↓view_mk, view_eta] | split | dsimp only

theorem view_execChkBind (r : Req) (s : State) : Keeps (execChkBind r s) s := by
  unfold execChkBind
  repeat' first
    | with_reducible first | rfl | refine (view_command _ _ _ _ fun _ => ?_).trans ?_ | apply keeps_next
    | exact view_actChkBind _ _ _ | dsimp only

theorem view_actChkStatus (r : Req) (x1 : State) (t : State) : view (actChkStatus r x1 t).state = view t := by
  unfold actChkStatus
  repeat' first
    | with_reducible first | rfl | refine (rview_now ..).trans ?_
    | dsimp only

theorem view_execChkStatus (r : Req) (s : State) : Keeps (execChkStatus r s) s := by
  unfold execChkStatus
  repeat' first
    | with_reducible first | rfl | refine (view_command _ _ _ _ fun _ => ?_).trans ?_ | apply keeps_next
    | exact view_actChkStatus _ _ _ | dsimp only

/-! ### Machine/Hk.lean -/

theorem view_actHkRecords (r : Req) (x1 : State) (t : State) : view (actHkRecords r x1 t).state = view t := by
  unfold actHkRecords
  repeat' first
    | with_reducible first | rfl | refine (view_emitStatus ..).trans ?_ | refine (rview_now ..).trans ?_
    | dsimp only

theorem view_execHkRecords (r : Req) (s : State) : Keeps (execHkRecords r s) s := by
  unfold execHkRecords
  repeat' first
    | with_reducible first | rfl | refine (view_command _ _ _ _ fun _ => ?_).trans ?_ | apply keeps_next
    | exact view_actHkRecords _ _ _ | dsimp only

theorem view_imageEvent (what : Nat) (b : Bool) (secVer : Nat) (s : State) : view (imageEvent what b secVer s) = view s := by
  unfold imageEvent
  repeat' first
    | with_reducible first | rfl | refine (view_raiseNow ..).trans ?_
    | dsimp only

theorem view_execFwStagingDone (checks : ImageChecks) (parts : ImageParts) (s : State) : Keeps (execFwStagingDone checks parts s) s := by
  unfold execFwStagingDone
  repeat' first
    | with_reducible first | rfl | refine (view_imageEvent ..).trans ?_ | refine (view_putSlot ..).trans ?_
    | with_reducible first | refine (view_finish ..).trans ?_ | apply keeps_next | apply view_ite
    | simp only [↓view_mk, view_eta] | split | dsimp only

theorem view_actHkBist (r : Req) (x1 : State) (t : State) : view (actHkBist r x1 t).state = view t := by
  unfold actHkBist
  repeat' first
    | with_reducible first | rfl | refine (view_setUnit ..).trans ?_ | refine (view_emitStatus ..).trans ?_ | apply rview_ite
    | with_reducible first | refine (rview_now ..).trans ?_ | refine (rview_long ..).trans ?_ | apply view_ite
    | simp only [↓view_mk, view_eta] | split | dsimp only

theorem view_execHkBist (r : Req) (s : State) : Keeps (execHkBist r s) s := by
  unfold execHkBist
  repeat' first
    | with_reducible first | rfl | refine (view_command _ _ _ _ fun _ => ?_).trans ?_ | apply keeps_next
    | exact view_actHkBist _ _ _ | dsimp only

theorem view_execBistRunDone (result : Nat) (s : State) : Keeps (execBistRunDone result s) s := by
  unfold execBistRunDone
  repeat' first
    | with_reducible first | rfl | refine (view_recordFence ..).trans ?_ | refine (view_setUnit ..).trans ?_
    | with_reducible first | refine (view_finishOn ..).trans ?_ | apply keeps_next | apply view_ite
    | simp only [↓view_mk, view_eta] | split | dsimp only

theorem view_requestRecord (value : Word) (s : State) : view (requestRecord value s) = view s := by
  unfold requestRecord
  repeat' first
    | with_reducible first | rfl | apply view_ite
    | simp only [↓view_mk, view_eta] | split | dsimp only

theorem view_execNvrReqWrite (value : Word) (s : State) : Keeps (execNvrReqWrite value s) s := by
  unfold execNvrReqWrite
  repeat' first
    | with_reducible first | rfl | refine (view_requestRecord ..).trans ?_ | apply keeps_next | apply view_ite
    | split | dsimp only

theorem view_execNvrReadDone (s : State) : Keeps (execNvrReadDone s) s := by
  unfold execNvrReadDone
  repeat' first
    | with_reducible first | rfl | apply keeps_next | apply view_ite
    | simp only [↓view_mk, view_eta] | split | dsimp only

/-! ### Machine/BootOps.lean -/

theorem view_cutChain (c : Nat) (s : State) : view (cutChain c s) = view s := by
  unfold cutChain
  repeat' first
    | with_reducible first | rfl | refine (view_onSilent ..).trans ?_ | refine (view_stopChain ..).trans ?_
    | with_reducible first | refine (view_endProc ..).trans ?_ | refine (view_completeDeferred ..).trans ?_
    | with_reducible first | refine (view_finish ..).trans ?_ | apply view_ite | refine (view_forEach _ _ _ fun _ _ => ?_).trans ?_
    | simp only [↓view_mk, view_eta] | split | dsimp only

theorem view_cutChains (l : List Nat) (s : State) : view (cutChains l s) = view s := by
  unfold cutChains
  repeat' first
    | with_reducible first | rfl | refine (view_cutChain ..).trans ?_ | refine (view_forEach _ _ _ fun _ _ => ?_).trans ?_
    | dsimp only

theorem view_cutLane (l : Nat) (s : State) : view (cutLane l s) = view s := by
  unfold cutLane
  repeat' first
    | with_reducible first | rfl | refine (view_laneEvent ..).trans ?_ | refine (view_noteLane ..).trans ?_
    | with_reducible first | refine (view_modLane ..).trans ?_ | refine (view_finish ..).trans ?_ | apply view_ite
    | simp only [↓view_mk, view_eta] | split | dsimp only

theorem view_cutLanes (s : State) : view (cutLanes s) = view s := by
  unfold cutLanes
  repeat' first
    | with_reducible first | rfl | refine (view_cutLane ..).trans ?_ | refine (view_forEach _ _ _ fun _ _ => ?_).trans ?_
    | simp only [↓view_mk, view_eta] | dsimp only

theorem view_dropPorts (s : State) : view (dropPorts s) = view s := by
  unfold dropPorts
  repeat' first
    | with_reducible first | rfl | refine (view_cutChain ..).trans ?_ | refine (view_losePosition ..).trans ?_
    | with_reducible first | refine (view_ringEvent ..).trans ?_ | refine (view_noteRing ..).trans ?_ | refine (view_modChain ..).trans ?_
    | with_reducible first | refine (view_forEach _ _ _ fun _ _ => ?_).trans ?_
    | simp only [↓view_mk, view_eta] | dsimp only

theorem view_askWarm (bit : Nat) (s : State) : view (askWarm bit s) = view s := by
  unfold askWarm
  repeat' first
    | with_reducible first | rfl | refine (view_modBoot _ _ fun _ => ?_).trans ?_ | refine (view_wearForReset ..).trans ?_
    | with_reducible first | refine (view_yieldPair ..).trans ?_ | apply view_ite
    | exact ⟨rfl, rfl⟩ | simp only [↓view_mk, view_eta] | split | dsimp only

theorem view_fenceHomes (s : State) : view (fenceHomes s) = view s := by
  unfold fenceHomes
  repeat' first
    | with_reducible first | rfl | refine (view_fenceTile ..).trans ?_ | refine (view_forEach _ _ _ fun _ _ => ?_).trans ?_
    | dsimp only

theorem view_assignTiles (s : State) : view (assignTiles s) = view s := by
  unfold assignTiles
  repeat' first
    | with_reducible first | rfl | refine (view_useSpare ..).trans ?_ | refine (view_fenceTile ..).trans ?_ | apply view_ite
    | with_reducible first | refine (view_forEach _ _ _ fun _ _ => ?_).trans ?_
    | simp only [↓view_mk, view_eta] | split | dsimp only

theorem view_fencePorts (src : Nat) (s : State) : view (fencePorts src s) = view s := by
  unfold fencePorts
  repeat' first
    | with_reducible first | rfl | refine (view_setUnit ..).trans ?_ | apply view_ite | refine (view_forEach _ _ _ fun _ _ => ?_).trans ?_
    | simp only [↓view_mk, view_eta] | split | dsimp only

theorem view_fenceRecorded (s : State) : view (fenceRecorded s) = view s := by
  unfold fenceRecorded
  repeat' first
    | with_reducible first | rfl | refine (view_setUnit ..).trans ?_ | refine (view_forEach _ _ _ fun _ _ => ?_).trans ?_
    | simp only [↓view_mk, view_eta] | dsimp only

theorem view_passUnit (cls : Nat) (u : Nat) (s : State) : view (passUnit cls u s) = view s := by
  unfold passUnit
  repeat' first
    | with_reducible first | rfl | refine (view_setUnit ..).trans ?_ | apply view_ite
    | simp only [↓view_mk, view_eta] | split | dsimp only

theorem view_failUnit (cls : Nat) (u : Nat) (result : Nat) (s : State) : view (failUnit cls u result s) = view s := by
  unfold failUnit
  repeat' first
    | with_reducible first | rfl | refine (view_fencePorts ..).trans ?_ | refine (view_fenceHomes ..).trans ?_
    | with_reducible first | refine (view_recordFence ..).trans ?_ | refine (view_setUnit ..).trans ?_ | refine (view_setAlert ..).trans ?_
    | with_reducible first | apply view_ite
    | simp only [↓view_mk, view_eta] | split | dsimp only

theorem view_restoreConfig (k : Kept) (s : State) : view (restoreConfig k s) = view s := by
  unfold restoreConfig
  repeat' first
    | with_reducible first | rfl | refine (view_forEach _ _ _ fun _ _ => ?_).trans ?_
    | simp only [↓view_mk, view_eta] | dsimp only

theorem view_reportZero (s : State) : view (reportZero s) = view s := by
  unfold reportZero
  refine view_ite _ _ _ _ ?_ rfl
  exact (view_raiseNow ..).trans rfl

theorem view_trialEvent (passed : Bool) (fell : Bool) (b : Bool) (s : State) : view (trialEvent passed fell b s) = view s := by
  unfold trialEvent
  repeat' first
    | with_reducible first | rfl | refine (view_raiseNow ..).trans ?_
    | dsimp only

theorem view_runImage (b : Bool) (img : FwImage) (s : State) : view (runImage b img s) = view s := by
  unfold runImage
  repeat' first
    | with_reducible first | rfl | refine (view_trialEvent ..).trans ?_ | refine (view_modBoot _ _ fun _ => ?_).trans ?_
    | with_reducible first | refine (view_modSafe _ _ fun _ => ?_).trans ?_ | apply view_ite
    | exact ⟨rfl, rfl⟩ | exact ⟨rfl, rfl, rfl⟩ | simp only [↓view_mk, view_eta] | split | dsimp only

theorem view_failTrial (s : State) : view (failTrial s) = view s := by
  unfold failTrial
  repeat' first
    | with_reducible first | rfl | refine (view_trialEvent ..).trans ?_ | refine (view_askWarm ..).trans ?_
    | with_reducible first | refine (view_modBoot _ _ fun _ => ?_).trans ?_
    | exact ⟨rfl, rfl⟩ | simp only [↓view_mk, view_eta] | dsimp only

/-! ### Machine/Boot.lean -/

theorem view_execMgmtCoreWatchdog (s : State) : Keeps (execMgmtCoreWatchdog s) s := by
  unfold execMgmtCoreWatchdog
  repeat' first
    | with_reducible first | rfl | refine (view_failTrial ..).trans ?_ | refine (view_askWarm ..).trans ?_ | apply keeps_next
    | with_reducible first | apply view_ite
    | split | dsimp only

theorem view_execPcieReset (kind : PcieResetKind) (s : State) : Keeps (execPcieReset kind s) s := by
  unfold execPcieReset
  repeat' first
    | with_reducible first | rfl | refine (view_modBoot _ _ fun _ => ?_).trans ?_ | refine (view_clearQueue ..).trans ?_
    | with_reducible first | refine (view_clearTransport ..).trans ?_ | refine (view_resetDisabled ..).trans ?_
    | with_reducible first | refine (view_modTen ..).trans ?_ | refine (view_refreshReady ..).trans ?_ | refine (view_setAlert ..).trans ?_
    | with_reducible first | apply keeps_next | apply view_ite
    | exact ⟨rfl, rfl⟩ | simp only [↓view_mk, view_eta] | split | dsimp only

theorem view_execTestLogicReset (s : State) : Keeps (execTestLogicReset s) s := by
  unfold execTestLogicReset
  repeat' first
    | with_reducible first | rfl | apply keeps_next
    | dsimp only

theorem view_execTrialBootDeadline (s : State) : Keeps (execTrialBootDeadline s) s := by
  unfold execTrialBootDeadline
  repeat' first
    | with_reducible first | rfl | refine (view_failTrial ..).trans ?_ | refine (view_modBoot _ _ fun _ => ?_).trans ?_ | apply keeps_next
    | with_reducible first | apply view_ite
    | exact ⟨rfl, rfl⟩ | simp only [↓view_mk, view_eta] | split | dsimp only

theorem view_execVlineOutOfRange (s : State) : Keeps (execVlineOutOfRange s) s := by
  unfold execVlineOutOfRange
  repeat' first
    | with_reducible first | rfl | refine (view_dropPorts ..).trans ?_ | refine (view_modBoot _ _ fun _ => ?_).trans ?_ | apply keeps_next
    | with_reducible first | apply view_ite
    | exact ⟨rfl, rfl⟩ | simp only [↓view_mk, view_eta] | split | dsimp only

theorem view_execVlineBackInRange (s : State) : Keeps (execVlineBackInRange s) s := by
  unfold execVlineBackInRange
  repeat' first
    | with_reducible first | rfl | refine (view_modBoot _ _ fun _ => ?_).trans ?_ | apply keeps_next | apply view_ite
    | exact ⟨rfl, rfl⟩ | simp only [↓view_mk, view_eta] | split | dsimp only

theorem view_dropStaging (s : State) : view (dropStaging s) = view s := by
  unfold dropStaging
  repeat' first
    | with_reducible first | rfl | refine (view_modBoot _ _ fun _ => ?_).trans ?_ | refine (view_finish ..).trans ?_
    | exact ⟨rfl, rfl⟩ | simp only [↓view_mk, view_eta] | split | dsimp only

/-! ### Machine/CalStats.lean -/

theorem view_modStats (p : Nat) (takes : CalRun → Bool) (f : CalRun → CalStat → CalStat) (s : State) :
    view (modStats p takes f s) = view s := by
  unfold modStats
  repeat' first
    | with_reducible first | rfl | apply view_ite
    | simp only [↓view_mk, view_eta] | split | dsimp only

theorem view_calPrimary (chi : Nat) (k : Nat) (s : State) : view (calPrimary chi k s) = view s := by
  unfold calPrimary
  repeat' first
    | with_reducible first | rfl | refine (view_modStats ..).trans ?_ | apply view_ite | refine (view_forEach _ _ _ fun _ _ => ?_).trans ?_
    | simp only [↓view_mk, view_eta] | split | dsimp only

theorem view_calDwell (p : Nat) (pos : Nat) (k : Nat) (x : Sample) (s : State) : view (calDwell p pos k x s) = view s := by
  unfold calDwell
  repeat' first
    | with_reducible first | rfl | refine (view_modStats ..).trans ?_ | apply view_ite
    | simp only [↓view_mk, view_eta] | split | dsimp only

/-! ### Machine/Map.lean -/

theorem view_actMapBind (r : Req) (x1 : State) (t : State) : view (actMapBind r x1 t).state = view t := by
  unfold actMapBind
  repeat' first
    | with_reducible first | rfl | refine (rview_now ..).trans ?_
    | simp only [↓view_mk, view_eta] | dsimp only

theorem view_execMapBind (r : Req) (s : State) : Keeps (execMapBind r s) s := by
  unfold execMapBind
  repeat' first
    | with_reducible first | rfl | refine (view_command _ _ _ _ fun _ => ?_).trans ?_ | apply keeps_next
    | exact view_actMapBind _ _ _ | dsimp only

theorem view_actMapCommit (r : Req) (x1 : State) (t : State) : view (actMapCommit r x1 t).state = view t := by
  unfold actMapCommit
  repeat' first
    | with_reducible first | rfl | apply rview_ite | refine (rview_long ..).trans ?_ | apply view_ite
    | simp only [↓view_mk, view_eta] | split | dsimp only

theorem view_execMapCommit (r : Req) (s : State) : Keeps (execMapCommit r s) s := by
  unfold execMapCommit
  repeat' first
    | with_reducible first | rfl | refine (view_command _ _ _ _ fun _ => ?_).trans ?_ | apply keeps_next
    | exact view_actMapCommit _ _ _ | dsimp only

theorem view_execMapBuildComplete (s : State) : Keeps (execMapBuildComplete s) s := by
  unfold execMapBuildComplete
  repeat' first
    | with_reducible first | rfl | apply keeps_next | apply view_ite
    | simp only [↓view_mk, view_eta] | split | dsimp only

theorem view_bindingEffects (old : Bindings) (x : Staged) (s : State) : view (bindingEffects old x s) = view s := by
  unfold bindingEffects
  repeat' first
    | with_reducible first | rfl | refine (view_cutTag ..).trans ?_ | refine (view_restartFocus ..).trans ?_
    | with_reducible first | refine (view_cutCtx ..).trans ?_ | refine (view_markStdPos ..).trans ?_ | refine (view_markBinding ..).trans ?_
    | with_reducible first | apply view_ite | refine (view_forEach _ _ _ fun _ _ => ?_).trans ?_
    | simp only [↓view_mk, view_eta] | split | dsimp only

theorem view_rescopeTrips (s : State) : view (rescopeTrips s) = view s := by
  unfold rescopeTrips
  repeat' first
    | with_reducible first | rfl
    | simp only [↓view_mk, view_eta] | dsimp only

theorem view_flipMap (b : Build) (s : State) : view (flipMap b s) = view s := by
  unfold flipMap
  repeat' first
    | with_reducible first | rfl | refine (view_rescopeTrips ..).trans ?_ | refine (view_bindingEffects ..).trans ?_
    | with_reducible first | refine (view_finish ..).trans ?_ | refine (view_raiseNow ..).trans ?_ | apply view_ite
    | with_reducible first | refine (view_forEach _ _ _ fun _ _ => ?_).trans ?_
    | simp only [↓view_mk, view_eta] | split | dsimp only

theorem view_execMapFlip (s : State) : Keeps (execMapFlip s) s := by
  unfold execMapFlip
  repeat' first
    | with_reducible first | rfl | refine (view_flipMap ..).trans ?_ | apply keeps_next | apply view_ite
    | simp only [↓view_mk, view_eta] | split | dsimp only

theorem view_dropStaged (p : Staged → Bool) (s : State) : view (dropStaged p s) = view s := by
  unfold dropStaged
  repeat' first
    | with_reducible first | rfl
    | simp only [↓view_mk, view_eta] | dsimp only

theorem view_actMapRead (r : Req) (x1 : State) (t : State) : view (actMapRead r x1 t).state = view t := by
  unfold actMapRead
  repeat' first
    | with_reducible first | rfl | refine (view_emitStatus ..).trans ?_ | refine (rview_now ..).trans ?_
    | dsimp only

theorem view_execMapRead (r : Req) (s : State) : Keeps (execMapRead r s) s := by
  unfold execMapRead
  repeat' first
    | with_reducible first | rfl | refine (view_command _ _ _ _ fun _ => ?_).trans ?_ | apply keeps_next
    | exact view_actMapRead _ _ _ | dsimp only

theorem view_actMapRange (r : Req) (x1 : State) (t : State) : view (actMapRange r x1 t).state = view t := by
  unfold actMapRange
  repeat' first
    | with_reducible first | rfl | refine (view_emitStatus ..).trans ?_ | refine (rview_now ..).trans ?_
    | dsimp only

theorem view_execMapRange (r : Req) (s : State) : Keeps (execMapRange r s) s := by
  unfold execMapRange
  repeat' first
    | with_reducible first | rfl | refine (view_command _ _ _ _ fun _ => ?_).trans ?_ | apply keeps_next
    | exact view_actMapRange _ _ _ | dsimp only

/-! ### Machine/Cal.lean -/

theorem view_finishRun (fn : Nat) (slot : Nat) (r : CalRun) (s : State) : view (finishRun fn slot r s) = view s := by
  unfold finishRun
  repeat' first
    | with_reducible first | rfl | refine (view_putRun ..).trans ?_ | refine (view_decideCommit ..).trans ?_
    | with_reducible first | refine (view_finishOn ..).trans ?_ | refine (view_raisePos ..).trans ?_ | apply view_ite
    | with_reducible first | refine (view_forEach _ _ _ fun _ _ => ?_).trans ?_
    | simp only [↓view_mk, view_eta] | split | dsimp only

theorem view_execCalRunFinish (fn : Nat) (slot : Nat) (start : Nat) (s : State) : Keeps (execCalRunFinish fn slot start s) s := by
  unfold execCalRunFinish
  repeat' first
    | with_reducible first | rfl | refine (view_finishRun ..).trans ?_ | apply keeps_next | apply view_ite
    | simp only [↓view_mk, view_eta] | split | dsimp only

theorem view_mapFirst (s : State) : view (mapFirst s) = view s := by
  unfold mapFirst
  repeat' first
    | with_reducible first | rfl | refine (view_flipMap ..).trans ?_ | apply view_ite | refine view_elim _ _ _ _ ?_ (fun _ => ?_)
    | simp only [↓view_mk, view_eta] | split | dsimp only

theorem view_execCalFlip (chain : Nat) (s : State) : Keeps (execCalFlip chain s) s := by
  unfold execCalFlip
  repeat' first
    | with_reducible first | rfl | refine (view_mapFirst ..).trans ?_ | refine (view_flipCommit ..).trans ?_ | apply keeps_onObject
    | with_reducible first | apply view_ite
    | simp only [↓view_mk, view_eta] | split | dsimp only

theorem view_execCalSlewStep (chi : Nat) (s : State) : Keeps (execCalSlewStep chi s) s := by
  unfold execCalSlewStep
  repeat' first
    | with_reducible first | rfl | refine (view_modTagCal ..).trans ?_ | apply keeps_onObject | apply view_ite
    | simp only [↓view_mk, view_eta] | split | dsimp only

theorem view_execCalCandidateExpiry (fn : Nat) (slot : Nat) (s : State) : Keeps (execCalCandidateExpiry fn slot s) s := by
  unfold execCalCandidateExpiry
  repeat' first
    | with_reducible first | rfl | refine (view_putRun ..).trans ?_ | apply keeps_next | apply view_ite
    | simp only [↓view_mk, view_eta] | split | dsimp only

theorem view_execLaneAdaptStep (lane : Nat) (rx : Nat) (up : Bool) (s : State) : Keeps (execLaneAdaptStep lane rx up s) s := by
  unfold execLaneAdaptStep
  repeat' first
    | with_reducible first | rfl | refine (view_modLane ..).trans ?_ | apply keeps_onObject | apply view_ite
    | simp only [↓view_mk, view_eta] | split | dsimp only

theorem view_execCalLaneRunFinish (lane : Nat) (m : LaneMeasure) (s : State) : Keeps (execCalLaneRunFinish lane m s) s := by
  unfold execCalLaneRunFinish
  repeat' first
    | with_reducible first | rfl | refine (view_putLaneRun ..).trans ?_ | refine (view_modLane ..).trans ?_
    | with_reducible first | refine (view_finishOn ..).trans ?_ | apply keeps_onObject | apply view_ite
    | simp only [↓view_mk, view_eta] | split | dsimp only

theorem view_dropHeld (fn : Nat) (ps : List Nat) (s : State) : view (dropHeld fn ps s) = view s := by
  unfold dropHeld
  repeat' first
    | with_reducible first | rfl | apply view_ite
    | simp only [↓view_mk, view_eta] | split | dsimp only

theorem view_actCalRun (r : Req) (s : State) (t : State) : view (actCalRun r s t).state = view t := by
  unfold actCalRun
  repeat' first
    | with_reducible first | rfl | refine (view_dropHeld ..).trans ?_ | refine (view_putLaneRun ..).trans ?_
    | with_reducible first | refine (view_putRun ..).trans ?_ | apply rview_ite | refine (rview_long ..).trans ?_ | apply view_ite
    | split | dsimp only

theorem view_execCalRun (r : Req) (s : State) : Keeps (execCalRun r s) s := by
  unfold execCalRun
  repeat' first
    | with_reducible first | rfl | refine (view_command _ _ _ _ fun _ => ?_).trans ?_ | apply keeps_next
    | exact view_actCalRun _ _ _ | dsimp only

theorem view_actCalStatus (r : Req) (x1 : State) (t : State) : view (actCalStatus r x1 t).state = view t := by
  unfold actCalStatus
  repeat' first
    | with_reducible first | rfl | refine (view_emitStatus ..).trans ?_ | apply rview_ite | refine (rview_now ..).trans ?_ | apply view_ite
    | simp only [↓view_mk, view_eta] | split | dsimp only

theorem view_execCalStatus (r : Req) (s : State) : Keeps (execCalStatus r s) s := by
  unfold execCalStatus
  repeat' first
    | with_reducible first | rfl | refine (view_command _ _ _ _ fun _ => ?_).trans ?_ | apply keeps_next
    | exact view_actCalStatus _ _ _ | dsimp only

theorem view_actCalApply (r : Req) (s : State) (t : State) : view (actCalApply r s t).state = view t := by
  unfold actCalApply
  repeat' first
    | with_reducible first | rfl | refine (view_putRun ..).trans ?_ | refine (view_decideCommit ..).trans ?_ | apply rview_ite
    | with_reducible first | refine (rview_now ..).trans ?_ | refine (rview_long ..).trans ?_ | apply view_ite
    | simp only [↓view_mk, view_eta] | split | dsimp only

theorem view_execCalApply (r : Req) (s : State) : Keeps (execCalApply r s) s := by
  unfold execCalApply
  repeat' first
    | with_reducible first | rfl | refine (view_command _ _ _ _ fun _ => ?_).trans ?_ | apply keeps_next
    | exact view_actCalApply _ _ _ | dsimp only

theorem view_actCalRevert (r : Req) (x1 : State) (t : State) : view (actCalRevert r x1 t).state = view t := by
  unfold actCalRevert
  repeat' first
    | with_reducible first | rfl | refine (view_decideCommit ..).trans ?_ | apply rview_ite | refine (rview_long ..).trans ?_
    | with_reducible first | apply view_ite
    | simp only [↓view_mk, view_eta] | split | dsimp only

theorem view_execCalRevert (r : Req) (s : State) : Keeps (execCalRevert r s) s := by
  unfold execCalRevert
  repeat' first
    | with_reducible first | rfl | refine (view_command _ _ _ _ fun _ => ?_).trans ?_ | apply keeps_next
    | exact view_actCalRevert _ _ _ | dsimp only

theorem view_actCalRead (r : Req) (x1 : State) (t : State) : view (actCalRead r x1 t).state = view t := by
  unfold actCalRead
  repeat' first
    | with_reducible first | rfl | refine (view_emitStatus ..).trans ?_ | refine (rview_now ..).trans ?_
    | simp only [↓view_mk, view_eta] | split | dsimp only

theorem view_execCalRead (r : Req) (s : State) : Keeps (execCalRead r s) s := by
  unfold execCalRead
  repeat' first
    | with_reducible first | rfl | refine (view_command _ _ _ _ fun _ => ?_).trans ?_ | apply keeps_next
    | exact view_actCalRead _ _ _ | dsimp only

theorem view_actCalLimits (r : Req) (x1 : State) (t : State) : view (actCalLimits r x1 t).state = view t := by
  unfold actCalLimits
  repeat' first
    | with_reducible first | rfl | refine (view_modChainCal ..).trans ?_ | apply rview_ite | refine (rview_now ..).trans ?_ | apply view_ite
    | simp only [↓view_mk, view_eta] | split | dsimp only

theorem view_execCalLimits (r : Req) (s : State) : Keeps (execCalLimits r s) s := by
  unfold execCalLimits
  repeat' first
    | with_reducible first | rfl | refine (view_command _ _ _ _ fun _ => ?_).trans ?_ | apply keeps_next
    | exact view_actCalLimits _ _ _ | dsimp only

/-! ### Machine/ChainCmd.lean -/

theorem view_actChainPower (r : Req) (s : State) (t : State) : view (actChainPower r s t).state = view t := by
  unfold actChainPower
  repeat' first
    | with_reducible first | rfl | refine (view_powerUp ..).trans ?_ | refine (view_modChain ..).trans ?_ | apply rview_ite
    | with_reducible first | refine (rview_now ..).trans ?_ | refine (rview_long ..).trans ?_ | refine (rview_later ..).trans ?_
    | with_reducible first | apply view_ite
    | simp only [↓view_mk, view_eta] | split | dsimp only

theorem view_execChainPower (r : Req) (s : State) : Keeps (execChainPower r s) s := by
  unfold execChainPower
  repeat' first
    | with_reducible first | rfl | refine (view_command _ _ _ _ fun _ => ?_).trans ?_ | apply keeps_next
    | exact view_actChainPower _ _ _ | dsimp only

theorem view_actChainEnum (r : Req) (x1 : State) (t : State) : view (actChainEnum r x1 t).state = view t := by
  unfold actChainEnum
  repeat' first
    | with_reducible first | rfl | refine (view_startProc ..).trans ?_ | refine (view_modChain ..).trans ?_ | apply rview_ite
    | with_reducible first | refine (rview_long ..).trans ?_ | apply view_ite
    | simp only [↓view_mk, view_eta] | split | dsimp only

theorem view_execChainEnum (r : Req) (s : State) : Keeps (execChainEnum r s) s := by
  unfold execChainEnum
  repeat' first
    | with_reducible first | rfl | refine (view_command _ _ _ _ fun _ => ?_).trans ?_ | apply keeps_next
    | exact view_actChainEnum _ _ _ | dsimp only

theorem view_actChainStatus (r : Req) (x1 : State) (t : State) : view (actChainStatus r x1 t).state = view t := by
  unfold actChainStatus
  repeat' first
    | with_reducible first | rfl | refine (view_emitStatus ..).trans ?_ | refine (rview_now ..).trans ?_
    | dsimp only

theorem view_execChainStatus (r : Req) (s : State) : Keeps (execChainStatus r s) s := by
  unfold execChainStatus
  repeat' first
    | with_reducible first | rfl | refine (view_command _ _ _ _ fun _ => ?_).trans ?_ | apply keeps_next
    | exact view_actChainStatus _ _ _ | dsimp only

theorem view_actChainPark (r : Req) (x1 : State) (t : State) : view (actChainPark r x1 t).state = view t := by
  unfold actChainPark
  repeat' first
    | with_reducible first | rfl | refine (view_endProc ..).trans ?_ | refine (view_modChain ..).trans ?_ | apply rview_ite
    | with_reducible first | refine (rview_long ..).trans ?_ | apply view_ite
    | simp only [↓view_mk, view_eta] | split | dsimp only

theorem view_execChainPark (r : Req) (s : State) : Keeps (execChainPark r s) s := by
  unfold execChainPark
  repeat' first
    | with_reducible first | rfl | refine (view_command _ _ _ _ fun _ => ?_).trans ?_ | apply keeps_next
    | exact view_actChainPark _ _ _ | dsimp only

theorem view_actChainWake (r : Req) (x1 : State) (t : State) : view (actChainWake r x1 t).state = view t := by
  unfold actChainWake
  repeat' first
    | with_reducible first | rfl | refine (view_powerUp ..).trans ?_ | refine (rview_long ..).trans ?_
    | dsimp only

theorem view_execChainWake (r : Req) (s : State) : Keeps (execChainWake r s) s := by
  unfold execChainWake
  repeat' first
    | with_reducible first | rfl | refine (view_command _ _ _ _ fun _ => ?_).trans ?_ | apply keeps_next
    | exact view_actChainWake _ _ _ | dsimp only

theorem view_actChainSelvRead (r : Req) (s : State) (t : State) : view (actChainSelvRead r s t).state = view t := by
  unfold actChainSelvRead
  repeat' first
    | with_reducible first | rfl | refine (view_modPos ..).trans ?_ | refine (view_emitStatus ..).trans ?_ | apply rview_ite
    | with_reducible first | refine (rview_now ..).trans ?_ | refine (rview_long ..).trans ?_ | apply view_ite
    | simp only [↓view_mk, view_eta] | split | dsimp only

theorem view_execChainSelvRead (r : Req) (s : State) : Keeps (execChainSelvRead r s) s := by
  unfold execChainSelvRead
  repeat' first
    | with_reducible first | rfl | refine (view_command _ _ _ _ fun _ => ?_).trans ?_ | apply keeps_next
    | exact view_actChainSelvRead _ _ _ | dsimp only

theorem view_actChainSelvWrite (r : Req) (x1 : State) (t : State) : view (actChainSelvWrite r x1 t).state = view t := by
  unfold actChainSelvWrite
  repeat' first
    | with_reducible first | rfl | refine (view_modPos ..).trans ?_ | refine (rview_long ..).trans ?_
    | simp only [↓view_mk, view_eta] | dsimp only

theorem view_execChainSelvWrite (r : Req) (s : State) : Keeps (execChainSelvWrite r s) s := by
  unfold execChainSelvWrite
  repeat' first
    | with_reducible first | rfl | refine (view_command _ _ _ _ fun _ => ?_).trans ?_ | apply keeps_next
    | exact view_actChainSelvWrite _ _ _ | dsimp only

theorem view_actChainReset (r : Req) (x1 : State) (t : State) : view (actChainReset r x1 t).state = view t := by
  unfold actChainReset
  repeat' first
    | with_reducible first | rfl | refine (view_powerUp ..).trans ?_ | refine (view_startProc ..).trans ?_
    | with_reducible first | refine (view_modOcc ..).trans ?_ | refine (view_modChain ..).trans ?_ | apply rview_ite
    | with_reducible first | refine (rview_long ..).trans ?_ | apply view_ite
    | simp only [↓view_mk, view_eta] | split | dsimp only

theorem view_execChainReset (r : Req) (s : State) : Keeps (execChainReset r s) s := by
  unfold execChainReset
  repeat' first
    | with_reducible first | rfl | refine (view_command _ _ _ _ fun _ => ?_).trans ?_ | apply keeps_next
    | exact view_actChainReset _ _ _ | dsimp only

/-! ### Machine/Pair.lean -/

theorem view_onMsg (m : PairMsg) (s : State) (f : State → State) (h : ∀ u, view (f u) = view u) : view (onMsg m s f) = view s := by
  unfold onMsg acceptMsg
  split
  · exact (h _).trans rfl
  · rfl

theorem view_execSeqState (m : PairMsg) (drives : Tbl Drive) (groups : Tbl Group) (s : State) :
    Keeps (execSeqState m drives groups s) s := by
  unfold execSeqState
  repeat' first
    | with_reducible first | rfl | refine (view_onMsg _ _ _ fun _ => ?_).trans ?_ | apply keeps_next | apply view_ite
    | simp only [↓view_mk, view_eta] | split | dsimp only

theorem view_execSafeState (m : PairMsg) (counts : Tbl Count) (latched : List Trip) (acked : List (Nat × Nat)) (stops : List (Nat × Bool))
    (s : State) :
    Keeps (execSafeState m counts latched acked stops s) s := by
  unfold execSafeState
  repeat' first
    | with_reducible first | rfl | refine (view_onMsg _ _ _ fun _ => ?_).trans ?_ | refine (view_modSafe _ _ fun _ => ?_).trans ?_
    | with_reducible first | apply keeps_next | apply view_ite | refine (view_forEach _ _ _ fun _ _ => ?_).trans ?_
    | exact ⟨rfl, rfl, rfl⟩ | simp only [↓view_mk, view_eta] | split | dsimp only

theorem view_execDemand (m : PairMsg) (t : Trip) (s : State) : Keeps (execDemand m t s) s := by
  unfold execDemand
  repeat' first
    | with_reducible first | rfl | refine (view_onMsg _ _ _ fun _ => ?_).trans ?_ | refine (view_modSafe _ _ fun _ => ?_).trans ?_
    | with_reducible first | refine (view_raiseNow ..).trans ?_ | apply keeps_next | apply view_ite
    | exact ⟨rfl, rfl, rfl⟩ | simp only [↓view_mk, view_eta] | simp only [id] | split | dsimp only

theorem view_execHandover (m : PairMsg) (s : State) : Keeps (execHandover m s) s := by
  unfold execHandover
  repeat' first
    | with_reducible first | rfl | refine (view_onMsg _ _ _ fun _ => ?_).trans ?_ | refine (view_modPair ..).trans ?_ | apply keeps_next
    | simp only [↓view_mk, view_eta] | dsimp only

theorem view_execLocalFault (m : PairMsg) (s : State) : Keeps (execLocalFault m s) s := by
  unfold execLocalFault
  repeat' first
    | with_reducible first | rfl | refine (view_onMsg _ _ _ fun _ => ?_).trans ?_ | refine (view_modPair ..).trans ?_ | apply keeps_next
    | simp only [↓view_mk, view_eta] | dsimp only

theorem view_execImage (m : PairMsg) (s : State) : Keeps (execImage m s) s := by
  unfold execImage
  repeat' first
    | with_reducible first | rfl | refine (view_onMsg _ _ _ fun _ => ?_).trans ?_ | refine (view_modPair ..).trans ?_ | apply keeps_next
    | with_reducible first | apply view_ite
    | simp only [↓view_mk, view_eta] | split | dsimp only

theorem view_execPairMessageResend (s : State) : Keeps (execPairMessageResend s) s := by
  unfold execPairMessageResend
  repeat' first
    | with_reducible first | rfl | apply keeps_next | apply view_ite
    | simp only [↓view_mk, view_eta] | split | dsimp only

theorem view_freshChannel (s : State) : view (freshChannel s) = view s := by
  unfold freshChannel
  repeat' first
    | with_reducible first | rfl | refine (view_modPair ..).trans ?_
    | simp only [↓view_mk, view_eta] | dsimp only

theorem view_execTwinLinkRestored (s : State) : Keeps (execTwinLinkRestored s) s := by
  unfold execTwinLinkRestored
  repeat' first
    | with_reducible first | rfl | refine (view_freshChannel ..).trans ?_ | refine (view_startUncopied ..).trans ?_
    | with_reducible first | refine (view_mergePair ..).trans ?_ | refine (view_modPair ..).trans ?_ | refine (view_raiseNow ..).trans ?_
    | with_reducible first | apply keeps_next | apply view_ite
    | simp only [↓view_mk, view_eta] | split | dsimp only

theorem view_execLeaseAssessment (s : State) : Keeps (execLeaseAssessment s) s := by
  unfold execLeaseAssessment
  repeat' first
    | with_reducible first | rfl | refine (view_stopClaims ..).trans ?_ | refine (view_startClaims ..).trans ?_
    | with_reducible first | refine (view_setRole ..).trans ?_ | refine (view_modPair ..).trans ?_ | refine (view_raiseNow ..).trans ?_
    | with_reducible first | apply keeps_next | apply view_ite
    | simp only [↓view_mk, view_eta] | split | dsimp only

theorem view_execDemotionBoundary (s : State) : Keeps (execDemotionBoundary s) s := by
  unfold execDemotionBoundary
  repeat' first
    | with_reducible first | rfl | refine (view_startResync ..).trans ?_ | refine (view_setRole ..).trans ?_
    | with_reducible first | refine (view_modPair ..).trans ?_ | refine (view_raiseNow ..).trans ?_ | apply keeps_next | apply view_ite
    | simp only [↓view_mk, view_eta] | split | dsimp only

theorem view_execHandoverPick (s : State) : Keeps (execHandoverPick s) s := by
  unfold execHandoverPick
  repeat' first
    | with_reducible first | rfl | refine (view_startUncopied ..).trans ?_ | refine (view_settleHandover ..).trans ?_
    | with_reducible first | refine (view_stopClaims ..).trans ?_ | refine (view_startClaims ..).trans ?_
    | with_reducible first | refine (view_setEpoch ..).trans ?_ | refine (view_setRole ..).trans ?_ | refine (view_modPair ..).trans ?_
    | with_reducible first | apply keeps_next | apply view_ite
    | simp only [↓view_mk, view_eta] | split | dsimp only

theorem view_execRefclkOffsetOut (offset : Int) (s : State) : Keeps (execRefclkOffsetOut offset s) s := by
  unfold execRefclkOffsetOut
  repeat' first
    | with_reducible first | rfl | refine (view_stopMirroring ..).trans ?_ | refine (view_modPair ..).trans ?_
    | with_reducible first | refine (view_raiseNow ..).trans ?_ | apply keeps_next | apply view_ite
    | simp only [↓view_mk, view_eta] | split | dsimp only

theorem view_execRefclkOffsetBack (offset : Int) (s : State) : Keeps (execRefclkOffsetBack offset s) s := by
  unfold execRefclkOffsetBack
  repeat' first
    | with_reducible first | rfl | refine (view_freshChannel ..).trans ?_ | refine (view_startUncopied ..).trans ?_
    | with_reducible first | refine (view_mergePair ..).trans ?_ | refine (view_modPair ..).trans ?_ | refine (view_raiseNow ..).trans ?_
    | with_reducible first | apply keeps_next | apply view_ite
    | simp only [↓view_mk, view_eta] | split | dsimp only

theorem view_endForming (status : Nat) (s : State) : view (endForming status s) = view s := by
  unfold endForming
  repeat' first
    | with_reducible first | rfl | refine (view_modPair ..).trans ?_ | refine (view_finishOn ..).trans ?_
    | simp only [↓view_mk, view_eta] | split | dsimp only

theorem view_execPairFormationTimeout (s : State) : Keeps (execPairFormationTimeout s) s := by
  unfold execPairFormationTimeout
  repeat' first
    | with_reducible first | rfl | refine (view_endForming ..).trans ?_ | apply keeps_next | apply view_ite
    | with_reducible first | refine view_elim _ _ _ _ ?_ (fun _ => ?_)
    | split | dsimp only

theorem view_leavePair (s : State) : view (leavePair s) = view s := by
  unfold leavePair
  repeat' first
    | with_reducible first | rfl | refine (view_releaseMirrored ..).trans ?_ | refine (view_setRole ..).trans ?_
    | with_reducible first | refine (view_modLane ..).trans ?_ | apply view_ite | refine (view_forEach _ _ _ fun _ _ => ?_).trans ?_
    | simp only [↓view_mk, view_eta] | split | dsimp only

theorem view_actPairConfig (r : Req) (x1 : State) (t : State) : view (actPairConfig r x1 t).state = view t := by
  unfold actPairConfig
  repeat' first
    | with_reducible first | rfl | refine (view_leavePair ..).trans ?_ | refine (view_modPair ..).trans ?_ | apply rview_ite
    | with_reducible first | refine (rview_long ..).trans ?_ | refine (rview_longNow ..).trans ?_ | apply view_ite
    | simp only [↓view_mk, view_eta] | split | dsimp only

theorem view_execPairConfig (r : Req) (s : State) : Keeps (execPairConfig r s) s := by
  unfold execPairConfig
  repeat' first
    | with_reducible first | rfl | refine (view_command _ _ _ _ fun _ => ?_).trans ?_ | apply keeps_next
    | exact view_actPairConfig _ _ _ | dsimp only

theorem view_actPairHandover (r : Req) (x1 : State) (t : State) : view (actPairHandover r x1 t).state = view t := by
  unfold actPairHandover
  repeat' first
    | with_reducible first | rfl | refine (view_modPair ..).trans ?_ | refine (view_sendPair ..).trans ?_ | refine (rview_long ..).trans ?_
    | simp only [↓view_mk, view_eta] | dsimp only

theorem view_execPairHandover (r : Req) (s : State) : Keeps (execPairHandover r s) s := by
  unfold execPairHandover
  repeat' first
    | with_reducible first | rfl | refine (view_command _ _ _ _ fun _ => ?_).trans ?_ | apply keeps_next
    | exact view_actPairHandover _ _ _ | dsimp only

theorem view_actPairUpdate (r : Req) (x1 : State) (t : State) : view (actPairUpdate r x1 t).state = view t := by
  unfold actPairUpdate
  repeat' first
    | with_reducible first | rfl | refine (view_modPair ..).trans ?_ | refine (view_sendPair ..).trans ?_
    | with_reducible first | refine (view_raiseNow ..).trans ?_ | refine (rview_long ..).trans ?_
    | simp only [↓view_mk, view_eta] | dsimp only

theorem view_execPairUpdate (r : Req) (s : State) : Keeps (execPairUpdate r s) s := by
  unfold execPairUpdate
  repeat' first
    | with_reducible first | rfl | refine (view_command _ _ _ _ fun _ => ?_).trans ?_ | apply keeps_next
    | exact view_actPairUpdate _ _ _ | dsimp only

theorem view_restartUpdate (s : State) : view (restartUpdate s) = view s := by
  unfold restartUpdate
  repeat' first
    | with_reducible first | rfl
    | simp only [↓view_mk, view_eta] | dsimp only

theorem view_updateStep (n : Nat) (s : State) : view (updateStep n s) = view s := by
  unfold updateStep
  repeat' first
    | with_reducible first | rfl | refine (view_modPair ..).trans ?_ | refine (view_raiseNow ..).trans ?_
    | simp only [↓view_mk, view_eta] | dsimp only

theorem view_actPairStatus (r : Req) (x1 : State) (t : State) : view (actPairStatus r x1 t).state = view t := by
  unfold actPairStatus
  repeat' first
    | with_reducible first | rfl | refine (view_emitStatus ..).trans ?_ | refine (rview_now ..).trans ?_
    | dsimp only

theorem view_execPairStatus (r : Req) (s : State) : Keeps (execPairStatus r s) s := by
  unfold execPairStatus
  repeat' first
    | with_reducible first | rfl | refine (view_command _ _ _ _ fun _ => ?_).trans ?_ | apply keeps_next
    | exact view_actPairStatus _ _ _ | dsimp only

theorem view_actPairLease (r : Req) (x1 : State) (t : State) : view (actPairLease r x1 t).state = view t := by
  unfold actPairLease
  repeat' first
    | with_reducible first | rfl | refine (view_emitStatus ..).trans ?_ | refine (rview_now ..).trans ?_
    | dsimp only

theorem view_execPairLease (r : Req) (s : State) : Keeps (execPairLease r s) s := by
  unfold execPairLease
  repeat' first
    | with_reducible first | rfl | refine (view_command _ _ _ _ fun _ => ?_).trans ?_ | apply keeps_next
    | exact view_actPairLease _ _ _ | dsimp only

/-! ### Machine/Ten.lean -/

theorem view_execFunctionLevelReset (vf : Nat) (s : State) : Keeps (execFunctionLevelReset vf s) s := by
  unfold execFunctionLevelReset
  repeat' first
    | with_reducible first | rfl | refine (view_resetDisabled ..).trans ?_ | refine (view_startTenantReset ..).trans ?_
    | with_reducible first | refine (view_modTen ..).trans ?_ | apply keeps_onObject | apply view_ite
    | simp only [↓view_mk, view_eta] | split | dsimp only

theorem view_execVfEnableCleared (enable : Bool) (numVfs : Nat) (s : State) : Keeps (execVfEnableCleared enable numVfs s) s := by
  unfold execVfEnableCleared
  repeat' first
    | with_reducible first | rfl | refine (view_resetDisabled ..).trans ?_ | refine (view_modTen ..).trans ?_ | apply keeps_next
    | with_reducible first | apply view_ite
    | simp only [↓view_mk, view_eta] | split | dsimp only

theorem view_execOwnerChange (chain : Nat) (s : State) : Keeps (execOwnerChange chain s) s := by
  unfold execOwnerChange
  repeat' first
    | with_reducible first | rfl | refine (view_passChain ..).trans ?_ | refine (view_modTen ..).trans ?_
    | with_reducible first | refine (view_finishOn ..).trans ?_ | refine (view_raise ..).trans ?_ | apply keeps_onObject | apply view_ite
    | simp only [↓view_mk, view_eta] | split | dsimp only

theorem view_execTenantResetEffect (t : Nat) (s : State) : Keeps (execTenantResetEffect t s) s := by
  unfold execTenantResetEffect
  repeat' first
    | with_reducible first | rfl | refine (view_effectReset ..).trans ?_ | refine (view_State_reset ..).trans ?_ | apply keeps_next
    | with_reducible first | apply view_ite
    | simp only [↓view_mk, view_eta] | split | dsimp only

theorem view_execTenantResetComplete (t : Nat) (s : State) : Keeps (execTenantResetComplete t s) s := by
  unfold execTenantResetComplete
  repeat' first
    | with_reducible first | rfl | refine (view_completeReset ..).trans ?_ | refine (view_State_reset ..).trans ?_ | apply keeps_next
    | with_reducible first | apply view_ite
    | simp only [↓view_mk, view_eta] | split | dsimp only

theorem view_execEventWriterRound (s : State) : Keeps (execEventWriterRound s) s := by
  unfold execEventWriterRound
  repeat' first
    | with_reducible first | rfl | refine (view_eventRound ..).trans ?_ | apply keeps_next | apply view_ite
    | split | dsimp only

theorem view_execModerationExpiry (fn : Nat) (vector : Nat) (s : State) : Keeps (execModerationExpiry fn vector s) s := by
  unfold execModerationExpiry
  repeat' first
    | with_reducible first | rfl | refine (view_modTen ..).trans ?_ | refine (view_sendMsix ..).trans ?_ | apply keeps_next | apply view_ite
    | simp only [↓view_mk, view_eta] | split | dsimp only

theorem view_actTenCreate (r : Req) (s : State) (t : State) : view (actTenCreate r s t).state = view t := by
  unfold actTenCreate
  repeat' first
    | with_reducible first | rfl | refine (view_modTen ..).trans ?_ | apply rview_ite | refine (rview_now ..).trans ?_ | apply view_ite
    | simp only [↓view_mk, view_eta] | split | dsimp only

theorem view_execTenCreate (r : Req) (s : State) : Keeps (execTenCreate r s) s := by
  unfold execTenCreate
  repeat' first
    | with_reducible first | rfl | refine (view_command _ _ _ _ fun _ => ?_).trans ?_ | apply keeps_next
    | exact view_actTenCreate _ _ _ | dsimp only

theorem view_actTenDestroy (r : Req) (x1 : State) (t : State) : view (actTenDestroy r x1 t).state = view t := by
  unfold actTenDestroy
  repeat' first
    | with_reducible first | rfl | refine (view_startTenantReset ..).trans ?_ | refine (rview_long ..).trans ?_
    | dsimp only

theorem view_execTenDestroy (r : Req) (s : State) : Keeps (execTenDestroy r s) s := by
  unfold execTenDestroy
  repeat' first
    | with_reducible first | rfl | refine (view_command _ _ _ _ fun _ => ?_).trans ?_ | apply keeps_next
    | exact view_actTenDestroy _ _ _ | dsimp only

theorem view_actTenGrant (r : Req) (x1 : State) (t : State) : view (actTenGrant r x1 t).state = view t := by
  unfold actTenGrant
  repeat' first
    | with_reducible first | rfl | refine (view_modTenant ..).trans ?_ | refine (view_modTen ..).trans ?_
    | with_reducible first | refine (view_raiseNow ..).trans ?_ | apply rview_ite | refine (rview_now ..).trans ?_
    | with_reducible first | refine (rview_long ..).trans ?_ | apply view_ite
    | simp only [↓view_mk, view_eta] | split | dsimp only

theorem view_execTenGrant (r : Req) (s : State) : Keeps (execTenGrant r s) s := by
  unfold execTenGrant
  repeat' first
    | with_reducible first | rfl | refine (view_command _ _ _ _ fun _ => ?_).trans ?_ | apply keeps_next
    | exact view_actTenGrant _ _ _ | dsimp only

theorem view_actTenRevoke (r : Req) (x1 : State) (t : State) : view (actTenRevoke r x1 t).state = view t := by
  unfold actTenRevoke
  repeat' first
    | with_reducible first | rfl | refine (view_modTen ..).trans ?_ | refine (rview_long ..).trans ?_
    | simp only [↓view_mk, view_eta] | dsimp only

theorem view_execTenRevoke (r : Req) (s : State) : Keeps (execTenRevoke r s) s := by
  unfold execTenRevoke
  repeat' first
    | with_reducible first | rfl | refine (view_command _ _ _ _ fun _ => ?_).trans ?_ | apply keeps_next
    | exact view_actTenRevoke _ _ _ | dsimp only

theorem view_actTenQos (r : Req) (x1 : State) (t : State) : view (actTenQos r x1 t).state = view t := by
  unfold actTenQos
  repeat' first
    | with_reducible first | rfl | refine (view_modTen ..).trans ?_ | refine (view_raiseNow ..).trans ?_ | refine (rview_now ..).trans ?_
    | simp only [↓view_mk, view_eta] | dsimp only

theorem view_execTenQos (r : Req) (s : State) : Keeps (execTenQos r s) s := by
  unfold execTenQos
  repeat' first
    | with_reducible first | rfl | refine (view_command _ _ _ _ fun _ => ?_).trans ?_ | apply keeps_next
    | exact view_actTenQos _ _ _ | dsimp only

theorem view_actTenReset (r : Req) (s : State) (t : State) : view (actTenReset r s t).state = view t := by
  unfold actTenReset
  repeat' first
    | with_reducible first | rfl | refine (view_startTenantReset ..).trans ?_ | refine (view_State_reset ..).trans ?_ | apply rview_ite
    | with_reducible first | refine (rview_long ..).trans ?_ | refine (rview_later ..).trans ?_ | apply view_ite
    | split | dsimp only

theorem view_execTenReset (r : Req) (s : State) : Keeps (execTenReset r s) s := by
  unfold execTenReset
  repeat' first
    | with_reducible first | rfl | refine (view_command _ _ _ _ fun _ => ?_).trans ?_ | apply keeps_next
    | exact view_actTenReset _ _ _ | dsimp only

theorem view_actTenStatus (r : Req) (x1 : State) (t : State) : view (actTenStatus r x1 t).state = view t := by
  unfold actTenStatus
  repeat' first
    | with_reducible first | rfl | refine (rview_now ..).trans ?_
    | dsimp only

theorem view_execTenStatus (r : Req) (s : State) : Keeps (execTenStatus r s) s := by
  unfold execTenStatus
  repeat' first
    | with_reducible first | rfl | refine (view_command _ _ _ _ fun _ => ?_).trans ?_ | apply keeps_next
    | exact view_actTenStatus _ _ _ | dsimp only

/-! ### Machine/HostCmd.lean -/

theorem view_unknownOp (op : Nat) (r : Req) (s : State) : view (unknownOp op r s) = view s := by
  unfold unknownOp
  repeat' first
    | with_reducible first | rfl | refine (view_complete ..).trans ?_ | refine (view_traceCommand ..).trans ?_ | apply view_ite
    | split | dsimp only

theorem view_execLongCommandFinish (fn : Nat) (ring : Nat) (cmdId : Word) (status : Nat) (s : State) :
    Keeps (execLongCommandFinish fn ring cmdId status s) s := by
  unfold execLongCommandFinish
  repeat' first
    | with_reducible first | rfl | refine (view_finish ..).trans ?_ | apply keeps_next | apply view_ite
    | split | dsimp only

theorem view_sendAck (mseq : Nat) (status : Nat) (s : State) : view (sendAck mseq status s) = view s := by
  unfold sendAck
  repeat' first
    | with_reducible first | rfl | refine (view_sendPair ..).trans ?_
    | dsimp only

theorem view_execMirrorAck (m : PairMsg) (s : State) : Keeps (execMirrorAck m s) s := by
  unfold execMirrorAck
  repeat' first
    | with_reducible first | rfl | refine (view_onMsg _ _ _ fun _ => ?_).trans ?_ | refine (view_completeAt ..).trans ?_ | apply keeps_next
    | with_reducible first | apply view_ite | refine (view_forEach _ _ _ fun _ _ => ?_).trans ?_
    | simp only [↓view_mk, view_eta] | split | dsimp only

theorem view_takeBeat (h : PairMsg) (s : State) : view (takeBeat h s) = view s := by
  unfold takeBeat
  repeat' first
    | with_reducible first | rfl | refine (view_modPair ..).trans ?_ | apply view_ite
    | simp only [↓view_mk, view_eta] | split | dsimp only

theorem view_sendResync (s : State) : view (sendResync s) = view s := by
  unfold sendResync
  repeat' first
    | with_reducible first | rfl | refine (view_modPair ..).trans ?_ | refine (view_sendPair ..).trans ?_ | apply view_ite
    | with_reducible first | refine (view_forEach _ _ _ fun _ _ => ?_).trans ?_
    | simp only [↓view_mk, view_eta] | split | dsimp only

/-! ### Machine/Loom.lean -/

theorem view_storeLive (p : Nat) (m : Nat) (xs : List Sample) (s : State) : view (storeLive p m xs s) = view s := by
  unfold storeLive
  repeat' first
    | with_reducible first | rfl | apply view_ite | refine (view_forEach _ _ _ fun _ _ => ?_).trans ?_
    | simp only [↓view_mk, view_eta] | split | dsimp only

theorem view_issueLive (p : Nat) (m : Nat) (s : State) : view (issueLive p m s) = view s := by
  unfold issueLive
  repeat' first
    | with_reducible first | rfl | refine (view_storeLive ..).trans ?_ | refine (view_feedInrush ..).trans ?_
    | with_reducible first | refine (view_noteLiveCurrent ..).trans ?_ | refine (view_judgeLive ..).trans ?_ | apply view_ite
    | simp only [↓view_mk, view_eta] | split | dsimp only

theorem view_execLiveSampleIssue (pos : Nat) (m : Nat) (s : State) : Keeps (execLiveSampleIssue pos m s) s := by
  unfold execLiveSampleIssue
  repeat' first
    | with_reducible first | rfl | refine (view_issueLive ..).trans ?_ | apply keeps_onObject | apply view_ite
    | with_reducible first | refine view_elim _ _ _ _ ?_ (fun _ => ?_)
    | split | dsimp only

theorem view_releaseSettled (p : Nat) (m : Nat) (s : State) : view (releaseSettled p m s) = view s := by
  unfold releaseSettled
  repeat' first
    | with_reducible first | rfl | refine (view_feedRelax ..).trans ?_ | refine (view_noteCellGap ..).trans ?_
    | with_reducible first | refine (view_feedInteg ..).trans ?_ | refine (view_feedSpec ..).trans ?_
    | with_reducible first | refine (view_notePassive ..).trans ?_ | refine (view_checkBleed ..).trans ?_
    | with_reducible first | refine (view_keepRaw ..).trans ?_ | refine (view_raisePos ..).trans ?_ | apply view_ite
    | with_reducible first | refine (view_forEach _ _ _ fun _ _ => ?_).trans ?_
    | simp only [↓view_mk, view_eta] | split | dsimp only

theorem view_execSettledSampleRelease (pos : Nat) (m : Nat) (s : State) : Keeps (execSettledSampleRelease pos m s) s := by
  unfold execSettledSampleRelease
  repeat' first
    | with_reducible first | rfl | refine (view_releaseSettled ..).trans ?_ | apply keeps_onObject | apply view_ite
    | with_reducible first | refine view_elim _ _ _ _ ?_ (fun _ => ?_)
    | split | dsimp only

theorem view_execDwellValueFinal (chi : Nat) (k : Nat) (s : State) : Keeps (execDwellValueFinal chi k s) s := by
  unfold execDwellValueFinal
  repeat' first
    | with_reducible first | rfl | refine (view_calDwell ..).trans ?_ | refine (view_feedTherm ..).trans ?_
    | with_reducible first | refine (view_checkDwell ..).trans ?_ | refine (view_feedDwell ..).trans ?_ | apply keeps_onObject
    | with_reducible first | apply view_ite | refine view_elim _ _ _ _ ?_ (fun _ => ?_)
    | simp only [↓view_mk, view_eta] | split | dsimp only

theorem view_execPrimarySampleFinal (chi : Nat) (k : Nat) (s : State) : Keeps (execPrimarySampleFinal chi k s) s := by
  unfold execPrimarySampleFinal
  repeat' first
    | with_reducible first | rfl | refine (view_calPrimary ..).trans ?_ | refine (view_feedBlock ..).trans ?_
    | with_reducible first | refine (view_notePrimaryCurrent ..).trans ?_ | refine (view_noteCurrentCalm ..).trans ?_
    | with_reducible first | refine (view_noteCellCalm ..).trans ?_ | refine (view_feedPrimary ..).trans ?_ | apply keeps_onObject
    | with_reducible first | apply view_ite | refine view_elim _ _ _ _ ?_ (fun _ => ?_)
    | simp only [↓view_mk, view_eta] | split | dsimp only

theorem view_execDeltaReplay (tile : Nat) (budget : Nat) (s : State) : Keeps (execDeltaReplay tile budget s) s := by
  unfold execDeltaReplay
  repeat' first
    | with_reducible first | rfl | apply keeps_onObject | apply view_ite
    | simp only [↓view_mk, view_eta] | split | dsimp only

theorem view_queueFull (p : Nat) (chans : List Nat) (first : Nat) (last : Nat) (s : State) :
    view (queueFull p chans first last s) = view s := by
  unfold queueFull
  repeat' first
    | with_reducible first | rfl
    | simp only [↓view_mk, view_eta] | dsimp only

theorem view_execSramEccError (chi : Nat) (s : State) : Keeps (execSramEccError chi s) s := by
  unfold execSramEccError
  repeat' first
    | with_reducible first | rfl | refine (view_queueFull ..).trans ?_ | refine (view_raiseChi ..).trans ?_ | apply keeps_onObject
    | with_reducible first | apply view_ite
    | simp only [↓view_mk, view_eta] | split | dsimp only

theorem view_recordError (win : Nat) (chi : Nat) (s : State) : view (recordError win chi s) = view s := by
  unfold recordError
  repeat' first
    | with_reducible first | rfl | refine (view_raiseNow ..).trans ?_
    | dsimp only

theorem view_markStandard (sixty : Bool) (chi : Nat) (j : Nat) (s : State) : view (markStandard sixty chi j s) = view s := by
  unfold markStandard
  repeat' first
    | with_reducible first | rfl | refine (view_recordError ..).trans ?_ | refine (view_putStdTab ..).trans ?_ | apply view_ite
    | simp only [↓view_mk, view_eta] | split | dsimp only

theorem view_markWindow (k : Nat) (n : Nat) (key : Nat) (apsis : Bool) (s : State) : view (markWindow k n key apsis s) = view s := by
  unfold markWindow
  repeat' first
    | with_reducible first | rfl | refine (view_recordError ..).trans ?_ | refine (view_modWin ..).trans ?_ | apply view_ite
    | simp only [↓view_mk, view_eta] | split | dsimp only

theorem view_execHbmEccError (t : HbmTarget) (s : State) : Keeps (execHbmEccError t s) s := by
  unfold execHbmEccError
  repeat' first
    | with_reducible first | rfl | refine (view_markWindow ..).trans ?_ | refine (view_markStandard ..).trans ?_
    | with_reducible first | refine (view_recordError ..).trans ?_ | refine (view_queueFull ..).trans ?_
    | with_reducible first | refine (view_estEvent ..).trans ?_ | refine (view_putCell ..).trans ?_ | refine (view_modStr ..).trans ?_
    | with_reducible first | refine (view_loseStage ..).trans ?_ | refine (view_reportLocal ..).trans ?_
    | with_reducible first | refine (view_raisePos ..).trans ?_ | apply keeps_next | apply view_ite
    | simp only [↓view_mk, view_eta] | simp only [id] | split | dsimp only

theorem view_execTileFault (phys : Nat) (s : State) : Keeps (execTileFault phys s) s := by
  unfold execTileFault
  repeat' first
    | with_reducible first | rfl | refine (view_useSpare ..).trans ?_ | refine (view_fenceTile ..).trans ?_
    | with_reducible first | refine (view_failService ..).trans ?_ | refine (view_unitEvent ..).trans ?_
    | with_reducible first | refine (view_refreshReady ..).trans ?_ | apply keeps_onObject | apply view_ite
    | simp only [↓view_mk, view_eta] | split | dsimp only

theorem view_execSpareRebuildDone (tile : Nat) (s : State) : Keeps (execSpareRebuildDone tile s) s := by
  unfold execSpareRebuildDone
  repeat' first
    | with_reducible first | rfl | refine (view_unitEvent ..).trans ?_ | apply keeps_onObject | apply view_ite
    | simp only [↓view_mk, view_eta] | split | dsimp only

theorem view_execTripReanalysisStart (fn : Nat) (trip : Nat) (s : State) : Keeps (execTripReanalysisStart fn trip s) s := by
  unfold execTripReanalysisStart
  repeat' first
    | with_reducible first | rfl | apply keeps_next | apply view_ite
    | simp only [↓view_mk, view_eta] | split | dsimp only

theorem view_execTripReanalysisDone (fn : Nat) (trip : Nat) (s : State) : Keeps (execTripReanalysisDone fn trip s) s := by
  unfold execTripReanalysisDone
  repeat' first
    | with_reducible first | rfl | refine (view_raiseNow ..).trans ?_ | apply keeps_next | apply view_ite
    | simp only [↓view_mk, view_eta] | split | dsimp only

/-! ### Machine/RegView.lean -/

theorem view_noteMirror (s : State) : view (noteMirror s) = view s := by
  unfold noteMirror
  repeat' first
    | with_reducible first | rfl
    | simp only [↓view_mk, view_eta] | dsimp only

theorem view_tenantRegs (s : State) (t : Nat) : view (tenantRegs s t) = view s := by
  unfold tenantRegs
  repeat' first
    | with_reducible first | rfl | apply view_ite
    | simp only [↓view_mk, view_eta] | split | dsimp only

/-! ### Machine/Pick.lean -/

theorem view_powerOffs (s : State) : view (powerOffs s) = view s := by
  unfold powerOffs
  repeat' first
    | with_reducible first | rfl | refine (view_onSilent ..).trans ?_ | refine (view_stopChain ..).trans ?_
    | with_reducible first | refine (view_completeDeferred ..).trans ?_ | refine (view_forEach _ _ _ fun _ _ => ?_).trans ?_
    | with_reducible first | refine view_elim _ _ _ _ ?_ (fun _ => ?_)
    | dsimp only

theorem view_startPortB (s : State) : view (startPortB s) = view s := by
  unfold startPortB
  repeat' first
    | with_reducible first | rfl | refine (view_modChain ..).trans ?_ | refine (view_forEach _ _ _ fun _ _ => ?_).trans ?_
    | with_reducible first | refine view_elim _ _ _ _ ?_ (fun _ => ?_)
    | simp only [↓view_mk, view_eta] | split | dsimp only

theorem view_turnRing (c : Nat) (s : State) : view (turnRing c s) = view s := by
  unfold turnRing
  repeat' first
    | with_reducible first | rfl | refine (view_wrapRing ..).trans ?_ | refine (view_moveSplit ..).trans ?_
    | with_reducible first | refine (view_modChain ..).trans ?_ | apply view_ite | refine view_elim _ _ _ _ ?_ (fun _ => ?_)
    | simp only [↓view_mk, view_eta] | split | dsimp only

theorem view_turnRings (s : State) : view (turnRings s) = view s := by
  unfold turnRings
  repeat' first
    | with_reducible first | rfl | refine (view_turnRing ..).trans ?_ | refine (view_forEach _ _ _ fun _ _ => ?_).trans ?_
    | dsimp only

theorem view_settleWires (s : State) : view (settleWires s) = view s := by
  unfold settleWires
  repeat' first
    | with_reducible first | rfl | refine (view_restartFocus ..).trans ?_ | refine (view_restartCtx ..).trans ?_
    | with_reducible first | refine (view_modDiag ..).trans ?_ | refine (view_failInRun ..).trans ?_ | refine (view_raisePos ..).trans ?_
    | with_reducible first | apply view_ite | refine (view_forEach _ _ _ fun _ _ => ?_).trans ?_
    | simp only [↓view_mk, view_eta] | split | dsimp only

theorem view_missPicks (s : State) : view (missPicks s) = view s := by
  unfold missPicks
  repeat' first
    | with_reducible first | rfl | refine (view_modOcc ..).trans ?_ | refine (view_forEach _ _ _ fun _ _ => ?_).trans ?_
    | simp only [↓view_mk, view_eta] | dsimp only

theorem view_resetFast (s : State) : view (resetFast s) = view s := by
  unfold resetFast
  repeat' first
    | with_reducible first | rfl | apply view_ite
    | simp only [↓view_mk, view_eta] | split | dsimp only

theorem view_stepAmp (s : State) : view (stepAmp s) = view s := by
  unfold stepAmp
  repeat' first
    | with_reducible first | rfl | refine (view_modTherm ..).trans ?_ | apply view_ite
    | simp only [↓view_mk, view_eta] | split | dsimp only

theorem view_gateShed (s : State) : view (gateShed s) = view s := by
  unfold gateShed
  repeat' first
    | with_reducible first | rfl | refine (view_nextGate ..).trans ?_ | refine (view_wantGate ..).trans ?_ | apply view_ite
    | with_reducible first | refine (view_forEach _ _ _ fun _ _ => ?_).trans ?_
    | split | dsimp only

theorem view_countBand (s : State) : view (countBand s) = view s := by
  unfold countBand
  repeat' first
    | with_reducible first | rfl
    | simp only [↓view_mk, view_eta] | dsimp only

theorem view_sendHeartbeat (s : State) : view (sendHeartbeat s) = view s := by
  unfold sendHeartbeat
  repeat' first
    | with_reducible first | rfl | apply view_ite
    | simp only [↓view_mk, view_eta] | split | dsimp only

theorem view_sendSafety (s : State) : view (sendSafety s) = view s := by
  unfold sendSafety
  repeat' first
    | with_reducible first | rfl | refine (view_modPair ..).trans ?_ | refine (view_sendPair ..).trans ?_ | apply view_ite
    | simp only [↓view_mk, view_eta] | split | dsimp only

theorem view_serviceBoundary (s : State) : view (serviceBoundary s) = view s := by
  unfold serviceBoundary
  repeat' first
    | with_reducible first | rfl | refine (view_sendSafety ..).trans ?_ | refine (view_sendHeartbeat ..).trans ?_
    | with_reducible first | refine (view_countBand ..).trans ?_ | refine (view_gateShed ..).trans ?_ | refine (view_stepAmp ..).trans ?_
    | with_reducible first | refine (view_resetFast ..).trans ?_ | refine (view_missPicks ..).trans ?_
    | with_reducible first | refine (view_settleWires ..).trans ?_ | refine (view_turnRings ..).trans ?_
    | with_reducible first | refine (view_startPortB ..).trans ?_ | refine (view_powerOffs ..).trans ?_
    | with_reducible first | refine (view_noteMirror ..).trans ?_ | refine (view_noteTrace ..).trans ?_ | refine (view_noteEyes ..).trans ?_
    | with_reducible first | refine (view_sendBackfill ..).trans ?_ | refine (view_sendTraining ..).trans ?_
    | with_reducible first | refine (view_sendAllRequests ..).trans ?_ | refine (view_latchFrames ..).trans ?_
    | with_reducible first | refine (view_writePlanned ..).trans ?_ | refine (view_storeNvm ..).trans ?_
    | with_reducible first | refine (view_sequencerPick ..).trans ?_ | refine (view_stepBoundary ..).trans ?_
    | with_reducible first | refine (view_assembleAll ..).trans ?_ | refine (view_sweepUnmeasured ..).trans ?_
    | with_reducible first | refine (view_assembleLeases ..).trans ?_
    | dsimp only

theorem view_shutdownBoundary (s : State) : view (shutdownBoundary s) = view s := by
  unfold shutdownBoundary
  repeat' first
    | with_reducible first | rfl | refine (view_countBand ..).trans ?_ | refine (view_cutLanes ..).trans ?_
    | with_reducible first | refine (view_cutChains ..).trans ?_ | apply view_ite
    | simp only [↓view_mk, view_eta] | split | dsimp only

/-! ### Machine/Regs.lean -/

theorem view_execRingEnable (fn : Nat) (q : Nat) (s : State) : Keeps (execRingEnable fn q s) s := by
  unfold execRingEnable
  repeat' first
    | with_reducible first | rfl | refine (view_modRing ..).trans ?_ | apply keeps_onObject | apply view_ite
    | split | dsimp only

theorem view_execRingDisable (fn : Nat) (q : Nat) (s : State) : Keeps (execRingDisable fn q s) s := by
  unfold execRingDisable
  repeat' first
    | with_reducible first | rfl | refine (view_modRing ..).trans ?_ | apply keeps_onObject | apply view_ite
    | split | dsimp only

theorem view_execEqEnable (fn : Nat) (s : State) : Keeps (execEqEnable fn s) s := by
  unfold execEqEnable
  repeat' first
    | with_reducible first | rfl | refine (view_modQueue ..).trans ?_ | apply keeps_onObject | apply view_ite
    | split | dsimp only

theorem view_execEqDisable (fn : Nat) (s : State) : Keeps (execEqDisable fn s) s := by
  unfold execEqDisable
  repeat' first
    | with_reducible first | rfl | refine (view_modQueue ..).trans ?_ | apply keeps_onObject | apply view_ite
    | simp only [↓view_mk, view_eta] | split | dsimp only

theorem view_execEqConsWrite (fn : Nat) (cons : Nat) (s : State) : Keeps (execEqConsWrite fn cons s) s := by
  unfold execEqConsWrite
  repeat' first
    | with_reducible first | rfl | refine (view_modQueue ..).trans ?_ | apply keeps_onObject | apply view_ite
    | split | dsimp only

theorem view_execWarmReqWrite (value : Word) (s : State) : Keeps (execWarmReqWrite value s) s := by
  unfold execWarmReqWrite
  repeat' first
    | with_reducible first | rfl | refine (view_requestWarm ..).trans ?_ | apply keeps_next | apply view_ite
    | split | dsimp only

theorem view_execMgmtMailboxWrite (t : Nat) (k : Nat) (value : Word) (s : State) : Keeps (execMgmtMailboxWrite t k value s) s := by
  unfold execMgmtMailboxWrite
  repeat' first
    | with_reducible first | rfl | refine (view_mgmtMail ..).trans ?_ | apply keeps_onObject | apply view_ite
    | split | dsimp only

theorem view_execTenantMailboxWrite (t : Nat) (k : Nat) (value : Word) (s : State) : Keeps (execTenantMailboxWrite t k value s) s := by
  unfold execTenantMailboxWrite
  repeat' first
    | with_reducible first | rfl | refine (view_sendMail ..).trans ?_ | apply keeps_onObject | apply view_ite
    | split | dsimp only

theorem view_execAlertStatClear (value : Word) (s : State) : Keeps (execAlertStatClear value s) s := by
  unfold execAlertStatClear
  repeat' first
    | with_reducible first | rfl | refine (view_clearAlert ..).trans ?_ | apply keeps_next | apply view_ite
    | split | dsimp only

theorem view_execRegPairLowRead (fn : Nat) (off : Nat) (s : State) : Keeps (execRegPairLowRead fn off s) s := by
  unfold execRegPairLowRead
  repeat' first
    | with_reducible first | rfl | refine (view_State_takeFrac ..).trans ?_ | apply keeps_onObject | apply view_ite
    | simp only [↓view_mk, view_eta] | split | dsimp only

theorem view_writeMgmt (off : Nat) (v : Word) (s : State) : view (writeMgmt off v s) = view s := by
  unfold writeMgmt
  repeat' first
    | with_reducible first | rfl | refine (view_requestWarm ..).trans ?_ | refine (view_writeAlertEn ..).trans ?_
    | with_reducible first | refine (view_clearAlert ..).trans ?_ | refine (view_clearDrops ..).trans ?_
    | with_reducible first | refine (view_mgmtMail ..).trans ?_ | refine (view_writeSource ..).trans ?_
    | with_reducible first | refine (view_writeVector ..).trans ?_ | refine (view_writeModeration ..).trans ?_
    | with_reducible first | refine (view_writeQueue ..).trans ?_ | refine (view_writeRing ..).trans ?_ | apply view_ite
    | simp only [↓view_mk, view_eta] | split | dsimp only

theorem view_writeTenant (t : Nat) (off : Nat) (v : Word) (s : State) : view (writeTenant t off v s) = view s := by
  unfold writeTenant
  repeat' first
    | with_reducible first | rfl | refine (view_sendMail ..).trans ?_ | refine (view_writeClass ..).trans ?_
    | with_reducible first | refine (view_writeVector ..).trans ?_ | refine (view_writeModeration ..).trans ?_
    | with_reducible first | refine (view_writeQueue ..).trans ?_ | refine (view_writeRing ..).trans ?_ | apply view_ite
    | split | dsimp only

theorem view_writeI2c (ptr : Nat) (v : Word) (s : State) : view (writeI2c ptr v s) = view s := by
  unfold writeI2c
  repeat' first
    | with_reducible first | rfl | refine (view_requestRecord ..).trans ?_ | refine (view_writeAlertEn ..).trans ?_
    | with_reducible first | refine (view_clearAlert ..).trans ?_ | apply view_ite
    | simp only [↓view_mk, view_eta] | split | dsimp only

theorem view_execRegisterWrite (fn : Nat) (off : Nat) (value : Word) (s : State) : Keeps (execRegisterWrite fn off value s) s := by
  unfold execRegisterWrite
  repeat' first
    | with_reducible first | rfl | refine (view_writeI2c ..).trans ?_ | refine (view_writeTenant ..).trans ?_
    | with_reducible first | refine (view_writeMgmt ..).trans ?_ | apply keeps_onObject | apply view_ite
    | split | dsimp only

end Sys2Proof.Machine
end

