-- ==== Sys2Proof/Laws/Clock.lean ====
section
/-! SUPPORT. The queue and the SPC: every operation keeps both, but the pick boundary, the meeting of a pair and VDD_AON. -/

set_option linter.unusedSimpArgs false
set_option linter.unusedVariables false

namespace Sys2Proof.Machine


/-- The queue and the SPC. -/
def clock (s : State) : List Instr × Nat := (s.pending, s.time.spc)

theorem clock_of {a b : State} (h : view a = view b) : clock a = clock b := by
  have h1 : (view a).pending = (view b).pending := by rw [h]
  have h2 : (view a).spc = (view b).spc := by rw [h]
  exact Prod.ext h1 h2

theorem clock_forEach {α : Type} (l : List α) (s : State) (f : α → State → State) (h : ∀ a t, clock (f a t) = clock t) :
    clock (forEach l s f) = clock s := by
  induction l generalizing s with
  | nil => rfl
  | cons a r ih => exact (ih (f a s)).trans (h a s)

theorem clock_ite (c : Prop) [Decidable c] (a b s : State) (ha : clock a = clock s) (hb : clock b = clock s) :
    clock (if c then a else b) = clock s := by split <;> assumption

theorem clock_elim {α : Type} (o : Option α) (a : State) (f : α → State) (s : State) (ha : clock a = clock s) (hf : ∀ x, clock (f x) = clock s) :
    clock (o.elim a f) = clock s := by
  cases o <;> simp [ha, hf]

theorem clock_mk (time otp boot line lane loom cal map bal acc safe chg est spec therm wear trace nvm pair ten cmd regs out pending fresh) :
    clock ⟨time, otp, boot, line, lane, loom, cal, map, bal, acc, safe, chg, est, spec, therm, wear, trace, nvm, pair, ten, cmd, regs, out,
      pending, fresh⟩ = (pending, time.spc) := rfl

theorem clock_eta (s : State) : (s.pending, s.time.spc) = clock s := rfl

theorem clock_modSafe (f : SafeUnit → SafeUnit) (s : State) : clock (modSafe f s) = clock s := rfl
theorem clock_modBoot (f : Boot → Boot) (s : State) : clock (modBoot f s) = clock s := rfl

theorem rclock_now (a : Nat) (b : List Word) (s : State) : clock (Reply.now a b s).state = clock s := rfl
theorem rclock_long (a : Nat) (b : List Word) (s : State) : clock (Reply.long a b s).state = clock s := rfl
theorem rclock_longNow (a : Nat) (b : List Word) (s : State) : clock (Reply.longNow a b s).state = clock s := rfl
theorem rclock_later (k : DeferKind) (s : State) : clock (Reply.later k s).state = clock s := rfl
theorem rclock_ite (c : Prop) [Decidable c] (a b : Reply) (s : State) (ha : clock a.state = clock s) (hb : clock b.state = clock s) :
    clock (if c then a else b).state = clock s := by split <;> assumption

theorem clock_command (k : Checks) (r : Req) (s : State) (act : State → Reply) (h : ∀ t, clock (act t).state = clock t) :
    clock (command k r s act) = clock s :=
  command_keeps (fun t => clock t = clock s) (fun _ _ e h => (clock_of e).trans h) k r s act (fun t ht => (h t).trans ht) rfl

theorem clock_pwCommand (k : Checks) (r : Req) (s : State) (act : State → Reply) (h : ∀ t, clock (act t).state = clock t) :
    clock (pwCommand k r s act) = clock s :=
  pwCommand_keeps (fun t => clock t = clock s) (fun _ _ e h => (clock_of e).trans h) k r s act (fun t ht => (h t).trans ht) rfl

theorem clock_onMsg (m : PairMsg) (s : State) (f : State → State) (h : ∀ u, clock (f u) = clock u) : clock (onMsg m s f) = clock s := by
  unfold onMsg acceptMsg
  split
  · exact (h _).trans rfl
  · rfl

/-- A next state has the queue and the SPC of the state before. -/
def KeepsClock (o : Host.Outcome State Fault Refusal) (s : State) : Prop := ∀ t, o = .next t → clock t = clock s

theorem Keeps.clock {o : Host.Outcome State Fault Refusal} {s : State} (h : Keeps o s) : KeepsClock o s := fun t ht => clock_of (h t ht)

theorem keepsClock_next {t s : State} (h : clock t = clock s) : KeepsClock (.next t) s := by
  intro u hu; cases hu; exact h

theorem keepsClock_onObject {b : Bool} {t s : State} (h : clock t = clock s) : KeepsClock (onObject b t) s := by
  intro u hu
  unfold onObject at hu
  split at hu
  · cases hu; exact h
  · cases hu


theorem clock_lockNow (cause : Nat) (s : State) : clock (lockNow cause s) = clock s := by
  unfold lockNow
  repeat' first
    | with_reducible first | rfl | refine (clock_of (view_logChange ..)).trans ?_ | refine (clock_modSafe ..).trans ?_
    | with_reducible first | refine (clock_of (view_yieldPair ..)).trans ?_ | refine (clock_of (view_setAlert ..)).trans ?_
    | with_reducible first | refine (clock_of (view_raiseNow ..)).trans ?_ | apply clock_ite
    | simp only [↓clock_mk, clock_eta] | split | dsimp only

theorem clock_enterLockout (cause : Nat) (s : State) : clock (enterLockout cause s) = clock s := by
  unfold enterLockout
  repeat' first
    | with_reducible first | rfl | refine (clock_lockNow ..).trans ?_ | refine (clock_modSafe ..).trans ?_ | apply clock_ite
    | simp only [↓clock_mk, clock_eta] | split | dsimp only

theorem clock_leaveStart (s : State) : clock (leaveStart s) = clock s := by
  unfold leaveStart
  repeat' first
    | with_reducible first | rfl | refine (clock_lockNow ..).trans ?_ | refine (clock_modSafe ..).trans ?_ | apply clock_ite
    | with_reducible first | refine (clock_forEach _ _ _ fun _ _ => ?_).trans ?_
    | simp only [↓clock_mk, clock_eta] | split | dsimp only

theorem clock_execSafeStartTestDone (pass : Bool) (s : State) : KeepsClock (execSafeStartTestDone pass s) s := by
  unfold execSafeStartTestDone
  repeat' first
    | with_reducible first | rfl | refine (clock_of (view_logChange ..)).trans ?_ | refine (clock_modSafe ..).trans ?_
    | with_reducible first | refine (clock_of (view_completeDeferred ..)).trans ?_ | refine (clock_of (view_raiseNow ..)).trans ?_
    | with_reducible first | apply keepsClock_next | apply clock_ite
    | simp only [↓clock_mk, clock_eta] | split | dsimp only

theorem clock_execClockMonitorFault (s : State) : KeepsClock (execClockMonitorFault s) s := by
  unfold execClockMonitorFault
  repeat' first
    | with_reducible first | rfl | refine (clock_enterLockout ..).trans ?_ | apply keepsClock_next | apply clock_ite
    | split | dsimp only

theorem clock_execSafetyCoreFault (s : State) : KeepsClock (execSafetyCoreFault s) s := by
  unfold execSafetyCoreFault
  repeat' first
    | with_reducible first | rfl | refine (clock_enterLockout ..).trans ?_ | apply keepsClock_next | apply clock_ite
    | split | dsimp only

theorem clock_execIslandWatchdogExpiry (s : State) : KeepsClock (execIslandWatchdogExpiry s) s := by
  unfold execIslandWatchdogExpiry
  repeat' first
    | with_reducible first | rfl | refine (clock_enterLockout ..).trans ?_ | apply keepsClock_next | apply clock_ite
    | split | dsimp only

theorem clock_execIslandSupplyFault (s : State) : KeepsClock (execIslandSupplyFault s) s := by
  unfold execIslandSupplyFault
  repeat' first
    | with_reducible first | rfl | refine (clock_enterLockout ..).trans ?_ | apply keepsClock_next | apply clock_ite
    | split | dsimp only

theorem clock_execSafetyRecordCheckFail (record : Nat) (s : State) : KeepsClock (execSafetyRecordCheckFail record s) s := by
  unfold execSafetyRecordCheckFail
  repeat' first
    | with_reducible first | rfl | refine (clock_enterLockout ..).trans ?_ | refine (clock_modSafe ..).trans ?_ | apply keepsClock_next
    | with_reducible first | apply clock_ite
    | simp only [↓clock_mk, clock_eta] | split | dsimp only

theorem clock_execSafeInDiscrepancy (k : Nat) (s : State) : KeepsClock (execSafeInDiscrepancy k s) s := by
  unfold execSafeInDiscrepancy
  repeat' first
    | with_reducible first | rfl | refine (clock_enterLockout ..).trans ?_ | apply keepsClock_onObject | apply clock_ite
    | split | dsimp only

theorem clock_execSafeOutTestPulse (k : Nat) (lineB : Bool) (readback : Bool) (s : State) :
    KeepsClock (execSafeOutTestPulse k lineB readback s) s := by
  unfold execSafeOutTestPulse
  repeat' first
    | with_reducible first | rfl | refine (clock_enterLockout ..).trans ?_ | refine (clock_modSafe ..).trans ?_ | apply keepsClock_onObject
    | with_reducible first | apply clock_ite
    | simp only [↓clock_mk, clock_eta] | split | dsimp only

theorem clock_execOutFb (k : Nat) (lineB : Bool) (readback : Bool) (s : State) : KeepsClock (execOutFb k lineB readback s) s := by
  unfold execOutFb
  repeat' first
    | with_reducible first | rfl | refine (clock_enterLockout ..).trans ?_ | refine (clock_modSafe ..).trans ?_ | apply keepsClock_onObject
    | with_reducible first | apply clock_ite
    | simp only [↓clock_mk, clock_eta] | split | dsimp only

theorem clock_actSafePasswd (r : Req) (x1 : State) (t : State) : clock (actSafePasswd r x1 t).state = clock t := by
  unfold actSafePasswd
  repeat' first
    | with_reducible first | rfl | refine (clock_of (view_logChange ..)).trans ?_ | refine (clock_modSafe ..).trans ?_
    | with_reducible first | refine (rclock_now ..).trans ?_
    | simp only [↓clock_mk, clock_eta] | dsimp only

theorem clock_execSafePasswd (r : Req) (s : State) : KeepsClock (execSafePasswd r s) s := by
  unfold execSafePasswd
  repeat' first
    | with_reducible first | rfl | refine (clock_pwCommand _ _ _ _ fun _ => ?_).trans ?_ | apply keepsClock_next
    | exact clock_actSafePasswd _ _ _ | dsimp only

theorem clock_decideShutdown (cause : Nat) (s : State) : clock (decideShutdown cause s) = clock s := by
  unfold decideShutdown
  repeat' first
    | with_reducible first | rfl | refine (clock_of (view_modTherm ..)).trans ?_ | refine (clock_of (view_offUsing ..)).trans ?_
    | with_reducible first | refine (clock_modSafe ..).trans ?_ | refine (clock_of (view_yieldPair ..)).trans ?_
    | with_reducible first | refine (clock_of (view_clearReady ..)).trans ?_ | refine (clock_of (view_setAlert ..)).trans ?_
    | with_reducible first | refine (clock_forEach _ _ _ fun _ _ => ?_).trans ?_
    | simp only [↓clock_mk, clock_eta] | dsimp only

theorem clock_decideRound (k : Nat) (s : State) : clock (decideRound k s) = clock s := by
  unfold decideRound
  repeat' first
    | with_reducible first | rfl | refine (clock_decideShutdown ..).trans ?_ | refine (clock_of (view_setBand ..)).trans ?_
    | with_reducible first | refine (clock_of (view_modTherm ..)).trans ?_ | refine (clock_of (view_setAlert ..)).trans ?_
    | with_reducible first | refine (clock_of (view_raiseNow ..)).trans ?_ | apply clock_ite | refine clock_elim _ _ _ _ ?_ (fun _ => ?_)
    | simp only [↓clock_mk, clock_eta] | split | dsimp only

theorem clock_execHkRoundDecision (s : State) : KeepsClock (execHkRoundDecision s) s := by
  unfold execHkRoundDecision
  repeat' first
    | with_reducible first | rfl | refine (clock_decideRound ..).trans ?_ | refine (clock_of (view_closeRound ..)).trans ?_
    | with_reducible first | apply keepsClock_next | apply clock_ite
    | simp only [↓clock_mk, clock_eta] | split | dsimp only

theorem clock_execShutdownPowerGate (s : State) : KeepsClock (execShutdownPowerGate s) s := by
  unfold execShutdownPowerGate
  repeat' first
    | with_reducible first | rfl | refine (clock_of (view_keepNvm ..)).trans ?_ | apply keepsClock_next | apply clock_ite
    | simp only [↓clock_mk, clock_eta] | split | dsimp only

theorem clock_actHkFw (r : Req) (s : State) (t : State) : clock (actHkFw r s t).state = clock t := by
  unfold actHkFw
  repeat' first
    | with_reducible first | rfl | refine (clock_of (view_putSlot ..)).trans ?_ | refine (clock_enterLockout ..).trans ?_
    | with_reducible first | refine (clock_of (view_logChange ..)).trans ?_ | apply rclock_ite | refine (rclock_now ..).trans ?_
    | with_reducible first | refine (rclock_long ..).trans ?_ | refine (rclock_longNow ..).trans ?_ | apply clock_ite
    | with_reducible first | refine clock_elim _ _ _ _ ?_ (fun _ => ?_)
    | simp only [↓clock_mk, clock_eta] | split | dsimp only

theorem clock_execHkFw (r : Req) (s : State) : KeepsClock (execHkFw r s) s := by
  unfold execHkFw
  repeat' first
    | with_reducible first | rfl | refine (clock_command _ _ _ _ fun _ => ?_).trans ?_ | apply keepsClock_next
    | exact clock_actHkFw _ _ _ | dsimp only

theorem clock_coldReset (bit : Nat) (s : State) : clock (coldReset bit s) = clock s := by
  unfold coldReset
  repeat' first
    | with_reducible first | rfl | refine (clock_of (view_keepNvm ..)).trans ?_ | refine (clock_of (view_yieldPair ..)).trans ?_
    | simp only [↓clock_mk, clock_eta] | dsimp only

theorem clock_raiseCold (bit : Nat) (s : State) : clock (raiseCold bit s) = clock s := by
  unfold raiseCold
  repeat' first
    | with_reducible first | rfl | refine (clock_coldReset ..).trans ?_ | refine (clock_modBoot ..).trans ?_ | apply clock_ite
    | simp only [↓clock_mk, clock_eta] | split | dsimp only

theorem clock_warmReset (bit : Nat) (s : State) : clock (warmReset bit s) = clock s := by
  unfold warmReset
  repeat' first
    | with_reducible first | rfl | refine (clock_of (view_keepNvm ..)).trans ?_ | refine (clock_of (view_traceMarker ..)).trans ?_
    | simp only [↓clock_mk, clock_eta] | dsimp only

theorem clock_settleReady (s : State) : clock (settleReady s) = clock s := by
  unfold settleReady
  repeat' first
    | with_reducible first | rfl | refine (clock_of (view_actOnWake ..)).trans ?_ | refine (clock_leaveStart ..).trans ?_
    | with_reducible first | refine (clock_of (view_refreshReady ..)).trans ?_
    | dsimp only

theorem clock_releaseCold (s : State) : clock (releaseCold s) = clock s := by
  unfold releaseCold
  repeat' first
    | with_reducible first | rfl | refine (clock_of (view_fenceRecorded ..)).trans ?_ | refine (clock_settleReady ..).trans ?_
    | with_reducible first | refine (clock_of (view_fencePorts ..)).trans ?_ | refine (clock_of (view_assignTiles ..)).trans ?_
    | with_reducible first | refine (clock_of (view_fenceHomes ..)).trans ?_ | refine (clock_of (view_traceMarker ..)).trans ?_
    | with_reducible first | apply clock_ite
    | simp only [↓clock_mk, clock_eta] | split | dsimp only

theorem clock_releaseWaiting (s : State) : clock (releaseWaiting s) = clock s := by
  unfold releaseWaiting
  repeat' first
    | with_reducible first | rfl | refine (clock_releaseCold ..).trans ?_ | apply clock_ite | refine clock_elim _ _ _ _ ?_ (fun _ => ?_)
    | split | dsimp only

theorem clock_restoreSafety (k : KeptSafety) (s : State) : clock (restoreSafety k s) = clock s := by
  unfold restoreSafety
  repeat' first
    | with_reducible first | rfl | refine (clock_modSafe ..).trans ?_ | apply clock_ite
    | simp only [↓clock_mk, clock_eta] | split | dsimp only

theorem clock_raiseMinimum (s : State) : clock (raiseMinimum s) = clock s := by
  unfold raiseMinimum
  repeat' first
    | with_reducible first | rfl | refine (clock_of (view_imageEvent ..)).trans ?_ | refine (clock_of (view_traceMarker ..)).trans ?_
    | with_reducible first | apply clock_ite
    | simp only [↓clock_mk, clock_eta] | split | dsimp only

theorem clock_passTrial (s : State) : clock (passTrial s) = clock s := by
  unfold passTrial
  repeat' first
    | with_reducible first | rfl | refine (clock_raiseMinimum ..).trans ?_ | refine (clock_of (view_trialEvent ..)).trans ?_
    | with_reducible first | refine (clock_modBoot ..).trans ?_
    | simp only [↓clock_mk, clock_eta] | dsimp only

theorem clock_execColdReset (s : State) : KeepsClock (execColdReset s) s := by
  unfold execColdReset
  repeat' first
    | with_reducible first | rfl | refine (clock_raiseCold ..).trans ?_ | apply keepsClock_next
    | dsimp only

theorem clock_execSupplyMonitorTrip (rail : Nat) (s : State) : KeepsClock (execSupplyMonitorTrip rail s) s := by
  unfold execSupplyMonitorTrip
  repeat' first
    | with_reducible first | rfl | refine (clock_raiseCold ..).trans ?_ | apply keepsClock_onObject
    | dsimp only

theorem clock_execHeldColdResetProceeds (s : State) : KeepsClock (execHeldColdResetProceeds s) s := by
  unfold execHeldColdResetProceeds
  repeat' first
    | with_reducible first | rfl | refine (clock_coldReset ..).trans ?_ | apply keepsClock_next | apply clock_ite
    | split | dsimp only

theorem clock_execColdRstRelease (s : State) : KeepsClock (execColdRstRelease s) s := by
  unfold execColdRstRelease
  repeat' first
    | with_reducible first | rfl | refine (clock_releaseCold ..).trans ?_ | refine (clock_modBoot ..).trans ?_ | apply keepsClock_next
    | with_reducible first | apply clock_ite
    | simp only [↓clock_mk, clock_eta] | split | dsimp only

theorem clock_execWarmResetRecognised (s : State) : KeepsClock (execWarmResetRecognised s) s := by
  unfold execWarmResetRecognised
  repeat' first
    | with_reducible first | rfl | refine (clock_warmReset ..).trans ?_ | apply keepsClock_next | apply clock_ite
    | simp only [↓clock_mk, clock_eta] | split | dsimp only

theorem clock_execPerstNRelease (s : State) : KeepsClock (execPerstNRelease s) s := by
  unfold execPerstNRelease
  repeat' first
    | with_reducible first | rfl | refine (clock_settleReady ..).trans ?_ | refine (clock_modBoot ..).trans ?_ | apply keepsClock_next
    | with_reducible first | apply clock_ite
    | simp only [↓clock_mk, clock_eta] | split | dsimp only

theorem clock_execBistUnitDone (cls : Nat) (unit : Nat) (result : Nat) (s : State) : KeepsClock (execBistUnitDone cls unit result s) s := by
  unfold execBistUnitDone
  repeat' first
    | with_reducible first | rfl | refine (clock_of (view_failUnit ..)).trans ?_ | refine (clock_of (view_passUnit ..)).trans ?_
    | with_reducible first | refine (clock_settleReady ..).trans ?_ | refine (clock_of (view_assignTiles ..)).trans ?_
    | with_reducible first | apply keepsClock_onObject | apply clock_ite
    | split | dsimp only

theorem clock_execNvmPartitionsLoaded (bad : List Nat) (s : State) : KeepsClock (execNvmPartitionsLoaded bad s) s := by
  unfold execNvmPartitionsLoaded
  repeat' first
    | with_reducible first | rfl | refine (clock_of (view_reportZero ..)).trans ?_ | refine (clock_restoreSafety ..).trans ?_
    | with_reducible first | refine (clock_of (view_restoreConfig ..)).trans ?_ | refine (clock_settleReady ..).trans ?_
    | with_reducible first | refine (clock_modBoot ..).trans ?_ | refine (clock_of (view_keepNvm ..)).trans ?_
    | with_reducible first | refine (clock_of (view_modPair ..)).trans ?_ | refine (clock_of (view_setAlert ..)).trans ?_
    | with_reducible first | refine (clock_of (view_raiseNow ..)).trans ?_ | apply keepsClock_next | apply clock_ite
    | with_reducible first | refine (clock_forEach _ _ _ fun _ _ => ?_).trans ?_
    | simp only [↓clock_mk, clock_eta] | split | dsimp only

theorem clock_execBootImageVerified (validA : Bool) (validB : Bool) (s : State) : KeepsClock (execBootImageVerified validA validB s) s := by
  unfold execBootImageVerified
  repeat' first
    | with_reducible first | rfl | refine (clock_of (view_runImage ..)).trans ?_ | refine (clock_settleReady ..).trans ?_
    | with_reducible first | refine (clock_modBoot ..).trans ?_ | refine (clock_of (view_setAlert ..)).trans ?_ | apply keepsClock_next
    | with_reducible first | apply clock_ite
    | simp only [↓clock_mk, clock_eta] | split | dsimp only

theorem clock_execTrialBootPassed (s : State) : KeepsClock (execTrialBootPassed s) s := by
  unfold execTrialBootPassed
  repeat' first
    | with_reducible first | rfl | refine (clock_passTrial ..).trans ?_ | apply keepsClock_next | apply clock_ite
    | simp only [↓clock_mk, clock_eta] | split | dsimp only

theorem clock_execRefclkLoss (s : State) : KeepsClock (execRefclkLoss s) s := by
  unfold execRefclkLoss
  repeat' first
    | with_reducible first | rfl | refine (clock_of (view_cutLanes ..)).trans ?_ | refine (clock_of (view_cutChains ..)).trans ?_
    | with_reducible first | refine (clock_enterLockout ..).trans ?_ | refine (clock_of (view_refreshReady ..)).trans ?_
    | with_reducible first | apply keepsClock_next | apply clock_ite
    | simp only [↓clock_mk, clock_eta] | split | dsimp only

theorem clock_execRefclkRelock (step : Nat) (s : State) : KeepsClock (execRefclkRelock step s) s := by
  unfold execRefclkRelock
  repeat' first
    | with_reducible first | rfl | refine (clock_of (view_traceMarker ..)).trans ?_ | apply keepsClock_onObject | apply clock_ite
    | simp only [↓clock_mk, clock_eta] | split | dsimp only

theorem clock_execScanInstruction (opcode : Nat) (s : State) : KeepsClock (execScanInstruction opcode s) s := by
  unfold execScanInstruction
  repeat' first
    | with_reducible first | rfl | refine (clock_of (view_dropStaging ..)).trans ?_ | refine (clock_of (view_cutChains ..)).trans ?_
    | with_reducible first | refine (clock_modBoot ..).trans ?_ | refine (clock_enterLockout ..).trans ?_
    | with_reducible first | refine (clock_modSafe ..).trans ?_ | apply keepsClock_next | apply clock_ite
    | simp only [↓clock_mk, clock_eta] | split | dsimp only

theorem clock_execZeroisationDone (s : State) : KeepsClock (execZeroisationDone s) s := by
  unfold execZeroisationDone
  repeat' first
    | with_reducible first | rfl | refine (clock_modBoot ..).trans ?_ | refine (clock_of (view_logChange ..)).trans ?_
    | with_reducible first | refine (clock_modSafe ..).trans ?_ | refine (clock_of (view_modPair ..)).trans ?_ | apply keepsClock_next
    | with_reducible first | apply clock_ite
    | simp only [↓clock_mk, clock_eta] | split | dsimp only

theorem clock_applyBlock (b : ResyncBlock) (s : State) : clock (applyBlock b s) = clock s := by
  unfold applyBlock
  repeat' first
    | with_reducible first | rfl | refine (clock_modSafe ..).trans ?_ | apply clock_ite
    | with_reducible first | refine (clock_forEach _ _ _ fun _ _ => ?_).trans ?_
    | simp only [↓clock_mk, clock_eta] | simp only [id] | split | dsimp only

theorem clock_execResync (m : PairMsg) (b : ResyncBlock) (s : State) : KeepsClock (execResync m b s) s := by
  unfold execResync
  repeat' first
    | with_reducible first | rfl | refine (clock_applyBlock ..).trans ?_ | refine (clock_of (view_modPair ..)).trans ?_
    | with_reducible first | refine (clock_onMsg _ _ _ fun _ => ?_).trans ?_ | apply keepsClock_next | apply clock_ite
    | simp only [↓clock_mk, clock_eta] | split | dsimp only

theorem clock_execResyncComplete (s : State) : KeepsClock (execResyncComplete s) s := by
  unfold execResyncComplete
  repeat' first
    | with_reducible first | rfl | refine (clock_leaveStart ..).trans ?_ | refine (clock_of (view_setEpoch ..)).trans ?_
    | with_reducible first | refine (clock_of (view_modPair ..)).trans ?_ | refine (clock_of (view_raiseNow ..)).trans ?_
    | with_reducible first | apply keepsClock_next | apply clock_ite
    | simp only [↓clock_mk, clock_eta] | split | dsimp only

theorem clock_endUpdate (n : Nat) (status : Nat) (s : State) : clock (endUpdate n status s) = clock s := by
  unfold endUpdate
  repeat' first
    | with_reducible first | rfl | refine (clock_of (view_updateStep ..)).trans ?_ | refine (clock_leaveStart ..).trans ?_
    | with_reducible first | refine (clock_of (view_modPair ..)).trans ?_ | refine (clock_of (view_finishOn ..)).trans ?_
    | simp only [↓clock_mk, clock_eta] | split | dsimp only

theorem clock_execYield (m : PairMsg) (s : State) : KeepsClock (execYield m s) s := by
  unfold execYield
  repeat' first
    | with_reducible first | rfl | refine (clock_endUpdate ..).trans ?_ | refine (clock_modSafe ..).trans ?_
    | with_reducible first | refine (clock_of (view_startClaims ..)).trans ?_ | refine (clock_onMsg _ _ _ fun _ => ?_).trans ?_
    | with_reducible first | apply keepsClock_next | apply clock_ite | refine (clock_forEach _ _ _ fun _ _ => ?_).trans ?_
    | simp only [↓clock_mk, clock_eta] | split | dsimp only

theorem clock_execPairUpdateStepDone (checks : ImageChecks) (parts : ImageParts) (s : State) :
    KeepsClock (execPairUpdateStepDone checks parts s) s := by
  unfold execPairUpdateStepDone
  repeat' first
    | with_reducible first | rfl | refine (clock_endUpdate ..).trans ?_ | refine (clock_of (view_updateStep ..)).trans ?_
    | with_reducible first | refine (clock_of (view_restartUpdate ..)).trans ?_ | refine (clock_of (view_putSlot ..)).trans ?_
    | with_reducible first | refine (clock_of (view_modPair ..)).trans ?_ | refine (clock_of (view_sendPair ..)).trans ?_
    | with_reducible first | apply keepsClock_next | apply clock_ite
    | simp only [↓clock_mk, clock_eta] | split | dsimp only
theorem clock_opLow (op : Nat) (f : Req → State → Host.Outcome State Fault Refusal) (h : opLow op = some f) (r : Req) (s : State) :
    KeepsClock (f r s) s := by
  unfold opLow at h
  split at h <;> cases h <;> apply Keeps.clock <;> first
    | with_reducible exact view_execDevInfo _ _
    | with_reducible exact view_execDevReady _ _
    | with_reducible exact view_execDevCaps _ _
    | with_reducible exact view_execDevTime _ _
    | with_reducible exact view_execDevNop _ _
    | with_reducible exact view_execChainPower _ _
    | with_reducible exact view_execChainEnum _ _
    | with_reducible exact view_execChainStatus _ _
    | with_reducible exact view_execChainPark _ _
    | with_reducible exact view_execChainWake _ _
    | with_reducible exact view_execChainSelvRead _ _
    | with_reducible exact view_execChainSelvWrite _ _
    | with_reducible exact view_execChainReset _ _
    | with_reducible exact view_execLaneUp _ _
    | with_reducible exact view_execLaneStatus _ _
    | with_reducible exact view_execLanePair _ _
    | with_reducible exact view_execLaneEye _ _
    | with_reducible exact view_execLaneDown _ _
    | with_reducible exact view_execBridgeStatus _ _
    | with_reducible exact view_execMapBind _ _
    | with_reducible exact view_execMapCommit _ _
    | with_reducible exact view_execMapRead _ _
    | with_reducible exact view_execMapRange _ _
    | with_reducible exact view_execAccOpen _ _
    | with_reducible exact view_execAccClose _ _
    | with_reducible exact view_execAccHarvest _ _
    | with_reducible exact view_execAccApsisReset _ _
    | with_reducible exact view_execAccStatus _ _

theorem clock_opMid (op : Nat) (f : Req → State → Host.Outcome State Fault Refusal) (h : opMid op = some f) (r : Req) (s : State) :
    KeepsClock (f r s) s := by
  unfold opMid at h
  split at h <;> cases h <;> apply Keeps.clock <;> first
    | with_reducible exact view_execSpecConfig _ _
    | with_reducible exact view_execSpecFocus _ _
    | with_reducible exact view_execSpecHarvest _ _
    | with_reducible exact view_execSpecDither _ _
    | with_reducible exact view_execSpecStop _ _
    | with_reducible exact view_execCalRun _ _
    | with_reducible exact view_execCalStatus _ _
    | with_reducible exact view_execCalApply _ _
    | with_reducible exact view_execCalRevert _ _
    | with_reducible exact view_execCalRead _ _
    | with_reducible exact view_execCalLimits _ _
    | with_reducible exact view_execBalSet _ _
    | with_reducible exact view_execBalStatus _ _
    | with_reducible exact view_execDiagOpenwire _ _
    | with_reducible exact view_execDiagTag _ _
    | with_reducible exact view_execDiagReport _ _
    | with_reducible exact view_execEstConfig _ _
    | with_reducible exact view_execEstRead _ _
    | with_reducible exact view_execEstSave _ _
    | with_reducible exact view_execEstRestore _ _
    | with_reducible exact view_execEstLearn _ _
    | with_reducible exact view_execEstReset _ _
    | with_reducible exact view_execEstHibernate _ _
    | with_reducible exact view_execChgLoad _ _
    | with_reducible exact view_execChgStart _ _
    | with_reducible exact view_execChgStop _ _
    | with_reducible exact view_execChgStatus _ _
    | with_reducible exact view_execChgGroup _ _
    | with_reducible exact view_execChgSetpoint _ _

theorem clock_opHigh (op : Nat) (f : Req → State → Host.Outcome State Fault Refusal) (h : opHigh op = some f) (r : Req) (s : State) :
    KeepsClock (f r s) s := by
  unfold opHigh at h
  split at h <;> cases h <;> first
    | with_reducible exact (view_execSafeConfig _ _).clock
    | with_reducible exact (view_execSafeArm _ _).clock
    | with_reducible exact (view_execSafeStatus _ _).clock
    | with_reducible exact (view_execSafeAck _ _).clock
    | with_reducible exact (view_execSafeLog _ _).clock
    | with_reducible exact (view_execSafeTighten _ _).clock
    | with_reducible exact clock_execSafePasswd _ _
    | with_reducible exact (view_execTenCreate _ _).clock
    | with_reducible exact (view_execTenDestroy _ _).clock
    | with_reducible exact (view_execTenGrant _ _).clock
    | with_reducible exact (view_execTenRevoke _ _).clock
    | with_reducible exact (view_execTenQos _ _).clock
    | with_reducible exact (view_execTenReset _ _).clock
    | with_reducible exact (view_execTenStatus _ _).clock
    | with_reducible exact (view_execPairConfig _ _).clock
    | with_reducible exact (view_execPairStatus _ _).clock
    | with_reducible exact (view_execPairHandover _ _).clock
    | with_reducible exact (view_execPairUpdate _ _).clock
    | with_reducible exact (view_execPairLease _ _).clock
    | with_reducible exact (view_execHkThermal _ _).clock
    | with_reducible exact (view_execHkWear _ _).clock
    | with_reducible exact (view_execHkTrace _ _).clock
    | with_reducible exact (view_execHkRecords _ _).clock
    | with_reducible exact clock_execHkFw _ _
    | with_reducible exact (view_execHkBist _ _).clock
    | with_reducible exact (view_execChkBind _ _).clock
    | with_reducible exact (view_execChkStatus _ _).clock

theorem clock_runPacket (op : Nat) (r : Req) (s : State) : clock (runPacket op r s) = clock s := by
  have ha (o : Host.Outcome State Fault Refusal) (h : KeepsClock o s) : clock (answered s o) = clock s := by
    cases o with
    | next t => exact h t rfl
    | fault e => rfl
    | refused e => rfl
  have hk (f : Req → State → Host.Outcome State Fault Refusal) (h : opMeaning op = some f) : KeepsClock (f r s) s := by
    unfold opMeaning at h
    have h1 : opLow op = some f ∨ opMid op = some f ∨ opHigh op = some f := by
      revert h
      cases opLow op <;> cases opMid op <;> simp [Option.orElse] <;> intro h <;> simp [h]
    rcases h1 with h | h | h
    · exact clock_opLow op f h r s
    · exact clock_opMid op f h r s
    · exact clock_opHigh op f h r s
  unfold runPacket
  split
  · next f hf => exact ha _ (hk f hf)
  · exact clock_of (view_unknownOp ..)

theorem clock_runAt (accept op : Nat) (r : Req) (s : State) : clock (runAt accept op r s) = clock s := by
  unfold runAt
  have h := congrArg Prod.fst (clock_runPacket op r { s with time := { s.time with spc := accept } })
  exact Prod.ext h rfl


theorem clock_startNext (fn : Nat) (q : Nat) (s : State) : clock (startNext fn q s) = clock s := by
  unfold startNext
  repeat' first
    | with_reducible first | rfl | refine (clock_runPacket ..).trans ?_ | refine (clock_of (view_modRing ..)).trans ?_
    | simp only [↓clock_mk, clock_eta] | split | dsimp only

theorem clock_startMany (n fn q : Nat) (s : State) : clock (startMany n fn q s) = clock s := by
  induction n generalizing s with
  | zero => rfl
  | succ n ih => exact (ih ..).trans (clock_startNext ..)

theorem clock_startMgmt (q : Nat) (s : State) : clock (startMgmt q s) = clock s := clock_startMany ..

theorem clock_startTenant (t : Nat) (s : State) : clock (startTenant t s) = clock s := by
  unfold startTenant
  repeat' first
    | with_reducible first | rfl | refine (clock_startNext ..).trans ?_
    | simp only [↓clock_mk, clock_eta] | split | dsimp only

theorem clock_execSqTailDoorbell (fn : Nat) (q : Nat) (tail : Nat) (packets : List Packet) (s : State) :
    KeepsClock (execSqTailDoorbell fn q tail packets s) s := by
  unfold execSqTailDoorbell
  repeat' first
    | with_reducible first | rfl | refine (clock_startMgmt ..).trans ?_ | refine (clock_of (view_modRing ..)).trans ?_
    | with_reducible first | apply keepsClock_onObject | apply clock_ite
    | split | dsimp only

theorem clock_execCqHeadDoorbell (fn : Nat) (q : Nat) (head : Nat) (s : State) : KeepsClock (execCqHeadDoorbell fn q head s) s := by
  unfold execCqHeadDoorbell
  repeat' first
    | with_reducible first | rfl | refine (clock_startMgmt ..).trans ?_ | refine (clock_of (view_modRing ..)).trans ?_
    | with_reducible first | apply keepsClock_onObject | apply clock_ite
    | split | dsimp only

theorem clock_roundRobin (n : Nat) (left : Int) (costs ts : List Nat) (s : State) : clock (roundRobin n left costs ts s) = clock s := by
  fun_induction roundRobin n left costs ts s with
  | case1 => rfl
  | case2 => rfl
  | case3 => rfl
  | case4 _ _ _ _ _ _ _ _ ih => exact ih
  | case5 _ _ _ _ _ _ _ _ _ _ _ _ ih => exact ih.trans (clock_startTenant ..)
  | case6 _ _ _ _ _ _ _ _ _ _ _ ih => exact ih

theorem clock_execCommandDispatchRound (costs : List Nat) (s : State) : KeepsClock (execCommandDispatchRound costs s) s := by
  unfold execCommandDispatchRound
  apply keepsClock_next
  refine clock_ite _ _ _ _ ?_ rfl
  extract_lets s1 ts first s2
  have h1 : clock s1 = clock s := clock_ite _ _ _ _ (clock_forEach _ _ _ fun _ _ => clock_startMgmt ..) rfl
  have h2 : clock s2 = clock s := (clock_forEach _ _ _ fun _ _ => clock_startTenant ..).trans h1
  exact (clock_roundRobin ..).trans h2

theorem clock_runAsked (op : Nat) (r : Req) (s : State) : clock (runAsked op r s) = clock s := by
  unfold runAsked
  repeat' first
    | with_reducible first | rfl | refine (clock_of (view_sendAck ..)).trans ?_ | refine (clock_runPacket ..).trans ?_
    | with_reducible first | refine (clock_of (view_modPair ..)).trans ?_ | apply clock_ite
    | simp only [↓clock_mk, clock_eta] | split | dsimp only

theorem clock_applyMirror (accept : Nat) (op : Nat) (r : Req) (s : State) : clock (applyMirror accept op r s) = clock s := by
  unfold applyMirror
  repeat' first
    | with_reducible first | rfl | refine (clock_runAt ..).trans ?_ | refine (clock_of (view_sendAck ..)).trans ?_
    | with_reducible first | refine (clock_of (view_modPair ..)).trans ?_ | apply clock_ite
    | simp only [↓clock_mk, clock_eta] | split | dsimp only

theorem clock_execMirror (m : PairMsg) (accept : Nat) (op : Nat) (r : Req) (s : State) : KeepsClock (execMirror m accept op r s) s := by
  unfold execMirror
  repeat' first
    | with_reducible first | rfl | refine (clock_applyMirror ..).trans ?_ | refine (clock_runAsked ..).trans ?_
    | with_reducible first | refine (clock_onMsg _ _ _ fun _ => ?_).trans ?_ | apply keepsClock_next | apply clock_ite
    | simp only [↓clock_mk, clock_eta] | split | dsimp only

theorem clock_releaseHeld (s : State) : clock (releaseHeld s) = clock s := by
  unfold releaseHeld
  repeat' first
    | with_reducible first | rfl | refine (clock_runAsked ..).trans ?_ | refine (clock_runPacket ..).trans ?_
    | with_reducible first | refine (clock_of (view_modPair ..)).trans ?_ | apply clock_ite
    | with_reducible first | refine (clock_forEach _ _ _ fun _ _ => ?_).trans ?_
    | simp only [↓clock_mk, clock_eta] | split | dsimp only

theorem clock_execTwinLinkLost (s : State) : KeepsClock (execTwinLinkLost s) s := by
  unfold execTwinLinkLost
  repeat' first
    | with_reducible first | rfl | refine (clock_releaseHeld ..).trans ?_ | refine (clock_endUpdate ..).trans ?_
    | with_reducible first | refine (clock_of (view_freshChannel ..)).trans ?_ | refine (clock_of (view_stopMirroring ..)).trans ?_
    | with_reducible first | refine (clock_of (view_modPair ..)).trans ?_ | refine (clock_of (view_raiseNow ..)).trans ?_
    | with_reducible first | apply keepsClock_next | apply clock_ite
    | simp only [↓clock_mk, clock_eta] | split | dsimp only

end Sys2Proof.Machine
end

