-- ==== Sys2Proof/Laws/Held.lean ====
section
/-! SUPPORT. The kill line: every operation and row keeps it held where the rules ask for it. -/

set_option linter.unusedSimpArgs false
set_option linter.unusedVariables false

namespace Sys2Proof.Machine


theorem held_same {s t : State} (h1 : t.safe.island = s.safe.island) (h2 : t.safe.kill = s.safe.kill) (h3 : t.boot.phase = s.boot.phase)
    (h4 : t.boot.scan = s.boot.scan) (h : KillHeld s) : KillHeld t :=
  ⟨by rw [h1, h2]; exact h.island, by rw [h2, h3]; exact h.shutdown, by rw [h2, h4]; exact h.scan⟩

theorem held_of {a b : State} (e : view a = view b) (h : KillHeld b) : KillHeld a :=
  held_same (congrArg View.island e) (congrArg View.kill e) (congrArg View.phase e) (congrArg View.scan e) h

/-- What `KillHeld` says of the four fields it is about. -/
def HeldAs (island : Island) (kill : Bool) (phase : Phase) (scan : Bool) : Prop :=
  (island ≠ .run → kill = true) ∧ (phase = .shutdown → kill = true) ∧ (scan = true → kill = true)

theorem held_eta (s : State) : HeldAs s.safe.island s.safe.kill s.boot.phase s.boot.scan = KillHeld s :=
  propext ⟨fun h => ⟨h.1, h.2.1, h.2.2⟩, fun h => ⟨h.1, h.2, h.3⟩⟩

theorem held_mk (time otp boot line lane loom cal map bal acc safe chg est spec therm wear trace nvm pair ten cmd regs out pending fresh) :
    KillHeld ⟨time, otp, boot, line, lane, loom, cal, map, bal, acc, safe, chg, est, spec, therm, wear, trace, nvm, pair, ten, cmd, regs, out,
      pending, fresh⟩ = HeldAs safe.island safe.kill boot.phase boot.scan := (held_eta _).symm

/-- The kill line asserted holds it whatever else is so. -/
theorem held_kill {s : State} (h : s.safe.kill = true) : KillHeld s := ⟨fun _ => h, fun _ => h, fun _ => h⟩

theorem held_modSafe (f : SafeUnit → SafeUnit) (s : State) (hf : ∀ u, (f u).island = u.island ∧ (f u).kill = u.kill) (h : KillHeld s) :
    KillHeld (modSafe f s) := held_same (s := s) (hf s.safe).1 (hf s.safe).2 rfl rfl h

theorem held_modBoot (f : Boot → Boot) (s : State) (hf : ∀ u, (f u).phase = u.phase ∧ (f u).scan = u.scan) (h : KillHeld s) :
    KillHeld (modBoot f s) := held_same (s := s) rfl rfl (hf s.boot).1 (hf s.boot).2 h

theorem held_forEach {α : Type} (l : List α) (s : State) (f : α → State → State) (hf : ∀ a t, KillHeld t → KillHeld (f a t)) (h : KillHeld s) :
    KillHeld (forEach l s f) := by
  induction l generalizing s with
  | nil => exact h
  | cons a r ih => exact ih (f a s) (hf a s h)

theorem held_ite (c : Prop) [Decidable c] (a b : State) (ha : KillHeld a) (hb : KillHeld b) : KillHeld (if c then a else b) := by
  split <;> assumption

theorem held_elim {α : Type} (o : Option α) (a : State) (f : α → State) (ha : KillHeld a) (hf : ∀ x, KillHeld (f x)) :
    KillHeld (o.elim a f) := by
  cases o
  · exact ha
  · exact hf _

theorem held_onMsg (m : PairMsg) (s : State) (f : State → State) (hf : ∀ u, KillHeld u → KillHeld (f u)) (h : KillHeld s) :
    KillHeld (onMsg m s f) := by
  unfold onMsg acceptMsg
  split
  · exact hf _ (held_of (view_modPair ..) h)
  · exact h

theorem rheld_now (a : Nat) (b : List Word) (s : State) (h : KillHeld s) : KillHeld (Reply.now a b s).state := h
theorem rheld_long (a : Nat) (b : List Word) (s : State) (h : KillHeld s) : KillHeld (Reply.long a b s).state := h
theorem rheld_longNow (a : Nat) (b : List Word) (s : State) (h : KillHeld s) : KillHeld (Reply.longNow a b s).state := h
theorem rheld_later (k : DeferKind) (s : State) (h : KillHeld s) : KillHeld (Reply.later k s).state := h
theorem rheld_ite (c : Prop) [Decidable c] (a b : Reply) (ha : KillHeld a.state) (hb : KillHeld b.state) :
    KillHeld (if c then a else b).state := by split <;> assumption

/-- A next state holds the kill line as the rules ask. -/
def Holds (o : Host.Outcome State Fault Refusal) : Prop := ∀ t, o = .next t → KillHeld t

theorem Keeps.holds {o : Host.Outcome State Fault Refusal} {s : State} (h : Keeps o s) (hs : KillHeld s) : Holds o :=
  fun t ht => held_of (h t ht) hs

theorem holds_next {t : State} (h : KillHeld t) : Holds (.next t) := by
  intro u hu; cases hu; exact h

theorem holds_onObject {b : Bool} {t : State} (h : KillHeld t) : Holds (onObject b t) := by
  intro u hu
  unfold onObject at hu
  split at hu
  · cases hu; exact h
  · cases hu


theorem held_lockNow (cause : Nat) (s : State) (h : KillHeld s) : KillHeld (lockNow cause s) := by
  unfold lockNow
  split
  · exact held_modSafe _ _ (fun _ => ⟨rfl, rfl⟩) h
  · refine held_of ((view_yieldPair ..).trans ((view_logChange ..).trans ((view_raiseNow ..).trans (view_setAlert ..)))) ?_
    exact held_kill rfl

theorem held_enterLockout (cause : Nat) (s : State) (hk : KillHeld s) : KillHeld (enterLockout cause s) := by
  unfold enterLockout
  repeat' first
    | with_reducible first | assumption | refine held_lockNow _ _ ?_ | refine held_modSafe _ _ (fun _ => ?_) ?_ | apply held_ite
    | exact ⟨rfl, rfl⟩ | simp only [↓held_mk, held_eta] | split | dsimp only

theorem held_leaveStart (s : State) (h : KillHeld s) : KillHeld (leaveStart s) := by
  unfold leaveStart
  split
  · next hs =>
    simp only [Bool.and_eq_true] at hs
    extract_lets upd causes
    split
    · exact held_forEach _ _ _ (fun c t ht => held_lockNow c t ht) (held_modSafe _ _ (fun _ => ⟨rfl, rfl⟩) h)
    · next hc =>
      split
      · exact h
      · have hscan : s.boot.scan = false := by
          cases hb : s.boot.scan with
          | false => rfl
          | true => simp [causes, hb] at hc
        have hup : s.boot.phase = .running := by simpa [State.up] using hs.1.1
        refine ⟨fun hi => absurd rfl hi, fun hp => ?_, fun hb => ?_⟩
        · exact absurd (hup.symm.trans hp) (by decide)
        · exact absurd (hscan.symm.trans hb) (by decide)
  · exact h

theorem held_execSafeStartTestDone (pass : Bool) (s : State) (h : KillHeld s) : Holds (execSafeStartTestDone pass s) := by
  unfold execSafeStartTestDone
  apply holds_next
  split
  · next hs =>
    simp only [Bool.and_eq_true] at hs
    split
    · next hc =>
      simp only [Bool.and_eq_true, Bool.not_eq_true'] at hc
      refine held_of ((view_completeDeferred ..).trans ((view_logChange ..).trans (view_raiseNow ..))) ?_
      have hscan : s.boot.scan = false := by
        have := hc.2
        unfold causePersists at this
        simp only [Bool.or_eq_false_iff] at this
        exact this.1
      have hup : s.boot.phase = .running := by simpa [State.up] using hs.1.1
      refine ⟨fun hi => absurd rfl hi, fun hp => ?_, fun hb => ?_⟩
      · exact absurd (hup.symm.trans hp) (by decide)
      · exact absurd (hscan.symm.trans hb) (by decide)
    · exact held_of (view_completeDeferred ..) (held_modSafe _ _ (fun _ => ⟨rfl, rfl⟩) h)
  · exact h

theorem held_execClockMonitorFault (s : State) (hk : KillHeld s) : Holds (execClockMonitorFault s) := by
  unfold execClockMonitorFault
  repeat' first
    | with_reducible first | assumption | refine held_enterLockout _ _ ?_ | apply holds_next | apply held_ite
    | split | dsimp only

theorem held_execSafetyCoreFault (s : State) (hk : KillHeld s) : Holds (execSafetyCoreFault s) := by
  unfold execSafetyCoreFault
  repeat' first
    | with_reducible first | assumption | refine held_enterLockout _ _ ?_ | apply holds_next | apply held_ite
    | split | dsimp only

theorem held_execIslandWatchdogExpiry (s : State) (hk : KillHeld s) : Holds (execIslandWatchdogExpiry s) := by
  unfold execIslandWatchdogExpiry
  repeat' first
    | with_reducible first | assumption | refine held_enterLockout _ _ ?_ | apply holds_next | apply held_ite
    | split | dsimp only

theorem held_execIslandSupplyFault (s : State) (hk : KillHeld s) : Holds (execIslandSupplyFault s) := by
  unfold execIslandSupplyFault
  repeat' first
    | with_reducible first | assumption | refine held_enterLockout _ _ ?_ | apply holds_next | apply held_ite
    | split | dsimp only

theorem held_execSafetyRecordCheckFail (record : Nat) (s : State) (hk : KillHeld s) : Holds (execSafetyRecordCheckFail record s) := by
  unfold execSafetyRecordCheckFail
  repeat' first
    | with_reducible first | assumption | refine held_enterLockout _ _ ?_ | refine held_modSafe _ _ (fun _ => ?_) ?_ | apply holds_next
    | with_reducible first | apply held_ite
    | exact ⟨rfl, rfl⟩ | simp only [↓held_mk, held_eta] | split | dsimp only

theorem held_execSafeInDiscrepancy (k : Nat) (s : State) (hk : KillHeld s) : Holds (execSafeInDiscrepancy k s) := by
  unfold execSafeInDiscrepancy
  repeat' first
    | with_reducible first | assumption | refine held_enterLockout _ _ ?_ | apply holds_onObject | apply held_ite
    | split | dsimp only

theorem held_execSafeOutTestPulse (k : Nat) (lineB : Bool) (readback : Bool) (s : State) (hk :
    KillHeld s) : Holds (execSafeOutTestPulse k lineB readback s) := by
  unfold execSafeOutTestPulse
  repeat' first
    | with_reducible first | assumption | refine held_enterLockout _ _ ?_ | refine held_modSafe _ _ (fun _ => ?_) ?_ | apply holds_onObject
    | with_reducible first | apply held_ite
    | exact ⟨rfl, rfl⟩ | simp only [↓held_mk, held_eta] | split | dsimp only

theorem held_execOutFb (k : Nat) (lineB : Bool) (readback : Bool) (s : State) (hk : KillHeld s) : Holds (execOutFb k lineB readback s) := by
  unfold execOutFb
  repeat' first
    | with_reducible first | assumption | refine held_enterLockout _ _ ?_ | refine held_modSafe _ _ (fun _ => ?_) ?_ | apply holds_onObject
    | with_reducible first | apply held_ite
    | exact ⟨rfl, rfl⟩ | simp only [↓held_mk, held_eta] | split | dsimp only

theorem held_actSafePasswd (r : Req) (x1 : State) (t : State) (hk : KillHeld t) : KillHeld (actSafePasswd r x1 t).state := by
  unfold actSafePasswd
  repeat' first
    | with_reducible first | assumption | refine held_of (view_logChange ..) ?_ | refine held_modSafe _ _ (fun _ => ?_) ?_
    | with_reducible first | refine rheld_now _ _ _ ?_
    | exact ⟨rfl, rfl⟩ | simp only [↓held_mk, held_eta] | dsimp only

theorem held_execSafePasswd (r : Req) (s : State) (hk : KillHeld s) : Holds (execSafePasswd r s) := by
  unfold execSafePasswd
  repeat' first
    | with_reducible first | assumption | refine pwCommand_keeps _ (fun _ _ => held_of) _ _ _ _ (fun _ _ => ?_) ?_ | apply holds_next
    | exact held_actSafePasswd _ _ _ (by assumption) | dsimp only

theorem held_decideShutdown (cause : Nat) (s : State) (_ : KillHeld s) : KillHeld (decideShutdown cause s) := by
  unfold decideShutdown
  extract_lets s1 s2 s3
  have e : s3.safe.kill = true := by
    have hv : view s3 = view _ := (view_clearReady ..).trans (view_setAlert ..)
    exact (congrArg View.kill hv).trans rfl
  exact held_kill e

theorem held_decideRound (k : Nat) (s : State) (hk : KillHeld s) : KillHeld (decideRound k s) := by
  unfold decideRound
  repeat' first
    | with_reducible first | assumption | refine held_decideShutdown _ _ ?_ | refine held_of (view_setBand ..) ?_
    | with_reducible first | refine held_of (view_modTherm ..) ?_ | refine held_of (view_setAlert ..) ?_
    | with_reducible first | refine held_of (view_raiseNow ..) ?_ | apply held_ite | refine held_elim _ _ _ ?_ (fun _ => ?_)
    | simp only [↓held_mk, held_eta] | split | dsimp only

theorem held_execHkRoundDecision (s : State) (hk : KillHeld s) : Holds (execHkRoundDecision s) := by
  unfold execHkRoundDecision
  repeat' first
    | with_reducible first | assumption | refine held_decideRound _ _ ?_ | refine held_of (view_closeRound ..) ?_ | apply holds_next
    | with_reducible first | apply held_ite
    | simp only [↓held_mk, held_eta] | split | dsimp only

theorem held_execShutdownPowerGate (s : State) (hk : KillHeld s) : Holds (execShutdownPowerGate s) := by
  unfold execShutdownPowerGate
  apply holds_next
  split
  · exact held_ite _ _ _ (held_kill rfl) hk
  · exact hk

theorem held_actHkFw (r : Req) (s : State) (t : State) (hk : KillHeld t) : KillHeld (actHkFw r s t).state := by
  unfold actHkFw
  repeat' first
    | with_reducible first | assumption | refine held_of (view_putSlot ..) ?_ | refine held_enterLockout _ _ ?_
    | with_reducible first | refine held_of (view_logChange ..) ?_ | apply rheld_ite | refine rheld_now _ _ _ ?_
    | with_reducible first | refine rheld_long _ _ _ ?_ | refine rheld_longNow _ _ _ ?_ | apply held_ite
    | with_reducible first | refine held_elim _ _ _ ?_ (fun _ => ?_)
    | simp only [↓held_mk, held_eta] | split | dsimp only

theorem held_execHkFw (r : Req) (s : State) (hk : KillHeld s) : Holds (execHkFw r s) := by
  unfold execHkFw
  repeat' first
    | with_reducible first | assumption | refine command_keeps _ (fun _ _ => held_of) _ _ _ _ (fun _ _ => ?_) ?_ | apply holds_next
    | exact held_actHkFw _ _ _ (by assumption) | dsimp only

theorem held_coldReset (bit : Nat) (s : State) (_ : KillHeld s) : KillHeld (coldReset bit s) := held_kill rfl

theorem held_raiseCold (bit : Nat) (s : State) (hk : KillHeld s) : KillHeld (raiseCold bit s) := by
  unfold raiseCold
  repeat' first
    | with_reducible first | assumption | refine held_coldReset _ _ ?_ | refine held_modBoot _ _ (fun _ => ?_) ?_ | apply held_ite
    | exact ⟨rfl, rfl⟩ | simp only [↓held_mk, held_eta] | split | dsimp only

theorem held_warmReset (bit : Nat) (s : State) (_ : KillHeld s) : KillHeld (warmReset bit s) := held_kill rfl

theorem held_settleReady (s : State) (hk : KillHeld s) : KillHeld (settleReady s) := by
  unfold settleReady
  repeat' first
    | with_reducible first | assumption | refine held_of (view_actOnWake ..) ?_ | refine held_leaveStart _ ?_
    | with_reducible first | refine held_of (view_refreshReady ..) ?_
    | dsimp only

theorem held_releaseCold (s : State) (hk : KillHeld s) : KillHeld (releaseCold s) := by
  unfold releaseCold
  extract_lets hot n b s1
  refine held_settleReady _ (held_of ((view_assignTiles ..).trans ((view_fenceHomes ..).trans ((view_fencePorts ..).trans (view_fenceRecorded ..)))) ?_)
  refine held_of (view_traceMarker ..) ?_
  exact ⟨hk.island, fun hp => (by cases hp), hk.scan⟩

theorem held_releaseWaiting (s : State) (hk : KillHeld s) : KillHeld (releaseWaiting s) := by
  unfold releaseWaiting
  repeat' first
    | with_reducible first | assumption | refine held_releaseCold _ ?_ | apply held_ite | refine held_elim _ _ _ ?_ (fun _ => ?_)
    | split | dsimp only

theorem held_restoreSafety (k : KeptSafety) (s : State) (hk : KillHeld s) : KillHeld (restoreSafety k s) := by
  unfold restoreSafety
  repeat' first
    | with_reducible first | assumption | refine held_modSafe _ _ (fun _ => ?_) ?_ | apply held_ite
    | exact ⟨rfl, rfl⟩ | simp only [↓held_mk, held_eta] | split | dsimp only

theorem held_raiseMinimum (s : State) (hk : KillHeld s) : KillHeld (raiseMinimum s) := by
  unfold raiseMinimum
  repeat' first
    | with_reducible first | assumption | refine held_of (view_imageEvent ..) ?_ | refine held_of (view_traceMarker ..) ?_ | apply held_ite
    | simp only [↓held_mk, held_eta] | split | dsimp only

theorem held_passTrial (s : State) (hk : KillHeld s) : KillHeld (passTrial s) := by
  unfold passTrial
  repeat' first
    | with_reducible first | assumption | refine held_raiseMinimum _ ?_ | refine held_of (view_trialEvent ..) ?_
    | with_reducible first | refine held_modBoot _ _ (fun _ => ?_) ?_
    | exact ⟨rfl, rfl⟩ | simp only [↓held_mk, held_eta] | dsimp only

theorem held_execColdReset (s : State) (hk : KillHeld s) : Holds (execColdReset s) := by
  unfold execColdReset
  repeat' first
    | with_reducible first | assumption | refine held_raiseCold _ _ ?_ | apply holds_next
    | dsimp only

theorem held_execSupplyMonitorTrip (rail : Nat) (s : State) (hk : KillHeld s) : Holds (execSupplyMonitorTrip rail s) := by
  unfold execSupplyMonitorTrip
  repeat' first
    | with_reducible first | assumption | refine held_raiseCold _ _ ?_ | apply holds_onObject
    | dsimp only

theorem held_execHeldColdResetProceeds (s : State) (hk : KillHeld s) : Holds (execHeldColdResetProceeds s) := by
  unfold execHeldColdResetProceeds
  repeat' first
    | with_reducible first | assumption | refine held_coldReset _ _ ?_ | apply holds_next | apply held_ite
    | split | dsimp only

theorem held_execColdRstRelease (s : State) (hk : KillHeld s) : Holds (execColdRstRelease s) := by
  unfold execColdRstRelease
  repeat' first
    | with_reducible first | assumption | refine held_releaseCold _ ?_ | refine held_modBoot _ _ (fun _ => ?_) ?_ | apply holds_next
    | with_reducible first | apply held_ite
    | exact ⟨rfl, rfl⟩ | simp only [↓held_mk, held_eta] | split | dsimp only

theorem held_execWarmResetRecognised (s : State) (hk : KillHeld s) : Holds (execWarmResetRecognised s) := by
  unfold execWarmResetRecognised
  repeat' first
    | with_reducible first | assumption | refine held_warmReset _ _ ?_ | apply holds_next | apply held_ite
    | simp only [↓held_mk, held_eta] | split | dsimp only

theorem held_execPerstNRelease (s : State) (hk : KillHeld s) : Holds (execPerstNRelease s) := by
  unfold execPerstNRelease
  repeat' first
    | with_reducible first | assumption | refine held_settleReady _ ?_ | refine held_modBoot _ _ (fun _ => ?_) ?_ | apply holds_next
    | with_reducible first | apply held_ite
    | exact ⟨rfl, rfl⟩ | simp only [↓held_mk, held_eta] | split | dsimp only

theorem held_execBistUnitDone (cls : Nat) (unit : Nat) (result : Nat) (s : State) (hk :
    KillHeld s) : Holds (execBistUnitDone cls unit result s) := by
  unfold execBistUnitDone
  repeat' first
    | with_reducible first | assumption | refine held_of (view_failUnit ..) ?_ | refine held_of (view_passUnit ..) ?_
    | with_reducible first | refine held_settleReady _ ?_ | refine held_of (view_assignTiles ..) ?_ | apply holds_onObject | apply held_ite
    | split | dsimp only

theorem held_execNvmPartitionsLoaded (bad : List Nat) (s : State) (hk : KillHeld s) : Holds (execNvmPartitionsLoaded bad s) := by
  unfold execNvmPartitionsLoaded
  repeat' first
    | with_reducible first | assumption | refine held_of (view_reportZero ..) ?_ | refine held_restoreSafety _ _ ?_
    | with_reducible first | refine held_of (view_restoreConfig ..) ?_ | refine held_settleReady _ ?_
    | with_reducible first | refine held_modBoot _ _ (fun _ => ?_) ?_ | refine held_of (view_keepNvm ..) ?_
    | with_reducible first | refine held_of (view_modPair ..) ?_ | refine held_of (view_setAlert ..) ?_
    | with_reducible first | refine held_of (view_raiseNow ..) ?_ | apply holds_next | apply held_ite
    | with_reducible first | refine held_forEach _ _ _ (fun _ _ _ => ?_) ?_
    | exact ⟨rfl, rfl⟩ | simp only [↓held_mk, held_eta] | split | dsimp only

theorem held_execBootImageVerified (validA : Bool) (validB : Bool) (s : State) (hk :
    KillHeld s) : Holds (execBootImageVerified validA validB s) := by
  unfold execBootImageVerified
  repeat' first
    | with_reducible first | assumption | refine held_of (view_runImage ..) ?_ | refine held_settleReady _ ?_
    | with_reducible first | refine held_modBoot _ _ (fun _ => ?_) ?_ | refine held_of (view_setAlert ..) ?_ | apply holds_next
    | with_reducible first | apply held_ite
    | exact ⟨rfl, rfl⟩ | simp only [↓held_mk, held_eta] | split | dsimp only

theorem held_execTrialBootPassed (s : State) (hk : KillHeld s) : Holds (execTrialBootPassed s) := by
  unfold execTrialBootPassed
  repeat' first
    | with_reducible first | assumption | refine held_passTrial _ ?_ | apply holds_next | apply held_ite
    | simp only [↓held_mk, held_eta] | split | dsimp only

theorem held_execRefclkLoss (s : State) (hk : KillHeld s) : Holds (execRefclkLoss s) := by
  unfold execRefclkLoss
  repeat' first
    | with_reducible first | assumption | refine held_of (view_cutLanes ..) ?_ | refine held_of (view_cutChains ..) ?_
    | with_reducible first | refine held_enterLockout _ _ ?_ | refine held_of (view_refreshReady ..) ?_ | apply holds_next | apply held_ite
    | simp only [↓held_mk, held_eta] | split | dsimp only

theorem held_execRefclkRelock (step : Nat) (s : State) (hk : KillHeld s) : Holds (execRefclkRelock step s) := by
  unfold execRefclkRelock
  repeat' first
    | with_reducible first | assumption | refine held_of (view_traceMarker ..) ?_ | apply holds_onObject | apply held_ite
    | simp only [↓held_mk, held_eta] | split | dsimp only

theorem held_execScanInstruction (opcode : Nat) (s : State) (hk : KillHeld s) : Holds (execScanInstruction opcode s) := by
  unfold execScanInstruction
  apply holds_next
  refine held_ite _ _ _ hk ?_
  extract_lets b s1 s2
  have h2 : KillHeld s2 := held_kill rfl
  exact held_ite _ _ _ (held_of (view_dropStaging ..) (held_enterLockout _ _ (held_of (view_cutChains ..) h2))) h2

theorem held_execZeroisationDone (s : State) (hk : KillHeld s) : Holds (execZeroisationDone s) := by
  unfold execZeroisationDone
  repeat' first
    | with_reducible first | assumption | refine held_modBoot _ _ (fun _ => ?_) ?_ | refine held_of (view_logChange ..) ?_
    | with_reducible first | refine held_modSafe _ _ (fun _ => ?_) ?_ | refine held_of (view_modPair ..) ?_ | apply holds_next
    | with_reducible first | apply held_ite
    | exact ⟨rfl, rfl⟩ | simp only [↓held_mk, held_eta] | split | dsimp only

theorem held_applyBlock (b : ResyncBlock) (s : State) (hk : KillHeld s) : KillHeld (applyBlock b s) := by
  unfold applyBlock
  repeat' first
    | with_reducible first | assumption | refine held_modSafe _ _ (fun _ => ?_) ?_ | apply held_ite
    | with_reducible first | refine held_forEach _ _ _ (fun _ _ _ => ?_) ?_
    | exact ⟨rfl, rfl⟩ | simp only [↓held_mk, held_eta] | simp only [id] | split | dsimp only

theorem held_execResync (m : PairMsg) (b : ResyncBlock) (s : State) (hk : KillHeld s) : Holds (execResync m b s) := by
  unfold execResync
  repeat' first
    | with_reducible first | assumption | refine held_applyBlock _ _ ?_ | refine held_of (view_modPair ..) ?_
    | with_reducible first | refine held_onMsg _ _ _ (fun _ _ => ?_) ?_ | apply holds_next | apply held_ite
    | simp only [↓held_mk, held_eta] | split | dsimp only

theorem held_execResyncComplete (s : State) (hk : KillHeld s) : Holds (execResyncComplete s) := by
  unfold execResyncComplete
  repeat' first
    | with_reducible first | assumption | refine held_leaveStart _ ?_ | refine held_of (view_setEpoch ..) ?_
    | with_reducible first | refine held_of (view_modPair ..) ?_ | refine held_of (view_raiseNow ..) ?_ | apply holds_next | apply held_ite
    | simp only [↓held_mk, held_eta] | split | dsimp only

theorem held_meetTwin (f : Forming) (v : PeerView) (s : State) (hk : KillHeld s) : KillHeld (meetTwin f v s) := by
  unfold meetTwin
  repeat' first
    | with_reducible first | assumption | refine held_of (view_endForming ..) ?_ | refine held_of (view_freshChannel ..) ?_
    | with_reducible first | refine held_of (view_startResync ..) ?_ | refine held_of (view_setEpoch ..) ?_
    | with_reducible first | refine held_of (view_setRole ..) ?_ | refine held_of (view_refreshReady ..) ?_
    | with_reducible first | refine held_of (view_traceMarker ..) ?_ | apply held_ite
    | simp only [↓held_mk, held_eta] | split | dsimp only

theorem held_endUpdate (n : Nat) (status : Nat) (s : State) (hk : KillHeld s) : KillHeld (endUpdate n status s) := by
  unfold endUpdate
  repeat' first
    | with_reducible first | assumption | refine held_of (view_updateStep ..) ?_ | refine held_leaveStart _ ?_
    | with_reducible first | refine held_of (view_modPair ..) ?_ | refine held_of (view_finishOn ..) ?_
    | simp only [↓held_mk, held_eta] | split | dsimp only

theorem held_execYield (m : PairMsg) (s : State) (hk : KillHeld s) : Holds (execYield m s) := by
  unfold execYield
  repeat' first
    | with_reducible first | assumption | refine held_endUpdate _ _ _ ?_ | refine held_modSafe _ _ (fun _ => ?_) ?_
    | with_reducible first | refine held_of (view_startClaims ..) ?_ | refine held_onMsg _ _ _ (fun _ _ => ?_) ?_ | apply holds_next
    | with_reducible first | apply held_ite | refine held_forEach _ _ _ (fun _ _ _ => ?_) ?_
    | exact ⟨rfl, rfl⟩ | simp only [↓held_mk, held_eta] | split | dsimp only

theorem held_execPairUpdateStepDone (checks : ImageChecks) (parts : ImageParts) (s : State) (hk :
    KillHeld s) : Holds (execPairUpdateStepDone checks parts s) := by
  unfold execPairUpdateStepDone
  repeat' first
    | with_reducible first | assumption | refine held_endUpdate _ _ _ ?_ | refine held_of (view_updateStep ..) ?_
    | with_reducible first | refine held_of (view_restartUpdate ..) ?_ | refine held_of (view_putSlot ..) ?_
    | with_reducible first | refine held_of (view_modPair ..) ?_ | refine held_of (view_sendPair ..) ?_ | apply holds_next | apply held_ite
    | simp only [↓held_mk, held_eta] | split | dsimp only
theorem held_opLow (op : Nat) (f : Req → State → Host.Outcome State Fault Refusal) (h : opLow op = some f) (r : Req) (s : State) (h0 :
    KillHeld s) :
    Holds (f r s) := by
  unfold opLow at h
  split at h <;> cases h  <;> first
    | with_reducible exact (view_execDevInfo _ _).holds h0
    | with_reducible exact (view_execDevReady _ _).holds h0
    | with_reducible exact (view_execDevCaps _ _).holds h0
    | with_reducible exact (view_execDevTime _ _).holds h0
    | with_reducible exact (view_execDevNop _ _).holds h0
    | with_reducible exact (view_execChainPower _ _).holds h0
    | with_reducible exact (view_execChainEnum _ _).holds h0
    | with_reducible exact (view_execChainStatus _ _).holds h0
    | with_reducible exact (view_execChainPark _ _).holds h0
    | with_reducible exact (view_execChainWake _ _).holds h0
    | with_reducible exact (view_execChainSelvRead _ _).holds h0
    | with_reducible exact (view_execChainSelvWrite _ _).holds h0
    | with_reducible exact (view_execChainReset _ _).holds h0
    | with_reducible exact (view_execLaneUp _ _).holds h0
    | with_reducible exact (view_execLaneStatus _ _).holds h0
    | with_reducible exact (view_execLanePair _ _).holds h0
    | with_reducible exact (view_execLaneEye _ _).holds h0
    | with_reducible exact (view_execLaneDown _ _).holds h0
    | with_reducible exact (view_execBridgeStatus _ _).holds h0
    | with_reducible exact (view_execMapBind _ _).holds h0
    | with_reducible exact (view_execMapCommit _ _).holds h0
    | with_reducible exact (view_execMapRead _ _).holds h0
    | with_reducible exact (view_execMapRange _ _).holds h0
    | with_reducible exact (view_execAccOpen _ _).holds h0
    | with_reducible exact (view_execAccClose _ _).holds h0
    | with_reducible exact (view_execAccHarvest _ _).holds h0
    | with_reducible exact (view_execAccApsisReset _ _).holds h0
    | with_reducible exact (view_execAccStatus _ _).holds h0

theorem held_opMid (op : Nat) (f : Req → State → Host.Outcome State Fault Refusal) (h : opMid op = some f) (r : Req) (s : State) (h0 :
    KillHeld s) :
    Holds (f r s) := by
  unfold opMid at h
  split at h <;> cases h  <;> first
    | with_reducible exact (view_execSpecConfig _ _).holds h0
    | with_reducible exact (view_execSpecFocus _ _).holds h0
    | with_reducible exact (view_execSpecHarvest _ _).holds h0
    | with_reducible exact (view_execSpecDither _ _).holds h0
    | with_reducible exact (view_execSpecStop _ _).holds h0
    | with_reducible exact (view_execCalRun _ _).holds h0
    | with_reducible exact (view_execCalStatus _ _).holds h0
    | with_reducible exact (view_execCalApply _ _).holds h0
    | with_reducible exact (view_execCalRevert _ _).holds h0
    | with_reducible exact (view_execCalRead _ _).holds h0
    | with_reducible exact (view_execCalLimits _ _).holds h0
    | with_reducible exact (view_execBalSet _ _).holds h0
    | with_reducible exact (view_execBalStatus _ _).holds h0
    | with_reducible exact (view_execDiagOpenwire _ _).holds h0
    | with_reducible exact (view_execDiagTag _ _).holds h0
    | with_reducible exact (view_execDiagReport _ _).holds h0
    | with_reducible exact (view_execEstConfig _ _).holds h0
    | with_reducible exact (view_execEstRead _ _).holds h0
    | with_reducible exact (view_execEstSave _ _).holds h0
    | with_reducible exact (view_execEstRestore _ _).holds h0
    | with_reducible exact (view_execEstLearn _ _).holds h0
    | with_reducible exact (view_execEstReset _ _).holds h0
    | with_reducible exact (view_execEstHibernate _ _).holds h0
    | with_reducible exact (view_execChgLoad _ _).holds h0
    | with_reducible exact (view_execChgStart _ _).holds h0
    | with_reducible exact (view_execChgStop _ _).holds h0
    | with_reducible exact (view_execChgStatus _ _).holds h0
    | with_reducible exact (view_execChgGroup _ _).holds h0
    | with_reducible exact (view_execChgSetpoint _ _).holds h0

theorem held_opHigh (op : Nat) (f : Req → State → Host.Outcome State Fault Refusal) (h : opHigh op = some f) (r : Req) (s : State) (h0 :
    KillHeld s) :
    Holds (f r s) := by
  unfold opHigh at h
  split at h <;> cases h <;> first
    | with_reducible exact (view_execSafeConfig _ _).holds h0
    | with_reducible exact (view_execSafeArm _ _).holds h0
    | with_reducible exact (view_execSafeStatus _ _).holds h0
    | with_reducible exact (view_execSafeAck _ _).holds h0
    | with_reducible exact (view_execSafeLog _ _).holds h0
    | with_reducible exact (view_execSafeTighten _ _).holds h0
    | with_reducible exact held_execSafePasswd _ _ h0
    | with_reducible exact (view_execTenCreate _ _).holds h0
    | with_reducible exact (view_execTenDestroy _ _).holds h0
    | with_reducible exact (view_execTenGrant _ _).holds h0
    | with_reducible exact (view_execTenRevoke _ _).holds h0
    | with_reducible exact (view_execTenQos _ _).holds h0
    | with_reducible exact (view_execTenReset _ _).holds h0
    | with_reducible exact (view_execTenStatus _ _).holds h0
    | with_reducible exact (view_execPairConfig _ _).holds h0
    | with_reducible exact (view_execPairStatus _ _).holds h0
    | with_reducible exact (view_execPairHandover _ _).holds h0
    | with_reducible exact (view_execPairUpdate _ _).holds h0
    | with_reducible exact (view_execPairLease _ _).holds h0
    | with_reducible exact (view_execHkThermal _ _).holds h0
    | with_reducible exact (view_execHkWear _ _).holds h0
    | with_reducible exact (view_execHkTrace _ _).holds h0
    | with_reducible exact (view_execHkRecords _ _).holds h0
    | with_reducible exact held_execHkFw _ _ h0
    | with_reducible exact (view_execHkBist _ _).holds h0
    | with_reducible exact (view_execChkBind _ _).holds h0
    | with_reducible exact (view_execChkStatus _ _).holds h0

theorem held_runPacket (op : Nat) (r : Req) (s : State) (h0 : KillHeld s) : KillHeld (runPacket op r s) := by
  have ha (o : Host.Outcome State Fault Refusal) (h : Holds o) : KillHeld (answered s o) := by
    cases o with
    | next t => exact h t rfl
    | fault e => exact h0
    | refused e => exact h0
  have hk (f : Req → State → Host.Outcome State Fault Refusal) (h : opMeaning op = some f) : Holds (f r s) := by
    unfold opMeaning at h
    have h1 : opLow op = some f ∨ opMid op = some f ∨ opHigh op = some f := by
      revert h
      cases opLow op <;> cases opMid op <;> simp [Option.orElse] <;> intro h <;> simp [h]
    rcases h1 with h | h | h
    · exact held_opLow op f h r s h0
    · exact held_opMid op f h r s h0
    · exact held_opHigh op f h r s h0
  unfold runPacket
  split
  · next f hf => exact ha _ (hk f hf)
  · exact held_of (view_unknownOp ..) h0

theorem held_runAt (accept op : Nat) (r : Req) (s : State) (h : KillHeld s) : KillHeld (runAt accept op r s) := by
  unfold runAt
  have h1 : KillHeld { s with time := { s.time with spc := accept } } := ⟨h.island, h.shutdown, h.scan⟩
  have h2 := held_runPacket op r _ h1
  exact ⟨h2.island, h2.shutdown, h2.scan⟩

theorem held_startNext (fn : Nat) (q : Nat) (s : State) (hk : KillHeld s) : KillHeld (startNext fn q s) := by
  unfold startNext
  repeat' first
    | with_reducible first | assumption | refine held_runPacket _ _ _ ?_ | refine held_of (view_modRing ..) ?_
    | simp only [↓held_mk, held_eta] | split | dsimp only

theorem held_startMany (n fn q : Nat) (s : State) (h : KillHeld s) : KillHeld (startMany n fn q s) := by
  induction n generalizing s with
  | zero => exact h
  | succ n ih => exact ih _ (held_startNext _ _ _ h)

theorem held_startMgmt (q : Nat) (s : State) (h : KillHeld s) : KillHeld (startMgmt q s) := held_startMany _ _ _ _ h

theorem held_startTenant (t : Nat) (s : State) (hk : KillHeld s) : KillHeld (startTenant t s) := by
  unfold startTenant
  repeat' first
    | with_reducible first | assumption | refine held_startNext _ _ _ ?_
    | simp only [↓held_mk, held_eta] | split | dsimp only

theorem held_execSqTailDoorbell (fn : Nat) (q : Nat) (tail : Nat) (packets : List Packet) (s : State) (hk :
    KillHeld s) : Holds (execSqTailDoorbell fn q tail packets s) := by
  unfold execSqTailDoorbell
  repeat' first
    | with_reducible first | assumption | refine held_startMgmt _ _ ?_ | refine held_of (view_modRing ..) ?_ | apply holds_onObject
    | with_reducible first | apply held_ite
    | split | dsimp only

theorem held_execCqHeadDoorbell (fn : Nat) (q : Nat) (head : Nat) (s : State) (hk :
    KillHeld s) : Holds (execCqHeadDoorbell fn q head s) := by
  unfold execCqHeadDoorbell
  repeat' first
    | with_reducible first | assumption | refine held_startMgmt _ _ ?_ | refine held_of (view_modRing ..) ?_ | apply holds_onObject
    | with_reducible first | apply held_ite
    | split | dsimp only

theorem held_roundRobin (n : Nat) (left : Int) (costs ts : List Nat) (s : State) (h :
    KillHeld s) : KillHeld (roundRobin n left costs ts s) := by
  fun_induction roundRobin n left costs ts s with
  | case1 => exact h
  | case2 => exact h
  | case3 => exact h
  | case4 _ _ _ _ _ _ _ _ ih => refine ih (held_of ?_ h); rfl
  | case5 _ _ _ _ _ _ _ _ _ _ _ _ ih => refine ih (held_startTenant _ _ (held_of ?_ h)); rfl
  | case6 _ _ _ _ _ _ _ _ _ _ _ ih => refine ih (held_of ?_ h); rfl

theorem held_execCommandDispatchRound (costs : List Nat) (s : State) (h : KillHeld s) : Holds (execCommandDispatchRound costs s) := by
  unfold execCommandDispatchRound
  apply holds_next
  refine held_ite _ _ _ ?_ h
  extract_lets s1 ts first s2
  have h1 : KillHeld s1 := held_ite _ _ _ (held_forEach _ _ _ (fun _ _ ht => held_startMgmt _ _ ht) h) h
  exact held_roundRobin _ _ _ _ _ (held_forEach _ _ _ (fun _ _ ht => held_startTenant _ _ ht) h1)

theorem held_runAsked (op : Nat) (r : Req) (s : State) (hk : KillHeld s) : KillHeld (runAsked op r s) := by
  unfold runAsked
  repeat' first
    | with_reducible first | assumption | refine held_of (view_sendAck ..) ?_ | refine held_runPacket _ _ _ ?_
    | with_reducible first | refine held_of (view_modPair ..) ?_ | apply held_ite
    | simp only [↓held_mk, held_eta] | split | dsimp only

theorem held_applyMirror (accept : Nat) (op : Nat) (r : Req) (s : State) (hk : KillHeld s) : KillHeld (applyMirror accept op r s) := by
  unfold applyMirror
  repeat' first
    | with_reducible first | assumption | refine held_runAt _ _ _ _ ?_ | refine held_of (view_sendAck ..) ?_
    | with_reducible first | refine held_of (view_modPair ..) ?_ | apply held_ite
    | simp only [↓held_mk, held_eta] | split | dsimp only

theorem held_execMirror (m : PairMsg) (accept : Nat) (op : Nat) (r : Req) (s : State) (hk :
    KillHeld s) : Holds (execMirror m accept op r s) := by
  unfold execMirror
  repeat' first
    | with_reducible first | assumption | refine held_applyMirror _ _ _ _ ?_ | refine held_runAsked _ _ _ ?_
    | with_reducible first | refine held_onMsg _ _ _ (fun _ _ => ?_) ?_ | apply holds_next | apply held_ite
    | simp only [↓held_mk, held_eta] | split | dsimp only

theorem held_releaseHeld (s : State) (hk : KillHeld s) : KillHeld (releaseHeld s) := by
  unfold releaseHeld
  repeat' first
    | with_reducible first | assumption | refine held_runAsked _ _ _ ?_ | refine held_runPacket _ _ _ ?_
    | with_reducible first | refine held_of (view_modPair ..) ?_ | apply held_ite | refine held_forEach _ _ _ (fun _ _ _ => ?_) ?_
    | simp only [↓held_mk, held_eta] | split | dsimp only

theorem held_execHeartbeat (h : PairMsg) (peer : Option PeerView) (s : State) (hk : KillHeld s) : Holds (execHeartbeat h peer s) := by
  unfold execHeartbeat
  repeat' first
    | with_reducible first | assumption | refine held_of (view_sendResync ..) ?_ | refine held_of (view_takeBeat ..) ?_
    | with_reducible first | refine held_releaseHeld _ ?_ | refine held_meetTwin _ _ _ ?_ | refine held_of (view_findStale ..) ?_
    | with_reducible first | apply holds_next | apply held_ite
    | simp only [↓held_mk, held_eta] | split | dsimp only

theorem held_execTwinLinkLost (s : State) (hk : KillHeld s) : Holds (execTwinLinkLost s) := by
  unfold execTwinLinkLost
  repeat' first
    | with_reducible first | assumption | refine held_releaseHeld _ ?_ | refine held_endUpdate _ _ _ ?_
    | with_reducible first | refine held_of (view_freshChannel ..) ?_ | refine held_of (view_stopMirroring ..) ?_
    | with_reducible first | refine held_of (view_modPair ..) ?_ | refine held_of (view_raiseNow ..) ?_ | apply holds_next | apply held_ite
    | simp only [↓held_mk, held_eta] | split | dsimp only

end Sys2Proof.Machine
end

