-- ==== Sys2Proof/Laws/Bring.lean ====
section
/-! SUPPORT. What start-up, resets and their rows leave alone of bring-up, NVM and the pair's keys. -/

namespace Sys2Proof.Machine

set_option linter.all false

/-- The fields of start-up and resets that few operations write. -/
structure BringView where
  linkUp : Bool
  nvmLoaded : Bool
  imageVerified : Bool
  romOnly : Bool
  slotB : Bool
  fwVersion : Nat
  trial : Option Nat
  trialJudged : Bool
  zeroising : Option Nat
  zeroised : Bool
  vlineOk : Bool
  aonCounted : Bool
  releasedAt : Nat
  bistRuns : List (Nat × Nat × Bool × CmdRef)
  pairKey : Bool
  nvmPairKey : Bool
  safetyKept : KeptSafety
  zeroRecords : List (List Word)
  vfEnable : Bool
  numVfs : Nat
  ptm : Option Ptm
  safeSets : Tbl WSet
  depth : Nat
  refclkOk : Bool
  holdoverFrom : Nat
  password : Option (List Nat)
  prefB : Bool
  trialFlag : Bool
  trialFailed : Bool

/-- The fields of start-up and resets that few operations write. -/
def bringView (s : State) : BringView :=
  { linkUp := s.boot.linkUp
    nvmLoaded := s.boot.nvmLoaded
    imageVerified := s.boot.imageVerified
    romOnly := s.boot.romOnly
    slotB := s.boot.slotB
    fwVersion := s.boot.fwVersion
    trial := s.boot.trial
    trialJudged := s.boot.trialJudged
    zeroising := s.boot.zeroising
    zeroised := s.boot.zeroised
    vlineOk := s.boot.vlineOk
    aonCounted := s.boot.aonCounted
    releasedAt := s.boot.releasedAt
    bistRuns := s.boot.bistRuns
    pairKey := s.pair.key
    nvmPairKey := s.nvm.pairKey
    safetyKept := s.nvm.safety
    zeroRecords := s.nvm.zero
    vfEnable := s.ten.vfEnable
    numVfs := s.ten.numVfs
    ptm := s.time.ptm
    safeSets := s.safe.sets
    depth := s.loom.depth
    refclkOk := s.time.refclkOk
    holdoverFrom := s.time.holdoverFrom
    password := s.safe.password
    prefB := s.nvm.prefB
    trialFlag := s.nvm.trialFlag
    trialFailed := s.nvm.trialFailed }

theorem bring_forEach {α : Type} (l : List α) (s : State) (f : α → State → State) (h : ∀ a t, bringView (f a t) = bringView t) :
    bringView (forEach l s f) = bringView s := by
  induction l generalizing s with
  | nil => rfl
  | cons a r ih => exact (ih (f a s)).trans (h a s)

theorem bring_ite (c : Prop) [Decidable c] (a b s : State) (ha : bringView a = bringView s) (hb : bringView b = bringView s) :
    bringView (if c then a else b) = bringView s := by split <;> assumption

theorem bring_elim {α : Type} (o : Option α) (a : State) (f : α → State) (s : State) (ha : bringView a = bringView s)
    (hf : ∀ x, bringView (f x) = bringView s) : bringView (o.elim a f) = bringView s := by
  cases o <;> simp [ha, hf]

theorem bring_mk (time otp boot line lane loom cal map bal acc safe chg est spec therm wear trace nvm pair ten cmd regs out pending fresh) :
    bringView ⟨time, otp, boot, line, lane, loom, cal, map, bal, acc, safe, chg, est, spec, therm, wear, trace, nvm, pair, ten, cmd, regs, out,
      pending, fresh⟩
    = ⟨boot.linkUp, boot.nvmLoaded, boot.imageVerified, boot.romOnly, boot.slotB, boot.fwVersion, boot.trial, boot.trialJudged, boot.zeroising, boot.zeroised, boot.vlineOk, boot.aonCounted, boot.releasedAt, boot.bistRuns, pair.key, nvm.pairKey, nvm.safety, nvm.zero, ten.vfEnable, ten.numVfs, time.ptm, safe.sets, loom.depth, time.refclkOk, time.holdoverFrom, safe.password, nvm.prefB, nvm.trialFlag, nvm.trialFailed⟩ := rfl

theorem bring_eta (s : State) : (⟨s.boot.linkUp, s.boot.nvmLoaded, s.boot.imageVerified, s.boot.romOnly, s.boot.slotB, s.boot.fwVersion, s.boot.trial, s.boot.trialJudged, s.boot.zeroising, s.boot.zeroised, s.boot.vlineOk, s.boot.aonCounted, s.boot.releasedAt, s.boot.bistRuns, s.pair.key, s.nvm.pairKey, s.nvm.safety, s.nvm.zero, s.ten.vfEnable, s.ten.numVfs, s.time.ptm, s.safe.sets, s.loom.depth, s.time.refclkOk, s.time.holdoverFrom, s.safe.password, s.nvm.prefB, s.nvm.trialFlag, s.nvm.trialFailed⟩ : BringView) = bringView s := rfl

theorem bring_modSafe (f : SafeUnit → SafeUnit) (s : State) (h : ∀ u, (f u).sets = u.sets ∧ (f u).password = u.password) : bringView (modSafe f s) = bringView s := by
  simp [bringView, modSafe, h]

theorem bring_modBoot (f : Boot → Boot) (s : State) (h : ∀ u, (f u).linkUp = u.linkUp ∧ (f u).nvmLoaded = u.nvmLoaded ∧ (f u).imageVerified = u.imageVerified ∧ (f u).romOnly = u.romOnly ∧ (f u).slotB = u.slotB ∧ (f u).fwVersion = u.fwVersion ∧ (f u).trial = u.trial ∧ (f u).trialJudged = u.trialJudged ∧ (f u).zeroising = u.zeroising ∧ (f u).zeroised = u.zeroised ∧ (f u).vlineOk = u.vlineOk ∧ (f u).aonCounted = u.aonCounted ∧ (f u).releasedAt = u.releasedAt ∧ (f u).bistRuns = u.bistRuns) : bringView (modBoot f s) = bringView s := by
  simp [bringView, modBoot, h]

theorem bring_modPair (f : PairUnit → PairUnit) (s : State) (h : ∀ u, (f u).key = u.key) : bringView (modPair f s) = bringView s := by
  simp [bringView, modPair, h]

theorem bring_modTen (f : TenUnit → TenUnit) (s : State) (h : ∀ u, (f u).vfEnable = u.vfEnable ∧ (f u).numVfs = u.numVfs) : bringView (modTen f s) = bringView s := by
  simp [bringView, modTen, h]

theorem bring_sendMsix (fn : Nat) (v : Nat) (s : State) : bringView (sendMsix fn v s) = bringView s := by
  unfold sendMsix
  repeat' first
    | with_reducible first | rfl
    | simp only [↓bring_mk, bring_eta] | dsimp only

theorem bring_signal (fn : Nat) (v : Nat) (s : State) : bringView (signal fn v s) = bringView s := by
  unfold signal
  repeat' first
    | with_reducible first | rfl | refine (bring_sendMsix ..).trans ?_ | apply bring_ite
    | simp only [↓bring_mk, bring_eta] | split | dsimp only

theorem bring_traceTake (e : TraceRec) (s : State) : bringView (traceTake e s) = bringView s := by
  unfold traceTake
  repeat' first
    | with_reducible first | rfl | apply bring_ite
    | simp only [↓bring_mk, bring_eta] | split | dsimp only

theorem bring_traceMarker (code : Nat) (uclass : Nat) (unit : Nat) (words : List Word) (s : State) : bringView (traceMarker code uclass unit words s) = bringView s := by
  unfold traceMarker
  repeat' first
    | with_reducible first | rfl | refine (bring_traceTake ..).trans ?_
    | dsimp only

theorem bring_traceNote (cls : Nat) (kind : Nat) (arg : Nat) (spc : Nat) (u : Nat × Nat) (s : State) : bringView (traceNote cls kind arg spc u s) = bringView s := by
  unfold traceNote
  repeat' first
    | with_reducible first | rfl | refine (bring_traceTake ..).trans ?_
    | simp only [↓bring_mk, bring_eta] | dsimp only

theorem bring_wantGate (cls : Nat) (u : Nat) (on : Bool) (s : State) : bringView (wantGate cls u on s) = bringView s := by
  unfold wantGate
  repeat' first
    | with_reducible first | rfl | apply bring_ite
    | simp only [↓bring_mk, bring_eta] | split | dsimp only

theorem bring_pushEv (fn : Nat) (e : EvRec) (s : State) : bringView (pushEv fn e s) = bringView s := by
  unfold pushEv
  repeat' first
    | with_reducible first | rfl | apply bring_ite
    | simp only [↓bring_mk, bring_eta] | split | dsimp only

theorem bring_raise (src : Nat) (kind : Nat) (arg : Nat) (spc : Nat) (s0 : State) : bringView (raise src kind arg spc s0) = bringView s0 := by
  unfold raise
  repeat' first
    | with_reducible first | rfl | refine (bring_pushEv ..).trans ?_ | refine (bring_traceNote ..).trans ?_ | apply bring_ite | refine bring_elim _ _ _ _ ?_ (fun _ => ?_)
    | split | dsimp only

theorem bring_raiseNow (src : Nat) (kind : Nat) (arg : Nat) (s : State) : bringView (raiseNow src kind arg s) = bringView s := by
  unfold raiseNow
  repeat' first
    | with_reducible first | rfl | refine (bring_raise ..).trans ?_
    | dsimp only

theorem bring_raiseChi (chi : Nat) (named : Nat) (kind : Nat) (detail : Nat) (s : State) : bringView (raiseChi chi named kind detail s) = bringView s := by
  unfold raiseChi
  repeat' first
    | with_reducible first | rfl | refine (bring_raiseNow ..).trans ?_
    | dsimp only

theorem bring_raisePos (pos : Nat) (named : Nat) (kind : Nat) (detail : Nat) (s : State) : bringView (raisePos pos named kind detail s) = bringView s := by
  unfold raisePos
  repeat' first
    | with_reducible first | rfl | refine (bring_raiseChi ..).trans ?_
    | dsimp only

theorem bring_raiseChain (chain : Nat) (named : Nat) (kind : Nat) (detail : Nat) (s : State) : bringView (raiseChain chain named kind detail s) = bringView s := by
  unfold raiseChain
  repeat' first
    | with_reducible first | rfl | refine (bring_raiseChi ..).trans ?_
    | dsimp only

theorem bring_traceCommand (kind : Nat) (ref : CmdRef) (status : Nat) (s : State) : bringView (traceCommand kind ref status s) = bringView s := by
  unfold traceCommand
  repeat' first
    | with_reducible first | rfl | refine (bring_traceNote ..).trans ?_ | apply bring_ite
    | split | dsimp only

theorem bring_writeCompletion (ref : CmdRef) (status : Nat) (results : List Word) (accept : Nat) (s : State) : bringView (writeCompletion ref status results accept s) = bringView s := by
  unfold writeCompletion
  repeat' first
    | with_reducible first | rfl | refine (bring_traceCommand ..).trans ?_ | refine (bring_signal ..).trans ?_ | apply bring_ite
    | simp only [↓bring_mk, bring_eta] | split | dsimp only

theorem bring_completeAt (ref : CmdRef) (status : Nat) (results : List Word) (accept : Nat) (s : State) : bringView (completeAt ref status results accept s) = bringView s := by
  unfold completeAt
  repeat' first
    | with_reducible first | rfl | refine (bring_writeCompletion ..).trans ?_ | apply bring_ite
    | simp only [↓bring_mk, bring_eta] | split | dsimp only

theorem bring_finishOn (src : Nat) (ref : CmdRef) (status : Nat) (spc : Nat) (s : State) : bringView (finishOn src ref status spc s) = bringView s := by
  unfold finishOn
  repeat' first
    | with_reducible first | rfl | refine (bring_raise ..).trans ?_ | apply bring_ite
    | simp only [↓bring_mk, bring_eta] | split | dsimp only

theorem bring_finish (ref : CmdRef) (status : Nat) (s : State) : bringView (finish ref status s) = bringView s := by
  unfold finish
  repeat' first
    | with_reducible first | rfl | refine (bring_finishOn ..).trans ?_
    | dsimp only

theorem bring_completeDeferred (kind : DeferKind) (status : Nat) (results : List Word) (s : State) : bringView (completeDeferred kind status results s) = bringView s := by
  unfold completeDeferred
  repeat' first
    | with_reducible first | rfl | refine (bring_completeAt ..).trans ?_ | refine (bring_forEach _ _ _ fun _ _ => ?_).trans ?_
    | simp only [↓bring_mk, bring_eta] | dsimp only

theorem bring_sendPair (kind : PairKind) (body : List Nat) (s : State) : bringView (sendPair kind body s) = bringView s := by
  unfold sendPair
  repeat' first
    | with_reducible first | rfl
    | simp only [↓bring_mk, bring_eta] | dsimp only

theorem bring_reportLocal (body : List Nat) (s : State) : bringView (reportLocal body s) = bringView s := by
  unfold reportLocal
  repeat' first
    | with_reducible first | rfl | refine (bring_sendPair ..).trans ?_ | apply bring_ite
    | split | dsimp only

theorem bring_modChain (c : Nat) (f : Chain → Chain) (s : State) : bringView (modChain c f s) = bringView s := by
  unfold modChain
  repeat' first
    | with_reducible first | rfl
    | simp only [↓bring_mk, bring_eta] | dsimp only

theorem bring_modPos (p : Nat) (f : Posn → Posn) (s : State) : bringView (modPos p f s) = bringView s := by
  unfold modPos
  repeat' first
    | with_reducible first | rfl
    | simp only [↓bring_mk, bring_eta] | dsimp only

theorem bring_modOcc (c : Nat) (f : Posn → Posn) (s : State) : bringView (modOcc c f s) = bringView s := by
  unfold modOcc
  repeat' first
    | with_reducible first | rfl | refine (bring_modPos ..).trans ?_ | refine (bring_forEach _ _ _ fun _ _ => ?_).trans ?_
    | dsimp only

theorem bring_noteRing (c : Nat) (bit : Nat) (s : State) : bringView (noteRing c bit s) = bringView s := by
  unfold noteRing
  repeat' first
    | with_reducible first | rfl | refine (bring_modChain ..).trans ?_
    | simp only [↓bring_mk, bring_eta] | dsimp only

theorem bring_ringEvent (c : Nat) (kind : Nat) (detail : Nat) (s : State) : bringView (ringEvent c kind detail s) = bringView s := by
  unfold ringEvent
  repeat' first
    | with_reducible first | rfl | refine (bring_raiseChain ..).trans ?_
    | dsimp only

theorem bring_posEvent (p : Nat) (kind : Nat) (detail : Nat) (s : State) : bringView (posEvent p kind detail s) = bringView s := by
  unfold posEvent
  repeat' first
    | with_reducible first | rfl | refine (bring_raisePos ..).trans ?_
    | dsimp only

theorem bring_endProc (c : Nat) (status : Nat) (s : State) : bringView (endProc c status s) = bringView s := by
  unfold endProc
  repeat' first
    | with_reducible first | rfl | refine (bring_modChain ..).trans ?_ | refine (bring_finish ..).trans ?_
    | simp only [↓bring_mk, bring_eta] | split | dsimp only

theorem bring_stopChain (m : CMode) (st : PState) (c : Nat) (s : State) : bringView (stopChain m st c s) = bringView s := by
  unfold stopChain
  repeat' first
    | with_reducible first | rfl | refine (bring_hopFault ..).trans ?_ | refine (bring_modOcc ..).trans ?_ | refine (bring_modChain ..).trans ?_
    | simp only [↓bring_mk, bring_eta] | dsimp only

theorem bring_startProc (c : Nat) (op : Nat) (cmd : Option CmdRef) (s : State) : bringView (startProc c op cmd s) = bringView s := by
  unfold startProc
  repeat' first
    | with_reducible first | rfl | refine (bring_modChain ..).trans ?_ | apply bring_ite
    | simp only [↓bring_mk, bring_eta] | split | dsimp only

theorem bring_powerUp (c : Nat) (op : Nat) (cmd : Option CmdRef) (s : State) : bringView (powerUp c op cmd s) = bringView s := by
  unfold powerUp
  repeat' first
    | with_reducible first | rfl | refine (bring_hopFault ..).trans ?_ | refine (bring_startProc ..).trans ?_ | refine (bring_modOcc ..).trans ?_ | refine (bring_modChain ..).trans ?_ | apply bring_ite
    | simp only [↓bring_mk, bring_eta] | split | dsimp only

theorem bring_modLane (l : Nat) (f : Lane → Lane) (s : State) : bringView (modLane l f s) = bringView s := by
  unfold modLane
  repeat' first
    | with_reducible first | rfl
    | simp only [↓bring_mk, bring_eta] | dsimp only

theorem bring_noteLane (l : Nat) (bit : Nat) (s : State) : bringView (noteLane l bit s) = bringView s := by
  unfold noteLane
  repeat' first
    | with_reducible first | rfl | refine (bring_modLane ..).trans ?_
    | simp only [↓bring_mk, bring_eta] | dsimp only

theorem bring_setAlert (bit : Nat) (s : State) : bringView (setAlert bit s) = bringView s := by
  unfold setAlert
  repeat' first
    | with_reducible first | rfl | apply bring_ite
    | simp only [↓bring_mk, bring_eta] | split | dsimp only

theorem bring_reportShutdowns (old : BitVec 16) (new : BitVec 16) (s : State) : bringView (reportShutdowns old new s) = bringView s := by
  unfold reportShutdowns
  repeat' first
    | with_reducible first | rfl | refine (bring_raiseNow ..).trans ?_ | apply bring_ite | refine (bring_forEach _ _ _ fun _ _ => ?_).trans ?_
    | split | dsimp only

theorem bring_refreshReady (s : State) : bringView (refreshReady s) = bringView s := by
  unfold refreshReady
  repeat' first
    | with_reducible first | rfl | refine (bring_reportShutdowns ..).trans ?_ | refine (bring_setAlert ..).trans ?_ | refine (bring_raiseNow ..).trans ?_ | apply bring_ite
    | simp only [↓bring_mk, bring_eta] | split | dsimp only

theorem bring_unitEvent (src : Nat) (kind : Nat) (chains : List Nat) (s : State) : bringView (unitEvent src kind chains s) = bringView s := by
  unfold unitEvent
  repeat' first
    | with_reducible first | rfl | refine (bring_raiseNow ..).trans ?_ | refine (bring_forEach _ _ _ fun _ _ => ?_).trans ?_
    | simp only [↓bring_mk, bring_eta] | split | dsimp only

theorem bring_setUnit (cls : Nat) (u : Nat) (f : UnitRec → UnitRec) (s : State) : bringView (setUnit cls u f s) = bringView s := by
  unfold setUnit
  repeat' first
    | with_reducible first | rfl | refine (bring_raiseNow ..).trans ?_ | refine (bring_wantGate ..).trans ?_ | apply bring_ite
    | simp only [↓bring_mk, bring_eta] | simp only [id] | split | dsimp only

theorem bring_yieldPair (cause : Nat) (s : State) : bringView (yieldPair cause s) = bringView s := by
  unfold yieldPair
  repeat' first
    | with_reducible first | rfl | refine (bring_modPair _ _ fun _ => ?_).trans ?_ | refine (bring_sendPair ..).trans ?_ | apply bring_ite
    | exact rfl | simp only [↓bring_mk, bring_eta] | split | dsimp only

theorem bring_logChange (kind : Nat) (fn : Nat) (wset : Nat) (detail : List Word) (s : State) : bringView (logChange kind fn wset detail s) = bringView s := by
  unfold logChange
  repeat' first
    | with_reducible first | rfl | refine (bring_modSafe _ _ fun _ => ?_).trans ?_ | refine (bring_raiseNow ..).trans ?_ | apply bring_ite
    | exact ⟨rfl, rfl⟩ | simp only [↓bring_mk, bring_eta] | split | dsimp only

theorem bring_lockNow (cause : Nat) (s : State) : bringView (lockNow cause s) = bringView s := by
  unfold lockNow
  repeat' first
    | with_reducible first | rfl | refine (bring_logChange ..).trans ?_ | refine (bring_modSafe _ _ fun _ => ?_).trans ?_ | refine (bring_yieldPair ..).trans ?_ | refine (bring_setAlert ..).trans ?_ | refine (bring_raiseNow ..).trans ?_ | apply bring_ite
    | exact ⟨rfl, rfl⟩ | simp only [↓bring_mk, bring_eta] | split | dsimp only

theorem bring_enterLockout (cause : Nat) (s : State) : bringView (enterLockout cause s) = bringView s := by
  unfold enterLockout
  repeat' first
    | with_reducible first | rfl | refine (bring_lockNow ..).trans ?_ | refine (bring_modSafe _ _ fun _ => ?_).trans ?_ | apply bring_ite
    | exact ⟨rfl, rfl⟩ | simp only [↓bring_mk, bring_eta] | split | dsimp only

theorem bring_leaveStart (s : State) : bringView (leaveStart s) = bringView s := by
  unfold leaveStart
  repeat' first
    | with_reducible first | rfl | refine (bring_lockNow ..).trans ?_ | refine (bring_modSafe _ _ fun _ => ?_).trans ?_ | apply bring_ite | refine (bring_forEach _ _ _ fun _ _ => ?_).trans ?_
    | exact ⟨rfl, rfl⟩ | simp only [↓bring_mk, bring_eta] | split | dsimp only

theorem bring_startReanalysis (a : Reanalysis) (s : State) : bringView (startReanalysis a s) = bringView s := by
  unfold startReanalysis
  repeat' first
    | with_reducible first | rfl | apply bring_ite
    | simp only [↓bring_mk, bring_eta] | split | dsimp only

theorem bring_doTrip (x : TripCase) (s : State) : bringView (doTrip x s) = bringView s := by
  unfold doTrip
  repeat' first
    | with_reducible first | rfl | refine (bring_startReanalysis ..).trans ?_ | refine (bring_modSafe _ _ fun _ => ?_).trans ?_ | refine (bring_sendPair ..).trans ?_ | refine (bring_raiseNow ..).trans ?_ | apply bring_ite | refine (bring_forEach _ _ _ fun _ _ => ?_).trans ?_
    | exact ⟨rfl, rfl⟩ | simp only [↓bring_mk, bring_eta] | simp only [id] | split | dsimp only

theorem bring_sweepUnmeasured (s : State) : bringView (sweepUnmeasured s) = bringView s := by
  unfold sweepUnmeasured
  repeat' first
    | with_reducible first | rfl | refine (bring_doTrip ..).trans ?_ | refine (bring_modSafe _ _ fun _ => ?_).trans ?_ | apply bring_ite | refine (bring_forEach _ _ _ fun _ _ => ?_).trans ?_ | refine bring_elim _ _ _ _ ?_ (fun _ => ?_)
    | exact ⟨rfl, rfl⟩ | simp only [↓bring_mk, bring_eta] | split | dsimp only

theorem bring_loseTile (u : Nat) (s : State) : bringView (loseTile u s) = bringView s := by
  unfold loseTile
  repeat' first
    | with_reducible first | rfl | refine (bring_raiseNow ..).trans ?_ | apply bring_ite
    | simp only [↓bring_mk, bring_eta] | split | dsimp only

theorem bring_cellOutage (p : Nat) (s : State) : bringView (cellOutage p s) = bringView s := by
  unfold cellOutage
  repeat' first
    | with_reducible first | rfl
    | simp only [↓bring_mk, bring_eta] | dsimp only

theorem bring_modDrive (d : Nat) (f : Drive → Drive) (s : State) : bringView (modDrive d f s) = bringView s := by
  unfold modDrive
  repeat' first
    | with_reducible first | rfl
    | simp only [↓bring_mk, bring_eta] | dsimp only

theorem bring_chgEvent (d : Nat) (kind : Nat) (detail : Nat) (s : State) : bringView (chgEvent d kind detail s) = bringView s := by
  unfold chgEvent
  repeat' first
    | with_reducible first | rfl | refine (bring_raisePos ..).trans ?_
    | dsimp only

theorem bring_postNext (d : Nat) (i : Int) (on : Bool) (s : State) : bringView (postNext d i on s) = bringView s := by
  unfold postNext
  repeat' first
    | with_reducible first | rfl | refine (bring_modDrive ..).trans ?_ | refine (bring_modPos ..).trans ?_
    | simp only [↓bring_mk, bring_eta] | dsimp only

theorem bring_endRest (d : Nat) (s : State) : bringView (endRest d s) = bringView s := by
  unfold endRest
  repeat' first
    | with_reducible first | rfl | refine (bring_modDrive ..).trans ?_
    | dsimp only

theorem bring_groupChanged (d : Nat) (s : State) : bringView (groupChanged d s) = bringView s := by
  unfold groupChanged
  repeat' first
    | with_reducible first | rfl | apply bring_ite
    | simp only [↓bring_mk, bring_eta] | split | dsimp only

theorem bring_programEnded (d : Nat) (st : PrgState) (cause : Nat) (off : Nat) (s : State) : bringView (programEnded d st cause off s) = bringView s := by
  unfold programEnded
  repeat' first
    | with_reducible first | rfl | refine (bring_groupChanged ..).trans ?_ | refine (bring_endRest ..).trans ?_ | refine (bring_chgEvent ..).trans ?_ | refine (bring_modDrive ..).trans ?_
    | simp only [↓bring_mk, bring_eta] | dsimp only

theorem bring_endNow (d : Nat) (cause : Nat) (s : State) : bringView (endNow d cause s) = bringView s := by
  unfold endNow
  repeat' first
    | with_reducible first | rfl | refine (bring_programEnded ..).trans ?_ | refine (bring_postNext ..).trans ?_ | apply bring_ite
    | split | dsimp only

theorem bring_dropSetpoint (d : Nat) (s : State) : bringView (dropSetpoint d s) = bringView s := by
  unfold dropSetpoint
  repeat' first
    | with_reducible first | rfl | refine (bring_postNext ..).trans ?_ | refine (bring_modDrive ..).trans ?_
    | simp only [↓bring_mk, bring_eta] | dsimp only

theorem bring_endUsing (p : Nat) (cause : Nat) (s : State) : bringView (endUsing p cause s) = bringView s := by
  unfold endUsing
  repeat' first
    | with_reducible first | rfl | refine (bring_endNow ..).trans ?_ | apply bring_ite | refine (bring_forEach _ _ _ fun _ _ => ?_).trans ?_
    | split | dsimp only

theorem bring_offUsing (p : Nat) (cause : Nat) (s : State) : bringView (offUsing p cause s) = bringView s := by
  unfold offUsing
  repeat' first
    | with_reducible first | rfl | refine (bring_endUsing ..).trans ?_ | refine (bring_dropSetpoint ..).trans ?_ | apply bring_ite
    | split | dsimp only

theorem bring_onSilent (p : Nat) (s : State) : bringView (onSilent p s) = bringView s := by
  unfold onSilent
  repeat' first
    | with_reducible first | rfl | refine (bring_offUsing ..).trans ?_ | refine (bring_cellOutage ..).trans ?_ | apply bring_ite
    | split | dsimp only

theorem bring_recordFence (cls : Nat) (u : Nat) (fkind : Nat) (result : Nat) (s : State) : bringView (recordFence cls u fkind result s) = bringView s := by
  unfold recordFence
  repeat' first
    | with_reducible first | rfl | refine (bring_loseTile ..).trans ?_ | refine (bring_reportLocal ..).trans ?_ | refine (bring_raiseNow ..).trans ?_ | apply bring_ite
    | simp only [↓bring_mk, bring_eta] | simp only [id] | split | dsimp only

theorem bring_fenceTile (t : Nat) (s : State) : bringView (fenceTile t s) = bringView s := by
  unfold fenceTile
  repeat' first
    | with_reducible first | rfl | refine (bring_offUsing ..).trans ?_ | refine (bring_unitEvent ..).trans ?_ | refine (bring_modPos ..).trans ?_ | apply bring_ite | refine (bring_forEach _ _ _ fun _ _ => ?_).trans ?_
    | simp only [↓bring_mk, bring_eta] | split | dsimp only

theorem bring_useSpare (t : Nat) (u : Nat) (s : State) : bringView (useSpare t u s) = bringView s := by
  unfold useSpare
  repeat' first
    | with_reducible first | rfl | refine (bring_setUnit ..).trans ?_
    | simp only [↓bring_mk, bring_eta] | dsimp only

theorem bring_modTenant (t : Nat) (f : Tenant → Tenant) (s : State) : bringView (modTenant t f s) = bringView s := by
  unfold modTenant
  repeat' first
    | with_reducible first | rfl | refine (bring_modTen _ _ fun _ => ?_).trans ?_
    | exact ⟨rfl, rfl⟩ | simp only [↓bring_mk, bring_eta] | dsimp only

theorem bring_startTenantReset (t : Nat) (cause : Nat) (cmd : Option CmdRef) (s : State) : bringView (startTenantReset t cause cmd s) = bringView s := by
  unfold startTenantReset
  repeat' first
    | with_reducible first | rfl | refine (bring_modTenant ..).trans ?_ | refine (bring_State_reset ..).trans ?_ | apply bring_ite
    | simp only [↓bring_mk, bring_eta] | split | dsimp only

theorem bring_resetDisabled (s : State) : bringView (resetDisabled s) = bringView s := by
  unfold resetDisabled
  repeat' first
    | with_reducible first | rfl | refine (bring_startTenantReset ..).trans ?_ | refine (bring_forEach _ _ _ fun _ _ => ?_).trans ?_
    | dsimp only

theorem bring_clearTransport (fn : Nat) (s : State) : bringView (clearTransport fn s) = bringView s := by
  unfold clearTransport
  repeat' first
    | with_reducible first | rfl
    | simp only [↓bring_mk, bring_eta] | dsimp only

theorem bring_clearQueue (fn : Nat) (s : State) : bringView (clearQueue fn s) = bringView s := by
  unfold clearQueue
  repeat' first
    | with_reducible first | rfl | refine (bring_modTen _ _ fun _ => ?_).trans ?_
    | exact ⟨rfl, rfl⟩ | simp only [↓bring_mk, bring_eta] | dsimp only

theorem bring_hopFault (c : Nat) (s : State) : bringView (hopFault c s) = bringView s := by
  unfold hopFault
  repeat' first
    | with_reducible first | rfl | refine (bring_onSilent ..).trans ?_ | refine (bring_ringEvent ..).trans ?_ | refine (bring_modPos ..).trans ?_ | refine (bring_modChain ..).trans ?_ | apply bring_ite | refine (bring_forEach _ _ _ fun _ _ => ?_).trans ?_
    | simp only [↓bring_mk, bring_eta] | split | dsimp only

theorem bring_losePosition (p : Nat) (s : State) : bringView (losePosition p s) = bringView s := by
  unfold losePosition
  repeat' first
    | with_reducible first | rfl | refine (bring_onSilent ..).trans ?_ | refine (bring_posEvent ..).trans ?_ | refine (bring_noteRing ..).trans ?_ | refine (bring_modPos ..).trans ?_
    | simp only [↓bring_mk, bring_eta] | dsimp only

theorem bring_wakeParked (local_ : Bool) (s : State) : bringView (wakeParked local_ s) = bringView s := by
  unfold wakeParked
  repeat' first
    | with_reducible first | rfl | refine (bring_powerUp ..).trans ?_ | refine (bring_forEach _ _ _ fun _ _ => ?_).trans ?_
    | simp only [↓bring_mk, bring_eta] | dsimp only

theorem bring_actOnWake (s : State) : bringView (actOnWake s) = bringView s := by
  unfold actOnWake
  repeat' first
    | with_reducible first | rfl | refine (bring_wakeParked ..).trans ?_ | apply bring_ite
    | simp only [↓bring_mk, bring_eta] | split | dsimp only

theorem bring_laneEvent (l : Nat) (kind : Nat) (s : State) : bringView (laneEvent l kind s) = bringView s := by
  unfold laneEvent
  repeat' first
    | with_reducible first | rfl | refine (bring_unitEvent ..).trans ?_
    | dsimp only

theorem bring_writeWear (s : State) : bringView (writeWear s) = bringView s := by
  unfold writeWear
  repeat' first
    | with_reducible first | rfl | refine (bring_raiseNow ..).trans ?_ | apply bring_ite
    | simp only [↓bring_mk, bring_eta] | split | dsimp only

theorem bring_imageEvent (what : Nat) (b : Bool) (secVer : Nat) (s : State) : bringView (imageEvent what b secVer s) = bringView s := by
  unfold imageEvent
  repeat' first
    | with_reducible first | rfl | refine (bring_raiseNow ..).trans ?_
    | dsimp only

theorem bring_cutChain (c : Nat) (s : State) : bringView (cutChain c s) = bringView s := by
  unfold cutChain
  repeat' first
    | with_reducible first | rfl | refine (bring_onSilent ..).trans ?_ | refine (bring_stopChain ..).trans ?_ | refine (bring_endProc ..).trans ?_ | refine (bring_completeDeferred ..).trans ?_ | refine (bring_finish ..).trans ?_ | apply bring_ite | refine (bring_forEach _ _ _ fun _ _ => ?_).trans ?_
    | simp only [↓bring_mk, bring_eta] | split | dsimp only

theorem bring_cutChains (l : List Nat) (s : State) : bringView (cutChains l s) = bringView s := by
  unfold cutChains
  repeat' first
    | with_reducible first | rfl | refine (bring_cutChain ..).trans ?_ | refine (bring_forEach _ _ _ fun _ _ => ?_).trans ?_
    | dsimp only

theorem bring_cutLane (l : Nat) (s : State) : bringView (cutLane l s) = bringView s := by
  unfold cutLane
  repeat' first
    | with_reducible first | rfl | refine (bring_laneEvent ..).trans ?_ | refine (bring_noteLane ..).trans ?_ | refine (bring_modLane ..).trans ?_ | refine (bring_finish ..).trans ?_ | apply bring_ite
    | simp only [↓bring_mk, bring_eta] | split | dsimp only

theorem bring_cutLanes (s : State) : bringView (cutLanes s) = bringView s := by
  unfold cutLanes
  repeat' first
    | with_reducible first | rfl | refine (bring_cutLane ..).trans ?_ | refine (bring_forEach _ _ _ fun _ _ => ?_).trans ?_
    | simp only [↓bring_mk, bring_eta] | dsimp only

theorem bring_dropPorts (s : State) : bringView (dropPorts s) = bringView s := by
  unfold dropPorts
  repeat' first
    | with_reducible first | rfl | refine (bring_cutChain ..).trans ?_ | refine (bring_losePosition ..).trans ?_ | refine (bring_ringEvent ..).trans ?_ | refine (bring_noteRing ..).trans ?_ | refine (bring_modChain ..).trans ?_ | refine (bring_forEach _ _ _ fun _ _ => ?_).trans ?_
    | simp only [↓bring_mk, bring_eta] | dsimp only

theorem bring_fenceHomes (s : State) : bringView (fenceHomes s) = bringView s := by
  unfold fenceHomes
  repeat' first
    | with_reducible first | rfl | refine (bring_fenceTile ..).trans ?_ | refine (bring_forEach _ _ _ fun _ _ => ?_).trans ?_
    | dsimp only

theorem bring_assignTiles (s : State) : bringView (assignTiles s) = bringView s := by
  unfold assignTiles
  repeat' first
    | with_reducible first | rfl | refine (bring_useSpare ..).trans ?_ | refine (bring_fenceTile ..).trans ?_ | apply bring_ite | refine (bring_forEach _ _ _ fun _ _ => ?_).trans ?_
    | simp only [↓bring_mk, bring_eta] | split | dsimp only

theorem bring_fencePorts (src : Nat) (s : State) : bringView (fencePorts src s) = bringView s := by
  unfold fencePorts
  repeat' first
    | with_reducible first | rfl | refine (bring_setUnit ..).trans ?_ | apply bring_ite | refine (bring_forEach _ _ _ fun _ _ => ?_).trans ?_
    | simp only [↓bring_mk, bring_eta] | split | dsimp only

theorem bring_settleReady (s : State) : bringView (settleReady s) = bringView s := by
  unfold settleReady
  repeat' first
    | with_reducible first | rfl | refine (bring_actOnWake ..).trans ?_ | refine (bring_leaveStart ..).trans ?_ | refine (bring_refreshReady ..).trans ?_
    | dsimp only

theorem bring_fenceRecorded (s : State) : bringView (fenceRecorded s) = bringView s := by
  unfold fenceRecorded
  repeat' first
    | with_reducible first | rfl | refine (bring_setUnit ..).trans ?_ | refine (bring_forEach _ _ _ fun _ _ => ?_).trans ?_
    | simp only [↓bring_mk, bring_eta] | dsimp only

theorem bring_passUnit (cls : Nat) (u : Nat) (s : State) : bringView (passUnit cls u s) = bringView s := by
  unfold passUnit
  repeat' first
    | with_reducible first | rfl | refine (bring_setUnit ..).trans ?_ | apply bring_ite
    | simp only [↓bring_mk, bring_eta] | split | dsimp only

theorem bring_failUnit (cls : Nat) (u : Nat) (result : Nat) (s : State) : bringView (failUnit cls u result s) = bringView s := by
  unfold failUnit
  repeat' first
    | with_reducible first | rfl | refine (bring_fencePorts ..).trans ?_ | refine (bring_fenceHomes ..).trans ?_ | refine (bring_recordFence ..).trans ?_ | refine (bring_setUnit ..).trans ?_ | refine (bring_setAlert ..).trans ?_ | apply bring_ite
    | simp only [↓bring_mk, bring_eta] | split | dsimp only

theorem bring_trialEvent (passed : Bool) (fell : Bool) (b : Bool) (s : State) : bringView (trialEvent passed fell b s) = bringView s := by
  unfold trialEvent
  repeat' first
    | with_reducible first | rfl | refine (bring_raiseNow ..).trans ?_
    | dsimp only

theorem bring_dropStaging (s : State) : bringView (dropStaging s) = bringView s := by
  unfold dropStaging
  repeat' first
    | with_reducible first | rfl | refine (bring_modBoot _ _ fun _ => ?_).trans ?_ | refine (bring_finish ..).trans ?_
    | exact ⟨rfl, rfl, rfl, rfl, rfl, rfl, rfl, rfl, rfl, rfl, rfl, rfl, rfl, rfl⟩ | simp only [↓bring_mk, bring_eta] | split | dsimp only

end Sys2Proof.Machine
end

