-- ==== Sys2Proof/Laws/Commands.lean ====
section
/-! SUPPORT. What serving a command says once: an accepted packet acts on the state as it stands but for its trace record and check count, and its
completion writes what `Only` sets apart. -/

namespace Sys2Proof.Machine

/-- `s` with a trace record, the free values it took and a check counted. -/
def Noted (s s2 : State) : Prop := ∃ tr fr ck, s2 = { s with trace := tr, fresh := fr, cmd := { s.cmd with chk := ck } }

theorem noted_refl (s : State) : Noted s s := ⟨s.trace, s.fresh, s.cmd.chk, rfl⟩

/-- `t` is `s` but for the trace and the free values taken. -/
def Traced (s t : State) : Prop := ∃ tr fr, t = { s with trace := tr, fresh := fr }

theorem traced_refl (s : State) : Traced s s := ⟨s.trace, s.fresh, rfl⟩

theorem traced_trans {a b c : State} (h : Traced a b) (g : Traced b c) : Traced a c := by
  obtain ⟨_, _, rfl⟩ := h
  obtain ⟨x, y, rfl⟩ := g
  exact ⟨x, y, rfl⟩

theorem traced_ite {s a b : State} (c : Prop) [Decidable c] (ha : Traced s a) (hb : Traced s b) : Traced s (if c then a else b) := by
  split <;> assumption

theorem traced_traceTake (e : TraceRec) (s : State) : Traced s (traceTake e s) := ⟨_, s.fresh, rfl⟩

theorem traced_traceNote (cls kind arg spc : Nat) (u : Nat × Nat) (s : State) : Traced s (traceNote cls kind arg spc u s) := by
  unfold traceNote
  exact traced_trans ⟨s.trace, s.fresh + 1, rfl⟩ (traced_traceTake ..)

theorem traced_traceMarker (code uclass unit : Nat) (words : List Word) (s : State) : Traced s (traceMarker code uclass unit words s) :=
  traced_traceTake ..

theorem traced_traceCommand (kind : Nat) (ref : CmdRef) (status : Nat) (s : State) : Traced s (traceCommand kind ref status s) :=
  traced_traceNote ..

/-- Raising an event writes event queues and the trace. -/
theorem raise_writes (src kind arg spc : Nat) (s : State) :
    ∃ tr fr qs, raise src kind arg spc s = { s with trace := tr, fresh := fr, ten := { s.ten with queues := qs } } := by
  have push (fn : Nat) (e : EvRec) (a : State) (h : ∃ tr fr qs, a = { s with trace := tr, fresh := fr, ten := { s.ten with queues := qs } }) :
      ∃ tr fr qs, pushEv fn e a = { s with trace := tr, fresh := fr, ten := { s.ten with queues := qs } } := by
    obtain ⟨tr, fr, qs, rfl⟩ := h
    exact ⟨tr, fr, _, rfl⟩
  unfold raise
  extract_lets e a fn s1
  have ha : ∃ tr fr qs, a = { s with trace := tr, fresh := fr, ten := { s.ten with queues := qs } } := by
    have : Traced s a := by
      show Traced s ((traceClass kind).elim _ _)
      cases traceClass kind with
      | none => exact traced_refl s
      | some c => exact traced_traceNote ..
    obtain ⟨tr, fr, h⟩ := this
    exact ⟨tr, fr, s.ten.queues, h⟩
  have h1 : ∃ tr fr qs, s1 = { s with trace := tr, fresh := fr, ten := { s.ten with queues := qs } } := by
    simp only [s1]
    split
    · exact push _ _ _ ha
    · exact ha
  clear_value a s1
  split
  · split
    · exact push _ _ _ ha
    · exact ha
  · split
    · exact push _ _ _ h1
    · exact h1

/-- A vector that is signalled changes vectors and messages sent. -/
theorem signal_writes (fn v : Nat) (s : State) :
    ∃ vs ms, signal fn v s = { s with out := { s.out with msix := ms }, ten := { s.ten with vecs := vs } } := by
  unfold signal
  dsimp only
  split
  · exact ⟨_, s.out.msix, rfl⟩
  · split
    · exact ⟨_, s.out.msix, rfl⟩
    · exact ⟨_, _, rfl⟩

/-- A completion is put in front of those written; beside it the ring, the vectors, the messages sent and the trace change. -/
theorem writeCompletion_writes (ref : CmdRef) (status : Nat) (results : List Word) (accept : Nat) (s : State) :
    ∃ c tr fr vs ms rs, writeCompletion ref status results accept s
        = { s with
            trace := tr, fresh := fr, out := { s.out with completions := c :: s.out.completions, msix := ms }
            ten := { s.ten with vecs := vs }, cmd := { s.cmd with rings := rs } }
      ∧ c.fn = ref.fn ∧ c.ring = ref.ring ∧ c.cmdId = ref.cmdId ∧ c.status = status ∧ c.spc = accept
      ∧ c.results = (if status = ST_OK ∨ status = ST_ACCEPTED ∨ status = ST_INTERNAL then results else []) := by
  have key (u : State) (fn v : Nat) : ∃ tr fr vs ms, traceCommand 0x201 ref status (signal fn v u)
      = { u with trace := tr, fresh := fr, out := { u.out with msix := ms }, ten := { u.ten with vecs := vs } } := by
    obtain ⟨vs, ms, hs⟩ := signal_writes fn v u
    rw [hs]
    obtain ⟨tr, fr, ht⟩ := traced_traceCommand 0x201 ref status { u with out := { u.out with msix := ms }, ten := { u.ten with vecs := vs } }
    exact ⟨tr, fr, vs, ms, ht⟩
  unfold writeCompletion
  extract_lets g res c
  obtain ⟨tr, fr, vs, ms, h⟩ := key _ _ _
  exact ⟨c, tr, fr, vs, ms, _, h, rfl, rfl, rfl, rfl, rfl, rfl⟩

/-- What a completion leaves apart of `u`. -/
theorem only_writeCompletion {u s : State} (ref : CmdRef) (status : Nat) (results : List Word) (accept : Nat) (h : Only u s) :
    Only u (writeCompletion ref status results accept s) := by
  obtain ⟨c, tr, fr, vs, ms, rs, e, -⟩ := writeCompletion_writes ref status results accept s
  rw [e]
  exact h

/-- The checks of R397 do not look at the trace. -/
theorem routeOf_traced {s t : State} (h : Traced s t) (op : Nat) (r : Req) : routeOf op r t = routeOf op r s := by
  obtain ⟨_, _, rfl⟩ := h
  rfl

theorem firstFail_traced {s t : State} (h : Traced s t) (k : Checks) (r : Req) : firstFail k r t = firstFail k r s := by
  obtain ⟨_, _, rfl⟩ := h
  rfl

theorem noteInbound_noted (k : Checks) (r : Req) {s t : State} (h : Noted s t) : Noted s (noteInbound k r t) := by
  obtain ⟨tr, fr, ck, rfl⟩ := h
  unfold noteInbound
  split
  · split
    · exact ⟨tr, fr, _, rfl⟩
    · split
      · exact ⟨tr, fr, _, rfl⟩
      · exact ⟨tr, fr, ck, rfl⟩
  · exact ⟨tr, fr, ck, rfl⟩

/-- What an accepted packet's reply becomes. -/
def replied (r : Req) (op accept : Nat) : Reply → State
  | .now status res s => completeAt (reqRef r) status res s.spc s
  | .long obj res s => completeAt (reqRef r) ST_ACCEPTED res s.spc (holdUnfinished (reqRef r) op obj s)
  | .longNow status res s => finish (reqRef r) status (completeAt (reqRef r) ST_ACCEPTED res s.spc (holdUnfinished (reqRef r) op 0 s))
  | .later kind s => { s with cmd := { s.cmd with deferred := s.cmd.deferred ++ [{ kind := kind, ref := (reqRef r), accept := accept }] } }

/-- An accepted packet acts on the state but for its trace record and check count, and answers with its reply. -/
theorem command_accepted {k : Checks} {r : Req} {s : State} (h : Accepted k r s) (act : State → Reply) :
    ∃ s2, Noted s s2 ∧ command k r s act = replied r k.op s.spc (act s2) := by
  have ht : Traced s (traceCommand 0x200 (reqRef r) 0 s) := traced_traceCommand ..
  have hr : routeOf k.op r (traceCommand 0x200 (reqRef r) 0 s) = .here := (routeOf_traced ht ..).trans h.here
  have hf : firstFail k r (traceCommand 0x200 (reqRef r) 0 s) = none := (firstFail_traced ht ..).trans h.pass
  have hn : Noted s (traceCommand 0x200 (reqRef r) 0 s) := by
    obtain ⟨tr, fr, e⟩ := ht
    exact ⟨tr, fr, s.cmd.chk, e⟩
  refine ⟨noteInbound k r (traceCommand 0x200 (reqRef r) 0 s), noteInbound_noted k r hn, ?_⟩
  have hsp : (traceCommand 0x200 (reqRef r) 0 s).spc = s.spc := congrArg View.spc (view_traceCommand 0x200 (reqRef r) 0 s)
  have hb : (Route.here == Route.both) = false := rfl
  unfold command
  simp only [hb, h.served, h.own, h.first, hr, hf, Bool.not_true, Bool.false_eq_true, if_false, Bool.or_self, if_true, beq_self_eq_true,
    Bool.true_or, reduceCtorEq, decide_true, decide_false, hsp]
  generalize act (noteInbound k r (traceCommand 0x200 (reqRef r) 0 s)) = rep
  cases rep <;> rfl

theorem only_refl (s : State) : Only s s := rfl

/-- What is noted of a command is apart. -/
theorem only_noted {s t : State} (h : Noted s t) : Only s t := by
  obtain ⟨_, _, _, rfl⟩ := h
  rfl

theorem only_hold {e u : State} (ref : CmdRef) (op obj : Nat) (h : Only e u) : Only (holdUnfinished ref op obj e) (holdUnfinished ref op obj u) := by
  have hu : u.cmd.unfinished = e.cmd.unfinished := congrArg (fun x => x.cmd.unfinished) h
  unfold Only apart holdUnfinished at *
  simp only [hu]
  rw [← h]

/-- A packet whose effect completes it at once. -/
theorem answers_now {k : Checks} {r : Req} {s e : State} {act : State → Reply} {st : Nat} {res : List Word} (h : Accepted k r s)
    (hst : st = ST_OK ∨ st = ST_ACCEPTED ∨ st = ST_INTERNAL)
    (ha : ∀ s2, Noted s s2 → ∃ u, act s2 = .now st res u ∧ Only e u ∧ u.spc = s.spc ∧ u.out.completions = s.out.completions) :
    Answers (.next (command k r s act)) r st res s e := by
  obtain ⟨s2, hn, hc⟩ := command_accepted h act
  obtain ⟨u, hu, ho, hs, hcs⟩ := ha s2 hn
  rw [hc, hu]
  have hown : (reqRef r).twin = false := h.own
  refine ⟨_, rfl, ?_, ?_⟩
  · simp only [replied, completeAt, hown, Bool.false_eq_true, if_false]
    obtain ⟨c, tr, fr, vs, ms, rs, e, h1, h2, h3, h4, h5, h6⟩ := writeCompletion_writes (reqRef r) st res u.spc u
    rw [e]
    refine ⟨c, by simp only [hcs], h1, h2, h3, h4, h5.trans hs, h6.trans (if_pos hst)⟩
  · simp only [replied, completeAt, hown, Bool.false_eq_true, if_false]
    exact only_writeCompletion _ _ _ _ ho

/-- A packet that completes with ST_ACCEPTED and works on. -/
theorem answers_long {k : Checks} {r : Req} {s e : State} {act : State → Reply} {obj : Nat} {res : List Word} (h : Accepted k r s)
    (ha : ∀ s2, Noted s s2 → ∃ u, act s2 = .long obj res u ∧ Only e u ∧ u.spc = s.spc ∧ u.out.completions = s.out.completions) :
    Answers (.next (command k r s act)) r ST_ACCEPTED res s (holdUnfinished (reqRef r) k.op obj e) := by
  obtain ⟨s2, hn, hc⟩ := command_accepted h act
  obtain ⟨u, hu, ho, hs, hcs⟩ := ha s2 hn
  rw [hc, hu]
  have hown : (reqRef r).twin = false := h.own
  refine ⟨_, rfl, ?_, ?_⟩
  · simp only [replied, completeAt, hown, Bool.false_eq_true, if_false]
    obtain ⟨c, tr, fr, vs, ms, rs, e, h1, h2, h3, h4, h5, h6⟩ :=
      writeCompletion_writes (reqRef r) ST_ACCEPTED res u.spc (holdUnfinished (reqRef r) k.op obj u)
    rw [e]
    refine ⟨c, by simp only [holdUnfinished, hcs], h1, h2, h3, h4, h5.trans hs, h6.trans (if_pos (.inr (.inl rfl)))⟩
  · simp only [replied, completeAt, hown, Bool.false_eq_true, if_false]
    exact only_writeCompletion _ _ _ _ (only_hold _ _ _ ho)

end Sys2Proof.Machine
end

