-- ==== Sys2Proof/Laws/PerInstr.lean ====
section
/-! SUPPORT. The family CommandForm of statements made for every command: a well-formed command that carries a packet carries one whose fields
fit their places in the packet (R386, R387, R384, R356). -/

namespace Sys2Proof.Laws

/-- The fields of a packet fit their places: function, ring, `SIZE`, the reserved bits, `BUF`, the parameter words. -/
def PacketFits (r : Req) : Prop :=
  r.fn < 257 ∧ r.ring < 16 ∧ r.size < 256 ∧ r.resv < 64 ∧ r.buf < 2 ^ 64 ∧ r.w.length < 12 ∧ r.mseq < 2 ^ 32

/-- A value that raises no flaw is below its bound. -/
theorem above_eq_nil {f : Flaw} {bound x : Nat} : above f bound x = [] ↔ x < bound := by
  unfold above; split <;> simp_all

/-- A packet without a flaw fits. -/
theorem packet_fits {r : Req} (h : Req.flaws r = []) : PacketFits r := by
  simp only [Req.flaws, List.append_eq_nil_iff, above_eq_nil] at h
  obtain ⟨⟨⟨⟨⟨⟨a, b⟩, c⟩, d⟩, e⟩, f⟩, g⟩ := h
  exact ⟨a, b, c, d, e, f, g⟩

/-- A well-formed command that carries a packet carries one that fits. -/
def CommandForm.Statement (i : Instr) : Prop := i.wf = true → ∀ r, i.request = some r → PacketFits r

/-- The packet of a command whose flaws are its packet's. -/
theorem form_of {i : Instr} {q : Req} (hf : i.flaws = Req.flaws q) (hq : i.request = some q) : CommandForm.Statement i := by
  intro hw r hr
  rw [hq] at hr; cases hr
  exact packet_fits (by rw [← hf]; exact List.isEmpty_iff.mp hw)

/-- A command without a packet. -/
theorem form_none {i : Instr} (hq : i.request = none) : CommandForm.Statement i := by
  intro _ r hr
  rw [hq] at hr; cases hr

theorem CommandForm.vddAonApplied : CommandForm.Statement (.vddAonApplied) := form_none rfl
theorem CommandForm.coldReset : CommandForm.Statement (.coldReset) := form_none rfl
theorem CommandForm.supplyMonitorTrip (rail : Nat) : CommandForm.Statement (.supplyMonitorTrip rail) := form_none rfl
theorem CommandForm.coldRstRelease : CommandForm.Statement (.coldRstRelease) := form_none rfl
theorem CommandForm.bistUnitDone (cls unit result : Nat) : CommandForm.Statement (.bistUnitDone cls unit result) := form_none rfl
theorem CommandForm.trialBootDeadline : CommandForm.Statement (.trialBootDeadline) := form_none rfl
theorem CommandForm.trialBootPassed : CommandForm.Statement (.trialBootPassed) := form_none rfl
theorem CommandForm.mgmtCoreWatchdog : CommandForm.Statement (.mgmtCoreWatchdog) := form_none rfl
theorem CommandForm.warmResetRecognised : CommandForm.Statement (.warmResetRecognised) := form_none rfl
theorem CommandForm.pcieReset (kind : PcieResetKind) : CommandForm.Statement (.pcieReset kind) := form_none rfl
theorem CommandForm.functionLevelReset (vf : Nat) : CommandForm.Statement (.functionLevelReset vf) := form_none rfl
theorem CommandForm.vfEnableCleared (enable : Bool) (numVfs : Nat) : CommandForm.Statement (.vfEnableCleared enable numVfs) := form_none rfl
theorem CommandForm.wakeNFall : CommandForm.Statement (.wakeNFall) := form_none rfl
theorem CommandForm.safeRstNPulse (lowMs : Nat) : CommandForm.Statement (.safeRstNPulse lowMs) := form_none rfl
theorem CommandForm.ackWindowExpiry : CommandForm.Statement (.ackWindowExpiry) := form_none rfl
theorem CommandForm.safeInDemand (k : Nat) (a b : Bool) : CommandForm.Statement (.safeInDemand k a b) := form_none rfl
theorem CommandForm.safeInRelease (k : Nat) : CommandForm.Statement (.safeInRelease k) := form_none rfl
theorem CommandForm.safeInDiscrepancy (k : Nat) : CommandForm.Statement (.safeInDiscrepancy k) := form_none rfl
theorem CommandForm.safeOutTestPulse (k : Nat) (lineB readback : Bool) : CommandForm.Statement (.safeOutTestPulse k lineB readback) := form_none rfl
theorem CommandForm.outFb (k : Nat) (lineB readback : Bool) : CommandForm.Statement (.outFb k lineB readback) := form_none rfl
theorem CommandForm.refclkLoss : CommandForm.Statement (.refclkLoss) := form_none rfl
theorem CommandForm.refclkRelock (step : Nat) : CommandForm.Statement (.refclkRelock step) := form_none rfl
theorem CommandForm.clockMonitorFault : CommandForm.Statement (.clockMonitorFault) := form_none rfl
theorem CommandForm.safetyCoreFault : CommandForm.Statement (.safetyCoreFault) := form_none rfl
theorem CommandForm.islandWatchdogExpiry : CommandForm.Statement (.islandWatchdogExpiry) := form_none rfl
theorem CommandForm.islandSupplyFault : CommandForm.Statement (.islandSupplyFault) := form_none rfl
theorem CommandForm.scanInstruction (opcode : Nat) : CommandForm.Statement (.scanInstruction opcode) := form_none rfl
theorem CommandForm.zeroisationDone : CommandForm.Statement (.zeroisationDone) := form_none rfl
theorem CommandForm.testLogicReset : CommandForm.Statement (.testLogicReset) := form_none rfl
theorem CommandForm.vlineOutOfRange : CommandForm.Statement (.vlineOutOfRange) := form_none rfl
theorem CommandForm.portOvercurrent (port : PortTrip) : CommandForm.Statement (.portOvercurrent port) := form_none rfl
theorem CommandForm.pickBoundary : CommandForm.Statement (.pickBoundary) := form_none rfl
theorem CommandForm.chainFrameRx (f : ChainFrame) : CommandForm.Statement (.chainFrameRx f) := form_none rfl
theorem CommandForm.resendAgeExpiry (pos pick : Nat) (notHeld : Bool) : CommandForm.Statement (.resendAgeExpiry pos pick notHeld) := form_none rfl
theorem CommandForm.ringBreakDeclared (chain : Nat) (outOfLock : Bool) (delays : List Nat) : CommandForm.Statement (.ringBreakDeclared chain outOfLock delays) := form_none rfl
theorem CommandForm.hopFault (chain : Nat) (hops : List Nat) : CommandForm.Statement (.hopFault chain hops) := form_none rfl
theorem CommandForm.positionLost (pos : Nat) : CommandForm.Statement (.positionLost pos) := form_none rfl
theorem CommandForm.identityRx (pos : Nat) (msg : BitVec 512) : CommandForm.Statement (.identityRx pos msg) := form_none rfl
theorem CommandForm.coefRx (pos : Nat) (msg : BitVec 512) : CommandForm.Statement (.coefRx pos msg) := form_none rfl
theorem CommandForm.tagStatusRx (pos : Nat) (msg : BitVec 512) : CommandForm.Statement (.tagStatusRx pos msg) := form_none rfl
theorem CommandForm.selvedgeDownPeriod : CommandForm.Statement (.selvedgeDownPeriod) := form_none rfl
theorem CommandForm.chainEnumPicks (chain : Nat) (hops : List (Option Nat)) (delays : List Nat) : CommandForm.Statement (.chainEnumPicks chain hops delays) := form_none rfl
theorem CommandForm.openRingDetected (chain : Nat) (countsA countsB : List (Option Nat)) (delays : List Nat) : CommandForm.Statement (.openRingDetected chain countsA countsB delays) := form_none rfl
theorem CommandForm.positionReleased (pos : Nat) : CommandForm.Statement (.positionReleased pos) := form_none rfl
theorem CommandForm.parkCarrierOff (chain : Nat) : CommandForm.Statement (.parkCarrierOff chain) := form_none rfl
theorem CommandForm.unwrapBoundary (chain : Nat) (valid : Bool) (delays : List Nat) : CommandForm.Statement (.unwrapBoundary chain valid delays) := form_none rfl
theorem CommandForm.upLaneFrameRx (f : UpFrame) : CommandForm.Statement (.upLaneFrameRx f) := form_none rfl
theorem CommandForm.pickFinalGap (pick : Nat) : CommandForm.Statement (.pickFinalGap pick) := form_none rfl
theorem CommandForm.laneFailed (lane : Nat) (e : LaneFault) : CommandForm.Statement (.laneFailed lane e) := form_none rfl
theorem CommandForm.laneDegraded (r : LaneReading) : CommandForm.Statement (.laneDegraded r) := form_none rfl
theorem CommandForm.lanePhaseComplete (lane : Nat) (m : LaneMeasure) : CommandForm.Statement (.lanePhaseComplete lane m) := form_none rfl
theorem CommandForm.laneAdaptStep (lane rx : Nat) (up : Bool) : CommandForm.Statement (.laneAdaptStep lane rx up) := form_none rfl
theorem CommandForm.twinForwardFrameRx (tl : Nat) (f : UpFrame) : CommandForm.Statement (.twinForwardFrameRx tl f) := form_none rfl
theorem CommandForm.twinBackfillFrameRx (tl : Nat) (f : UpFrame) : CommandForm.Statement (.twinBackfillFrameRx tl f) := form_none rfl
theorem CommandForm.relayDownFrameRx (tl : Nat) (f : DownFrame) : CommandForm.Statement (.relayDownFrameRx tl f) := form_none rfl
theorem CommandForm.forwardingControlWord (w : BitVec 64) : CommandForm.Statement (.forwardingControlWord w) := form_none rfl
theorem CommandForm.heartbeat (h : PairMsg) (peer : Option PeerView) : CommandForm.Statement (.heartbeat h peer) := form_none rfl
theorem CommandForm.mirror (m : PairMsg) (accept : Nat) (op : Nat) (r : Req) : CommandForm.Statement (.mirror m accept op r) := form_none rfl
theorem CommandForm.mirrorAck (m : PairMsg) : CommandForm.Statement (.mirrorAck m) := form_none rfl
theorem CommandForm.seqState (m : PairMsg) (drives : Machine.Tbl Machine.Drive) (groups : Machine.Tbl Machine.Group) : CommandForm.Statement (.seqState m drives groups) := form_none rfl
theorem CommandForm.safeState (m : PairMsg) (counts : Machine.Tbl Machine.Count) (latched : List Machine.Trip) (acked : List (Nat × Nat)) (stops : List (Nat × Bool)) : CommandForm.Statement (.safeState m counts latched acked stops) := form_none rfl
theorem CommandForm.demand (m : PairMsg) (t : Machine.Trip) : CommandForm.Statement (.demand m t) := form_none rfl
theorem CommandForm.yield (m : PairMsg) : CommandForm.Statement (.yield m) := form_none rfl
theorem CommandForm.handover (m : PairMsg) : CommandForm.Statement (.handover m) := form_none rfl
theorem CommandForm.resync (m : PairMsg) (b : Machine.ResyncBlock) : CommandForm.Statement (.resync m b) := form_none rfl
theorem CommandForm.image (m : PairMsg) : CommandForm.Statement (.image m) := form_none rfl
theorem CommandForm.localFault (m : PairMsg) : CommandForm.Statement (.localFault m) := form_none rfl
theorem CommandForm.pairMessageResend : CommandForm.Statement (.pairMessageResend) := form_none rfl
theorem CommandForm.twinLinkLost : CommandForm.Statement (.twinLinkLost) := form_none rfl
theorem CommandForm.twinLinkRestored : CommandForm.Statement (.twinLinkRestored) := form_none rfl
theorem CommandForm.leaseAssessment : CommandForm.Statement (.leaseAssessment) := form_none rfl
theorem CommandForm.demotionBoundary : CommandForm.Statement (.demotionBoundary) := form_none rfl
theorem CommandForm.handoverPick : CommandForm.Statement (.handoverPick) := form_none rfl
theorem CommandForm.refclkOffsetOut (offset : Int) : CommandForm.Statement (.refclkOffsetOut offset) := form_none rfl
theorem CommandForm.refclkOffsetBack (offset : Int) : CommandForm.Statement (.refclkOffsetBack offset) := form_none rfl
theorem CommandForm.pairFormationTimeout : CommandForm.Statement (.pairFormationTimeout) := form_none rfl
theorem CommandForm.resyncComplete : CommandForm.Statement (.resyncComplete) := form_none rfl
theorem CommandForm.pairUpdateStepDone (checks : ImageChecks) (parts : ImageParts) : CommandForm.Statement (.pairUpdateStepDone checks parts) := form_none rfl
theorem CommandForm.liveSampleIssue (pos m : Nat) : CommandForm.Statement (.liveSampleIssue pos m) := form_none rfl
theorem CommandForm.blindTimeout (chi : Nat) : CommandForm.Statement (.blindTimeout chi) := form_none rfl
theorem CommandForm.settledSampleRelease (pos m : Nat) : CommandForm.Statement (.settledSampleRelease pos m) := form_none rfl
theorem CommandForm.deltaReplay (tile budget : Nat) : CommandForm.Statement (.deltaReplay tile budget) := form_none rfl
theorem CommandForm.dwellValueFinal (chi k : Nat) : CommandForm.Statement (.dwellValueFinal chi k) := form_none rfl
theorem CommandForm.primarySampleFinal (chi k : Nat) : CommandForm.Statement (.primarySampleFinal chi k) := form_none rfl
theorem CommandForm.sramEccError (chi : Nat) : CommandForm.Statement (.sramEccError chi) := form_none rfl
theorem CommandForm.hbmEccError (t : HbmTarget) : CommandForm.Statement (.hbmEccError t) := form_none rfl
theorem CommandForm.tileFault (phys : Nat) : CommandForm.Statement (.tileFault phys) := form_none rfl
theorem CommandForm.spareRebuildDone (tile : Nat) : CommandForm.Statement (.spareRebuildDone tile) := form_none rfl
theorem CommandForm.tripReanalysisStart (fn trip : Nat) : CommandForm.Statement (.tripReanalysisStart fn trip) := form_none rfl
theorem CommandForm.tripReanalysisDone (fn trip : Nat) : CommandForm.Statement (.tripReanalysisDone fn trip) := form_none rfl
theorem CommandForm.standardIntervalCommit (sixty : Bool) (j : Nat) : CommandForm.Statement (.standardIntervalCommit sixty j) := form_none rfl
theorem CommandForm.userIntervalCommit (fn win : Nat) : CommandForm.Statement (.userIntervalCommit fn win) := form_none rfl
theorem CommandForm.hkSlotValueFinal (h : Nat) (value : Int) (ovr : Bool) : CommandForm.Statement (.hkSlotValueFinal h value ovr) := form_none rfl
theorem CommandForm.hkRoundDecision : CommandForm.Statement (.hkRoundDecision) := form_none rfl
theorem CommandForm.shutdownPowerGate : CommandForm.Statement (.shutdownPowerGate) := form_none rfl
theorem CommandForm.heldColdResetProceeds : CommandForm.Statement (.heldColdResetProceeds) := form_none rfl
theorem CommandForm.wearDailySample (samples : List WearSample) : CommandForm.Statement (.wearDailySample samples) := form_none rfl
theorem CommandForm.wearCounterWrite : CommandForm.Statement (.wearCounterWrite) := form_none rfl
theorem CommandForm.estimatorStep (chi j : Nat) : CommandForm.Statement (.estimatorStep chi j) := form_none rfl
theorem CommandForm.synthAnchorDue (chi : Nat) : CommandForm.Statement (.synthAnchorDue chi) := form_none rfl
theorem CommandForm.hibernateEntry (fn : Nat) : CommandForm.Statement (.hibernateEntry fn) := form_none rfl
theorem CommandForm.anchorPass (fn : Nat) : CommandForm.Statement (.anchorPass fn) := form_none rfl
theorem CommandForm.spectralRound (round : Nat) : CommandForm.Statement (.spectralRound round) := form_none rfl
theorem CommandForm.loopTick : CommandForm.Statement (.loopTick) := form_none rfl
theorem CommandForm.inrushWindowEnd (pos : Nat) : CommandForm.Statement (.inrushWindowEnd pos) := form_none rfl
theorem CommandForm.setpointTtlExpiry (pos : Nat) : CommandForm.Statement (.setpointTtlExpiry pos) := form_none rfl
theorem CommandForm.groupSearch : CommandForm.Statement (.groupSearch) := form_none rfl
theorem CommandForm.relaxationSetComplete (pos : Nat) : CommandForm.Statement (.relaxationSetComplete pos) := form_none rfl
theorem CommandForm.balanceFrameBoundary : CommandForm.Statement (.balanceFrameBoundary) := form_none rfl
theorem CommandForm.balanceTtlExpiry (pos cell : Nat) : CommandForm.Statement (.balanceTtlExpiry pos cell) := form_none rfl
theorem CommandForm.openWireResult (pos start : Nat) : CommandForm.Statement (.openWireResult pos start) := form_none rfl
theorem CommandForm.passiveClassification (pos k : Nat) : CommandForm.Statement (.passiveClassification pos k) := form_none rfl
theorem CommandForm.calRunFinish (fn slot start : Nat) : CommandForm.Statement (.calRunFinish fn slot start) := form_none rfl
theorem CommandForm.calFlip (chain : Nat) : CommandForm.Statement (.calFlip chain) := form_none rfl
theorem CommandForm.calSlewStep (chi : Nat) : CommandForm.Statement (.calSlewStep chi) := form_none rfl
theorem CommandForm.calCandidateExpiry (fn slot : Nat) : CommandForm.Statement (.calCandidateExpiry fn slot) := form_none rfl
theorem CommandForm.calLaneRunFinish (lane : Nat) (m : LaneMeasure) : CommandForm.Statement (.calLaneRunFinish lane m) := form_none rfl
theorem CommandForm.mapBuildComplete : CommandForm.Statement (.mapBuildComplete) := form_none rfl
theorem CommandForm.mapFlip : CommandForm.Statement (.mapFlip) := form_none rfl
theorem CommandForm.safetyConfigFlip : CommandForm.Statement (.safetyConfigFlip) := form_none rfl
theorem CommandForm.safeStartTestDone (pass : Bool) : CommandForm.Statement (.safeStartTestDone pass) := form_none rfl
theorem CommandForm.passwordSuspensionEnd : CommandForm.Statement (.passwordSuspensionEnd) := form_none rfl
theorem CommandForm.ownerChange (chain : Nat) : CommandForm.Statement (.ownerChange chain) := form_none rfl
theorem CommandForm.tenantResetEffect (t : Nat) : CommandForm.Statement (.tenantResetEffect t) := form_none rfl
theorem CommandForm.tenantResetComplete (t : Nat) : CommandForm.Statement (.tenantResetComplete t) := form_none rfl
theorem CommandForm.eventWriterRound : CommandForm.Statement (.eventWriterRound) := form_none rfl
theorem CommandForm.moderationExpiry (fn vector : Nat) : CommandForm.Statement (.moderationExpiry fn vector) := form_none rfl
theorem CommandForm.commandDispatchRound (costs : List Nat) : CommandForm.Statement (.commandDispatchRound costs) := form_none rfl
theorem CommandForm.longCommandFinish (fn ring : Nat) (cmdId : Word) (status : Nat) : CommandForm.Statement (.longCommandFinish fn ring cmdId status) := form_none rfl
theorem CommandForm.fwStagingDone (checks : ImageChecks) (parts : ImageParts) : CommandForm.Statement (.fwStagingDone checks parts) := form_none rfl
theorem CommandForm.bistRunDone (result : Nat) : CommandForm.Statement (.bistRunDone result) := form_none rfl
theorem CommandForm.nvrReadDone : CommandForm.Statement (.nvrReadDone) := form_none rfl
theorem CommandForm.devInfo (r : Req) : CommandForm.Statement (.devInfo r) := form_of (q := r) rfl rfl
theorem CommandForm.devReady (r : Req) : CommandForm.Statement (.devReady r) := form_of (q := r) rfl rfl
theorem CommandForm.devCaps (r : Req) : CommandForm.Statement (.devCaps r) := form_of (q := r) rfl rfl
theorem CommandForm.devTime (r : Req) : CommandForm.Statement (.devTime r) := form_of (q := r) rfl rfl
theorem CommandForm.devNop (r : Req) : CommandForm.Statement (.devNop r) := form_of (q := r) rfl rfl
theorem CommandForm.chainPower (r : Req) : CommandForm.Statement (.chainPower r) := form_of (q := r) rfl rfl
theorem CommandForm.chainEnum (r : Req) : CommandForm.Statement (.chainEnum r) := form_of (q := r) rfl rfl
theorem CommandForm.chainStatus (r : Req) : CommandForm.Statement (.chainStatus r) := form_of (q := r) rfl rfl
theorem CommandForm.chainPark (r : Req) : CommandForm.Statement (.chainPark r) := form_of (q := r) rfl rfl
theorem CommandForm.chainWake (r : Req) : CommandForm.Statement (.chainWake r) := form_of (q := r) rfl rfl
theorem CommandForm.chainSelvRead (r : Req) : CommandForm.Statement (.chainSelvRead r) := form_of (q := r) rfl rfl
theorem CommandForm.chainSelvWrite (r : Req) : CommandForm.Statement (.chainSelvWrite r) := form_of (q := r) rfl rfl
theorem CommandForm.chainReset (r : Req) : CommandForm.Statement (.chainReset r) := form_of (q := r) rfl rfl
theorem CommandForm.laneUp (r : Req) : CommandForm.Statement (.laneUp r) := form_of (q := r) rfl rfl
theorem CommandForm.laneStatus (r : Req) : CommandForm.Statement (.laneStatus r) := form_of (q := r) rfl rfl
theorem CommandForm.lanePair (r : Req) : CommandForm.Statement (.lanePair r) := form_of (q := r) rfl rfl
theorem CommandForm.laneEye (r : Req) : CommandForm.Statement (.laneEye r) := form_of (q := r) rfl rfl
theorem CommandForm.laneDown (r : Req) : CommandForm.Statement (.laneDown r) := form_of (q := r) rfl rfl
theorem CommandForm.bridgeStatus (r : Req) : CommandForm.Statement (.bridgeStatus r) := form_of (q := r) rfl rfl
theorem CommandForm.mapBind (r : Req) : CommandForm.Statement (.mapBind r) := form_of (q := r) rfl rfl
theorem CommandForm.mapCommit (r : Req) : CommandForm.Statement (.mapCommit r) := form_of (q := r) rfl rfl
theorem CommandForm.mapRead (r : Req) : CommandForm.Statement (.mapRead r) := form_of (q := r) rfl rfl
theorem CommandForm.mapRange (r : Req) : CommandForm.Statement (.mapRange r) := form_of (q := r) rfl rfl
theorem CommandForm.accOpen (r : Req) : CommandForm.Statement (.accOpen r) := form_of (q := r) rfl rfl
theorem CommandForm.accClose (r : Req) : CommandForm.Statement (.accClose r) := form_of (q := r) rfl rfl
theorem CommandForm.accHarvest (r : Req) : CommandForm.Statement (.accHarvest r) := form_of (q := r) rfl rfl
theorem CommandForm.accApsisReset (r : Req) : CommandForm.Statement (.accApsisReset r) := form_of (q := r) rfl rfl
theorem CommandForm.accStatus (r : Req) : CommandForm.Statement (.accStatus r) := form_of (q := r) rfl rfl
theorem CommandForm.specConfig (r : Req) : CommandForm.Statement (.specConfig r) := form_of (q := r) rfl rfl
theorem CommandForm.specFocus (r : Req) : CommandForm.Statement (.specFocus r) := form_of (q := r) rfl rfl
theorem CommandForm.specHarvest (r : Req) : CommandForm.Statement (.specHarvest r) := form_of (q := r) rfl rfl
theorem CommandForm.specDither (r : Req) : CommandForm.Statement (.specDither r) := form_of (q := r) rfl rfl
theorem CommandForm.specStop (r : Req) : CommandForm.Statement (.specStop r) := form_of (q := r) rfl rfl
theorem CommandForm.calRun (r : Req) : CommandForm.Statement (.calRun r) := form_of (q := r) rfl rfl
theorem CommandForm.calStatus (r : Req) : CommandForm.Statement (.calStatus r) := form_of (q := r) rfl rfl
theorem CommandForm.calApply (r : Req) : CommandForm.Statement (.calApply r) := form_of (q := r) rfl rfl
theorem CommandForm.calRevert (r : Req) : CommandForm.Statement (.calRevert r) := form_of (q := r) rfl rfl
theorem CommandForm.calRead (r : Req) : CommandForm.Statement (.calRead r) := form_of (q := r) rfl rfl
theorem CommandForm.calLimits (r : Req) : CommandForm.Statement (.calLimits r) := form_of (q := r) rfl rfl
theorem CommandForm.balSet (r : Req) : CommandForm.Statement (.balSet r) := form_of (q := r) rfl rfl
theorem CommandForm.balStatus (r : Req) : CommandForm.Statement (.balStatus r) := form_of (q := r) rfl rfl
theorem CommandForm.diagOpenwire (r : Req) : CommandForm.Statement (.diagOpenwire r) := form_of (q := r) rfl rfl
theorem CommandForm.diagTag (r : Req) : CommandForm.Statement (.diagTag r) := form_of (q := r) rfl rfl
theorem CommandForm.diagReport (r : Req) : CommandForm.Statement (.diagReport r) := form_of (q := r) rfl rfl
theorem CommandForm.estConfig (r : Req) : CommandForm.Statement (.estConfig r) := form_of (q := r) rfl rfl
theorem CommandForm.estRead (r : Req) : CommandForm.Statement (.estRead r) := form_of (q := r) rfl rfl
theorem CommandForm.estSave (r : Req) : CommandForm.Statement (.estSave r) := form_of (q := r) rfl rfl
theorem CommandForm.estRestore (r : Req) : CommandForm.Statement (.estRestore r) := form_of (q := r) rfl rfl
theorem CommandForm.estLearn (r : Req) : CommandForm.Statement (.estLearn r) := form_of (q := r) rfl rfl
theorem CommandForm.estReset (r : Req) : CommandForm.Statement (.estReset r) := form_of (q := r) rfl rfl
theorem CommandForm.estHibernate (r : Req) : CommandForm.Statement (.estHibernate r) := form_of (q := r) rfl rfl
theorem CommandForm.chgLoad (r : Req) : CommandForm.Statement (.chgLoad r) := form_of (q := r) rfl rfl
theorem CommandForm.chgStart (r : Req) : CommandForm.Statement (.chgStart r) := form_of (q := r) rfl rfl
theorem CommandForm.chgStop (r : Req) : CommandForm.Statement (.chgStop r) := form_of (q := r) rfl rfl
theorem CommandForm.chgStatus (r : Req) : CommandForm.Statement (.chgStatus r) := form_of (q := r) rfl rfl
theorem CommandForm.chgGroup (r : Req) : CommandForm.Statement (.chgGroup r) := form_of (q := r) rfl rfl
theorem CommandForm.chgSetpoint (r : Req) : CommandForm.Statement (.chgSetpoint r) := form_of (q := r) rfl rfl
theorem CommandForm.safeConfig (r : Req) : CommandForm.Statement (.safeConfig r) := form_of (q := r) rfl rfl
theorem CommandForm.safeArm (r : Req) : CommandForm.Statement (.safeArm r) := form_of (q := r) rfl rfl
theorem CommandForm.safeStatus (r : Req) : CommandForm.Statement (.safeStatus r) := form_of (q := r) rfl rfl
theorem CommandForm.safeAck (r : Req) : CommandForm.Statement (.safeAck r) := form_of (q := r) rfl rfl
theorem CommandForm.safeLog (r : Req) : CommandForm.Statement (.safeLog r) := form_of (q := r) rfl rfl
theorem CommandForm.safeTighten (r : Req) : CommandForm.Statement (.safeTighten r) := form_of (q := r) rfl rfl
theorem CommandForm.safePasswd (r : Req) : CommandForm.Statement (.safePasswd r) := form_of (q := r) rfl rfl
theorem CommandForm.tenCreate (r : Req) : CommandForm.Statement (.tenCreate r) := form_of (q := r) rfl rfl
theorem CommandForm.tenDestroy (r : Req) : CommandForm.Statement (.tenDestroy r) := form_of (q := r) rfl rfl
theorem CommandForm.tenGrant (r : Req) : CommandForm.Statement (.tenGrant r) := form_of (q := r) rfl rfl
theorem CommandForm.tenRevoke (r : Req) : CommandForm.Statement (.tenRevoke r) := form_of (q := r) rfl rfl
theorem CommandForm.tenQos (r : Req) : CommandForm.Statement (.tenQos r) := form_of (q := r) rfl rfl
theorem CommandForm.tenReset (r : Req) : CommandForm.Statement (.tenReset r) := form_of (q := r) rfl rfl
theorem CommandForm.tenStatus (r : Req) : CommandForm.Statement (.tenStatus r) := form_of (q := r) rfl rfl
theorem CommandForm.pairConfig (r : Req) : CommandForm.Statement (.pairConfig r) := form_of (q := r) rfl rfl
theorem CommandForm.pairStatus (r : Req) : CommandForm.Statement (.pairStatus r) := form_of (q := r) rfl rfl
theorem CommandForm.pairHandover (r : Req) : CommandForm.Statement (.pairHandover r) := form_of (q := r) rfl rfl
theorem CommandForm.pairUpdate (r : Req) : CommandForm.Statement (.pairUpdate r) := form_of (q := r) rfl rfl
theorem CommandForm.pairLease (r : Req) : CommandForm.Statement (.pairLease r) := form_of (q := r) rfl rfl
theorem CommandForm.hkThermal (r : Req) : CommandForm.Statement (.hkThermal r) := form_of (q := r) rfl rfl
theorem CommandForm.hkWear (r : Req) : CommandForm.Statement (.hkWear r) := form_of (q := r) rfl rfl
theorem CommandForm.hkTrace (r : Req) : CommandForm.Statement (.hkTrace r) := form_of (q := r) rfl rfl
theorem CommandForm.hkRecords (r : Req) : CommandForm.Statement (.hkRecords r) := form_of (q := r) rfl rfl
theorem CommandForm.hkFw (r : Req) : CommandForm.Statement (.hkFw r) := form_of (q := r) rfl rfl
theorem CommandForm.hkBist (r : Req) : CommandForm.Statement (.hkBist r) := form_of (q := r) rfl rfl
theorem CommandForm.chkBind (r : Req) : CommandForm.Statement (.chkBind r) := form_of (q := r) rfl rfl
theorem CommandForm.chkStatus (r : Req) : CommandForm.Statement (.chkStatus r) := form_of (q := r) rfl rfl
theorem CommandForm.sqTailDoorbell (fn q tail : Nat) (packets : List Packet) : CommandForm.Statement (.sqTailDoorbell fn q tail packets) := form_none rfl
theorem CommandForm.cqHeadDoorbell (fn q head : Nat) : CommandForm.Statement (.cqHeadDoorbell fn q head) := form_none rfl
theorem CommandForm.ringEnable (fn q : Nat) : CommandForm.Statement (.ringEnable fn q) := form_none rfl
theorem CommandForm.ringDisable (fn q : Nat) : CommandForm.Statement (.ringDisable fn q) := form_none rfl
theorem CommandForm.eqEnable (fn : Nat) : CommandForm.Statement (.eqEnable fn) := form_none rfl
theorem CommandForm.eqDisable (fn : Nat) : CommandForm.Statement (.eqDisable fn) := form_none rfl
theorem CommandForm.eqConsWrite (fn cons : Nat) : CommandForm.Statement (.eqConsWrite fn cons) := form_none rfl
theorem CommandForm.warmReqWrite (value : Word) : CommandForm.Statement (.warmReqWrite value) := form_none rfl
theorem CommandForm.mgmtMailboxWrite (t k : Nat) (value : Word) : CommandForm.Statement (.mgmtMailboxWrite t k value) := form_none rfl
theorem CommandForm.tenantMailboxWrite (t k : Nat) (value : Word) : CommandForm.Statement (.tenantMailboxWrite t k value) := form_none rfl
theorem CommandForm.alertStatClear (value : Word) : CommandForm.Statement (.alertStatClear value) := form_none rfl
theorem CommandForm.nvrReqWrite (value : Word) : CommandForm.Statement (.nvrReqWrite value) := form_none rfl
theorem CommandForm.regPairLowRead (fn off : Nat) : CommandForm.Statement (.regPairLowRead fn off) := form_none rfl
theorem CommandForm.registerWrite (fn off : Nat) (value : Word) : CommandForm.Statement (.registerWrite fn off value) := form_none rfl
theorem CommandForm.ptmResponse (host : BitVec 64) : CommandForm.Statement (.ptmResponse host) := form_none rfl
theorem CommandForm.vddAonRemoved : CommandForm.Statement (.vddAonRemoved) := form_none rfl
theorem CommandForm.vlineBackInRange : CommandForm.Statement (.vlineBackInRange) := form_none rfl
theorem CommandForm.selvedgeMessageScrcFail (pos : Nat) (msgType part : Nat) : CommandForm.Statement (.selvedgeMessageScrcFail pos msgType part) := form_none rfl
theorem CommandForm.chargeSequencerSramError (pos : Nat) : CommandForm.Statement (.chargeSequencerSramError pos) := form_none rfl
theorem CommandForm.safetyRecordCheckFail (record : Nat) : CommandForm.Statement (.safetyRecordCheckFail record) := form_none rfl
theorem CommandForm.perstNRelease : CommandForm.Statement (.perstNRelease) := form_none rfl
theorem CommandForm.nvmPartitionsLoaded (bad : List Nat) : CommandForm.Statement (.nvmPartitionsLoaded bad) := form_none rfl
theorem CommandForm.bootImageVerified (validA validB : Bool) : CommandForm.Statement (.bootImageVerified validA validB) := form_none rfl

end Sys2Proof.Laws
end

