-- ==== Sys2Proof/Laws/State.lean ====
section
/-! SUPPORT. Each update of one unit, field by field: what it writes, and that it leaves the other units alone. -/

namespace Sys2Proof.Machine

/-! ### modWin -/

@[simp] theorem modWin_time (k : Nat) (f : Window → Window) (s : State) : (modWin k f s).time = s.time := rfl
@[simp] theorem modWin_otp (k : Nat) (f : Window → Window) (s : State) : (modWin k f s).otp = s.otp := rfl
@[simp] theorem modWin_boot (k : Nat) (f : Window → Window) (s : State) : (modWin k f s).boot = s.boot := rfl
@[simp] theorem modWin_line (k : Nat) (f : Window → Window) (s : State) : (modWin k f s).line = s.line := rfl
@[simp] theorem modWin_lane (k : Nat) (f : Window → Window) (s : State) : (modWin k f s).lane = s.lane := rfl
@[simp] theorem modWin_loom (k : Nat) (f : Window → Window) (s : State) : (modWin k f s).loom = s.loom := rfl
@[simp] theorem modWin_cal (k : Nat) (f : Window → Window) (s : State) : (modWin k f s).cal = s.cal := rfl
@[simp] theorem modWin_map (k : Nat) (f : Window → Window) (s : State) : (modWin k f s).map = s.map := rfl
@[simp] theorem modWin_bal (k : Nat) (f : Window → Window) (s : State) : (modWin k f s).bal = s.bal := rfl
@[simp] theorem modWin_safe (k : Nat) (f : Window → Window) (s : State) : (modWin k f s).safe = s.safe := rfl
@[simp] theorem modWin_chg (k : Nat) (f : Window → Window) (s : State) : (modWin k f s).chg = s.chg := rfl
@[simp] theorem modWin_est (k : Nat) (f : Window → Window) (s : State) : (modWin k f s).est = s.est := rfl
@[simp] theorem modWin_spec (k : Nat) (f : Window → Window) (s : State) : (modWin k f s).spec = s.spec := rfl
@[simp] theorem modWin_therm (k : Nat) (f : Window → Window) (s : State) : (modWin k f s).therm = s.therm := rfl
@[simp] theorem modWin_wear (k : Nat) (f : Window → Window) (s : State) : (modWin k f s).wear = s.wear := rfl
@[simp] theorem modWin_trace (k : Nat) (f : Window → Window) (s : State) : (modWin k f s).trace = s.trace := rfl
@[simp] theorem modWin_nvm (k : Nat) (f : Window → Window) (s : State) : (modWin k f s).nvm = s.nvm := rfl
@[simp] theorem modWin_pair (k : Nat) (f : Window → Window) (s : State) : (modWin k f s).pair = s.pair := rfl
@[simp] theorem modWin_ten (k : Nat) (f : Window → Window) (s : State) : (modWin k f s).ten = s.ten := rfl
@[simp] theorem modWin_cmd (k : Nat) (f : Window → Window) (s : State) : (modWin k f s).cmd = s.cmd := rfl
@[simp] theorem modWin_regs (k : Nat) (f : Window → Window) (s : State) : (modWin k f s).regs = s.regs := rfl
@[simp] theorem modWin_out (k : Nat) (f : Window → Window) (s : State) : (modWin k f s).out = s.out := rfl
@[simp] theorem modWin_pending (k : Nat) (f : Window → Window) (s : State) : (modWin k f s).pending = s.pending := rfl
@[simp] theorem modWin_fresh (k : Nat) (f : Window → Window) (s : State) : (modWin k f s).fresh = s.fresh := rfl

/-! ### modDiag -/

@[simp] theorem modDiag_time (p : Nat) (f : TagDiag → TagDiag) (s : State) : (modDiag p f s).time = s.time := rfl
@[simp] theorem modDiag_otp (p : Nat) (f : TagDiag → TagDiag) (s : State) : (modDiag p f s).otp = s.otp := rfl
@[simp] theorem modDiag_boot (p : Nat) (f : TagDiag → TagDiag) (s : State) : (modDiag p f s).boot = s.boot := rfl
@[simp] theorem modDiag_line (p : Nat) (f : TagDiag → TagDiag) (s : State) : (modDiag p f s).line = s.line := rfl
@[simp] theorem modDiag_lane (p : Nat) (f : TagDiag → TagDiag) (s : State) : (modDiag p f s).lane = s.lane := rfl
@[simp] theorem modDiag_loom (p : Nat) (f : TagDiag → TagDiag) (s : State) : (modDiag p f s).loom = s.loom := rfl
@[simp] theorem modDiag_cal (p : Nat) (f : TagDiag → TagDiag) (s : State) : (modDiag p f s).cal = s.cal := rfl
@[simp] theorem modDiag_map (p : Nat) (f : TagDiag → TagDiag) (s : State) : (modDiag p f s).map = s.map := rfl
@[simp] theorem modDiag_acc (p : Nat) (f : TagDiag → TagDiag) (s : State) : (modDiag p f s).acc = s.acc := rfl
@[simp] theorem modDiag_safe (p : Nat) (f : TagDiag → TagDiag) (s : State) : (modDiag p f s).safe = s.safe := rfl
@[simp] theorem modDiag_chg (p : Nat) (f : TagDiag → TagDiag) (s : State) : (modDiag p f s).chg = s.chg := rfl
@[simp] theorem modDiag_est (p : Nat) (f : TagDiag → TagDiag) (s : State) : (modDiag p f s).est = s.est := rfl
@[simp] theorem modDiag_spec (p : Nat) (f : TagDiag → TagDiag) (s : State) : (modDiag p f s).spec = s.spec := rfl
@[simp] theorem modDiag_therm (p : Nat) (f : TagDiag → TagDiag) (s : State) : (modDiag p f s).therm = s.therm := rfl
@[simp] theorem modDiag_wear (p : Nat) (f : TagDiag → TagDiag) (s : State) : (modDiag p f s).wear = s.wear := rfl
@[simp] theorem modDiag_trace (p : Nat) (f : TagDiag → TagDiag) (s : State) : (modDiag p f s).trace = s.trace := rfl
@[simp] theorem modDiag_nvm (p : Nat) (f : TagDiag → TagDiag) (s : State) : (modDiag p f s).nvm = s.nvm := rfl
@[simp] theorem modDiag_pair (p : Nat) (f : TagDiag → TagDiag) (s : State) : (modDiag p f s).pair = s.pair := rfl
@[simp] theorem modDiag_ten (p : Nat) (f : TagDiag → TagDiag) (s : State) : (modDiag p f s).ten = s.ten := rfl
@[simp] theorem modDiag_cmd (p : Nat) (f : TagDiag → TagDiag) (s : State) : (modDiag p f s).cmd = s.cmd := rfl
@[simp] theorem modDiag_regs (p : Nat) (f : TagDiag → TagDiag) (s : State) : (modDiag p f s).regs = s.regs := rfl
@[simp] theorem modDiag_out (p : Nat) (f : TagDiag → TagDiag) (s : State) : (modDiag p f s).out = s.out := rfl
@[simp] theorem modDiag_pending (p : Nat) (f : TagDiag → TagDiag) (s : State) : (modDiag p f s).pending = s.pending := rfl
@[simp] theorem modDiag_fresh (p : Nat) (f : TagDiag → TagDiag) (s : State) : (modDiag p f s).fresh = s.fresh := rfl

/-! ### modCell -/

@[simp] theorem modCell_time (k : Nat) (f : BalCell → BalCell) (s : State) : (modCell k f s).time = s.time := rfl
@[simp] theorem modCell_otp (k : Nat) (f : BalCell → BalCell) (s : State) : (modCell k f s).otp = s.otp := rfl
@[simp] theorem modCell_boot (k : Nat) (f : BalCell → BalCell) (s : State) : (modCell k f s).boot = s.boot := rfl
@[simp] theorem modCell_line (k : Nat) (f : BalCell → BalCell) (s : State) : (modCell k f s).line = s.line := rfl
@[simp] theorem modCell_lane (k : Nat) (f : BalCell → BalCell) (s : State) : (modCell k f s).lane = s.lane := rfl
@[simp] theorem modCell_loom (k : Nat) (f : BalCell → BalCell) (s : State) : (modCell k f s).loom = s.loom := rfl
@[simp] theorem modCell_cal (k : Nat) (f : BalCell → BalCell) (s : State) : (modCell k f s).cal = s.cal := rfl
@[simp] theorem modCell_map (k : Nat) (f : BalCell → BalCell) (s : State) : (modCell k f s).map = s.map := rfl
@[simp] theorem modCell_acc (k : Nat) (f : BalCell → BalCell) (s : State) : (modCell k f s).acc = s.acc := rfl
@[simp] theorem modCell_safe (k : Nat) (f : BalCell → BalCell) (s : State) : (modCell k f s).safe = s.safe := rfl
@[simp] theorem modCell_chg (k : Nat) (f : BalCell → BalCell) (s : State) : (modCell k f s).chg = s.chg := rfl
@[simp] theorem modCell_est (k : Nat) (f : BalCell → BalCell) (s : State) : (modCell k f s).est = s.est := rfl
@[simp] theorem modCell_spec (k : Nat) (f : BalCell → BalCell) (s : State) : (modCell k f s).spec = s.spec := rfl
@[simp] theorem modCell_therm (k : Nat) (f : BalCell → BalCell) (s : State) : (modCell k f s).therm = s.therm := rfl
@[simp] theorem modCell_wear (k : Nat) (f : BalCell → BalCell) (s : State) : (modCell k f s).wear = s.wear := rfl
@[simp] theorem modCell_trace (k : Nat) (f : BalCell → BalCell) (s : State) : (modCell k f s).trace = s.trace := rfl
@[simp] theorem modCell_nvm (k : Nat) (f : BalCell → BalCell) (s : State) : (modCell k f s).nvm = s.nvm := rfl
@[simp] theorem modCell_pair (k : Nat) (f : BalCell → BalCell) (s : State) : (modCell k f s).pair = s.pair := rfl
@[simp] theorem modCell_ten (k : Nat) (f : BalCell → BalCell) (s : State) : (modCell k f s).ten = s.ten := rfl
@[simp] theorem modCell_cmd (k : Nat) (f : BalCell → BalCell) (s : State) : (modCell k f s).cmd = s.cmd := rfl
@[simp] theorem modCell_regs (k : Nat) (f : BalCell → BalCell) (s : State) : (modCell k f s).regs = s.regs := rfl
@[simp] theorem modCell_out (k : Nat) (f : BalCell → BalCell) (s : State) : (modCell k f s).out = s.out := rfl
@[simp] theorem modCell_pending (k : Nat) (f : BalCell → BalCell) (s : State) : (modCell k f s).pending = s.pending := rfl
@[simp] theorem modCell_fresh (k : Nat) (f : BalCell → BalCell) (s : State) : (modCell k f s).fresh = s.fresh := rfl

/-! ### modBoot -/

@[simp] theorem modBoot_boot (f : Boot → Boot) (s : State) : (modBoot f s).boot = f s.boot := rfl
@[simp] theorem modBoot_time (f : Boot → Boot) (s : State) : (modBoot f s).time = s.time := rfl
@[simp] theorem modBoot_otp (f : Boot → Boot) (s : State) : (modBoot f s).otp = s.otp := rfl
@[simp] theorem modBoot_line (f : Boot → Boot) (s : State) : (modBoot f s).line = s.line := rfl
@[simp] theorem modBoot_lane (f : Boot → Boot) (s : State) : (modBoot f s).lane = s.lane := rfl
@[simp] theorem modBoot_loom (f : Boot → Boot) (s : State) : (modBoot f s).loom = s.loom := rfl
@[simp] theorem modBoot_cal (f : Boot → Boot) (s : State) : (modBoot f s).cal = s.cal := rfl
@[simp] theorem modBoot_map (f : Boot → Boot) (s : State) : (modBoot f s).map = s.map := rfl
@[simp] theorem modBoot_bal (f : Boot → Boot) (s : State) : (modBoot f s).bal = s.bal := rfl
@[simp] theorem modBoot_acc (f : Boot → Boot) (s : State) : (modBoot f s).acc = s.acc := rfl
@[simp] theorem modBoot_safe (f : Boot → Boot) (s : State) : (modBoot f s).safe = s.safe := rfl
@[simp] theorem modBoot_chg (f : Boot → Boot) (s : State) : (modBoot f s).chg = s.chg := rfl
@[simp] theorem modBoot_est (f : Boot → Boot) (s : State) : (modBoot f s).est = s.est := rfl
@[simp] theorem modBoot_spec (f : Boot → Boot) (s : State) : (modBoot f s).spec = s.spec := rfl
@[simp] theorem modBoot_therm (f : Boot → Boot) (s : State) : (modBoot f s).therm = s.therm := rfl
@[simp] theorem modBoot_wear (f : Boot → Boot) (s : State) : (modBoot f s).wear = s.wear := rfl
@[simp] theorem modBoot_trace (f : Boot → Boot) (s : State) : (modBoot f s).trace = s.trace := rfl
@[simp] theorem modBoot_nvm (f : Boot → Boot) (s : State) : (modBoot f s).nvm = s.nvm := rfl
@[simp] theorem modBoot_pair (f : Boot → Boot) (s : State) : (modBoot f s).pair = s.pair := rfl
@[simp] theorem modBoot_ten (f : Boot → Boot) (s : State) : (modBoot f s).ten = s.ten := rfl
@[simp] theorem modBoot_cmd (f : Boot → Boot) (s : State) : (modBoot f s).cmd = s.cmd := rfl
@[simp] theorem modBoot_regs (f : Boot → Boot) (s : State) : (modBoot f s).regs = s.regs := rfl
@[simp] theorem modBoot_out (f : Boot → Boot) (s : State) : (modBoot f s).out = s.out := rfl
@[simp] theorem modBoot_pending (f : Boot → Boot) (s : State) : (modBoot f s).pending = s.pending := rfl
@[simp] theorem modBoot_fresh (f : Boot → Boot) (s : State) : (modBoot f s).fresh = s.fresh := rfl

/-! ### modTagCal -/

@[simp] theorem modTagCal_time (p : Nat) (f : TagCal → TagCal) (s : State) : (modTagCal p f s).time = s.time := rfl
@[simp] theorem modTagCal_otp (p : Nat) (f : TagCal → TagCal) (s : State) : (modTagCal p f s).otp = s.otp := rfl
@[simp] theorem modTagCal_boot (p : Nat) (f : TagCal → TagCal) (s : State) : (modTagCal p f s).boot = s.boot := rfl
@[simp] theorem modTagCal_line (p : Nat) (f : TagCal → TagCal) (s : State) : (modTagCal p f s).line = s.line := rfl
@[simp] theorem modTagCal_lane (p : Nat) (f : TagCal → TagCal) (s : State) : (modTagCal p f s).lane = s.lane := rfl
@[simp] theorem modTagCal_loom (p : Nat) (f : TagCal → TagCal) (s : State) : (modTagCal p f s).loom = s.loom := rfl
@[simp] theorem modTagCal_map (p : Nat) (f : TagCal → TagCal) (s : State) : (modTagCal p f s).map = s.map := rfl
@[simp] theorem modTagCal_bal (p : Nat) (f : TagCal → TagCal) (s : State) : (modTagCal p f s).bal = s.bal := rfl
@[simp] theorem modTagCal_acc (p : Nat) (f : TagCal → TagCal) (s : State) : (modTagCal p f s).acc = s.acc := rfl
@[simp] theorem modTagCal_safe (p : Nat) (f : TagCal → TagCal) (s : State) : (modTagCal p f s).safe = s.safe := rfl
@[simp] theorem modTagCal_chg (p : Nat) (f : TagCal → TagCal) (s : State) : (modTagCal p f s).chg = s.chg := rfl
@[simp] theorem modTagCal_est (p : Nat) (f : TagCal → TagCal) (s : State) : (modTagCal p f s).est = s.est := rfl
@[simp] theorem modTagCal_spec (p : Nat) (f : TagCal → TagCal) (s : State) : (modTagCal p f s).spec = s.spec := rfl
@[simp] theorem modTagCal_therm (p : Nat) (f : TagCal → TagCal) (s : State) : (modTagCal p f s).therm = s.therm := rfl
@[simp] theorem modTagCal_wear (p : Nat) (f : TagCal → TagCal) (s : State) : (modTagCal p f s).wear = s.wear := rfl
@[simp] theorem modTagCal_trace (p : Nat) (f : TagCal → TagCal) (s : State) : (modTagCal p f s).trace = s.trace := rfl
@[simp] theorem modTagCal_nvm (p : Nat) (f : TagCal → TagCal) (s : State) : (modTagCal p f s).nvm = s.nvm := rfl
@[simp] theorem modTagCal_pair (p : Nat) (f : TagCal → TagCal) (s : State) : (modTagCal p f s).pair = s.pair := rfl
@[simp] theorem modTagCal_ten (p : Nat) (f : TagCal → TagCal) (s : State) : (modTagCal p f s).ten = s.ten := rfl
@[simp] theorem modTagCal_cmd (p : Nat) (f : TagCal → TagCal) (s : State) : (modTagCal p f s).cmd = s.cmd := rfl
@[simp] theorem modTagCal_regs (p : Nat) (f : TagCal → TagCal) (s : State) : (modTagCal p f s).regs = s.regs := rfl
@[simp] theorem modTagCal_out (p : Nat) (f : TagCal → TagCal) (s : State) : (modTagCal p f s).out = s.out := rfl
@[simp] theorem modTagCal_pending (p : Nat) (f : TagCal → TagCal) (s : State) : (modTagCal p f s).pending = s.pending := rfl
@[simp] theorem modTagCal_fresh (p : Nat) (f : TagCal → TagCal) (s : State) : (modTagCal p f s).fresh = s.fresh := rfl

/-! ### modChainCal -/

@[simp] theorem modChainCal_time (c : Nat) (f : ChainCal → ChainCal) (s : State) : (modChainCal c f s).time = s.time := rfl
@[simp] theorem modChainCal_otp (c : Nat) (f : ChainCal → ChainCal) (s : State) : (modChainCal c f s).otp = s.otp := rfl
@[simp] theorem modChainCal_boot (c : Nat) (f : ChainCal → ChainCal) (s : State) : (modChainCal c f s).boot = s.boot := rfl
@[simp] theorem modChainCal_line (c : Nat) (f : ChainCal → ChainCal) (s : State) : (modChainCal c f s).line = s.line := rfl
@[simp] theorem modChainCal_lane (c : Nat) (f : ChainCal → ChainCal) (s : State) : (modChainCal c f s).lane = s.lane := rfl
@[simp] theorem modChainCal_loom (c : Nat) (f : ChainCal → ChainCal) (s : State) : (modChainCal c f s).loom = s.loom := rfl
@[simp] theorem modChainCal_map (c : Nat) (f : ChainCal → ChainCal) (s : State) : (modChainCal c f s).map = s.map := rfl
@[simp] theorem modChainCal_bal (c : Nat) (f : ChainCal → ChainCal) (s : State) : (modChainCal c f s).bal = s.bal := rfl
@[simp] theorem modChainCal_acc (c : Nat) (f : ChainCal → ChainCal) (s : State) : (modChainCal c f s).acc = s.acc := rfl
@[simp] theorem modChainCal_safe (c : Nat) (f : ChainCal → ChainCal) (s : State) : (modChainCal c f s).safe = s.safe := rfl
@[simp] theorem modChainCal_chg (c : Nat) (f : ChainCal → ChainCal) (s : State) : (modChainCal c f s).chg = s.chg := rfl
@[simp] theorem modChainCal_est (c : Nat) (f : ChainCal → ChainCal) (s : State) : (modChainCal c f s).est = s.est := rfl
@[simp] theorem modChainCal_spec (c : Nat) (f : ChainCal → ChainCal) (s : State) : (modChainCal c f s).spec = s.spec := rfl
@[simp] theorem modChainCal_therm (c : Nat) (f : ChainCal → ChainCal) (s : State) : (modChainCal c f s).therm = s.therm := rfl
@[simp] theorem modChainCal_wear (c : Nat) (f : ChainCal → ChainCal) (s : State) : (modChainCal c f s).wear = s.wear := rfl
@[simp] theorem modChainCal_trace (c : Nat) (f : ChainCal → ChainCal) (s : State) : (modChainCal c f s).trace = s.trace := rfl
@[simp] theorem modChainCal_nvm (c : Nat) (f : ChainCal → ChainCal) (s : State) : (modChainCal c f s).nvm = s.nvm := rfl
@[simp] theorem modChainCal_pair (c : Nat) (f : ChainCal → ChainCal) (s : State) : (modChainCal c f s).pair = s.pair := rfl
@[simp] theorem modChainCal_ten (c : Nat) (f : ChainCal → ChainCal) (s : State) : (modChainCal c f s).ten = s.ten := rfl
@[simp] theorem modChainCal_cmd (c : Nat) (f : ChainCal → ChainCal) (s : State) : (modChainCal c f s).cmd = s.cmd := rfl
@[simp] theorem modChainCal_regs (c : Nat) (f : ChainCal → ChainCal) (s : State) : (modChainCal c f s).regs = s.regs := rfl
@[simp] theorem modChainCal_out (c : Nat) (f : ChainCal → ChainCal) (s : State) : (modChainCal c f s).out = s.out := rfl
@[simp] theorem modChainCal_pending (c : Nat) (f : ChainCal → ChainCal) (s : State) : (modChainCal c f s).pending = s.pending := rfl
@[simp] theorem modChainCal_fresh (c : Nat) (f : ChainCal → ChainCal) (s : State) : (modChainCal c f s).fresh = s.fresh := rfl

/-! ### modDrive -/

@[simp] theorem modDrive_time (d : Nat) (f : Drive → Drive) (s : State) : (modDrive d f s).time = s.time := rfl
@[simp] theorem modDrive_otp (d : Nat) (f : Drive → Drive) (s : State) : (modDrive d f s).otp = s.otp := rfl
@[simp] theorem modDrive_boot (d : Nat) (f : Drive → Drive) (s : State) : (modDrive d f s).boot = s.boot := rfl
@[simp] theorem modDrive_line (d : Nat) (f : Drive → Drive) (s : State) : (modDrive d f s).line = s.line := rfl
@[simp] theorem modDrive_lane (d : Nat) (f : Drive → Drive) (s : State) : (modDrive d f s).lane = s.lane := rfl
@[simp] theorem modDrive_loom (d : Nat) (f : Drive → Drive) (s : State) : (modDrive d f s).loom = s.loom := rfl
@[simp] theorem modDrive_cal (d : Nat) (f : Drive → Drive) (s : State) : (modDrive d f s).cal = s.cal := rfl
@[simp] theorem modDrive_map (d : Nat) (f : Drive → Drive) (s : State) : (modDrive d f s).map = s.map := rfl
@[simp] theorem modDrive_bal (d : Nat) (f : Drive → Drive) (s : State) : (modDrive d f s).bal = s.bal := rfl
@[simp] theorem modDrive_acc (d : Nat) (f : Drive → Drive) (s : State) : (modDrive d f s).acc = s.acc := rfl
@[simp] theorem modDrive_safe (d : Nat) (f : Drive → Drive) (s : State) : (modDrive d f s).safe = s.safe := rfl
@[simp] theorem modDrive_est (d : Nat) (f : Drive → Drive) (s : State) : (modDrive d f s).est = s.est := rfl
@[simp] theorem modDrive_spec (d : Nat) (f : Drive → Drive) (s : State) : (modDrive d f s).spec = s.spec := rfl
@[simp] theorem modDrive_therm (d : Nat) (f : Drive → Drive) (s : State) : (modDrive d f s).therm = s.therm := rfl
@[simp] theorem modDrive_wear (d : Nat) (f : Drive → Drive) (s : State) : (modDrive d f s).wear = s.wear := rfl
@[simp] theorem modDrive_trace (d : Nat) (f : Drive → Drive) (s : State) : (modDrive d f s).trace = s.trace := rfl
@[simp] theorem modDrive_nvm (d : Nat) (f : Drive → Drive) (s : State) : (modDrive d f s).nvm = s.nvm := rfl
@[simp] theorem modDrive_pair (d : Nat) (f : Drive → Drive) (s : State) : (modDrive d f s).pair = s.pair := rfl
@[simp] theorem modDrive_ten (d : Nat) (f : Drive → Drive) (s : State) : (modDrive d f s).ten = s.ten := rfl
@[simp] theorem modDrive_cmd (d : Nat) (f : Drive → Drive) (s : State) : (modDrive d f s).cmd = s.cmd := rfl
@[simp] theorem modDrive_regs (d : Nat) (f : Drive → Drive) (s : State) : (modDrive d f s).regs = s.regs := rfl
@[simp] theorem modDrive_out (d : Nat) (f : Drive → Drive) (s : State) : (modDrive d f s).out = s.out := rfl
@[simp] theorem modDrive_pending (d : Nat) (f : Drive → Drive) (s : State) : (modDrive d f s).pending = s.pending := rfl
@[simp] theorem modDrive_fresh (d : Nat) (f : Drive → Drive) (s : State) : (modDrive d f s).fresh = s.fresh := rfl

/-! ### modStr -/

@[simp] theorem modStr_time (d : Nat) (f : Str → Str) (s : State) : (modStr d f s).time = s.time := rfl
@[simp] theorem modStr_otp (d : Nat) (f : Str → Str) (s : State) : (modStr d f s).otp = s.otp := rfl
@[simp] theorem modStr_boot (d : Nat) (f : Str → Str) (s : State) : (modStr d f s).boot = s.boot := rfl
@[simp] theorem modStr_line (d : Nat) (f : Str → Str) (s : State) : (modStr d f s).line = s.line := rfl
@[simp] theorem modStr_lane (d : Nat) (f : Str → Str) (s : State) : (modStr d f s).lane = s.lane := rfl
@[simp] theorem modStr_loom (d : Nat) (f : Str → Str) (s : State) : (modStr d f s).loom = s.loom := rfl
@[simp] theorem modStr_cal (d : Nat) (f : Str → Str) (s : State) : (modStr d f s).cal = s.cal := rfl
@[simp] theorem modStr_map (d : Nat) (f : Str → Str) (s : State) : (modStr d f s).map = s.map := rfl
@[simp] theorem modStr_bal (d : Nat) (f : Str → Str) (s : State) : (modStr d f s).bal = s.bal := rfl
@[simp] theorem modStr_acc (d : Nat) (f : Str → Str) (s : State) : (modStr d f s).acc = s.acc := rfl
@[simp] theorem modStr_safe (d : Nat) (f : Str → Str) (s : State) : (modStr d f s).safe = s.safe := rfl
@[simp] theorem modStr_chg (d : Nat) (f : Str → Str) (s : State) : (modStr d f s).chg = s.chg := rfl
@[simp] theorem modStr_spec (d : Nat) (f : Str → Str) (s : State) : (modStr d f s).spec = s.spec := rfl
@[simp] theorem modStr_therm (d : Nat) (f : Str → Str) (s : State) : (modStr d f s).therm = s.therm := rfl
@[simp] theorem modStr_wear (d : Nat) (f : Str → Str) (s : State) : (modStr d f s).wear = s.wear := rfl
@[simp] theorem modStr_trace (d : Nat) (f : Str → Str) (s : State) : (modStr d f s).trace = s.trace := rfl
@[simp] theorem modStr_nvm (d : Nat) (f : Str → Str) (s : State) : (modStr d f s).nvm = s.nvm := rfl
@[simp] theorem modStr_pair (d : Nat) (f : Str → Str) (s : State) : (modStr d f s).pair = s.pair := rfl
@[simp] theorem modStr_ten (d : Nat) (f : Str → Str) (s : State) : (modStr d f s).ten = s.ten := rfl
@[simp] theorem modStr_cmd (d : Nat) (f : Str → Str) (s : State) : (modStr d f s).cmd = s.cmd := rfl
@[simp] theorem modStr_regs (d : Nat) (f : Str → Str) (s : State) : (modStr d f s).regs = s.regs := rfl
@[simp] theorem modStr_out (d : Nat) (f : Str → Str) (s : State) : (modStr d f s).out = s.out := rfl
@[simp] theorem modStr_pending (d : Nat) (f : Str → Str) (s : State) : (modStr d f s).pending = s.pending := rfl
@[simp] theorem modStr_fresh (d : Nat) (f : Str → Str) (s : State) : (modStr d f s).fresh = s.fresh := rfl

/-! ### modFn -/

@[simp] theorem modFn_time (fn : Nat) (f : FnEst → FnEst) (s : State) : (modFn fn f s).time = s.time := rfl
@[simp] theorem modFn_otp (fn : Nat) (f : FnEst → FnEst) (s : State) : (modFn fn f s).otp = s.otp := rfl
@[simp] theorem modFn_boot (fn : Nat) (f : FnEst → FnEst) (s : State) : (modFn fn f s).boot = s.boot := rfl
@[simp] theorem modFn_line (fn : Nat) (f : FnEst → FnEst) (s : State) : (modFn fn f s).line = s.line := rfl
@[simp] theorem modFn_lane (fn : Nat) (f : FnEst → FnEst) (s : State) : (modFn fn f s).lane = s.lane := rfl
@[simp] theorem modFn_loom (fn : Nat) (f : FnEst → FnEst) (s : State) : (modFn fn f s).loom = s.loom := rfl
@[simp] theorem modFn_cal (fn : Nat) (f : FnEst → FnEst) (s : State) : (modFn fn f s).cal = s.cal := rfl
@[simp] theorem modFn_map (fn : Nat) (f : FnEst → FnEst) (s : State) : (modFn fn f s).map = s.map := rfl
@[simp] theorem modFn_bal (fn : Nat) (f : FnEst → FnEst) (s : State) : (modFn fn f s).bal = s.bal := rfl
@[simp] theorem modFn_acc (fn : Nat) (f : FnEst → FnEst) (s : State) : (modFn fn f s).acc = s.acc := rfl
@[simp] theorem modFn_safe (fn : Nat) (f : FnEst → FnEst) (s : State) : (modFn fn f s).safe = s.safe := rfl
@[simp] theorem modFn_chg (fn : Nat) (f : FnEst → FnEst) (s : State) : (modFn fn f s).chg = s.chg := rfl
@[simp] theorem modFn_spec (fn : Nat) (f : FnEst → FnEst) (s : State) : (modFn fn f s).spec = s.spec := rfl
@[simp] theorem modFn_therm (fn : Nat) (f : FnEst → FnEst) (s : State) : (modFn fn f s).therm = s.therm := rfl
@[simp] theorem modFn_wear (fn : Nat) (f : FnEst → FnEst) (s : State) : (modFn fn f s).wear = s.wear := rfl
@[simp] theorem modFn_trace (fn : Nat) (f : FnEst → FnEst) (s : State) : (modFn fn f s).trace = s.trace := rfl
@[simp] theorem modFn_nvm (fn : Nat) (f : FnEst → FnEst) (s : State) : (modFn fn f s).nvm = s.nvm := rfl
@[simp] theorem modFn_pair (fn : Nat) (f : FnEst → FnEst) (s : State) : (modFn fn f s).pair = s.pair := rfl
@[simp] theorem modFn_ten (fn : Nat) (f : FnEst → FnEst) (s : State) : (modFn fn f s).ten = s.ten := rfl
@[simp] theorem modFn_cmd (fn : Nat) (f : FnEst → FnEst) (s : State) : (modFn fn f s).cmd = s.cmd := rfl
@[simp] theorem modFn_regs (fn : Nat) (f : FnEst → FnEst) (s : State) : (modFn fn f s).regs = s.regs := rfl
@[simp] theorem modFn_out (fn : Nat) (f : FnEst → FnEst) (s : State) : (modFn fn f s).out = s.out := rfl
@[simp] theorem modFn_pending (fn : Nat) (f : FnEst → FnEst) (s : State) : (modFn fn f s).pending = s.pending := rfl
@[simp] theorem modFn_fresh (fn : Nat) (f : FnEst → FnEst) (s : State) : (modFn fn f s).fresh = s.fresh := rfl

/-! ### modChain -/

@[simp] theorem modChain_time (c : Nat) (f : Chain → Chain) (s : State) : (modChain c f s).time = s.time := rfl
@[simp] theorem modChain_otp (c : Nat) (f : Chain → Chain) (s : State) : (modChain c f s).otp = s.otp := rfl
@[simp] theorem modChain_boot (c : Nat) (f : Chain → Chain) (s : State) : (modChain c f s).boot = s.boot := rfl
@[simp] theorem modChain_lane (c : Nat) (f : Chain → Chain) (s : State) : (modChain c f s).lane = s.lane := rfl
@[simp] theorem modChain_loom (c : Nat) (f : Chain → Chain) (s : State) : (modChain c f s).loom = s.loom := rfl
@[simp] theorem modChain_cal (c : Nat) (f : Chain → Chain) (s : State) : (modChain c f s).cal = s.cal := rfl
@[simp] theorem modChain_map (c : Nat) (f : Chain → Chain) (s : State) : (modChain c f s).map = s.map := rfl
@[simp] theorem modChain_bal (c : Nat) (f : Chain → Chain) (s : State) : (modChain c f s).bal = s.bal := rfl
@[simp] theorem modChain_acc (c : Nat) (f : Chain → Chain) (s : State) : (modChain c f s).acc = s.acc := rfl
@[simp] theorem modChain_safe (c : Nat) (f : Chain → Chain) (s : State) : (modChain c f s).safe = s.safe := rfl
@[simp] theorem modChain_chg (c : Nat) (f : Chain → Chain) (s : State) : (modChain c f s).chg = s.chg := rfl
@[simp] theorem modChain_est (c : Nat) (f : Chain → Chain) (s : State) : (modChain c f s).est = s.est := rfl
@[simp] theorem modChain_spec (c : Nat) (f : Chain → Chain) (s : State) : (modChain c f s).spec = s.spec := rfl
@[simp] theorem modChain_therm (c : Nat) (f : Chain → Chain) (s : State) : (modChain c f s).therm = s.therm := rfl
@[simp] theorem modChain_wear (c : Nat) (f : Chain → Chain) (s : State) : (modChain c f s).wear = s.wear := rfl
@[simp] theorem modChain_trace (c : Nat) (f : Chain → Chain) (s : State) : (modChain c f s).trace = s.trace := rfl
@[simp] theorem modChain_nvm (c : Nat) (f : Chain → Chain) (s : State) : (modChain c f s).nvm = s.nvm := rfl
@[simp] theorem modChain_pair (c : Nat) (f : Chain → Chain) (s : State) : (modChain c f s).pair = s.pair := rfl
@[simp] theorem modChain_ten (c : Nat) (f : Chain → Chain) (s : State) : (modChain c f s).ten = s.ten := rfl
@[simp] theorem modChain_cmd (c : Nat) (f : Chain → Chain) (s : State) : (modChain c f s).cmd = s.cmd := rfl
@[simp] theorem modChain_regs (c : Nat) (f : Chain → Chain) (s : State) : (modChain c f s).regs = s.regs := rfl
@[simp] theorem modChain_out (c : Nat) (f : Chain → Chain) (s : State) : (modChain c f s).out = s.out := rfl
@[simp] theorem modChain_pending (c : Nat) (f : Chain → Chain) (s : State) : (modChain c f s).pending = s.pending := rfl
@[simp] theorem modChain_fresh (c : Nat) (f : Chain → Chain) (s : State) : (modChain c f s).fresh = s.fresh := rfl

/-! ### modPos -/

@[simp] theorem modPos_time (p : Nat) (f : Posn → Posn) (s : State) : (modPos p f s).time = s.time := rfl
@[simp] theorem modPos_otp (p : Nat) (f : Posn → Posn) (s : State) : (modPos p f s).otp = s.otp := rfl
@[simp] theorem modPos_boot (p : Nat) (f : Posn → Posn) (s : State) : (modPos p f s).boot = s.boot := rfl
@[simp] theorem modPos_lane (p : Nat) (f : Posn → Posn) (s : State) : (modPos p f s).lane = s.lane := rfl
@[simp] theorem modPos_loom (p : Nat) (f : Posn → Posn) (s : State) : (modPos p f s).loom = s.loom := rfl
@[simp] theorem modPos_cal (p : Nat) (f : Posn → Posn) (s : State) : (modPos p f s).cal = s.cal := rfl
@[simp] theorem modPos_map (p : Nat) (f : Posn → Posn) (s : State) : (modPos p f s).map = s.map := rfl
@[simp] theorem modPos_bal (p : Nat) (f : Posn → Posn) (s : State) : (modPos p f s).bal = s.bal := rfl
@[simp] theorem modPos_acc (p : Nat) (f : Posn → Posn) (s : State) : (modPos p f s).acc = s.acc := rfl
@[simp] theorem modPos_safe (p : Nat) (f : Posn → Posn) (s : State) : (modPos p f s).safe = s.safe := rfl
@[simp] theorem modPos_chg (p : Nat) (f : Posn → Posn) (s : State) : (modPos p f s).chg = s.chg := rfl
@[simp] theorem modPos_est (p : Nat) (f : Posn → Posn) (s : State) : (modPos p f s).est = s.est := rfl
@[simp] theorem modPos_spec (p : Nat) (f : Posn → Posn) (s : State) : (modPos p f s).spec = s.spec := rfl
@[simp] theorem modPos_therm (p : Nat) (f : Posn → Posn) (s : State) : (modPos p f s).therm = s.therm := rfl
@[simp] theorem modPos_wear (p : Nat) (f : Posn → Posn) (s : State) : (modPos p f s).wear = s.wear := rfl
@[simp] theorem modPos_trace (p : Nat) (f : Posn → Posn) (s : State) : (modPos p f s).trace = s.trace := rfl
@[simp] theorem modPos_nvm (p : Nat) (f : Posn → Posn) (s : State) : (modPos p f s).nvm = s.nvm := rfl
@[simp] theorem modPos_pair (p : Nat) (f : Posn → Posn) (s : State) : (modPos p f s).pair = s.pair := rfl
@[simp] theorem modPos_ten (p : Nat) (f : Posn → Posn) (s : State) : (modPos p f s).ten = s.ten := rfl
@[simp] theorem modPos_cmd (p : Nat) (f : Posn → Posn) (s : State) : (modPos p f s).cmd = s.cmd := rfl
@[simp] theorem modPos_regs (p : Nat) (f : Posn → Posn) (s : State) : (modPos p f s).regs = s.regs := rfl
@[simp] theorem modPos_out (p : Nat) (f : Posn → Posn) (s : State) : (modPos p f s).out = s.out := rfl
@[simp] theorem modPos_pending (p : Nat) (f : Posn → Posn) (s : State) : (modPos p f s).pending = s.pending := rfl
@[simp] theorem modPos_fresh (p : Nat) (f : Posn → Posn) (s : State) : (modPos p f s).fresh = s.fresh := rfl

/-! ### modLane -/

@[simp] theorem modLane_time (l : Nat) (f : Lane → Lane) (s : State) : (modLane l f s).time = s.time := rfl
@[simp] theorem modLane_otp (l : Nat) (f : Lane → Lane) (s : State) : (modLane l f s).otp = s.otp := rfl
@[simp] theorem modLane_boot (l : Nat) (f : Lane → Lane) (s : State) : (modLane l f s).boot = s.boot := rfl
@[simp] theorem modLane_line (l : Nat) (f : Lane → Lane) (s : State) : (modLane l f s).line = s.line := rfl
@[simp] theorem modLane_loom (l : Nat) (f : Lane → Lane) (s : State) : (modLane l f s).loom = s.loom := rfl
@[simp] theorem modLane_cal (l : Nat) (f : Lane → Lane) (s : State) : (modLane l f s).cal = s.cal := rfl
@[simp] theorem modLane_map (l : Nat) (f : Lane → Lane) (s : State) : (modLane l f s).map = s.map := rfl
@[simp] theorem modLane_bal (l : Nat) (f : Lane → Lane) (s : State) : (modLane l f s).bal = s.bal := rfl
@[simp] theorem modLane_acc (l : Nat) (f : Lane → Lane) (s : State) : (modLane l f s).acc = s.acc := rfl
@[simp] theorem modLane_safe (l : Nat) (f : Lane → Lane) (s : State) : (modLane l f s).safe = s.safe := rfl
@[simp] theorem modLane_chg (l : Nat) (f : Lane → Lane) (s : State) : (modLane l f s).chg = s.chg := rfl
@[simp] theorem modLane_est (l : Nat) (f : Lane → Lane) (s : State) : (modLane l f s).est = s.est := rfl
@[simp] theorem modLane_spec (l : Nat) (f : Lane → Lane) (s : State) : (modLane l f s).spec = s.spec := rfl
@[simp] theorem modLane_therm (l : Nat) (f : Lane → Lane) (s : State) : (modLane l f s).therm = s.therm := rfl
@[simp] theorem modLane_wear (l : Nat) (f : Lane → Lane) (s : State) : (modLane l f s).wear = s.wear := rfl
@[simp] theorem modLane_trace (l : Nat) (f : Lane → Lane) (s : State) : (modLane l f s).trace = s.trace := rfl
@[simp] theorem modLane_nvm (l : Nat) (f : Lane → Lane) (s : State) : (modLane l f s).nvm = s.nvm := rfl
@[simp] theorem modLane_pair (l : Nat) (f : Lane → Lane) (s : State) : (modLane l f s).pair = s.pair := rfl
@[simp] theorem modLane_ten (l : Nat) (f : Lane → Lane) (s : State) : (modLane l f s).ten = s.ten := rfl
@[simp] theorem modLane_cmd (l : Nat) (f : Lane → Lane) (s : State) : (modLane l f s).cmd = s.cmd := rfl
@[simp] theorem modLane_regs (l : Nat) (f : Lane → Lane) (s : State) : (modLane l f s).regs = s.regs := rfl
@[simp] theorem modLane_out (l : Nat) (f : Lane → Lane) (s : State) : (modLane l f s).out = s.out := rfl
@[simp] theorem modLane_pending (l : Nat) (f : Lane → Lane) (s : State) : (modLane l f s).pending = s.pending := rfl
@[simp] theorem modLane_fresh (l : Nat) (f : Lane → Lane) (s : State) : (modLane l f s).fresh = s.fresh := rfl

/-! ### modBridge -/

@[simp] theorem modBridge_time (pl : Nat) (f : Bridge → Bridge) (s : State) : (modBridge pl f s).time = s.time := rfl
@[simp] theorem modBridge_otp (pl : Nat) (f : Bridge → Bridge) (s : State) : (modBridge pl f s).otp = s.otp := rfl
@[simp] theorem modBridge_boot (pl : Nat) (f : Bridge → Bridge) (s : State) : (modBridge pl f s).boot = s.boot := rfl
@[simp] theorem modBridge_line (pl : Nat) (f : Bridge → Bridge) (s : State) : (modBridge pl f s).line = s.line := rfl
@[simp] theorem modBridge_loom (pl : Nat) (f : Bridge → Bridge) (s : State) : (modBridge pl f s).loom = s.loom := rfl
@[simp] theorem modBridge_cal (pl : Nat) (f : Bridge → Bridge) (s : State) : (modBridge pl f s).cal = s.cal := rfl
@[simp] theorem modBridge_map (pl : Nat) (f : Bridge → Bridge) (s : State) : (modBridge pl f s).map = s.map := rfl
@[simp] theorem modBridge_bal (pl : Nat) (f : Bridge → Bridge) (s : State) : (modBridge pl f s).bal = s.bal := rfl
@[simp] theorem modBridge_acc (pl : Nat) (f : Bridge → Bridge) (s : State) : (modBridge pl f s).acc = s.acc := rfl
@[simp] theorem modBridge_safe (pl : Nat) (f : Bridge → Bridge) (s : State) : (modBridge pl f s).safe = s.safe := rfl
@[simp] theorem modBridge_chg (pl : Nat) (f : Bridge → Bridge) (s : State) : (modBridge pl f s).chg = s.chg := rfl
@[simp] theorem modBridge_est (pl : Nat) (f : Bridge → Bridge) (s : State) : (modBridge pl f s).est = s.est := rfl
@[simp] theorem modBridge_spec (pl : Nat) (f : Bridge → Bridge) (s : State) : (modBridge pl f s).spec = s.spec := rfl
@[simp] theorem modBridge_therm (pl : Nat) (f : Bridge → Bridge) (s : State) : (modBridge pl f s).therm = s.therm := rfl
@[simp] theorem modBridge_wear (pl : Nat) (f : Bridge → Bridge) (s : State) : (modBridge pl f s).wear = s.wear := rfl
@[simp] theorem modBridge_trace (pl : Nat) (f : Bridge → Bridge) (s : State) : (modBridge pl f s).trace = s.trace := rfl
@[simp] theorem modBridge_nvm (pl : Nat) (f : Bridge → Bridge) (s : State) : (modBridge pl f s).nvm = s.nvm := rfl
@[simp] theorem modBridge_pair (pl : Nat) (f : Bridge → Bridge) (s : State) : (modBridge pl f s).pair = s.pair := rfl
@[simp] theorem modBridge_ten (pl : Nat) (f : Bridge → Bridge) (s : State) : (modBridge pl f s).ten = s.ten := rfl
@[simp] theorem modBridge_cmd (pl : Nat) (f : Bridge → Bridge) (s : State) : (modBridge pl f s).cmd = s.cmd := rfl
@[simp] theorem modBridge_regs (pl : Nat) (f : Bridge → Bridge) (s : State) : (modBridge pl f s).regs = s.regs := rfl
@[simp] theorem modBridge_out (pl : Nat) (f : Bridge → Bridge) (s : State) : (modBridge pl f s).out = s.out := rfl
@[simp] theorem modBridge_pending (pl : Nat) (f : Bridge → Bridge) (s : State) : (modBridge pl f s).pending = s.pending := rfl
@[simp] theorem modBridge_fresh (pl : Nat) (f : Bridge → Bridge) (s : State) : (modBridge pl f s).fresh = s.fresh := rfl

/-! ### modPair -/

@[simp] theorem modPair_pair (f : PairUnit → PairUnit) (s : State) : (modPair f s).pair = f s.pair := rfl
@[simp] theorem modPair_time (f : PairUnit → PairUnit) (s : State) : (modPair f s).time = s.time := rfl
@[simp] theorem modPair_otp (f : PairUnit → PairUnit) (s : State) : (modPair f s).otp = s.otp := rfl
@[simp] theorem modPair_boot (f : PairUnit → PairUnit) (s : State) : (modPair f s).boot = s.boot := rfl
@[simp] theorem modPair_line (f : PairUnit → PairUnit) (s : State) : (modPair f s).line = s.line := rfl
@[simp] theorem modPair_lane (f : PairUnit → PairUnit) (s : State) : (modPair f s).lane = s.lane := rfl
@[simp] theorem modPair_loom (f : PairUnit → PairUnit) (s : State) : (modPair f s).loom = s.loom := rfl
@[simp] theorem modPair_cal (f : PairUnit → PairUnit) (s : State) : (modPair f s).cal = s.cal := rfl
@[simp] theorem modPair_map (f : PairUnit → PairUnit) (s : State) : (modPair f s).map = s.map := rfl
@[simp] theorem modPair_bal (f : PairUnit → PairUnit) (s : State) : (modPair f s).bal = s.bal := rfl
@[simp] theorem modPair_acc (f : PairUnit → PairUnit) (s : State) : (modPair f s).acc = s.acc := rfl
@[simp] theorem modPair_safe (f : PairUnit → PairUnit) (s : State) : (modPair f s).safe = s.safe := rfl
@[simp] theorem modPair_chg (f : PairUnit → PairUnit) (s : State) : (modPair f s).chg = s.chg := rfl
@[simp] theorem modPair_est (f : PairUnit → PairUnit) (s : State) : (modPair f s).est = s.est := rfl
@[simp] theorem modPair_spec (f : PairUnit → PairUnit) (s : State) : (modPair f s).spec = s.spec := rfl
@[simp] theorem modPair_therm (f : PairUnit → PairUnit) (s : State) : (modPair f s).therm = s.therm := rfl
@[simp] theorem modPair_wear (f : PairUnit → PairUnit) (s : State) : (modPair f s).wear = s.wear := rfl
@[simp] theorem modPair_trace (f : PairUnit → PairUnit) (s : State) : (modPair f s).trace = s.trace := rfl
@[simp] theorem modPair_nvm (f : PairUnit → PairUnit) (s : State) : (modPair f s).nvm = s.nvm := rfl
@[simp] theorem modPair_ten (f : PairUnit → PairUnit) (s : State) : (modPair f s).ten = s.ten := rfl
@[simp] theorem modPair_cmd (f : PairUnit → PairUnit) (s : State) : (modPair f s).cmd = s.cmd := rfl
@[simp] theorem modPair_regs (f : PairUnit → PairUnit) (s : State) : (modPair f s).regs = s.regs := rfl
@[simp] theorem modPair_out (f : PairUnit → PairUnit) (s : State) : (modPair f s).out = s.out := rfl
@[simp] theorem modPair_pending (f : PairUnit → PairUnit) (s : State) : (modPair f s).pending = s.pending := rfl
@[simp] theorem modPair_fresh (f : PairUnit → PairUnit) (s : State) : (modPair f s).fresh = s.fresh := rfl

/-! ### modRing -/

@[simp] theorem modRing_time (fn q : Nat) (f : Ring → Ring) (s : State) : (modRing fn q f s).time = s.time := rfl
@[simp] theorem modRing_otp (fn q : Nat) (f : Ring → Ring) (s : State) : (modRing fn q f s).otp = s.otp := rfl
@[simp] theorem modRing_boot (fn q : Nat) (f : Ring → Ring) (s : State) : (modRing fn q f s).boot = s.boot := rfl
@[simp] theorem modRing_line (fn q : Nat) (f : Ring → Ring) (s : State) : (modRing fn q f s).line = s.line := rfl
@[simp] theorem modRing_lane (fn q : Nat) (f : Ring → Ring) (s : State) : (modRing fn q f s).lane = s.lane := rfl
@[simp] theorem modRing_loom (fn q : Nat) (f : Ring → Ring) (s : State) : (modRing fn q f s).loom = s.loom := rfl
@[simp] theorem modRing_cal (fn q : Nat) (f : Ring → Ring) (s : State) : (modRing fn q f s).cal = s.cal := rfl
@[simp] theorem modRing_map (fn q : Nat) (f : Ring → Ring) (s : State) : (modRing fn q f s).map = s.map := rfl
@[simp] theorem modRing_bal (fn q : Nat) (f : Ring → Ring) (s : State) : (modRing fn q f s).bal = s.bal := rfl
@[simp] theorem modRing_acc (fn q : Nat) (f : Ring → Ring) (s : State) : (modRing fn q f s).acc = s.acc := rfl
@[simp] theorem modRing_safe (fn q : Nat) (f : Ring → Ring) (s : State) : (modRing fn q f s).safe = s.safe := rfl
@[simp] theorem modRing_chg (fn q : Nat) (f : Ring → Ring) (s : State) : (modRing fn q f s).chg = s.chg := rfl
@[simp] theorem modRing_est (fn q : Nat) (f : Ring → Ring) (s : State) : (modRing fn q f s).est = s.est := rfl
@[simp] theorem modRing_spec (fn q : Nat) (f : Ring → Ring) (s : State) : (modRing fn q f s).spec = s.spec := rfl
@[simp] theorem modRing_therm (fn q : Nat) (f : Ring → Ring) (s : State) : (modRing fn q f s).therm = s.therm := rfl
@[simp] theorem modRing_wear (fn q : Nat) (f : Ring → Ring) (s : State) : (modRing fn q f s).wear = s.wear := rfl
@[simp] theorem modRing_trace (fn q : Nat) (f : Ring → Ring) (s : State) : (modRing fn q f s).trace = s.trace := rfl
@[simp] theorem modRing_nvm (fn q : Nat) (f : Ring → Ring) (s : State) : (modRing fn q f s).nvm = s.nvm := rfl
@[simp] theorem modRing_pair (fn q : Nat) (f : Ring → Ring) (s : State) : (modRing fn q f s).pair = s.pair := rfl
@[simp] theorem modRing_ten (fn q : Nat) (f : Ring → Ring) (s : State) : (modRing fn q f s).ten = s.ten := rfl
@[simp] theorem modRing_regs (fn q : Nat) (f : Ring → Ring) (s : State) : (modRing fn q f s).regs = s.regs := rfl
@[simp] theorem modRing_out (fn q : Nat) (f : Ring → Ring) (s : State) : (modRing fn q f s).out = s.out := rfl
@[simp] theorem modRing_pending (fn q : Nat) (f : Ring → Ring) (s : State) : (modRing fn q f s).pending = s.pending := rfl
@[simp] theorem modRing_fresh (fn q : Nat) (f : Ring → Ring) (s : State) : (modRing fn q f s).fresh = s.fresh := rfl

/-! ### modQueue -/

@[simp] theorem modQueue_time (fn : Nat) (f : EvQueue → EvQueue) (s : State) : (modQueue fn f s).time = s.time := rfl
@[simp] theorem modQueue_otp (fn : Nat) (f : EvQueue → EvQueue) (s : State) : (modQueue fn f s).otp = s.otp := rfl
@[simp] theorem modQueue_boot (fn : Nat) (f : EvQueue → EvQueue) (s : State) : (modQueue fn f s).boot = s.boot := rfl
@[simp] theorem modQueue_line (fn : Nat) (f : EvQueue → EvQueue) (s : State) : (modQueue fn f s).line = s.line := rfl
@[simp] theorem modQueue_lane (fn : Nat) (f : EvQueue → EvQueue) (s : State) : (modQueue fn f s).lane = s.lane := rfl
@[simp] theorem modQueue_loom (fn : Nat) (f : EvQueue → EvQueue) (s : State) : (modQueue fn f s).loom = s.loom := rfl
@[simp] theorem modQueue_cal (fn : Nat) (f : EvQueue → EvQueue) (s : State) : (modQueue fn f s).cal = s.cal := rfl
@[simp] theorem modQueue_map (fn : Nat) (f : EvQueue → EvQueue) (s : State) : (modQueue fn f s).map = s.map := rfl
@[simp] theorem modQueue_bal (fn : Nat) (f : EvQueue → EvQueue) (s : State) : (modQueue fn f s).bal = s.bal := rfl
@[simp] theorem modQueue_acc (fn : Nat) (f : EvQueue → EvQueue) (s : State) : (modQueue fn f s).acc = s.acc := rfl
@[simp] theorem modQueue_safe (fn : Nat) (f : EvQueue → EvQueue) (s : State) : (modQueue fn f s).safe = s.safe := rfl
@[simp] theorem modQueue_chg (fn : Nat) (f : EvQueue → EvQueue) (s : State) : (modQueue fn f s).chg = s.chg := rfl
@[simp] theorem modQueue_est (fn : Nat) (f : EvQueue → EvQueue) (s : State) : (modQueue fn f s).est = s.est := rfl
@[simp] theorem modQueue_spec (fn : Nat) (f : EvQueue → EvQueue) (s : State) : (modQueue fn f s).spec = s.spec := rfl
@[simp] theorem modQueue_therm (fn : Nat) (f : EvQueue → EvQueue) (s : State) : (modQueue fn f s).therm = s.therm := rfl
@[simp] theorem modQueue_wear (fn : Nat) (f : EvQueue → EvQueue) (s : State) : (modQueue fn f s).wear = s.wear := rfl
@[simp] theorem modQueue_trace (fn : Nat) (f : EvQueue → EvQueue) (s : State) : (modQueue fn f s).trace = s.trace := rfl
@[simp] theorem modQueue_nvm (fn : Nat) (f : EvQueue → EvQueue) (s : State) : (modQueue fn f s).nvm = s.nvm := rfl
@[simp] theorem modQueue_pair (fn : Nat) (f : EvQueue → EvQueue) (s : State) : (modQueue fn f s).pair = s.pair := rfl
@[simp] theorem modQueue_cmd (fn : Nat) (f : EvQueue → EvQueue) (s : State) : (modQueue fn f s).cmd = s.cmd := rfl
@[simp] theorem modQueue_regs (fn : Nat) (f : EvQueue → EvQueue) (s : State) : (modQueue fn f s).regs = s.regs := rfl
@[simp] theorem modQueue_out (fn : Nat) (f : EvQueue → EvQueue) (s : State) : (modQueue fn f s).out = s.out := rfl
@[simp] theorem modQueue_pending (fn : Nat) (f : EvQueue → EvQueue) (s : State) : (modQueue fn f s).pending = s.pending := rfl
@[simp] theorem modQueue_fresh (fn : Nat) (f : EvQueue → EvQueue) (s : State) : (modQueue fn f s).fresh = s.fresh := rfl

/-! ### modSafe -/

@[simp] theorem modSafe_safe (f : SafeUnit → SafeUnit) (s : State) : (modSafe f s).safe = f s.safe := rfl
@[simp] theorem modSafe_time (f : SafeUnit → SafeUnit) (s : State) : (modSafe f s).time = s.time := rfl
@[simp] theorem modSafe_otp (f : SafeUnit → SafeUnit) (s : State) : (modSafe f s).otp = s.otp := rfl
@[simp] theorem modSafe_boot (f : SafeUnit → SafeUnit) (s : State) : (modSafe f s).boot = s.boot := rfl
@[simp] theorem modSafe_line (f : SafeUnit → SafeUnit) (s : State) : (modSafe f s).line = s.line := rfl
@[simp] theorem modSafe_lane (f : SafeUnit → SafeUnit) (s : State) : (modSafe f s).lane = s.lane := rfl
@[simp] theorem modSafe_loom (f : SafeUnit → SafeUnit) (s : State) : (modSafe f s).loom = s.loom := rfl
@[simp] theorem modSafe_cal (f : SafeUnit → SafeUnit) (s : State) : (modSafe f s).cal = s.cal := rfl
@[simp] theorem modSafe_map (f : SafeUnit → SafeUnit) (s : State) : (modSafe f s).map = s.map := rfl
@[simp] theorem modSafe_bal (f : SafeUnit → SafeUnit) (s : State) : (modSafe f s).bal = s.bal := rfl
@[simp] theorem modSafe_acc (f : SafeUnit → SafeUnit) (s : State) : (modSafe f s).acc = s.acc := rfl
@[simp] theorem modSafe_chg (f : SafeUnit → SafeUnit) (s : State) : (modSafe f s).chg = s.chg := rfl
@[simp] theorem modSafe_est (f : SafeUnit → SafeUnit) (s : State) : (modSafe f s).est = s.est := rfl
@[simp] theorem modSafe_spec (f : SafeUnit → SafeUnit) (s : State) : (modSafe f s).spec = s.spec := rfl
@[simp] theorem modSafe_therm (f : SafeUnit → SafeUnit) (s : State) : (modSafe f s).therm = s.therm := rfl
@[simp] theorem modSafe_wear (f : SafeUnit → SafeUnit) (s : State) : (modSafe f s).wear = s.wear := rfl
@[simp] theorem modSafe_trace (f : SafeUnit → SafeUnit) (s : State) : (modSafe f s).trace = s.trace := rfl
@[simp] theorem modSafe_nvm (f : SafeUnit → SafeUnit) (s : State) : (modSafe f s).nvm = s.nvm := rfl
@[simp] theorem modSafe_pair (f : SafeUnit → SafeUnit) (s : State) : (modSafe f s).pair = s.pair := rfl
@[simp] theorem modSafe_ten (f : SafeUnit → SafeUnit) (s : State) : (modSafe f s).ten = s.ten := rfl
@[simp] theorem modSafe_cmd (f : SafeUnit → SafeUnit) (s : State) : (modSafe f s).cmd = s.cmd := rfl
@[simp] theorem modSafe_regs (f : SafeUnit → SafeUnit) (s : State) : (modSafe f s).regs = s.regs := rfl
@[simp] theorem modSafe_out (f : SafeUnit → SafeUnit) (s : State) : (modSafe f s).out = s.out := rfl
@[simp] theorem modSafe_pending (f : SafeUnit → SafeUnit) (s : State) : (modSafe f s).pending = s.pending := rfl
@[simp] theorem modSafe_fresh (f : SafeUnit → SafeUnit) (s : State) : (modSafe f s).fresh = s.fresh := rfl

/-! ### modFocus -/

@[simp] theorem modFocus_time (k : Nat) (f : Focus → Focus) (s : State) : (modFocus k f s).time = s.time := rfl
@[simp] theorem modFocus_otp (k : Nat) (f : Focus → Focus) (s : State) : (modFocus k f s).otp = s.otp := rfl
@[simp] theorem modFocus_boot (k : Nat) (f : Focus → Focus) (s : State) : (modFocus k f s).boot = s.boot := rfl
@[simp] theorem modFocus_line (k : Nat) (f : Focus → Focus) (s : State) : (modFocus k f s).line = s.line := rfl
@[simp] theorem modFocus_lane (k : Nat) (f : Focus → Focus) (s : State) : (modFocus k f s).lane = s.lane := rfl
@[simp] theorem modFocus_loom (k : Nat) (f : Focus → Focus) (s : State) : (modFocus k f s).loom = s.loom := rfl
@[simp] theorem modFocus_cal (k : Nat) (f : Focus → Focus) (s : State) : (modFocus k f s).cal = s.cal := rfl
@[simp] theorem modFocus_map (k : Nat) (f : Focus → Focus) (s : State) : (modFocus k f s).map = s.map := rfl
@[simp] theorem modFocus_bal (k : Nat) (f : Focus → Focus) (s : State) : (modFocus k f s).bal = s.bal := rfl
@[simp] theorem modFocus_acc (k : Nat) (f : Focus → Focus) (s : State) : (modFocus k f s).acc = s.acc := rfl
@[simp] theorem modFocus_safe (k : Nat) (f : Focus → Focus) (s : State) : (modFocus k f s).safe = s.safe := rfl
@[simp] theorem modFocus_chg (k : Nat) (f : Focus → Focus) (s : State) : (modFocus k f s).chg = s.chg := rfl
@[simp] theorem modFocus_est (k : Nat) (f : Focus → Focus) (s : State) : (modFocus k f s).est = s.est := rfl
@[simp] theorem modFocus_therm (k : Nat) (f : Focus → Focus) (s : State) : (modFocus k f s).therm = s.therm := rfl
@[simp] theorem modFocus_wear (k : Nat) (f : Focus → Focus) (s : State) : (modFocus k f s).wear = s.wear := rfl
@[simp] theorem modFocus_trace (k : Nat) (f : Focus → Focus) (s : State) : (modFocus k f s).trace = s.trace := rfl
@[simp] theorem modFocus_nvm (k : Nat) (f : Focus → Focus) (s : State) : (modFocus k f s).nvm = s.nvm := rfl
@[simp] theorem modFocus_pair (k : Nat) (f : Focus → Focus) (s : State) : (modFocus k f s).pair = s.pair := rfl
@[simp] theorem modFocus_ten (k : Nat) (f : Focus → Focus) (s : State) : (modFocus k f s).ten = s.ten := rfl
@[simp] theorem modFocus_cmd (k : Nat) (f : Focus → Focus) (s : State) : (modFocus k f s).cmd = s.cmd := rfl
@[simp] theorem modFocus_regs (k : Nat) (f : Focus → Focus) (s : State) : (modFocus k f s).regs = s.regs := rfl
@[simp] theorem modFocus_out (k : Nat) (f : Focus → Focus) (s : State) : (modFocus k f s).out = s.out := rfl
@[simp] theorem modFocus_pending (k : Nat) (f : Focus → Focus) (s : State) : (modFocus k f s).pending = s.pending := rfl
@[simp] theorem modFocus_fresh (k : Nat) (f : Focus → Focus) (s : State) : (modFocus k f s).fresh = s.fresh := rfl

/-! ### modCtx -/

@[simp] theorem modCtx_time (chi : Nat) (f : SpecCtx → SpecCtx) (s : State) : (modCtx chi f s).time = s.time := rfl
@[simp] theorem modCtx_otp (chi : Nat) (f : SpecCtx → SpecCtx) (s : State) : (modCtx chi f s).otp = s.otp := rfl
@[simp] theorem modCtx_boot (chi : Nat) (f : SpecCtx → SpecCtx) (s : State) : (modCtx chi f s).boot = s.boot := rfl
@[simp] theorem modCtx_line (chi : Nat) (f : SpecCtx → SpecCtx) (s : State) : (modCtx chi f s).line = s.line := rfl
@[simp] theorem modCtx_lane (chi : Nat) (f : SpecCtx → SpecCtx) (s : State) : (modCtx chi f s).lane = s.lane := rfl
@[simp] theorem modCtx_loom (chi : Nat) (f : SpecCtx → SpecCtx) (s : State) : (modCtx chi f s).loom = s.loom := rfl
@[simp] theorem modCtx_cal (chi : Nat) (f : SpecCtx → SpecCtx) (s : State) : (modCtx chi f s).cal = s.cal := rfl
@[simp] theorem modCtx_map (chi : Nat) (f : SpecCtx → SpecCtx) (s : State) : (modCtx chi f s).map = s.map := rfl
@[simp] theorem modCtx_bal (chi : Nat) (f : SpecCtx → SpecCtx) (s : State) : (modCtx chi f s).bal = s.bal := rfl
@[simp] theorem modCtx_acc (chi : Nat) (f : SpecCtx → SpecCtx) (s : State) : (modCtx chi f s).acc = s.acc := rfl
@[simp] theorem modCtx_safe (chi : Nat) (f : SpecCtx → SpecCtx) (s : State) : (modCtx chi f s).safe = s.safe := rfl
@[simp] theorem modCtx_chg (chi : Nat) (f : SpecCtx → SpecCtx) (s : State) : (modCtx chi f s).chg = s.chg := rfl
@[simp] theorem modCtx_est (chi : Nat) (f : SpecCtx → SpecCtx) (s : State) : (modCtx chi f s).est = s.est := rfl
@[simp] theorem modCtx_therm (chi : Nat) (f : SpecCtx → SpecCtx) (s : State) : (modCtx chi f s).therm = s.therm := rfl
@[simp] theorem modCtx_wear (chi : Nat) (f : SpecCtx → SpecCtx) (s : State) : (modCtx chi f s).wear = s.wear := rfl
@[simp] theorem modCtx_trace (chi : Nat) (f : SpecCtx → SpecCtx) (s : State) : (modCtx chi f s).trace = s.trace := rfl
@[simp] theorem modCtx_nvm (chi : Nat) (f : SpecCtx → SpecCtx) (s : State) : (modCtx chi f s).nvm = s.nvm := rfl
@[simp] theorem modCtx_pair (chi : Nat) (f : SpecCtx → SpecCtx) (s : State) : (modCtx chi f s).pair = s.pair := rfl
@[simp] theorem modCtx_ten (chi : Nat) (f : SpecCtx → SpecCtx) (s : State) : (modCtx chi f s).ten = s.ten := rfl
@[simp] theorem modCtx_cmd (chi : Nat) (f : SpecCtx → SpecCtx) (s : State) : (modCtx chi f s).cmd = s.cmd := rfl
@[simp] theorem modCtx_regs (chi : Nat) (f : SpecCtx → SpecCtx) (s : State) : (modCtx chi f s).regs = s.regs := rfl
@[simp] theorem modCtx_out (chi : Nat) (f : SpecCtx → SpecCtx) (s : State) : (modCtx chi f s).out = s.out := rfl
@[simp] theorem modCtx_pending (chi : Nat) (f : SpecCtx → SpecCtx) (s : State) : (modCtx chi f s).pending = s.pending := rfl
@[simp] theorem modCtx_fresh (chi : Nat) (f : SpecCtx → SpecCtx) (s : State) : (modCtx chi f s).fresh = s.fresh := rfl

/-! ### modTen -/

@[simp] theorem modTen_ten (f : TenUnit → TenUnit) (s : State) : (modTen f s).ten = f s.ten := rfl
@[simp] theorem modTen_time (f : TenUnit → TenUnit) (s : State) : (modTen f s).time = s.time := rfl
@[simp] theorem modTen_otp (f : TenUnit → TenUnit) (s : State) : (modTen f s).otp = s.otp := rfl
@[simp] theorem modTen_boot (f : TenUnit → TenUnit) (s : State) : (modTen f s).boot = s.boot := rfl
@[simp] theorem modTen_line (f : TenUnit → TenUnit) (s : State) : (modTen f s).line = s.line := rfl
@[simp] theorem modTen_lane (f : TenUnit → TenUnit) (s : State) : (modTen f s).lane = s.lane := rfl
@[simp] theorem modTen_loom (f : TenUnit → TenUnit) (s : State) : (modTen f s).loom = s.loom := rfl
@[simp] theorem modTen_cal (f : TenUnit → TenUnit) (s : State) : (modTen f s).cal = s.cal := rfl
@[simp] theorem modTen_map (f : TenUnit → TenUnit) (s : State) : (modTen f s).map = s.map := rfl
@[simp] theorem modTen_bal (f : TenUnit → TenUnit) (s : State) : (modTen f s).bal = s.bal := rfl
@[simp] theorem modTen_acc (f : TenUnit → TenUnit) (s : State) : (modTen f s).acc = s.acc := rfl
@[simp] theorem modTen_safe (f : TenUnit → TenUnit) (s : State) : (modTen f s).safe = s.safe := rfl
@[simp] theorem modTen_chg (f : TenUnit → TenUnit) (s : State) : (modTen f s).chg = s.chg := rfl
@[simp] theorem modTen_est (f : TenUnit → TenUnit) (s : State) : (modTen f s).est = s.est := rfl
@[simp] theorem modTen_spec (f : TenUnit → TenUnit) (s : State) : (modTen f s).spec = s.spec := rfl
@[simp] theorem modTen_therm (f : TenUnit → TenUnit) (s : State) : (modTen f s).therm = s.therm := rfl
@[simp] theorem modTen_wear (f : TenUnit → TenUnit) (s : State) : (modTen f s).wear = s.wear := rfl
@[simp] theorem modTen_trace (f : TenUnit → TenUnit) (s : State) : (modTen f s).trace = s.trace := rfl
@[simp] theorem modTen_nvm (f : TenUnit → TenUnit) (s : State) : (modTen f s).nvm = s.nvm := rfl
@[simp] theorem modTen_pair (f : TenUnit → TenUnit) (s : State) : (modTen f s).pair = s.pair := rfl
@[simp] theorem modTen_cmd (f : TenUnit → TenUnit) (s : State) : (modTen f s).cmd = s.cmd := rfl
@[simp] theorem modTen_regs (f : TenUnit → TenUnit) (s : State) : (modTen f s).regs = s.regs := rfl
@[simp] theorem modTen_out (f : TenUnit → TenUnit) (s : State) : (modTen f s).out = s.out := rfl
@[simp] theorem modTen_pending (f : TenUnit → TenUnit) (s : State) : (modTen f s).pending = s.pending := rfl
@[simp] theorem modTen_fresh (f : TenUnit → TenUnit) (s : State) : (modTen f s).fresh = s.fresh := rfl

/-! ### modTenant -/

@[simp] theorem modTenant_time (t : Nat) (f : Tenant → Tenant) (s : State) : (modTenant t f s).time = s.time := rfl
@[simp] theorem modTenant_otp (t : Nat) (f : Tenant → Tenant) (s : State) : (modTenant t f s).otp = s.otp := rfl
@[simp] theorem modTenant_boot (t : Nat) (f : Tenant → Tenant) (s : State) : (modTenant t f s).boot = s.boot := rfl
@[simp] theorem modTenant_line (t : Nat) (f : Tenant → Tenant) (s : State) : (modTenant t f s).line = s.line := rfl
@[simp] theorem modTenant_lane (t : Nat) (f : Tenant → Tenant) (s : State) : (modTenant t f s).lane = s.lane := rfl
@[simp] theorem modTenant_loom (t : Nat) (f : Tenant → Tenant) (s : State) : (modTenant t f s).loom = s.loom := rfl
@[simp] theorem modTenant_cal (t : Nat) (f : Tenant → Tenant) (s : State) : (modTenant t f s).cal = s.cal := rfl
@[simp] theorem modTenant_map (t : Nat) (f : Tenant → Tenant) (s : State) : (modTenant t f s).map = s.map := rfl
@[simp] theorem modTenant_bal (t : Nat) (f : Tenant → Tenant) (s : State) : (modTenant t f s).bal = s.bal := rfl
@[simp] theorem modTenant_acc (t : Nat) (f : Tenant → Tenant) (s : State) : (modTenant t f s).acc = s.acc := rfl
@[simp] theorem modTenant_safe (t : Nat) (f : Tenant → Tenant) (s : State) : (modTenant t f s).safe = s.safe := rfl
@[simp] theorem modTenant_chg (t : Nat) (f : Tenant → Tenant) (s : State) : (modTenant t f s).chg = s.chg := rfl
@[simp] theorem modTenant_est (t : Nat) (f : Tenant → Tenant) (s : State) : (modTenant t f s).est = s.est := rfl
@[simp] theorem modTenant_spec (t : Nat) (f : Tenant → Tenant) (s : State) : (modTenant t f s).spec = s.spec := rfl
@[simp] theorem modTenant_therm (t : Nat) (f : Tenant → Tenant) (s : State) : (modTenant t f s).therm = s.therm := rfl
@[simp] theorem modTenant_wear (t : Nat) (f : Tenant → Tenant) (s : State) : (modTenant t f s).wear = s.wear := rfl
@[simp] theorem modTenant_trace (t : Nat) (f : Tenant → Tenant) (s : State) : (modTenant t f s).trace = s.trace := rfl
@[simp] theorem modTenant_nvm (t : Nat) (f : Tenant → Tenant) (s : State) : (modTenant t f s).nvm = s.nvm := rfl
@[simp] theorem modTenant_pair (t : Nat) (f : Tenant → Tenant) (s : State) : (modTenant t f s).pair = s.pair := rfl
@[simp] theorem modTenant_cmd (t : Nat) (f : Tenant → Tenant) (s : State) : (modTenant t f s).cmd = s.cmd := rfl
@[simp] theorem modTenant_regs (t : Nat) (f : Tenant → Tenant) (s : State) : (modTenant t f s).regs = s.regs := rfl
@[simp] theorem modTenant_out (t : Nat) (f : Tenant → Tenant) (s : State) : (modTenant t f s).out = s.out := rfl
@[simp] theorem modTenant_pending (t : Nat) (f : Tenant → Tenant) (s : State) : (modTenant t f s).pending = s.pending := rfl
@[simp] theorem modTenant_fresh (t : Nat) (f : Tenant → Tenant) (s : State) : (modTenant t f s).fresh = s.fresh := rfl

/-! ### modTherm -/

@[simp] theorem modTherm_therm (f : ThermUnit → ThermUnit) (s : State) : (modTherm f s).therm = f s.therm := rfl
@[simp] theorem modTherm_time (f : ThermUnit → ThermUnit) (s : State) : (modTherm f s).time = s.time := rfl
@[simp] theorem modTherm_otp (f : ThermUnit → ThermUnit) (s : State) : (modTherm f s).otp = s.otp := rfl
@[simp] theorem modTherm_boot (f : ThermUnit → ThermUnit) (s : State) : (modTherm f s).boot = s.boot := rfl
@[simp] theorem modTherm_line (f : ThermUnit → ThermUnit) (s : State) : (modTherm f s).line = s.line := rfl
@[simp] theorem modTherm_lane (f : ThermUnit → ThermUnit) (s : State) : (modTherm f s).lane = s.lane := rfl
@[simp] theorem modTherm_loom (f : ThermUnit → ThermUnit) (s : State) : (modTherm f s).loom = s.loom := rfl
@[simp] theorem modTherm_cal (f : ThermUnit → ThermUnit) (s : State) : (modTherm f s).cal = s.cal := rfl
@[simp] theorem modTherm_map (f : ThermUnit → ThermUnit) (s : State) : (modTherm f s).map = s.map := rfl
@[simp] theorem modTherm_bal (f : ThermUnit → ThermUnit) (s : State) : (modTherm f s).bal = s.bal := rfl
@[simp] theorem modTherm_acc (f : ThermUnit → ThermUnit) (s : State) : (modTherm f s).acc = s.acc := rfl
@[simp] theorem modTherm_safe (f : ThermUnit → ThermUnit) (s : State) : (modTherm f s).safe = s.safe := rfl
@[simp] theorem modTherm_chg (f : ThermUnit → ThermUnit) (s : State) : (modTherm f s).chg = s.chg := rfl
@[simp] theorem modTherm_est (f : ThermUnit → ThermUnit) (s : State) : (modTherm f s).est = s.est := rfl
@[simp] theorem modTherm_spec (f : ThermUnit → ThermUnit) (s : State) : (modTherm f s).spec = s.spec := rfl
@[simp] theorem modTherm_wear (f : ThermUnit → ThermUnit) (s : State) : (modTherm f s).wear = s.wear := rfl
@[simp] theorem modTherm_trace (f : ThermUnit → ThermUnit) (s : State) : (modTherm f s).trace = s.trace := rfl
@[simp] theorem modTherm_nvm (f : ThermUnit → ThermUnit) (s : State) : (modTherm f s).nvm = s.nvm := rfl
@[simp] theorem modTherm_pair (f : ThermUnit → ThermUnit) (s : State) : (modTherm f s).pair = s.pair := rfl
@[simp] theorem modTherm_ten (f : ThermUnit → ThermUnit) (s : State) : (modTherm f s).ten = s.ten := rfl
@[simp] theorem modTherm_cmd (f : ThermUnit → ThermUnit) (s : State) : (modTherm f s).cmd = s.cmd := rfl
@[simp] theorem modTherm_regs (f : ThermUnit → ThermUnit) (s : State) : (modTherm f s).regs = s.regs := rfl
@[simp] theorem modTherm_out (f : ThermUnit → ThermUnit) (s : State) : (modTherm f s).out = s.out := rfl
@[simp] theorem modTherm_pending (f : ThermUnit → ThermUnit) (s : State) : (modTherm f s).pending = s.pending := rfl
@[simp] theorem modTherm_fresh (f : ThermUnit → ThermUnit) (s : State) : (modTherm f s).fresh = s.fresh := rfl

/-! ### putRun -/

@[simp] theorem putRun_time (k : Nat) (r : CalRun) (s : State) : (putRun k r s).time = s.time := rfl
@[simp] theorem putRun_otp (k : Nat) (r : CalRun) (s : State) : (putRun k r s).otp = s.otp := rfl
@[simp] theorem putRun_boot (k : Nat) (r : CalRun) (s : State) : (putRun k r s).boot = s.boot := rfl
@[simp] theorem putRun_line (k : Nat) (r : CalRun) (s : State) : (putRun k r s).line = s.line := rfl
@[simp] theorem putRun_lane (k : Nat) (r : CalRun) (s : State) : (putRun k r s).lane = s.lane := rfl
@[simp] theorem putRun_loom (k : Nat) (r : CalRun) (s : State) : (putRun k r s).loom = s.loom := rfl
@[simp] theorem putRun_map (k : Nat) (r : CalRun) (s : State) : (putRun k r s).map = s.map := rfl
@[simp] theorem putRun_bal (k : Nat) (r : CalRun) (s : State) : (putRun k r s).bal = s.bal := rfl
@[simp] theorem putRun_acc (k : Nat) (r : CalRun) (s : State) : (putRun k r s).acc = s.acc := rfl
@[simp] theorem putRun_safe (k : Nat) (r : CalRun) (s : State) : (putRun k r s).safe = s.safe := rfl
@[simp] theorem putRun_chg (k : Nat) (r : CalRun) (s : State) : (putRun k r s).chg = s.chg := rfl
@[simp] theorem putRun_est (k : Nat) (r : CalRun) (s : State) : (putRun k r s).est = s.est := rfl
@[simp] theorem putRun_spec (k : Nat) (r : CalRun) (s : State) : (putRun k r s).spec = s.spec := rfl
@[simp] theorem putRun_therm (k : Nat) (r : CalRun) (s : State) : (putRun k r s).therm = s.therm := rfl
@[simp] theorem putRun_wear (k : Nat) (r : CalRun) (s : State) : (putRun k r s).wear = s.wear := rfl
@[simp] theorem putRun_trace (k : Nat) (r : CalRun) (s : State) : (putRun k r s).trace = s.trace := rfl
@[simp] theorem putRun_nvm (k : Nat) (r : CalRun) (s : State) : (putRun k r s).nvm = s.nvm := rfl
@[simp] theorem putRun_pair (k : Nat) (r : CalRun) (s : State) : (putRun k r s).pair = s.pair := rfl
@[simp] theorem putRun_ten (k : Nat) (r : CalRun) (s : State) : (putRun k r s).ten = s.ten := rfl
@[simp] theorem putRun_cmd (k : Nat) (r : CalRun) (s : State) : (putRun k r s).cmd = s.cmd := rfl
@[simp] theorem putRun_regs (k : Nat) (r : CalRun) (s : State) : (putRun k r s).regs = s.regs := rfl
@[simp] theorem putRun_out (k : Nat) (r : CalRun) (s : State) : (putRun k r s).out = s.out := rfl
@[simp] theorem putRun_pending (k : Nat) (r : CalRun) (s : State) : (putRun k r s).pending = s.pending := rfl
@[simp] theorem putRun_fresh (k : Nat) (r : CalRun) (s : State) : (putRun k r s).fresh = s.fresh := rfl

/-! ### putLaneRun -/

@[simp] theorem putLaneRun_time (l : Nat) (r : LaneRun) (s : State) : (putLaneRun l r s).time = s.time := rfl
@[simp] theorem putLaneRun_otp (l : Nat) (r : LaneRun) (s : State) : (putLaneRun l r s).otp = s.otp := rfl
@[simp] theorem putLaneRun_boot (l : Nat) (r : LaneRun) (s : State) : (putLaneRun l r s).boot = s.boot := rfl
@[simp] theorem putLaneRun_line (l : Nat) (r : LaneRun) (s : State) : (putLaneRun l r s).line = s.line := rfl
@[simp] theorem putLaneRun_lane (l : Nat) (r : LaneRun) (s : State) : (putLaneRun l r s).lane = s.lane := rfl
@[simp] theorem putLaneRun_loom (l : Nat) (r : LaneRun) (s : State) : (putLaneRun l r s).loom = s.loom := rfl
@[simp] theorem putLaneRun_map (l : Nat) (r : LaneRun) (s : State) : (putLaneRun l r s).map = s.map := rfl
@[simp] theorem putLaneRun_bal (l : Nat) (r : LaneRun) (s : State) : (putLaneRun l r s).bal = s.bal := rfl
@[simp] theorem putLaneRun_acc (l : Nat) (r : LaneRun) (s : State) : (putLaneRun l r s).acc = s.acc := rfl
@[simp] theorem putLaneRun_safe (l : Nat) (r : LaneRun) (s : State) : (putLaneRun l r s).safe = s.safe := rfl
@[simp] theorem putLaneRun_chg (l : Nat) (r : LaneRun) (s : State) : (putLaneRun l r s).chg = s.chg := rfl
@[simp] theorem putLaneRun_est (l : Nat) (r : LaneRun) (s : State) : (putLaneRun l r s).est = s.est := rfl
@[simp] theorem putLaneRun_spec (l : Nat) (r : LaneRun) (s : State) : (putLaneRun l r s).spec = s.spec := rfl
@[simp] theorem putLaneRun_therm (l : Nat) (r : LaneRun) (s : State) : (putLaneRun l r s).therm = s.therm := rfl
@[simp] theorem putLaneRun_wear (l : Nat) (r : LaneRun) (s : State) : (putLaneRun l r s).wear = s.wear := rfl
@[simp] theorem putLaneRun_trace (l : Nat) (r : LaneRun) (s : State) : (putLaneRun l r s).trace = s.trace := rfl
@[simp] theorem putLaneRun_nvm (l : Nat) (r : LaneRun) (s : State) : (putLaneRun l r s).nvm = s.nvm := rfl
@[simp] theorem putLaneRun_pair (l : Nat) (r : LaneRun) (s : State) : (putLaneRun l r s).pair = s.pair := rfl
@[simp] theorem putLaneRun_ten (l : Nat) (r : LaneRun) (s : State) : (putLaneRun l r s).ten = s.ten := rfl
@[simp] theorem putLaneRun_cmd (l : Nat) (r : LaneRun) (s : State) : (putLaneRun l r s).cmd = s.cmd := rfl
@[simp] theorem putLaneRun_regs (l : Nat) (r : LaneRun) (s : State) : (putLaneRun l r s).regs = s.regs := rfl
@[simp] theorem putLaneRun_out (l : Nat) (r : LaneRun) (s : State) : (putLaneRun l r s).out = s.out := rfl
@[simp] theorem putLaneRun_pending (l : Nat) (r : LaneRun) (s : State) : (putLaneRun l r s).pending = s.pending := rfl
@[simp] theorem putLaneRun_fresh (l : Nat) (r : LaneRun) (s : State) : (putLaneRun l r s).fresh = s.fresh := rfl

/-! ### putCell -/

@[simp] theorem putCell_time (chi : Nat) (c : Cell) (s : State) : (putCell chi c s).time = s.time := rfl
@[simp] theorem putCell_otp (chi : Nat) (c : Cell) (s : State) : (putCell chi c s).otp = s.otp := rfl
@[simp] theorem putCell_boot (chi : Nat) (c : Cell) (s : State) : (putCell chi c s).boot = s.boot := rfl
@[simp] theorem putCell_line (chi : Nat) (c : Cell) (s : State) : (putCell chi c s).line = s.line := rfl
@[simp] theorem putCell_lane (chi : Nat) (c : Cell) (s : State) : (putCell chi c s).lane = s.lane := rfl
@[simp] theorem putCell_loom (chi : Nat) (c : Cell) (s : State) : (putCell chi c s).loom = s.loom := rfl
@[simp] theorem putCell_cal (chi : Nat) (c : Cell) (s : State) : (putCell chi c s).cal = s.cal := rfl
@[simp] theorem putCell_map (chi : Nat) (c : Cell) (s : State) : (putCell chi c s).map = s.map := rfl
@[simp] theorem putCell_bal (chi : Nat) (c : Cell) (s : State) : (putCell chi c s).bal = s.bal := rfl
@[simp] theorem putCell_acc (chi : Nat) (c : Cell) (s : State) : (putCell chi c s).acc = s.acc := rfl
@[simp] theorem putCell_safe (chi : Nat) (c : Cell) (s : State) : (putCell chi c s).safe = s.safe := rfl
@[simp] theorem putCell_chg (chi : Nat) (c : Cell) (s : State) : (putCell chi c s).chg = s.chg := rfl
@[simp] theorem putCell_spec (chi : Nat) (c : Cell) (s : State) : (putCell chi c s).spec = s.spec := rfl
@[simp] theorem putCell_therm (chi : Nat) (c : Cell) (s : State) : (putCell chi c s).therm = s.therm := rfl
@[simp] theorem putCell_wear (chi : Nat) (c : Cell) (s : State) : (putCell chi c s).wear = s.wear := rfl
@[simp] theorem putCell_trace (chi : Nat) (c : Cell) (s : State) : (putCell chi c s).trace = s.trace := rfl
@[simp] theorem putCell_nvm (chi : Nat) (c : Cell) (s : State) : (putCell chi c s).nvm = s.nvm := rfl
@[simp] theorem putCell_pair (chi : Nat) (c : Cell) (s : State) : (putCell chi c s).pair = s.pair := rfl
@[simp] theorem putCell_ten (chi : Nat) (c : Cell) (s : State) : (putCell chi c s).ten = s.ten := rfl
@[simp] theorem putCell_cmd (chi : Nat) (c : Cell) (s : State) : (putCell chi c s).cmd = s.cmd := rfl
@[simp] theorem putCell_regs (chi : Nat) (c : Cell) (s : State) : (putCell chi c s).regs = s.regs := rfl
@[simp] theorem putCell_out (chi : Nat) (c : Cell) (s : State) : (putCell chi c s).out = s.out := rfl
@[simp] theorem putCell_pending (chi : Nat) (c : Cell) (s : State) : (putCell chi c s).pending = s.pending := rfl
@[simp] theorem putCell_fresh (chi : Nat) (c : Cell) (s : State) : (putCell chi c s).fresh = s.fresh := rfl

end Sys2Proof.Machine
end

