-- ==== Sys2Proof/Laws/Tables.lean ====
section
/-! SUPPORT. Tables and loops: reading what was stored, and what a loop over elements keeps. -/

namespace Sys2Proof.Machine

/-! ### Reading after storing -/

theorem tget_tset_same {α : Type} (t : Tbl α) (k : Nat) (v : α) : tget (tset t k v) k = some v := by
  induction t with
  | nil => simp [tset, tget]
  | cons e r ih =>
    obtain ⟨k', v'⟩ := e
    unfold tset
    split
    · simp [tget]
    · split
      · simp [tget]
      · next h1 h2 => simp [tget, ih, Ne.symm h2]

theorem tget_tset_other {α : Type} (t : Tbl α) (k j : Nat) (v : α) (h : j ≠ k) : tget (tset t k v) j = tget t j := by
  induction t with
  | nil => simp [tset, tget, Ne.symm h]
  | cons e r ih =>
    obtain ⟨k', v'⟩ := e
    unfold tset
    split
    · simp [tget, Ne.symm h]
    · split
      · next h1 h2 => subst h2; simp [tget, Ne.symm h]
      · simp only [tget, ih]

theorem tgetD_tset_same {α : Type} (t : Tbl α) (k : Nat) (v d : α) : tgetD (tset t k v) k d = v := by
  simp [tgetD, tget_tset_same]

theorem tgetD_tset_other {α : Type} (t : Tbl α) (k j : Nat) (v d : α) (h : j ≠ k) : tgetD (tset t k v) j d = tgetD t j d := by
  simp [tgetD, tget_tset_other t k j v h]

theorem tgetD_tmod_same {α : Type} (t : Tbl α) (k : Nat) (d : α) (f : α → α) : tgetD (tmod t k d f) k d = f (tgetD t k d) :=
  tgetD_tset_same ..

theorem tgetD_tmod_other {α : Type} (t : Tbl α) (k j : Nat) (d e : α) (f : α → α) (h : j ≠ k) : tgetD (tmod t k d f) j e = tgetD t j e :=
  tgetD_tset_other _ _ _ _ _ h

theorem tget_tmod_other {α : Type} (t : Tbl α) (k j : Nat) (d : α) (f : α → α) (h : j ≠ k) : tget (tmod t k d f) j = tget t j :=
  tget_tset_other _ _ _ _ h

/-- A removed entry is no longer there. -/
theorem tget_tdel_same {α : Type} (t : Tbl α) (k : Nat) : tget (tdel t k) k = none := by
  induction t with
  | nil => rfl
  | cons e r ih =>
    obtain ⟨k', v'⟩ := e
    unfold tdel at ih ⊢
    by_cases h : k' = k
    · simp [h, ih]
    · simp [h, tget, ih]

theorem tget_tdel_other {α : Type} (t : Tbl α) (k j : Nat) (h : j ≠ k) : tget (tdel t k) j = tget t j := by
  induction t with
  | nil => rfl
  | cons e r ih =>
    obtain ⟨k', v'⟩ := e
    unfold tdel at ih ⊢
    by_cases hk : k' = k
    · subst hk; simp [tget, ih, Ne.symm h]
    · simp [hk, tget, ih]

theorem tget_tupd_other {α : Type} (t : Tbl α) (k j : Nat) (f : α → α) (h : j ≠ k) : tget (tupd t k f) j = tget t j := by
  unfold tupd
  split
  · exact tget_tset_other _ _ _ _ h
  · rfl

/-! ### Loops -/

/-- What every round of a loop keeps, the loop keeps. -/
theorem forEach_keeps {α : Type} (P : State → Prop) (l : List α) (s : State) (f : α → State → State)
    (h : ∀ a t, P t → P (f a t)) (hs : P s) : P (forEach l s f) := by
  induction l generalizing s with
  | nil => exact hs
  | cons a r ih => exact ih (f a s) (h a s hs)

theorem forEach_nil {α : Type} (s : State) (f : α → State → State) : forEach [] s f = s := rfl
theorem forEach_cons {α : Type} (a : α) (l : List α) (s : State) (f : α → State → State) : forEach (a :: l) s f = forEach l (f a s) f := rfl

end Sys2Proof.Machine
end

