-- ==== Sys2Proof/Tests/States.lean ====
section
/-! SUPPORT. Small states and packets that the tests and the witnesses share, and the checks of a packet as Booleans. -/

namespace Sys2Proof.Tests

open Sys2Proof.Machine

/-- The state of a `next` outcome. -/
def nx (o : Host.Outcome State Fault Refusal) : State := match o with | .next t => t | _ => State.reset

/-- Acceptance of a packet, as a Boolean. -/
def acceptedB (k : Checks) (r : Req) (s : State) : Bool :=
  served r s && !r.twin && !r.back && decide (routeOf k.op r s = .here) && decide (firstFail k r s = none)

theorem accepted_of {k : Checks} {r : Req} {s : State} (h : acceptedB k r s = true) : Accepted k r s := by
  simp only [acceptedB, Bool.and_eq_true, Bool.not_eq_true', decide_eq_true_eq] at h
  exact ⟨h.1.1.1.1, h.1.1.1.2, h.1.1.2, h.1.2, h.2⟩

/-- Acceptance of a message of the pair channel, as a Boolean. -/
def heardB (m : PairMsg) (s : State) : Bool :=
  s.up && decide (s.pair.role ≠ .single) && s.pair.key && m.authentic && decide (m.mseq = (s.pair.lastSeq + 1) % 2 ^ 32)

theorem heard_of {m : PairMsg} {s : State} (h : heardB m s = true) : Heard m s := by
  simp only [heardB, Bool.and_eq_true, decide_eq_true_eq] at h
  exact ⟨h.1.1.1.1, h.1.1.1.2, h.1.1.2, h.1.2, h.2⟩

/-- Nothing is demanded of what an absent entry would hold. -/
theorem vac {α : Type} {o : Option α} {P : α → Prop} (h : o = none) : ∀ y, o = some y → P y := by
  intro y hy; rw [h] at hy; cases hy

/-- Status and number of completions, newest first. -/
def statuses (s : State) : List Nat := s.out.completions.map (·.status)

/-- A packet of the management function on ring 0. -/
def rq (w : List Word) (size : Nat := 0) (inb : List Word := []) : Req :=
  { fn := 256, ring := 0, w := w, cmdId := 9, size := size, buf := if size = 0 then 0 else 4096, inb := inb }

/-- A buffer with its check word, for a class bound to no polynomial. -/
def chk (l : List Word) : List Word := l ++ [checkWord 0 l]

def ref9 : CmdRef := { fn := 256, ring := 0, cmdId := 9 }

def rdy : UnitRec := { ustate := .ready }

/-- A running device: a bridged chain 0 with one cell tag, a local chain 0xFF00 with a cell tag and a drive tag, a lane, a tenant 5. -/
def sv : State := { State.reset with
  time := { spc := 1000 }
  boot := { phase := .running, fnReady := 0xFFFF, imageVerified := true, linkUp := true, nvmLoaded := true, hkRound := true
            units := [(256, rdy), (320, rdy), (512, rdy), (768, rdy), (1024, rdy), (1025, rdy), (1280, rdy), (2048, rdy), (2049, rdy)
              , (2080, rdy), (2560, rdy), (2816, rdy), (3072, rdy)] }
  safe := { island := .run, kill := false }
  ten := { tenants := [(5, {})] }
  line := {
    chains := [(0, { mode := .normal, started := true, tags := 1, occ := [0] }),
      (65280, { mode := .normal, started := true, tags := 2, occ := [0, 1], carrierA := true, carrierB := true, split := 1 })]
    posns := [(0, { kind := .ct12, known := true, coefOk := true, state := .released }),
      (522240, { kind := .ct12, known := true, coefOk := true, state := .released, serial := 77 }),
      (522241, { kind := .dt1, known := true, coefOk := true, state := .released, serial := 78 })] }
  lane := { lanes := [(0, { lstate := .run })] } }

/-- The device at a pick. -/
def svAt (spc : Nat) (s : State) : State := { s with time := { spc := spc } }

def modBoot (f : Boot → Boot) (s : State) : State := { s with boot := f s.boot }

def svPark : State := modChain 65280 (fun x => { x with mode := .parked }) sv
def svOff : State := modChain 65280 (fun x => { x with mode := .unpowered }) sv
def svWrap : State := modChain 65280 (fun x => { x with mode := .wrap, brk := some 1 }) sv
def svMsg : State := modPos 522240 (fun x => { x with msgs := [(768, { msg := 5, spc := 900 })] }) sv
def svProc : State := modChain 65280 (fun x => { x with proc := some { op := 0x201, p0 := 5, enumEnd := 900 } }) sv

/-- Two binding records in a section of sixteen words. -/
def bindR : List Word := [0x01000000, posWord 522240, posWord 522241] ++ List.replicate 13 0

/-- An open window, an apsis tracker, trip records of two functions. -/
def svA : State := { sv with
  acc := {
    windows := [(256 * 65536, { start := 200, length := 2, repeats := true, entries := [{ chi := 8355840 }]
                                queue := [{ n := 0, start := 200, stop := 600, records := [[1, 2, 3]] }] })]
    apsis := [(522240 * 16 * 8, { point := 0, count := 3 })] }
  loom := { sv.loom with
    trips := [{ fn := 256, trip := 1, chi := 0, t := 3, pre := 8, post := 8, wset := 1, gen := 0, entries := [[7, 8]] }
      , { fn := 5, trip := 1, chi := 0, t := 3, pre := 8, post := 8, wset := 1, gen := 0 }] } }

/-- A focus session, a spectral context, a finished calibration run with a candidate, a generation retained. -/
def svS : State := { sv with
  map := { bind := { drive := [(522240, 522241)], shunt := [(522241, { rsh := 100 })] } }
  spec := { focus := [(256 * 65536, { chi := 8355840, fc := 10000000, zoom := 0, running := false, n := 5, start := 0 })]
            ctxs := [(8355840, { skipped := 3 })] }
  cal := { chains := [(65280, { history := [{ commit := 0, flip := 0, entries := [(522240, [(0, {})])] }] })]
           runs := [(1024, { proc := 1, chain := 65280, posns := [522240], start := 500, finished := some 900
                             held := [{ chi := 8355840, k := 1073741825, o := 0 }], tags := [{ pos := 522240, status := 0 }] })] } }

/-- A cell profile. -/
def prof0 : Profile :=
  { cRated := 5000, tRow := [-20, 0, 20, 40], ocv := List.replicate 4 ((List.range 101).map (fun i => 30000 + 100 * i)) }

/-- Two cells of a bound position with contexts. -/
def svE : State := { sv with
  map := { bind := { drive := [(522240, 522241)], shunt := [(522241, { rsh := 100 })] } }
  est := { profiles := [(256 * 256 + 1, prof0)], bound := [(522240, 256 * 256 + 1)]
           cells := [(cellKey 522240 0, { cap := 5000, fresh := false }), (cellKey 522240 3, { swapSusp := true, cap := 5000 })]
           strs := [(522241, {})] } }

/-- The same with the management function's estimator hibernating. -/
def svH : State := modFn 256 (fun x => { x with hiber := true, since := 5 }) (svAt 101600 svE)

def svB : State := { svAt 3000 sv with
  bal := { cells := [(cellKey 522240 0, { mode := .manual, host := 5, ttlEnd := 100000, next := 3 })
    , (cellKey 522240 1, { mode := .manual, host := 5, ttlEnd := 3000, next := 3 })] } }

def svQ : State := svAt 1000 (modDiag 522240 (fun d => { d with quiet := some (500, .test 3 3 false .routine) }) sv)

/-- An estimator profile as its words. -/
def profWords : List Word := [0x00010000, 5000, 0, 0, 0x003C0000, 0x00002000, 0, 900000, 0x281400EC] ++ List.replicate 247 0

/-- An estimator image without contexts. -/
def image0 : List Word := chk ([0x4B544553, 0x01210100, 68, 0] ++ List.replicate 12 0)

def w0 : WSet :=
  { num := 3, vHi := 42000, vLo := 25000, tHi := 600, tLo := -100, iChg := 5, iDis := 5, outMask := 3, scopeC := 2, scopeW := 2 }

/-- An armed window set over the local chain, its inputs and outputs, and a password. -/
def svF : State := modSafe (fun u => { u with
    ioEn := 255, inputs := [{ scope := 1, mask := 5 }, { scope := 2, mask := 2, chains := [65280] }, {}, {}], sets := [(3, w0)]
    armed := [3], assign := [(522240, 3), (522241, 3)], password := some (List.replicate 8 0x41) })
  { sv with map := { bind := { drive := [(522240, 522241)], shunt := [(522241, { rsh := 100, inverted := false })] } } }

def svL : State := modSafe (fun u => { u with island := .lockout, kill := true, causes := [9] }) svF

def tr0 : Trip :=
  { id := 4, fn := 256, cause := 1, wset := 3, chi := 522240 * 16, spc := 0, since := 1, code := 0, scope := .all, mask := 0, lastBad := 0 }

/-- A latched trip, a stop and a latched input. -/
def svT : State := svAt 20000 (modSafe (fun u => { u with trips := [tr0], stops := [(0, { spc := 1 })], latched := 2 }) svF)

/-- A password command's buffer. -/
def pwb (op len : Nat) (body : List Word) : List Word :=
  chk ([wd (op * 2 ^ 24 + len), 8, 0x41414141, 0x41414141] ++ List.replicate 14 0 ++ body)

/-- A window set as its words. -/
def setW : List Word :=
  [0x01000003, 41000, 26000, 0x01F4FFDC, 5, 4, 1, 0x42000003, 0xA000000A, 0x00400040, 0, 0, 0, 0, 0, 0]

def ph0 : PhaseRec := { typ := 1, i := 1000, vCell := 42000, zones := List.replicate 6 (42000, 1000) }

def pg0 : Program :=
  { tz := [0, 100, 200, 300, 400], stopHi := 600, stopLo := -200, rampDn := 7, phases := [ph0], maxTime := 100, maxCharge := 1000 }

/-- A drive tag with a program in a supply group. -/
def svG : State := { sv with
  map := { bind := { drive := [(522240, 522241)], shunt := [(522241, { rsh := 100, inverted := false })] } }
  safe := { island := .run, kill := false
            sets := [(3, { num := 3, vHi := 42000, vLo := 25000, tHi := 600, tLo := -100, iChg := 5, iDis := 5 })]
            armed := [3], assign := [(522240, 3), (522241, 3)] }
  chg := { drives := [(522241, { prog := some pg0 })]
           groups := [(7, { members := [522241], sense := 522241, sag := 10, aMax := 100, aInit := 50, a := 50, state := .ramp, vref := 20
                            demand := 60 })] } }

/-- A charge program as its words. -/
def pgW : List Word :=
  [0x4B544348, 0x01010000, 0x00000064, 0x00C8012C, 0x01900001, 0x0258FF38, 1, 1, 0x01000000, 0, 1, 0, 0, 0, 0, 0]
    ++ ([0x10000000, 1000, 0, 0xA4100000, 0] ++ List.replicate 6 0xA41003E8 ++ List.replicate 13 0) ++ List.replicate 360 0

def svR : State := modDrive 522241 (fun x => { x with pst := .running, force := [(5, 77, true)] }) svG

/-- A block of a tag with its CRC. -/
def blk (typ inc pay : Nat) : BitVec 544 :=
  let h := typ * 2 ^ 524 + inc * 2 ^ 512 + pay
  BitVec.ofNat 544 (h * 2 ^ 16 + crcBits 16 0x1021 0xFFFF (bitsMsb 528 h))

/-- A local ring 0xFF01 of one cell tag. -/
def svHp : State :=
  let s := modChain 65281 (fun x => { x with mode := .normal, started := true, tags := 1, occ := [0] }) sv
  let u := { s with loom := { s.loom with depth := 1600 } }
  modPos 522248 (fun _ => { kind := .ct12, known := true, coefOk := true, state := .released, incLo := 5 }) u

def svHc (f : Chain → Chain) : State := modChain 65281 f svHp

/-- A chain frame on that ring. -/
def fr (b : List (BitVec 544)) (seen : Bool) : ChainFrame :=
  { chain := 65281, portB := false, locked := true, syncWord := if seen then 0xF6281D4B else 0, blocks := b }

/-- The same with a header whose pick is 1000, and its check word. -/
def frOk (b : List (BitVec 544)) : ChainFrame :=
  let f := { fr b true with header := BitVec.ofNat 128 (1000 * 2 ^ 96) }
  { f with fcrc := BitVec.ofNat 32 (frameCrc f) }

/-- The position of that ring with a message complete. -/
def svMs (m : BitVec 512) (f : Posn → Posn) : State :=
  modPos 522248 (fun x => { f x with up := { period := 1, bits := m, have_ := BitVec.allOnes 512 } }) svHp

/-- A selvedge message with its CRC. -/
def mg (typ rest : Nat) : BitVec 512 :=
  let h := (5 * 256 + typ) * 2 ^ 480 + rest
  BitVec.ofNat 512 (h * 2 ^ 16 + crcBits 16 0x1021 0xFFFF (bitsMsb 496 h))

/-- An identity message of a cell tag: serial 77, incarnation 9. -/
def mgId : BitVec 512 := mg 1 (77 * 2 ^ 416 + 2 ^ 408 + 9 * 2 ^ 368)

/-- A logical tile with spares, bolt entries, replay work and a re-analysis. -/
def svJ : State := { svAt 3000 sv with
  boot := { sv.boot with units := [(261, rdy), (320, rdy), (321, { ustate := .spare }), (322, { ustate := .spare })] }
  loom := { sv.loom with
    bolt := [(522240, [{ pick := 2990, bstate := .live, payload := 77 }, { pick := 2989, bstate := .live, payload := 77 }])]
    replay := [(64, [{ pos := 522240, pick := 2990, m := 372 }, { pos := 522240, pick := 2990, m := 373 }])]
    reanalyses := [{ fn := 256, trip := 3, chi := 522240 * 16, t := 2000, pre := 8, post := 8, wset := 1 }] } }

/-- Housekeeping values of round 5, the die temperature of round 6. -/
def svK : State := { svAt 74620 sv with
  therm := { values := (0, { round := 6, value := 106000 })
    :: ((List.range 24).map fun i => (i, ({ round := 5, value := 0 } : HkValue))).tail } }

def svK2 : State := { svK with
  therm := { values := (0, { round := 6, value := 120000 })
    :: ((List.range 24).map fun i => (i, ({ round := 5, value := 0 } : HkValue))).tail } }

/-- The same with the reading of the die out of range. -/
def svKu : State := { svK with therm := { values := [(0, { round := 6, value := 5, ovr := true })], band := 2, unk := 3 } }

def svD : State := svAt 8640000000 sv
def svW : State := { sv with nvm := { sv.nvm with slotA := some {}, slotB := some { safetyVersion := 7 } } }
def svStg : State := modBoot (fun b => { b with staging := some (true, ref9) }) sv
def svBi : State := setUnit 4 1 (fun _ => { ustate := .fenced, fenceSrc := 1 }) sv

/-- A tenant 5 of an enabled VF with a chain, events waiting, a vector and a window. -/
def svTn : State := { sv with
  ten := { tenants := [(5, { pools := { windows := 3 } })], vfEnable := true, numVfs := 8, owner := [(0, 5)]
           queues := [(5, { store := [{ source := 0x105, kind := 0, spc := 3 }, { source := 0x105, kind := 1, spc := 4 }], enable := true
                            base := 0 })]
           vecs := [(1280, { masked := false, want := true, addr := 7, data := 9, mdr := 3 })] }
  acc := { windows := [(5 * 65536 + 1, { start := 200, length := 5, repeats := true, entries := [{ chi := 3 }] })] }
  spec := { dither := [(0, {})] } }

/-- The companion and the primary of a pair. -/
def svM : State := { sv with
  pair := { role := .companion, pid := 2, link := true, beats := 9, lastBeat := 999, twin := { pid := 1, role := 1, epoch := 0 } } }
def svMp : State := { sv with
  pair := { role := .primary, pid := 1, link := true, beats := 9, lastBeat := 999, twin := { pid := 2, role := 2, epoch := 0 } } }

/-- A message of the pair channel, next in sequence. -/
def ms (b : List Word) : PairMsg := { mseq := 1, body := b }

/-- A heartbeat. -/
def hbt : PairMsg := { body := [1 + 2 * 65536, 7, 5000, 0, 0, 0, 3, 0] }

/-- A device that forms a pair, and what its twin says. -/
def svF1 : State := { sv with
  ten := {}
  pair := { forming := some { join := true, pid := 4, laneMap := [(0, 0)], deadline := 5, cmd := { fn := 256, ring := 0, cmdId := 5 } } }
  lane := { lanes := [(0, { lstate := .run, peerUid := 5 }), (0x100, { lstate := .run })] } }
def pv : PeerView := { variant := 1, inService := true, uids := [(0, 5)], laneMap := [] }

/-- A lane whose lease the twin holds. -/
def lsd : Lane := { lstate := .run, lease := BitVec.ofNat 128 (8 * 2 ^ 64 + 1 * 2 ^ 28 + 3 * 2 ^ 25) }

def svLs : State := { svMp with
  pair := { svMp.pair with link := false }, lane := { lanes := [(0, lsd), (1, { lstate := .run }), (2, lsd)] } }

def svU (n : Nat) : State := { svMp with pair := { svMp.pair with updating := some none, step := n } }

/-- The header of an image for every variant, well formed. -/
def head0 : List Word := [0x4B544657, 1, 0, 0, 7] ++ List.replicate 123 0

/-- Rings of a tenant and of the management function. -/
def svN : State := { sv with
  cmd := { rings := [(80, { enable := true }), (4096, { enable := true }), (4097, {})] }, ten := { tenants := [(5, {})] } }

def pk (fn : Nat) : Packet := { op := 0x0104, req := { fn := fn, ring := 0, cmdId := 3, w := [] } }

/-- A segment of a spectral context, and the same being worked, admitted and not. -/
def seg0 : SegmentWork := { id := 522240 * 16, bin := 63, seg := some 1 }
def inw0 : InWork := { work := seg0, tile := 0, at_ := 900, good := true, v := [{}], i := [{}], lastSpc := 900 }
def svSw (w : InWork) : State := { svS with spec := { svS.spec with work := [w] } }

/-- Chain 0xFF00 with a commit due, and one with a slewing coefficient. -/
def cm0 : Commit := { targets := [], flip := some 1000 }
def svCm : State := { sv with cal := { chains := [(65280, { queue := [cm0] })] } }
def sl0 : Slew := { k0 := 0, o0 := 0, k1 := 1, o1 := 0, b := 0 }
def svSl : State := { sv with cal := { tags := [(522240, { slews := [(3, sl0)] })] } }

/-- Three 60 s records of an entry with one mean. -/
def recs3 (x : Int) : List StdRec := [4, 3, 2].map fun j => { j := j, acc := { count := 1, sum := x }, committed := true }

/-- Steady records of a cell that has had no anchor for 72 h. -/
def svSy : State := { svAt 25920000000 svE with
  acc := { doneSixty := 5
           sixty := [(entryKey (cellKey 522240 0) 0, recs3 35000000), (thermKey svE 522240, recs3 20000), (currentKey 522241, recs3 0)] } }

/-- A change of the safety configuration that waits for its flip. -/
def cf0 : CfgPending := { change := .settings true, flip := 1000, cmd := ref9 }

/-- A covered channel that has been blind since reset. -/
def svBl : State := svAt 100000 svF

def dr1 : Inrush := { start := 1, stop := 1000, budget := 5 }
def dr2 : Setpoint := { current := 5, outEn := true, ttl := 1000, inrushPicks := 0, inrushBudget := 0 }
def dr4 : RelaxSet := { e := 1, phase := 0, seq := 0, stop := some 908 }

/-- A configuration message sent and not yet reported. -/
def cfg3 : CfgFlight := { cfgId := 2, body := 0, seq := some 3 }

/-- A lane frame's header with its CRC, and a sub-block of chain 0 of a lane. -/
def laneHeader (ltype pick : Nat) : BitVec 256 :=
  let h := BitVec.ofNat 256 (0x3C5A96E1 * 2 ^ 224 + pick * 2 ^ 192 + ltype * 2 ^ 88)
  BitVec.ofNat 256 (h.toNat + crc32c (crcSpan h 32 192))
def sub0 : SubBlock :=
  let l : List (BitVec 520) := List.replicate 8 0
  { place := 0, header := BitVec.ofNat 64 (crc32c (crcSpan (0 : BitVec 64) 0 32 ++ l.flatMap fieldBytes)), blocks := l }

/-- The same with slot 0 occupied. -/
def sub1 : SubBlock :=
  let l : List (BitVec 520) := List.replicate 8 0
  let h : BitVec 64 := BitVec.ofNat 64 (2 ^ 45)
  { place := 0, header := BitVec.ofNat 64 (h.toNat + crc32c (crcSpan h 0 32 ++ l.flatMap fieldBytes)), blocks := l }

/-- A bridge lane and a twin lane that run, with forwarding and relay in use. -/
def svTw : State := { sv with
  lane := { lanes := [(0, { lstate := .run }), (256, { lstate := .run })], uses := [(2, .relay 0)], forwarded := [(0, 0)] }
  loom := { sv.loom with depth := 1600 } }
def upF (h : BitVec 256) (l : List SubBlock) : UpFrame := { lane := 0, header := h, subs := l }

/-- The same, before the frame of pick 1000 on lane 0. -/
def svTwAt : State := modLane 0 (fun x => { x with lastPick := 999 }) svTw

/-- Lane 0 in a phase of its bring-up. -/
def svLane (x : Lane) : State := { sv with lane := { lanes := [(0, x)] } }

/-- Figures of a lane that meet the minima. -/
def figs0 : LaneFigures := { eyeW := [150, 150, 150], eyeH := [15, 15, 15] }

def ra0 : Reanalysis := { fn := 256, trip := 3, chi := 522240 * 16, t := 2000, pre := 8, post := 8, wset := 1, running := true }

/-- A pair message sent and not yet acknowledged; a command that waits for the twin. -/
def ua0 : Unacked := { msg := { kind := .demand, mseq := 1, body := [] }, sent := 900 }
def de0 : Deferred := { kind := .mirror 4, ref := ref9, accept := 77, status := 0 }

end Sys2Proof.Tests
end

