-- ==== Sys2Proof/Tests/Slice0.lean ====
section
/-! SUPPORT. Tests: an ill-formed command for every check of WellFormed, the worked examples of the spec, and single steps of small states. The
expected values are the spec's own or worked out by hand from its rules. -/

namespace Sys2Proof.Tests

open Sys2Proof.Machine
set_option Elab.async false

/-! ### Well-formed commands -/

theorem test_flaw_none : (Instr.devInfo (rq [])).wf = true := by decide
theorem test_flaw_function : (Instr.devInfo { rq [] with fn := 257 }).flaws = [.function] := by decide
theorem test_flaw_tenant : (Instr.functionLevelReset 256).flaws = [.tenant] := by decide
theorem test_flaw_ring : (Instr.devInfo { rq [] with ring := 16 }).flaws = [.ring] := by decide
theorem test_flaw_size : (Instr.devInfo { rq [] with size := 256 }).flaws = [.size] := by decide
theorem test_flaw_reserved : (Instr.devInfo { rq [] with resv := 64 }).flaws = [.size] := by decide
theorem test_flaw_buffer : (Instr.devInfo { rq [] with buf := 2 ^ 64 }).flaws = [.buffer] := by decide
theorem test_flaw_words : (Instr.devInfo (rq (List.replicate 12 0))).flaws = [.words] := by decide
theorem test_flaw_word : (Instr.yield { mseq := 2 ^ 32, body := [] }).flaws = [.word] := by decide
theorem test_flaw_opcode : (Instr.mirror (ms []) 0 (2 ^ 16) (rq [])).flaws = [.opcode] := by decide
theorem test_flaw_status : (Instr.longCommandFinish 0 0 0 (2 ^ 16)).flaws = [.status] := by decide
theorem test_flaw_chain : (Instr.calFlip (2 ^ 16)).flaws = [.chain] := by decide
theorem test_flaw_position : (Instr.positionLost (2 ^ 19)).flaws = [.position] := by decide
theorem test_flaw_channel : (Instr.calSlewStep (2 ^ 23)).flaws = [.channel] := by decide
theorem test_flaw_lane : (Instr.laneDegraded { lane := 0x108 }).flaws = [.lane] := by decide
theorem test_flaw_twin_lane : (Instr.twinForwardFrameRx 8 (upF 0 [])).flaws = [.twinLane] := by decide
theorem test_flaw_sub_block : (Instr.upLaneFrameRx (upF 0 [{ sub0 with place := 256 }])).flaws = [.subBlock] := by decide
theorem test_flaw_hop : (Instr.chainEnumPicks 0 [some 16] []).flaws = [.hop] := by decide
theorem test_flaw_port : (Instr.portOvercurrent { port := 32 }).flaws = [.port] := by decide
theorem test_flaw_line : (Instr.safeInRelease 8).flaws = [.line] := by decide
theorem test_flaw_mailbox : (Instr.mgmtMailboxWrite 0 8 0).flaws = [.mailbox] := by decide
theorem test_flaw_vector : (Instr.moderationExpiry 0 256).flaws = [.vector] := by decide
theorem test_flaw_cell : (Instr.balanceTtlExpiry 0 12).flaws = [.cell] := by decide
theorem test_flaw_housekeeping : (Instr.hkSlotValueFinal 24 0 false).flaws = [.housekeeping] := by decide
theorem test_flaw_unit : (Instr.bistUnitDone 256 0 0).flaws = [.unit] := by decide
theorem test_flaw_offset : (Instr.regPairLowRead 0 (2 ^ 24)).flaws = [.offset] := by decide
theorem test_flaw_index : (Instr.cqHeadDoorbell 0 0 (2 ^ 13)).flaws = [.index] := by decide

/-- The table gives no row any bits. -/
theorem test_no_words (nbits w : Nat) : decodeTableWord nbits w = none := rfl

/-! ### Worked examples of the spec -/

/-- Chapter 01, under R25: pick numbers on both sides of a wrap. -/
theorem test_extend_wrap : extend 5 0x2FFFFFF80 = some 0x300000005 ∧ extend 0xFFFFFF70 0x2FFFFFF80 = some 0x2FFFFFF70 := by decide

/-- Chapter 02, under R68: blocks 3 and 5 of a frame fail, and the next frame asks for both. -/
def ring6 : State := modChain 0xFF06 (fun x => { x with mode := .normal, started := true, tags := 8, occ := List.range 8 })
  { sv with
    loom := { sv.loom with depth := 1600 }
    line := { sv.line with
      posns := (List.range 8).map fun i =>
        (0xFF06 * 8 + i, ({ kind := .ct12, known := true, coefOk := true, state := .released, incLo := 5 } : Posn)) } }

/-- Chapter 04 of the chain word and chapter 13's example: positions and channels of 17.203. -/
theorem test_position_word : posWord ((17 * 256 + 203) * 8) = 0x11CB0000 ∧ chiWord 0x8E5FF = 0x11CBFE00 := by decide

/-- Chapter 05's example: record 87 of the harvest of 17.203. -/
theorem test_compact_record :
    compactRecord sv (0x8E5D7 * 8)
      { j := 7200, committed := true
        acc := { count := 498, sum := 16444707000, sumsq := 543028892203680800, nGap := 2, flags := 1, gen := some 339 } }
      = [0x11CBAE01, 0x000101F2, 0xD42E50B8, 0x00000003, 0x7E930420, 0x078939E6, 0, 0x01530002] := by decide +kernel

/-- Chapter 06's example: bin 31. -/
theorem test_bin31 : stageOf 31 = 7 ∧ segLen 31 = 38 ∧ segHop 31 = 19 ∧ memOf 60 31 = 308 := by decide +kernel

/-- Chapter 07's example: the slew of 17.203.5:07. -/
def slew7 (i : Nat) : Slew := { k0 := 1073580763, o0 := 35, k1 := 1073698874, o1 := -12, b := 720200000, i := i }
theorem test_slew_steps : [720200000, 720225400, 720251000].map (slew7 1).stepAt = [1, 128, 256] := by decide
theorem test_slew_values :
    [1, 128, 256].map (fun i => ((slew7 i).now, correct { k := (slew7 i).now.1, o := (slew7 i).now.2 } 0 33021500))
      = [((1073581224, 35), 33016526), ((1073639818, 12), 33018351), ((1073698874, -12), 33020191)] := by decide +kernel

/-- Chapter 07, under R225: from band B to band A c+1 steps first, and then c0. -/
theorem test_tap_order :
    nextTap [0, -4, 53, -7, 0] [0, -4, 54, -6, 0] = some 3 ∧ nextTap [0, -4, 53, -6, 0] [0, -4, 54, -6, 0] = some 2 := by decide

/-- Chapter 08, under R238: what a bleed of 100 mA through wires of 18 and 22 mΩ takes from three channels. -/
theorem test_compensation :
    (compensate (List.replicate 13 33000000) [0, 0, 0, 0, 0, 0, 0, 18000, 22000, 0, 0, 0, 0] (List.replicate 12 33000) (2 ^ 7) none
        (fun _ => false)).drop 6 = [32982000, 33040000, 32978000, 33000000, 33000000, 33000000, 33000000] := by decide +kernel

/-- Chapter 09's example: the rest anchor moves `EST` to 621,000 ppm; the variance is R267's formula (log 47). -/
theorem test_anchor :
    let c := foldAnchor 622000000000 6000 { est := 612000000000, rep := 612000000000, ur2 := 324000000 }
    c.est = 621000000000 ∧ c.ur2 = 32400000 := by decide +kernel
/-- The same example: at -138.889 ppm of charge `REP` falls at half the rate while `EST` lies above it. -/
theorem test_report :
    (report 0 1 .discharge (-138888888) { est := 620861111112, rep := 612000000000 }).rep = 611930555556 := by decide +kernel

/-- Chapter 10, under R289: 25 A at 2,000 µΩ. -/
theorem test_i_set :
    setOfCurrent { sv with map := { bind := { shunt := [(522241, { rsh := 2000, inverted := false })] } } } 522241 25000000 = 65536 := by
  decide +kernel

/-- Chapter 10, under R316: three steps of a ramp and the back-off. -/
def grp (a : Nat) (vref : Int) : Group :=
  { members := [522241], sense := 522241, sag := 10, aMax := 1000000, aInit := 50, a := a, state := .ramp, vref := vref, demand := 900000 }
/-- The bus voltage is 0 mV in the sample of this state. -/
def svBus : State := svAt 10000 { svG with chg := { svG.chg with bus := [(522241, [(20, 0)])] } }
theorem test_group_search :
    [(400000, 0), (404000, 0), (408040, 0), (412120, 100)].map (fun x => (searchStep svBus (grp x.1 x.2)).a)
      = [404000, 408040, 412120, 391514] := by decide +kernel

/-- Chapter 16's example: the throttle episode, one decision after another: steps and band. -/
def heat (s : State) (k : Nat) (t : Int) : State :=
  nx (exec .hkRoundDecision { svAt (10000 * k + 420) s with therm := { s.therm with values := [(0, { round := k, value := t })] } })
def heat0 : State := heat { sv with therm := { band := 2 } } 50000 98400
theorem test_heat_first : heat0.therm.steps = 0 ∧ heat0.therm.tstate = .warning ∧ heat0.therm.band = 2 := by decide +kernel
theorem test_heat_rises :
    let a := heat heat0 50030 105100
    let b := heat a 50050 105600
    (a.therm.steps, a.therm.band, b.therm.steps, (heat b 50070 104900).therm.steps) = (1, 3, 2, 2) := by decide +kernel
theorem test_heat_falls :
    let s := { sv with therm := { heat0.therm with steps := 2, band := 3, last := 50050, tstate := .throttle } }
    let a := heat (heat s 50080 101800) 50095 99800
    let b := heat a 50100 99500
    (a.therm.steps, a.therm.band, b.therm.steps, (heat b 50150 97200).therm.steps) = (2, 2, 1, 0) := by decide +kernel

/-- Chapter 17's example: unit states after a start at reduced capacity. -/
def svUnits : State := modBoot (fun b => { b with
    units := (List.range 68).map (fun u =>
        (256 + u, if u = 12 ∨ u = 66 then ({ ustate := .fenced } : UnitRec) else if u = 67 then { ustate := .spare } else rdy))
      ++ (List.range 128).map (fun u => (1024 + u, if u = 90 then ({ ustate := .fenced } : UnitRec) else rdy)) }) sv
theorem test_unit_words : [0x104, 0x120, 0x1EC].map (readinessReg svUnits) = [0x22242222, 0x00003422, 0x22222422] := by decide +kernel

/-! ### Check values of the polynomials that R42, R394 name, over the nine digits -/

def digits : List Nat := [0x31, 0x32, 0x33, 0x34, 0x35, 0x36, 0x37, 0x38, 0x39]
theorem test_crc32c : crc32c digits = 0xE3069283 := by decide +kernel
theorem test_crc32 : crc32 digits = 0xCBF43926 := by decide +kernel
theorem test_crc16 : crc16 digits = 0x29B1 := by decide +kernel
theorem test_crc8 : crc8 digits = 0xF4 := by decide +kernel

/-! ### Single steps -/

/-- R20: the SPC counts at a pick boundary. -/
theorem test_pick_counts : (nx (exec .pickBoundary sv)).time.spc = 1001 := by decide +kernel
/-- R386: a completion echoes `CMD_ID` and carries ring, status and the SPC of acceptance. -/
theorem test_completion :
    (nx (exec (.devNop (rq [])) sv)).out.completions.map (fun c => (c.fn, c.ring, c.cmdId, c.status, c.spc)) = [(256, 0, 9, 0, 1000)] := by
  decide +kernel
/-- R397, step 5 before step 6: a reserved word that is not 0 answers ST_BAD_PARAM. -/
theorem test_reserved : statuses (nx (exec (.chainEnum (rq [65280, 1])) sv)) = [ST_BAD_PARAM] := by decide +kernel
/-- R397, step 3: a tenant may not read the pair's state. -/
theorem test_privileged : statuses (nx (exec (.pairStatus { rq [] 10 with fn := 5 }) sv)) = [ST_PRIVILEGED] := by decide +kernel
/-- R365: a chain of another function. -/
theorem test_not_owner : statuses (nx (exec (.chainEnum { rq [65280] with fn := 5 }) sv)) = [ST_NOT_OWNER] := by decide +kernel
/-- R10: off words win: a killed device sends a drive tag `OUT_EN` 0. -/
theorem test_kill_off : safetyOff svL 522241 = true ∧ safetyOff svF 522241 = false := by decide +kernel
/-- R346: 99 ms opens no window, 100 ms opens one of 10 s. -/
theorem test_pulse :
    (nx (exec (.safeRstNPulse 99) svL)).safe.ackUntil = none ∧ (nx (exec (.safeRstNPulse 100) svL)).safe.ackUntil = some 1001000 := by
  decide +kernel
/-- R339: an input of scope 2 demands its chain off, and not another. -/
theorem test_input :
    let t := nx (exec (.safeInDemand 1 true false) svF)
    inputOff t 65280 = true ∧ inputOff t 5 = false := by decide +kernel
/-- R131: a tile fault moves logical tile 64 to the lowest spare, 65. -/
theorem test_tile_fault : physOf (nx (exec (.tileFault 64) svJ)) 64 = 65 := by decide +kernel
/-- R384: an index beyond the ring's size disables the pair of rings. -/
theorem test_ring_error :
    (ringAt (nx (exec (.sqTailDoorbell 5 0 17 []) svN)) 5 0).enable = false ∧ (ringAt (nx (exec (.sqTailDoorbell 5 0 17 []) svN)) 5 0).ringErr = true := by
  decide +kernel
/-- R501: the key and bit 0 ask for a warm reset; without the key nothing happens. -/
theorem test_warm_key :
    (nx (exec (.warmReqWrite 0x5A170001) svN)).boot.warmReq.isSome = true ∧ (nx (exec (.warmReqWrite 0x5A180001) svN)).boot.warmReq = none := by
  decide +kernel
/-- R494: a read of the low register holds the high part. -/
theorem test_latch : tget (nx (exec (.regPairLowRead 256 0x18) (svAt 0x300000005 sv))).regs.latch (256 * 2 ^ 24 + 0x18) = some 3 := by decide +kernel
/-- R381: a tenant's reset starts at the next boundary, with cause 1. -/
theorem test_flr :
    ((tget (nx (exec (.functionLevelReset 6) svTn)).ten.tenants 5).bind (·.reset)).map (fun x => (x.r, x.cause)) = some (1001, 1) := by
  decide +kernel
/-- R360: a grant takes effect at the first multiple of 200 at least 400 picks ahead. -/
theorem test_grant : (tget (nx (exec (.tenGrant (rq [5, 0, 0xFF00])) svTn)).ten.grants 65280).map (·.g) = some 1400 := by decide +kernel

/-! ### Forms of one command -/

/-- Every form of `EST.CONFIG` is accepted somewhere. -/
theorem witness_EstimatorCommands_config :
    [rq [2, posWord 522240, 1], rq [3, posWord 522241, 17, 0x00640014, 1], rq [4, posWord 522240, 0xABCDEF]
      , rq [5, chiWord (cellKey 522240 0), 0xABCDEF], rq [6, posWord 522240]].all (fun r => acceptedB (checksEstConfig r svE) r svE) = true
    ∧ (let s := { svE with est := { svE.est with bound := [] } }; acceptedB (checksEstConfig (rq [1, 1]) s) (rq [1, 1]) s) = true := by decide +kernel
set_option maxRecDepth 1000000 in
/-- The premises inside `FilesLive`, for a frame of the lane and a forwarded one. -/
theorem witness_LaneReception_files :
    [1, 3].all (fun t =>
      let f := upF (laneHeader t 1000) [sub1]
      let s := svTwAt
      let p := chainKey (placeLane s f.lane) sub1.place * 8
      headerOk f.header t && decide (extend (fieldOf f.header 32 32) s.time.spc = some 1000) && subOk sub1
        && decide (1000 = (laneOf s f.lane).lastPick + 1 ∧ (laneOf s f.lane).mode ≠ 1)
        && decide ((chainOf s (chainOfPos p)).mode = .normal ∧ (chainOf s (chainOfPos p)).occ = [0] ∧ fieldOf sub1.header 8 3 = 0)
        && decide ((List.range 8).filter (fun k => fieldOf sub1.header (18 - k) 1 == 1) = [0] ∧ sub1.blocks[0]? = some 0)
        && decide ((posOf s p).state ≠ .lost ∧ boltAt s p 999 = none) && inBolt s 999) = true := by decide +kernel
/-- Every form of `EST.LEARN`, and both of `EST.RESET`. -/
theorem witness_EstimatorCommands_learn :
    [rq [1, 0, posWord 522248], rq [2, 0, posWord 522248], rq [3, 0, posWord 522248], rq [4, 0, posWord 522248, 9, 8]].all
        (fun r => acceptedB (checksEstLearn r svE) r svE) = true
      ∧ [rq [0, posWord 522248, 0], rq [0, posWord 522248, 1, 9, 8]].all (fun r => acceptedB (checksEstReset r svE) r svE) = true := by decide +kernel
/-- The forms of `CHG.GROUP` that change a group. -/
theorem witness_SetpointAndGroupCommands_forms :
    [rq [0x107], rq [0x207, 0, 0, 0, 0, 20], rq [0x307]].all (fun r => acceptedB (checksChgGroup r svG) r svG) = true := by decide +kernel

set_option maxRecDepth 1000000 in
/-- A group made anew. -/
theorem witness_SetpointAndGroupCommands_make :
    let r := rq [4, posWord 522241, 10, 100, 50, 0, 1] 12 (chk [posWord 522241])
    let s := { svG with chg := { svG.chg with groups := [] } }
    acceptedB (checksChgGroup r s) r s = true := by decide +kernel

set_option maxRecDepth 1000000 in
/-- R62, R68's example: after a frame whose blocks 3 and 5 fail, the next frame asks for both. -/
theorem test_resend :
    (chainOf (nx (exec (.chainFrameRx
      { chain := 0xFF06, header := 0, cmds := 0, fcrc := 0
        blocks := (List.range 8).map fun i => if i = 3 ∨ i = 5 then 7 else blk 0 5 99 }) ring6)) 0xFF06).asked = [(1000, 3), (1000, 5)] := by
  decide +kernel

end Sys2Proof.Tests
end

