-- ==== Sys2Proof/Tests/Witness1.lean ====
section
/-! SUPPORT. Witnesses of the statements' premises: for each clause that has premises, a state and operands that meet all of them together. -/

namespace Sys2Proof.Tests

open Sys2Proof Sys2Proof.Machine
set_option Elab.async false
set_option linter.unusedVariables false

theorem witness_StepRunsFront_1 :
    ∃ (c : Instr) (l : List Instr) (s : State), s.pending = c :: l :=
  ⟨.testLogicReset, [], { State.reset with pending := [.testLogicReset] }, by decide +kernel⟩

theorem witness_StepRunsFront_2 :
    ∃ (s : State), s.pending = [] :=
  ⟨State.reset, by decide +kernel⟩

theorem witness_QueueKept_1 :
    ∃ (c : Instr) (s : State) (t : State), exec c s = .next t :=
  ⟨.testLogicReset, State.reset, State.reset, rfl⟩

theorem witness_SpcCounts_1 :
    ∃ (s : State), s.time.powered = true :=
  ⟨State.reset, by decide +kernel⟩

theorem witness_SpcCounts_2 :
    ∃ (c : Instr) (s : State) (t : State), exec c s = .next t ∧ c ≠ .pickBoundary ∧ c ≠ .vddAonApplied ∧ c ≠ .vddAonRemoved :=
  ⟨.testLogicReset, State.reset, State.reset, rfl, by simp, by simp, by simp⟩

theorem witness_KillLineInvariant_1 :
    ∃ (s : State) (t : State), KillHeld s ∧ step s = .next t :=
  ⟨{ State.reset with pending := [.testLogicReset] }, State.reset, ⟨fun _ => by decide +kernel, fun _ => by decide +kernel, fun _ => by decide +kernel⟩, rfl⟩

theorem witness_PowerAndLink_1 :
    ∃ (s : State), s.boot.phase = .coldHeld ∧ s.time.refclkOk = true :=
  ⟨State.reset, by decide +kernel⟩

theorem witness_PowerAndLink_2 :
    ∃ (s : State), s.boot.phase = .coldHeld ∧ s.time.refclkOk = false :=
  ⟨{ State.reset with time := { refclkOk := false } }, by decide +kernel⟩

theorem witness_PowerAndLink_3 :
    ∃ (s : State), s.time.powered = true ∧ s.boot.phase = .coldHeld ∧ s.boot.releaseWaits = true ∧ s.time.refclkOk = true ∧ s.time.heldOver = [] :=
  ⟨{ State.reset with time := { powered := true }, boot := { phase := .coldHeld, releaseWaits := true } }, by decide +kernel⟩

theorem witness_PowerAndLink_4 :
    ∃ (s : State), s.boot.phase ≠ .off :=
  ⟨sv, by decide +kernel⟩

theorem witness_PowerAndLink_5 :
    ∃ (s : State), s.boot.phase ≠ .off ∧ s.boot.phase ≠ .shutdown :=
  ⟨sv, by decide +kernel⟩

theorem witness_Resets_1 :
    ∃ (s : State), s.boot.phase = .running :=
  ⟨sv, by decide +kernel⟩

theorem witness_Resets_2 :
    ∃ (rail : Nat) (s : State), 3 ≤ rail ∧ rail ≤ 19 ∧ rail ≠ 9 ∧ s.boot.phase = .running :=
  ⟨19, sv, by decide +kernel⟩

theorem witness_Resets_3 :
    ∃ (x : Int) (s : State), s.boot.phase = .shutdown ∧ s.boot.heldCold = true ∧ s.therm.reading = some x ∧ x < 108000 :=
  ⟨107999, { modBoot (fun b => { b with phase := .shutdown, heldCold := true }) sv with therm := { reading := some 107999 } }, by decide +kernel⟩

theorem witness_Resets_4 :
    ∃ (bit : Nat) (s : State), s.boot.phase = .running ∧ s.boot.warmReq = some bit ∧ bit < 9 :=
  ⟨8, modBoot (fun b => { b with warmReq := some 8 }) sv, by decide +kernel⟩

theorem witness_StartAndTrial_1 :
    ∃ (s : State), s.boot.phase = .running ∧ s.boot.nvmLoaded = false :=
  ⟨modBoot (fun b => { b with nvmLoaded := false }) sv, by decide +kernel⟩

theorem witness_StartAndTrial_2 :
    ∃ (a : Bool) (b : Bool) (s : State) (slot : Bool), s.boot.phase = .running ∧ s.boot.imageVerified = false ∧ s.boot.romOnly = false ∧ fencedUnit s 12 0 = false ∧ chooseSlot s a b = some slot :=
  ⟨true, true, modBoot (fun b => { b with imageVerified := false }) sv, false, by decide +kernel⟩

theorem witness_StartAndTrial_3 :
    ∃ (a : Bool) (b : Bool) (s : State), s.boot.phase = .running ∧ s.boot.imageVerified = false ∧ s.boot.romOnly = false ∧ fencedUnit s 12 0 = false ∧ chooseSlot s a b = none :=
  ⟨false, false, modBoot (fun b => { b with imageVerified := false }) sv, by decide +kernel⟩

theorem witness_StartAndTrial_4 :
    ∃ (cls : Nat) (unit : Nat) (s : State), unitExists s.otp.variant cls unit = true ∧ s.boot.phase = .running ∧ ustate s cls unit = .testing ∧ ((∀ x ∈ s.boot.bistRuns, (x.1, x.2.1) ≠ (cls, unit))) ∧ awaitsVline s cls unit = false :=
  ⟨4, 0, setUnit 4 0 (fun _ => { ustate := .testing }) sv, by decide +kernel⟩

theorem witness_StartAndTrial_5 :
    ∃ (t0 : Nat) (s : State), s.boot.trial = some t0 ∧ s.boot.phase = .running ∧ s.boot.trialJudged = false ∧ t0 + 3000000 ≤ s.time.spc ∧ trialBits s &&& ~~~s.boot.fnReady = 0 :=
  ⟨0, svAt 3000000 (modBoot (fun b => { b with trial := some 0 }) sv), by decide +kernel⟩

theorem witness_StartAndTrial_6 :
    ∃ (t0 : Nat) (s : State), s.boot.trial = some t0 ∧ s.boot.phase = .running ∧ s.boot.trialJudged = false ∧ t0 + 3000000 ≤ s.time.spc ∧ trialBits s &&& ~~~s.boot.fnReady ≠ 0 :=
  ⟨0, svAt 3000000 (modBoot (fun b => { b with trial := some 0, fnReady := 0 }) sv), by decide +kernel⟩

theorem witness_StartAndTrial_7 :
    ∃ (t0 : Nat) (s : State), s.boot.trial = some t0 ∧ s.boot.phase = .running ∧ s.boot.trialJudged = true ∧ t0 + 63000000 ≤ s.time.spc :=
  ⟨0, svAt 63000000 (modBoot (fun b => { b with trial := some 0, trialJudged := true }) sv), by decide +kernel⟩

theorem witness_StartAndTrial_8 :
    ∃ (s : State), s.boot.phase = .running :=
  ⟨sv, by decide +kernel⟩

theorem witness_ReferenceAndScan_1 :
    ∃ (s : State), s.boot.phase ≠ .off ∧ s.time.refclkOk = true :=
  ⟨sv, by decide +kernel⟩

theorem witness_ReferenceAndScan_2 :
    ∃ (step : Nat) (s : State), step < 1024 ∧ s.boot.phase ≠ .off ∧ s.time.refclkOk = false :=
  ⟨1023, { sv with time := { spc := 1000, refclkOk := false } }, by decide +kernel⟩

theorem witness_ReferenceAndScan_3 :
    ∃ (s : State), s.boot.phase ≠ .off :=
  ⟨sv, by decide +kernel⟩

theorem witness_ReferenceAndScan_4 :
    ∃ (s : State), s.boot.phase ≠ .off :=
  ⟨sv, by decide +kernel⟩

theorem witness_ReferenceAndScan_5 :
    ∃ (s : State), s.boot.phase ≠ .off :=
  ⟨sv, by decide +kernel⟩

theorem witness_ReferenceAndScan_6 :
    ∃ (op : Nat) (s : State), s.boot.phase ≠ .off ∧ s.boot.zeroising = some op :=
  ⟨0, modBoot (fun b => { b with zeroising := some 0 }) sv, by decide +kernel⟩

theorem witness_DevAndCheckCommands_1 :
    ∃ (r : Req) (s : State), Accepted (checksDevInfo r s) r s :=
  ⟨rq [], sv, accepted_of (by decide +kernel)⟩

theorem witness_DevAndCheckCommands_2 :
    ∃ (r : Req) (s : State), Accepted (checksDevReady r s) r s :=
  ⟨rq [], sv, accepted_of (by decide +kernel)⟩

theorem witness_DevAndCheckCommands_3 :
    ∃ (r : Req) (s : State), Accepted (checksDevNop r s) r s :=
  ⟨rq [], sv, accepted_of (by decide +kernel)⟩

theorem witness_DevAndCheckCommands_4 :
    ∃ (r : Req) (s : State) (p : Ptm), Accepted (checksDevTime r s) r s ∧ s.time.ptm = some p :=
  ⟨rq [], { sv with time := { spc := 1000, ptm := some { host := 5, spc := 4, frac := 0 } } }, { host := 5, spc := 4, frac := 0 }, accepted_of (by decide +kernel), by decide +kernel⟩

theorem witness_DevAndCheckCommands_5 :
    ∃ (r : Req) (s : State), Accepted (checksDevTime r s) r s ∧ s.time.ptm = none :=
  ⟨rq [], sv, accepted_of (by decide +kernel), by decide +kernel⟩

theorem witness_DevAndCheckCommands_6 :
    ∃ (r : Req) (s : State), Accepted (checksDevCaps r s) r s :=
  ⟨rq [] 12, sv, accepted_of (by decide +kernel)⟩

theorem witness_DevAndCheckCommands_7 :
    ∃ (r : Req) (s : State), Accepted (checksChkBind r s) r s :=
  ⟨rq [3, 1], sv, accepted_of (by decide +kernel)⟩

theorem witness_DevAndCheckCommands_8 :
    ∃ (r : Req) (s : State), Accepted (checksChkStatus r s) r s :=
  ⟨rq [3], sv, accepted_of (by decide +kernel)⟩

theorem witness_DevAndCheckCommands_9 :
    ∃ (s : State), s.boot.phase = .running ∧ s.boot.linkUp = true :=
  ⟨sv, by decide +kernel⟩

set_option maxRecDepth 1000000 in
theorem witness_MapCommands_1 :
    ∃ (r : Req) (s : State), Accepted (checksMapBind r s) r s :=
  ⟨rq [1] 10 (chk bindR), sv, accepted_of (by decide +kernel)⟩

theorem witness_MapCommands_2 :
    ∃ (r : Req) (s : State), Accepted (checksMapCommit r s) r s ∧ bits (reqWord r 4) 0 0 = 0 :=
  ⟨rq [0, 0], sv, accepted_of (by decide +kernel), by decide +kernel⟩

theorem witness_MapCommands_3 :
    ∃ (r : Req) (s : State), Accepted (checksMapCommit r s) r s ∧ bits (reqWord r 4) 0 0 = 1 ∧ s.loom.depth ≤ (reqWord r 5).toNat :=
  ⟨rq [1, 1600], sv, accepted_of (by decide +kernel), by decide +kernel⟩

theorem witness_MapCommands_4 :
    ∃ (r : Req) (s : State), Accepted (checksMapCommit r s) r s ∧ bits (reqWord r 4) 0 0 = 1 ∧ (reqWord r 5).toNat < s.loom.depth :=
  ⟨rq [1, 800], { sv with loom := { sv.loom with depth := 1600 } }, accepted_of (by decide +kernel), by decide +kernel⟩

theorem witness_MapCommands_5 :
    ∃ (r : Req) (s : State), Accepted (checksMapRead r s) r s :=
  ⟨rq [posWord 522240] 12, sv, accepted_of (by decide +kernel)⟩

theorem witness_MapCommands_6 :
    ∃ (r : Req) (s : State), Accepted (checksMapRange r s) r s :=
  ⟨rq [0xFF00] 12, sv, accepted_of (by decide +kernel)⟩

theorem witness_ChainProcedures_1 :
    ∃ (r : Req) (s : State), Accepted (checksChainPower r s) r s ∧ bits (reqWord r 5) 0 0 = 1 :=
  ⟨rq [65280, 1], svOff, accepted_of (by decide +kernel), by decide +kernel⟩

theorem witness_ChainProcedures_2 :
    ∃ (r : Req) (s : State), Accepted (checksChainPower r s) r s ∧ bits (reqWord r 5) 0 0 = 0 ∧ powered (chainOf s (reqWord r 4).toNat) = false :=
  ⟨rq [65280, 0], svOff, accepted_of (by decide +kernel), by decide +kernel⟩

theorem witness_ChainProcedures_3 :
    ∃ (r : Req) (s : State), Accepted (checksChainPower r s) r s ∧ bits (reqWord r 5) 0 0 = 0 ∧ powered (chainOf s (reqWord r 4).toNat) = true :=
  ⟨rq [65280, 0], sv, accepted_of (by decide +kernel), by decide +kernel⟩

theorem witness_ChainProcedures_4 :
    ∃ (r : Req) (s : State), Accepted (checksChainEnum r s) r s :=
  ⟨rq [65280], sv, accepted_of (by decide +kernel)⟩

theorem witness_ChainProcedures_5 :
    ∃ (r : Req) (s : State), Accepted (checksChainWake r s) r s :=
  ⟨rq [65280], svPark, accepted_of (by decide +kernel)⟩

theorem witness_ChainProcedures_6 :
    ∃ (r : Req) (s : State), Accepted (checksChainPark r s) r s ∧ inProcedure (chainOf s (reqWord r 4).toNat) = false :=
  ⟨rq [65280], sv, accepted_of (by decide +kernel), by decide +kernel⟩

theorem witness_ChainProcedures_7 :
    ∃ (r : Req) (s : State), Accepted (checksChainPark r s) r s ∧ inProcedure (chainOf s (reqWord r 4).toNat) = true :=
  ⟨rq [65280], svProc, accepted_of (by decide +kernel), by decide +kernel⟩

theorem witness_ChainProcedures_8 :
    ∃ (r : Req) (s : State), Accepted (checksChainReset r s) r s ∧ bits (reqWord r 5) 0 0 = 1 :=
  ⟨rq [65280, 1], svWrap, accepted_of (by decide +kernel), by decide +kernel⟩

theorem witness_ChainProcedures_9 :
    ∃ (r : Req) (s : State), Accepted (checksChainReset r s) r s ∧ bits (reqWord r 5) 0 0 = 0 :=
  ⟨rq [65280, 0], sv, accepted_of (by decide +kernel), by decide +kernel⟩

theorem witness_ChainAndLaneCommands_1 :
    ∃ (r : Req) (s : State), Accepted (checksChainStatus r s) r s :=
  ⟨rq [65280] 12, sv, accepted_of (by decide +kernel)⟩

theorem witness_ChainAndLaneCommands_2 :
    ∃ (r : Req) (s : State), Accepted (checksChainSelvRead r s) r s ∧ bits (reqWord r 5) 16 16 = 0 :=
  ⟨rq [posWord 522240, 3] 12, svMsg, accepted_of (by decide +kernel), by decide +kernel⟩

theorem witness_ChainAndLaneCommands_3 :
    ∃ (r : Req) (s : State), Accepted (checksChainSelvRead r s) r s ∧ bits (reqWord r 5) 16 16 = 1 :=
  ⟨rq [posWord 522240, 0x10002] 12, svMsg, accepted_of (by decide +kernel), by decide +kernel⟩

theorem witness_ChainAndLaneCommands_4 :
    ∃ (r : Req) (s : State), Accepted (checksChainSelvWrite r s) r s :=
  ⟨rq [posWord 522240, 2, 1], sv, accepted_of (by decide +kernel)⟩

theorem witness_ChainAndLaneCommands_5 :
    ∃ (r : Req) (s : State), Accepted (checksLaneUp r s) r s :=
  ⟨rq [1, 0], sv, accepted_of (by decide +kernel)⟩

theorem witness_ChainAndLaneCommands_6 :
    ∃ (r : Req) (s : State), Accepted (checksLaneStatus r s) r s :=
  ⟨rq [0], sv, accepted_of (by decide +kernel)⟩

theorem witness_ChainAndLaneCommands_7 :
    ∃ (r : Req) (s : State), Accepted (checksLanePair r s) r s :=
  ⟨rq [1, 1], setUnit 4 2 (fun _ => rdy) (setUnit 4 3 (fun _ => rdy) sv), accepted_of (by decide +kernel)⟩

theorem witness_ChainAndLaneCommands_8 :
    ∃ (r : Req) (s : State), Accepted (checksLaneEye r s) r s :=
  ⟨rq [0] 12, sv, accepted_of (by decide +kernel)⟩

theorem witness_ChainAndLaneCommands_9 :
    ∃ (r : Req) (s : State), Accepted (checksBridgeStatus r s) r s :=
  ⟨rq [0, 0x00010000] 12, sv, accepted_of (by decide +kernel)⟩

theorem witness_ChainAndLaneCommands_10 :
    ∃ (r : Req) (s : State), Accepted (checksLaneDown r s) r s ∧ (laneOf s (laneArg s r)).lstate = .down :=
  ⟨rq [1, 0], sv, accepted_of (by decide +kernel), by decide +kernel⟩

theorem witness_ChainAndLaneCommands_11 :
    ∃ (r : Req) (s : State), Accepted (checksLaneDown r s) r s :=
  ⟨rq [0, 1], sv, accepted_of (by decide +kernel)⟩

set_option maxRecDepth 1000000 in
theorem witness_WindowOpenClose_1 :
    ∃ (r : Req) (s : State) (i : Nat), Accepted (checksAccOpen r s) r s ∧ i < 65536 ∧ thas s.acc.windows (r.fn * 65536 + i) = false ∧ ((∀ j, j < 65536 → (if localNamed 0x0500 r s then i < j else j < i) → thas s.acc.windows (r.fn * 65536 + j) = true)) :=
  ⟨rq [0, 0, 50, 3, 1] 6 (chk [posWord 522240]), svA, 65535, accepted_of (by decide +kernel), by decide +kernel, by decide +kernel, by intro j hj; rw [if_pos (by decide +kernel)]; intro h; omega⟩

theorem witness_WindowOpenClose_2 :
    ∃ (r : Req) (s : State), Accepted (checksAccClose r s) r s ∧ bits (reqWord r 7) 0 0 = 0 :=
  ⟨rq [0, 0, 0, 0], svA, accepted_of (by decide +kernel), by decide +kernel⟩

theorem witness_WindowOpenClose_3 :
    ∃ (r : Req) (s : State), Accepted (checksAccClose r s) r s ∧ bits (reqWord r 7) 0 0 = 1 :=
  ⟨rq [0, 0, 0, 1], svA, accepted_of (by decide +kernel), by decide +kernel⟩

theorem witness_HarvestAndQueries_1 :
    ∃ (r : Req) (s : State), Accepted (checksAccHarvest r s) r s :=
  ⟨rq [4, 0, posWord 522248] 12, svA, accepted_of (by decide +kernel)⟩

theorem witness_HarvestAndQueries_2 :
    ∃ (r : Req) (s : State) (a : Nat) (b : Nat), Accepted (checksAccHarvest r s) r s ∧ ((reqWord r 4).toNat = 1 ∨ (reqWord r 4).toNat = 2 ∨ (reqWord r 4).toNat = 4) ∧ rangeParam s (reqWord r 5) (reqWord r 6) = some (a, b) :=
  ⟨rq [4, 0, posWord 522248] 12, svA, ((rangeParam svA 0 (posWord 522248)).getD (0, 0)).1, ((rangeParam svA 0 (posWord 522248)).getD (0, 0)).2, accepted_of (by decide +kernel), by decide +kernel⟩

theorem witness_HarvestAndQueries_3 :
    ∃ (r : Req) (s : State), Accepted (checksAccHarvest r s) r s ∧ (reqWord r 4).toNat = 3 :=
  ⟨rq [3, 0] 12, svA, accepted_of (by decide +kernel), by decide +kernel⟩

theorem witness_HarvestAndQueries_4 :
    ∃ (r : Req) (s : State), Accepted (checksAccHarvest r s) r s ∧ (reqWord r 4).toNat = 5 :=
  ⟨rq [5, 0] 12, svA, accepted_of (by decide +kernel), by decide +kernel⟩

theorem witness_HarvestAndQueries_5 :
    ∃ (r : Req) (s : State), Accepted (checksAccApsisReset r s) r s :=
  ⟨rq [0, posWord 522248], svA, accepted_of (by decide +kernel)⟩

theorem witness_HarvestAndQueries_6 :
    ∃ (r : Req) (s : State) (w : Window), Accepted (checksAccStatus r s) r s ∧ bits (reqWord r 4) 16 16 = 0 ∧ tget s.acc.windows (r.fn * 65536 + bits (reqWord r 4) 15 0) = some w :=
  ⟨rq [0], svA, tgetD svA.acc.windows 16777216 { start := 0, length := 0 }, accepted_of (by decide +kernel), by decide +kernel⟩

theorem witness_HarvestAndQueries_7 :
    ∃ (r : Req) (s : State), Accepted (checksAccStatus r s) r s ∧ bits (reqWord r 4) 16 16 = 1 ∧ r.fn = mgmt :=
  ⟨rq [0x10000], svA, accepted_of (by decide +kernel), by decide +kernel⟩

theorem witness_HarvestAndQueries_8 :
    ∃ (r : Req) (s : State), Accepted (checksAccStatus r s) r s ∧ bits (reqWord r 4) 16 16 = 1 ∧ r.fn ≠ mgmt :=
  ⟨{ rq [0x10000] with fn := 5 }, svA, accepted_of (by decide +kernel), by decide +kernel⟩

theorem witness_IntervalCommits_1 :
    ∃ (sixty : Bool) (j : Nat) (key : Nat) (s : State), s.boot.phase = .running ∧ stdLen sixty * (j + 1) + 1600 ≤ s.time.spc ∧ key ∈ stdEntries s sixty j ∧ ((∀ y ∈ tgetD (stdTab s sixty) key [], y.committed = true → y.j < j)) ∧ ((sixty = false → s.acc.doneOne ≤ j + 8)) :=
  ⟨false, 0, (stdEntries (svAt 101600 sv) false 0).getD 0 0, svAt 101600 sv, by decide +kernel⟩

theorem witness_IntervalCommits_2 :
    ∃ (fn : Nat) (win : Nat) (b : Nat) (w : Window) (s : State), s.boot.phase = .running ∧ tget s.acc.windows (fn * 65536 + win) = some w ∧ w.draining = false ∧ leftDue s w = [] ∧ w.close = none ∧ winEnd w w.next = some b ∧ b + 1600 ≤ s.time.spc :=
  ⟨256, 0, 600, tgetD svA.acc.windows 16777216 { start := 0, length := 0 }, svAt 2200 svA, by decide +kernel⟩

theorem witness_IntervalCommits_3 :
    ∃ (fn : Nat) (win : Nat) (c : Nat) (l : List Nat) (w : Window) (s : State), s.boot.phase = .running ∧ tget s.acc.windows (fn * 65536 + win) = some w ∧ w.draining = false ∧ leftDue s w = c :: l :=
  ⟨256, 0, 0, [], { start := 200, length := 2, repeats := true, entries := [{ chi := 3 }], left := [(0, 500)] }, { svAt 3000 sv with acc := { windows := [(16777216, { start := 200, length := 2, repeats := true, entries := [{ chi := 3 }], left := [(0, 500)] })] } }, by decide +kernel⟩

theorem witness_IntervalCommits_4 :
    ∃ (fn : Nat) (win : Nat) (e : Nat) (w : Window) (s : State), s.boot.phase = .running ∧ tget s.acc.windows (fn * 65536 + win) = some w ∧ w.draining = false ∧ leftDue s w = [] ∧ w.close = some e ∧ e ≤ w.start ∧ e ≤ s.time.spc :=
  ⟨256, 0, 200, { start := 200, length := 2, close := some 200 }, { sv with acc := { windows := [(16777216, { start := 200, length := 2, close := some 200 })] } }, by decide +kernel⟩

theorem witness_SpectralSettings_1 :
    ∃ (r : Req) (s : State), Accepted (checksSpecConfig r s) r s ∧ (reqWord r 8).toNat = 0 :=
  ⟨rq [65280, 100, 0, 7, 0], svS, accepted_of (by decide +kernel), by decide +kernel⟩

theorem witness_SpectralSettings_2 :
    ∃ (r : Req) (s : State), Accepted (checksSpecConfig r s) r s ∧ (reqWord r 8).toNat = 1 :=
  ⟨rq [65280, 100, 0, 7, 1], svS, accepted_of (by decide +kernel), by decide +kernel⟩

theorem witness_SpectralSettings_3 :
    ∃ (r : Req) (s : State) (f : Focus), Accepted (checksSpecStop r s) r s ∧ (reqWord r 4).toNat = 0 ∧ tget s.spec.focus (focusKey r.fn (reqWord r 5).toNat) = some f :=
  ⟨rq [0, 0, 0], svS, tgetD svS.spec.focus 16777216 { chi := 0, fc := 0, zoom := 0, running := false, n := 0, start := 0 }, accepted_of (by decide +kernel), by decide +kernel⟩

theorem witness_SpectralSettings_4 :
    ∃ (r : Req) (s : State), Accepted (checksSpecStop r s) r s ∧ (reqWord r 4).toNat = 1 :=
  ⟨rq [1, 65280, 0], svS, accepted_of (by decide +kernel), by decide +kernel⟩

theorem witness_SpectralSettings_5 :
    ∃ (r : Req) (s : State), Accepted (checksSpecStop r s) r s ∧ (reqWord r 4).toNat = 2 :=
  ⟨rq [2, 65280, 0], svS, accepted_of (by decide +kernel), by decide +kernel⟩

theorem witness_SpectralSettings_6 :
    ∃ (r : Req) (s : State) (i : Nat), Accepted (checksSpecFocus r s) r s ∧ i < 4096 ∧ thas s.spec.focus (focusKey r.fn i) = false ∧ ((∀ j, j < 4096 → (if isLocal (chainOfChi (bits (reqWord r 4) 31 9)) then i < j else j < i) → thas s.spec.focus (focusKey r.fn j) = true)) :=
  ⟨rq [posWord 522240, 1000000, 3, 9], svS, 4095, accepted_of (by decide +kernel), by decide +kernel, by decide +kernel, by intro j hj; rw [if_pos (by decide +kernel)]; intro h; omega⟩

theorem witness_SpectralSettings_7 :
    ∃ (r : Req) (s : State), Accepted (checksSpecDither r s) r s ∧ (reqWord r 5).toNat = 1 :=
  ⟨rq [posWord 522241, 1, 0x00010064, 0x0117], svS, accepted_of (by decide +kernel), by decide +kernel⟩

theorem witness_SpectralSettings_8 :
    ∃ (r : Req) (s : State), Accepted (checksSpecDither r s) r s ∧ (reqWord r 5).toNat = 0 :=
  ⟨rq [posWord 522241, 0, 0, 0], svS, accepted_of (by decide +kernel), by decide +kernel⟩

theorem witness_SpectralWork_1 :
    ∃ (r : Req) (s : State), Accepted (checksSpecHarvest r s) r s :=
  ⟨rq [0x11, 0, posWord 522248] 14, svS, accepted_of (by decide +kernel)⟩

theorem witness_SpectralWork_2 :
    ∃ (r : Req) (s : State), Accepted (checksSpecHarvest r s) r s ∧ (reqWord r 4).toNat = 0x11 :=
  ⟨rq [0x11, 0, posWord 522248] 14, svS, accepted_of (by decide +kernel), by decide +kernel⟩

theorem witness_SpectralWork_3 :
    ∃ (r : Req) (s : State), Accepted (checksSpecHarvest r s) r s ∧ (reqWord r 4).toNat = 0x12 :=
  ⟨rq [0x12, 0] 14, svS, accepted_of (by decide +kernel), by decide +kernel⟩

theorem witness_SpectralWork_4 :
    ∃ (round : Nat) (s : State), s.boot.phase = .running ∧ s.time.spc = 200 * round ∧ s.spec.round ≤ round :=
  ⟨5, svS, by decide +kernel⟩

theorem witness_SpectralWork_5 :
    ∃ (round : Nat) (s : State), (s.time.spc ≠ 200 * round ∨ round < s.spec.round) :=
  ⟨3, svS, by decide +kernel⟩

theorem witness_SpectralWork_6 :
    ∃ (round : Nat) (w : InWork) (s : State), s.boot.phase = .running ∧ s.time.spc = 200 * round ∧ s.spec.round ≤ round ∧ s.spec.work = [w] ∧ w.work.focus = false ∧ (tgetD (ctxOf s w.work.id).bins w.work.bin {}).since ≤ w.at_ ∧ w.good = true ∧ w.v.length = 1 ∧ w.i.length = 1 :=
  ⟨5, inw0, svSw inw0, by decide +kernel⟩

theorem witness_SpectralWork_7 :
    ∃ (round : Nat) (w : InWork) (s : State), s.boot.phase = .running ∧ s.time.spc = 200 * round ∧ s.spec.round ≤ round ∧ s.spec.work = [w] ∧ w.work.focus = false ∧ (tgetD (ctxOf s w.work.id).bins w.work.bin {}).since ≤ w.at_ ∧ w.good = false :=
  ⟨5, { inw0 with good := false }, svSw { inw0 with good := false }, by decide +kernel⟩

end Sys2Proof.Tests
end

