-- ==== Sys2Proof/Tests/Witness2.lean ====
section
/-! SUPPORT. Witnesses of the statements' premises: for each clause that has premises, a state and operands that meet all of them together. -/

namespace Sys2Proof.Tests

open Sys2Proof Sys2Proof.Machine
set_option Elab.async false
set_option linter.unusedVariables false

theorem witness_CalibrationCommands_1 :
    ∃ (r : Req) (s : State) (n : Nat), Accepted (checksCalRun r s) r s ∧ (reqWord r 4).toNat ≠ 0x10 ∧ let ps := maskPosns (reqWord r 5).toNat (bits (reqWord r 6) 7 0); let w := procWindow (reqWord r 4).toNat; slotFor s r.fn ps = some n :=
  ⟨rq [1, 65280, 1, 0, 0], svS, (slotFor svS 256 [522240]).getD 9, accepted_of (by decide +kernel), by decide +kernel⟩

theorem witness_CalibrationCommands_2 :
    ∃ (r : Req) (s : State) (l : Nat), Accepted (checksCalRun r s) r s ∧ (reqWord r 4).toNat = 0x10 ∧ laneParam s (reqWord r 5) = some l :=
  ⟨rq [0x10, 0, 0, 0, 0], svS, 0, accepted_of (by decide +kernel), by decide +kernel⟩

theorem witness_CalibrationCommands_3 :
    ∃ (r : Req) (s : State), Accepted (checksCalLimits r s) r s :=
  ⟨rq [65280, 0, 500], svS, accepted_of (by decide +kernel)⟩

theorem witness_CalibrationCommands_4 :
    ∃ (r : Req) (s : State) (x : CalRun), Accepted (checksCalStatus r s) r s ∧ bits (reqWord r 4) 8 8 = 0 ∧ runOf s r.fn (bits (reqWord r 4) 7 0) = some x :=
  ⟨rq [0] 12, svS, (runOf svS 256 0).getD { proc := 9, chain := 0, posns := [], start := 0 }, accepted_of (by decide +kernel), by decide +kernel⟩

theorem witness_CalibrationCommands_5 :
    ∃ (r : Req) (s : State), Accepted (checksCalStatus r s) r s ∧ bits (reqWord r 4) 8 8 = 1 :=
  ⟨rq [0x100] 12, svS, accepted_of (by decide +kernel), by decide +kernel⟩

theorem witness_CalibrationCommands_6 :
    ∃ (r : Req) (s : State) (h : GenRec), Accepted (checksCalRead r s) r s ∧ findGen s r.fn (reqWord r 4).toNat (bits (reqWord r 5) 15 0) = .inr h :=
  ⟨rq [65280, 0] 12, svS, { commit := 0, flip := 0, entries := [(522240, [(0, {})])] }, accepted_of (by decide +kernel), by decide +kernel⟩

theorem witness_CalibrationCommits_1 :
    ∃ (r : Req) (s : State) (x : CalRun), Accepted (checksCalApply r s) r s ∧ bits (reqWord r 5) 0 0 = 1 ∧ runOf s r.fn (reqWord r 4).toNat = some x :=
  ⟨rq [0, 1], svS, (runOf svS 256 0).getD { proc := 9, chain := 0, posns := [], start := 0 }, accepted_of (by decide +kernel), by decide +kernel⟩

theorem witness_CalibrationCommits_2 :
    ∃ (r : Req) (s : State) (x : CalRun), Accepted (checksCalApply r s) r s ∧ bits (reqWord r 5) 0 0 = 0 ∧ runOf s r.fn (reqWord r 4).toNat = some x :=
  ⟨rq [0, 0], svS, (runOf svS 256 0).getD { proc := 9, chain := 0, posns := [], start := 0 }, accepted_of (by decide +kernel), by decide +kernel⟩

theorem witness_CalibrationCommits_3 :
    ∃ (r : Req) (s : State), Accepted (checksCalRevert r s) r s :=
  ⟨rq [65280, 0x10000], svS, accepted_of (by decide +kernel)⟩

theorem witness_CalibrationCommits_4 :
    ∃ (fn : Nat) (slot : Nat) (r : CalRun) (s : State), s.boot.phase = .running ∧ runOf s fn slot = some r ∧ r.busy = true ∧ r.finished = none ∧ runDone s r = true :=
  ⟨256, 0, { proc := 1, chain := 65280, posns := [522240], start := 500 }, { sv with cal := { runs := [(1024, { proc := 1, chain := 65280, posns := [522240], start := 500 })] } }, by decide +kernel⟩

theorem witness_CalibrationCommits_5 :
    ∃ (chain : Nat) (b : Nat) (q : Commit) (l : List Commit) (s : State), chainExists s chain = true ∧ s.boot.phase = .running ∧ (chainCal s chain).queue = q :: l ∧ q.flip = some b ∧ b ≤ s.time.spc :=
  ⟨65280, 1000, cm0, [], svCm, by decide +kernel⟩

theorem witness_CalibrationCommits_6 :
    ∃ (chi : Nat) (w : Slew) (s : State), posExists s (posOfChi chi) = true ∧ s.boot.phase = .running ∧ tget (tagCal s (posOfChi chi)).slews (chanOf chi) = some w :=
  ⟨522240 * 16 + 3, sl0, svSl, by decide +kernel⟩

theorem witness_CalibrationCommits_7 :
    ∃ (fn : Nat) (slot : Nat) (e : Nat) (r : CalRun) (s : State), s.boot.phase = .running ∧ runOf s fn slot = some r ∧ r.finished = some e ∧ r.held ≠ [] ∧ e + 6000000 ≤ s.time.spc :=
  ⟨256, 0, 900, (runOf svS 256 0).getD { proc := 9, chain := 0, posns := [], start := 0 }, svAt 6000900 svS, by decide +kernel⟩

theorem witness_CalibrationCommits_8 :
    ∃ (lane : Nat) (s : State), laneExists s lane = true ∧ s.boot.phase = .running ∧ (laneOf s lane).set.ctle ≤ 31 ∧ (laneOf s lane).set.vga ≤ 63 ∧ ((∀ i, i < 16 → (geti (laneOf s lane).set.dfe i).natAbs ≤ (if i = 0 then 127 else 63))) :=
  ⟨0, sv, by decide +kernel⟩

theorem witness_CalibrationCommits_9 :
    ∃ (lane : Nat) (r : LaneRun) (s : State), laneExists s lane = true ∧ s.boot.phase = .running ∧ tget s.cal.laneRuns lane = some r ∧ r.finished = false :=
  ⟨0, {}, { sv with cal := { laneRuns := [(0, {})] } }, by decide +kernel⟩

theorem witness_CalibrationCommits_10 :
    ∃ (b : Build) (s : State), s.boot.phase = .running ∧ s.map.build = some b ∧ b.flip = none :=
  ⟨{ cmd := ref9, staged := [], depth := none }, { sv with map := { build := some { cmd := ref9, staged := [], depth := none } } }, by decide +kernel⟩

theorem witness_CalibrationCommits_11 :
    ∃ (b : Build) (f : Nat) (s : State), s.boot.phase = .running ∧ s.map.build = some b ∧ b.flip = some f ∧ f ≤ s.time.spc :=
  ⟨{ cmd := ref9, staged := [], depth := none, flip := some 1000 }, 1000, { sv with map := { build := some { cmd := ref9, staged := [], depth := none, flip := some 1000 } } }, by decide +kernel⟩

theorem witness_BalanceCommands_1 :
    ∃ (r : Req) (s : State), Accepted (checksBalSet r s) r s ∧ bits (reqWord r 4) 0 0 = 1 :=
  ⟨rq [1, 65280, 5000, 7, 60], sv, accepted_of (by decide +kernel), by decide +kernel⟩

theorem witness_BalanceCommands_2 :
    ∃ (r : Req) (s : State) (p : Nat), Accepted (checksBalSet r s) r s ∧ bits (reqWord r 4) 0 0 = 0 ∧ posParam s (reqWord r 5) = some p :=
  ⟨rq [0, posWord 522240, 0x805, 0x00050071], sv, 522240, accepted_of (by decide +kernel), by decide +kernel⟩

theorem witness_BalanceCommands_3 :
    ∃ (r : Req) (s : State), Accepted (checksDiagOpenwire r s) r s ∧ bits (reqWord r 4) 0 0 = 1 :=
  ⟨rq [1, 65280, 5], sv, accepted_of (by decide +kernel), by decide +kernel⟩

theorem witness_BalanceCommands_4 :
    ∃ (r : Req) (s : State) (p : Nat), Accepted (checksDiagOpenwire r s) r s ∧ bits (reqWord r 4) 0 0 = 0 ∧ posParam s (reqWord r 5) = some p :=
  ⟨rq [0, posWord 522240, 5], sv, 522240, accepted_of (by decide +kernel), by decide +kernel⟩

theorem witness_BalanceCommands_5 :
    ∃ (r : Req) (s : State), Accepted (checksBalStatus r s) r s :=
  ⟨rq [65280] 12, sv, accepted_of (by decide +kernel)⟩

theorem witness_BalanceCommands_6 :
    ∃ (r : Req) (s : State) (p : Nat), Accepted (checksDiagTag r s) r s ∧ posParam s (reqWord r 4) = some p :=
  ⟨rq [posWord 522240] 12, sv, 522240, accepted_of (by decide +kernel), by decide +kernel⟩

theorem witness_BalanceCommands_7 :
    ∃ (r : Req) (s : State), Accepted (checksDiagReport r s) r s :=
  ⟨rq [65280] 12, sv, accepted_of (by decide +kernel)⟩

theorem witness_BalanceAndWireRows_1 :
    ∃ (s : State), s.boot.phase = .running ∧ s.bal.frame ≤ (s.time.spc + 200) / 3200 ∧ (s.line.posns.map (·.1)).Nodup :=
  ⟨svB, by decide +kernel⟩

theorem witness_BalanceAndWireRows_2 :
    ∃ (pos : Nat) (cell : Nat) (s : State), posExists s pos = true ∧ cell < 12 ∧ s.boot.phase = .running ∧ (balCell s (cellKey pos cell)).mode = .manual ∧ (balCell s (cellKey pos cell)).ttlEnd ≤ s.time.spc :=
  ⟨522240, 1, svB, by decide +kernel⟩

theorem witness_BalanceAndWireRows_3 :
    ∃ (pos : Nat) (w : Nat) (tw : Nat) (target : Nat) (odd : Bool) (why : TestWhy) (s : State), posExists s pos = true ∧ s.boot.phase = .running ∧ (diagOf s pos).quiet = some (w, .test tw target odd why) ∧ w + 500 ≤ s.time.spc :=
  ⟨522240, 500, 3, 3, false, .routine, svQ, by decide +kernel⟩

theorem witness_BalanceAndWireRows_4 :
    ∃ (pos : Nat) (k : Nat) (s : State), posExists s pos = true ∧ s.boot.phase = .running ∧ s.time.spc = 10000 * k ∧ (posOf s pos).kind = .ct12 ∧ (posOf s pos).state = .released :=
  ⟨522240, 1, svAt 10000 sv, by decide +kernel⟩

set_option maxRecDepth 1000000 in
theorem witness_EstimatorCommands_1 :
    ∃ (r : Req) (s : State), Accepted (checksEstConfig r s) r s ∧ (fnEst s r.fn).hiber = false :=
  ⟨rq [0, 7] 11 (chk profWords), svE, accepted_of (by decide +kernel), by decide +kernel⟩

theorem witness_EstimatorCommands_2 :
    ∃ (r : Req) (s : State), Accepted (checksEstLearn r s) r s ∧ (fnEst s r.fn).hiber = false ∧ (reqWord r 4).toNat = 0 :=
  ⟨rq [0, 0, posWord 522248] 12, svE, accepted_of (by decide +kernel), by decide +kernel⟩

theorem witness_EstimatorCommands_3 :
    ∃ (r : Req) (s : State), Accepted (checksEstLearn r s) r s ∧ (fnEst s r.fn).hiber = false ∧ (reqWord r 4).toNat ≠ 0 :=
  ⟨rq [4, 0, posWord 522248, 9, 8], svE, accepted_of (by decide +kernel), by decide +kernel⟩

theorem witness_EstimatorCommands_4 :
    ∃ (r : Req) (s : State), Accepted (checksEstReset r s) r s ∧ (fnEst s r.fn).hiber = false :=
  ⟨rq [0, posWord 522248, 1, 9, 8], svE, accepted_of (by decide +kernel), by decide +kernel⟩

theorem witness_EstimatorCommands_5 :
    ∃ (r : Req) (s : State), Accepted (checksEstHibernate r s) r s ∧ (reqWord r 4).toNat = 0 :=
  ⟨rq [0], svE, accepted_of (by decide +kernel), by decide +kernel⟩

theorem witness_EstimatorCommands_6 :
    ∃ (r : Req) (s : State), Accepted (checksEstHibernate r s) r s ∧ (reqWord r 4).toNat = 1 ∧ (fnEst s r.fn).hiber = false :=
  ⟨rq [1], svE, accepted_of (by decide +kernel), by decide +kernel⟩

theorem witness_EstimatorCommands_7 :
    ∃ (r : Req) (s : State), Accepted (checksEstHibernate r s) r s ∧ (reqWord r 4).toNat = 1 ∧ (fnEst s r.fn).hiber = true :=
  ⟨rq [1], svH, accepted_of (by decide +kernel), by decide +kernel⟩

theorem witness_EstimatorImages_1 :
    ∃ (r : Req) (s : State), Accepted (checksEstRead r s) r s ∧ (fnEst s r.fn).hiber = false :=
  ⟨rq [0, posWord 522248] 14, svE, accepted_of (by decide +kernel), by decide +kernel⟩

theorem witness_EstimatorImages_2 :
    ∃ (r : Req) (s : State), Accepted (checksEstSave r s) r s ∧ (fnEst s r.fn).hiber = false :=
  ⟨rq [1, 65280] 14, svE, accepted_of (by decide +kernel), by decide +kernel⟩

set_option maxRecDepth 1000000 in
theorem witness_EstimatorImages_3 :
    ∃ (r : Req) (s : State), Accepted (checksEstRestore r s) r s ∧ (fnEst s r.fn).hiber = false :=
  ⟨rq [0xFFFFFFFF] 12 image0, svE, accepted_of (by decide +kernel), by decide +kernel⟩

theorem witness_EstimatorRows_1 :
    ∃ (chi : Nat) (j : Nat) (s : State), posExists s (posOfChi chi) = true ∧ s.boot.phase = .running ∧ 100000 * (j + 1) + 1600 ≤ s.time.spc ∧ (fnEst s (ownerOf s (chainOfChi chi))).hiber = false ∧ (s.therm.force < 4 ∨ j % 2 = 0) ∧ hasCell s chi = true ∧ (cellOf s chi).stepSpc < 100000 * (j + 1) :=
  ⟨cellKey 522240 0, 0, svAt 101600 svE, by decide +kernel⟩

theorem witness_EstimatorRows_2 :
    ∃ (p : Nat) (j : Nat) (s : State), posExists s p = true ∧ s.boot.phase = .running ∧ 100000 * (j + 1) + 1600 ≤ s.time.spc ∧ (fnEst s (ownerOf s (chainOfPos p))).hiber = false ∧ (s.therm.force < 4 ∨ j % 2 = 0) ∧ (posOf s p).kind = .dt1 ∧ (posOf s p).state = .released ∧ (strOf s p).now.stepSpc < 100000 * (j + 1) :=
  ⟨522241, 0, svAt 101600 svE, by decide +kernel⟩

theorem witness_EstimatorRows_3 :
    ∃ (chi : Nat) (s : State), posExists s (posOfChi chi) = true ∧ (fnEst s (ownerOf s (chainOfChi chi))).hiber = true :=
  ⟨cellKey 522240 0, svH, by decide +kernel⟩

theorem witness_EstimatorRows_4 :
    ∃ (fn : Nat) (s : State), s.boot.phase = .running ∧ (fnEst s fn).hiber = false ∧ (fnEst s fn).asked = true ∧ s.time.spc % 100000 = 1600 :=
  ⟨256, modFn 256 (fun x => { x with asked := true }) (svAt 101600 svE), by decide +kernel⟩

theorem witness_EstimatorRows_5 :
    ∃ (fn : Nat) (j : Nat) (s : State), s.boot.phase = .running ∧ (fnEst s fn).hiber = true ∧ lastSecond s = some j ∧ passDue s fn = true :=
  ⟨256, 0, { svH with est := { svH.est with strs := [(522241, { tRest := 0, restEnded := some (0, 0) })] } }, by decide +kernel⟩

theorem witness_EstimatorRows_6 :
    ∃ (chi : Nat) (d : Nat) (u : Nat) (x : Int) (g : Profile) (s : State), posExists s (posOfChi chi) = true ∧ s.boot.phase = .running ∧ profileOf s (posOfChi chi) = some g ∧ driveOf s (posOfChi chi) = some d ∧ hasCell s chi = true ∧ (cellOf s chi).fresh = false ∧ (cellOf s chi).realAt + 25920000000 ≤ s.time.spc ∧ (cellOf s chi).synthAt = none ∧ (cellOf s chi).susp = false ∧ (fnEst s (ownerOf s (chainOfChi chi))).hiber = false ∧ synthesise s chi d g (cellOf s chi) = some (x, u) :=
  ⟨cellKey 522240 0, 522241, ((synthesise svSy (cellKey 522240 0) 522241 prof0 (cellOf svSy (cellKey 522240 0))).getD (0, 0)).2, ((synthesise svSy (cellKey 522240 0) 522241 prof0 (cellOf svSy (cellKey 522240 0))).getD (0, 0)).1, prof0, svSy, by decide +kernel⟩

theorem witness_EstimatorRows_7 :
    ∃ (chi : Nat) (s : State), posExists s (posOfChi chi) = true ∧ s.time.spc < (cellOf s chi).realAt + 25920000000 :=
  ⟨cellKey 522240 0, svE, by decide +kernel⟩

theorem witness_LockoutCauses_1 :
    ∃ (s : State), s.boot.phase = .running :=
  ⟨svF, by decide +kernel⟩

theorem witness_LockoutCauses_2 :
    ∃ (record : Nat) (s : State), s.boot.phase = .running ∧ recordHeld s record = true :=
  ⟨3, svF, by decide +kernel⟩

theorem witness_LockoutCauses_3 :
    ∃ (k : Nat) (s : State), k < 4 ∧ s.boot.phase = .running ∧ (s.safe.inputs.getD k {}).scope ≠ 0 :=
  ⟨1, svF, by decide +kernel⟩

theorem witness_LockoutCauses_4 :
    ∃ (k : Nat) (readback : Bool) (s : State), k < 8 ∧ s.boot.phase = .running ∧ readback ≠ outOn s k :=
  ⟨7, !outOn svF 7, svF, by decide +kernel⟩

theorem witness_LockoutCauses_5 :
    ∃ (k : Nat) (s : State), k < 8 ∧ s.boot.phase = .running ∧ outOn s k = true :=
  ⟨7, svF, by decide +kernel⟩

theorem witness_LockoutCauses_6 :
    ∃ (k : Nat) (a : Bool) (b : Bool) (s : State), k < 4 ∧ s.boot.phase = .running ∧ (a && b) = false :=
  ⟨3, true, false, svF, by decide +kernel⟩

theorem witness_LockoutCauses_7 :
    ∃ (k : Nat) (s : State), k < 4 ∧ s.boot.phase = .running :=
  ⟨3, svF, by decide +kernel⟩

theorem witness_LockoutCauses_8 :
    ∃ (k : Nat) (s : State), k < 8 ∧ s.boot.phase = .running ∧ outOn s k = true :=
  ⟨7, svF, by decide +kernel⟩

theorem witness_LeavingLockout_1 :
    ∃ (s : State), s.boot.phase = .running :=
  ⟨svL, by decide +kernel⟩

theorem witness_LeavingLockout_2 :
    ∃ (e : Nat) (s : State), s.safe.ackUntil = some e :=
  ⟨5000, modSafe (fun u => { u with ackUntil := some 5000 }) svL, by decide +kernel⟩

theorem witness_LeavingLockout_3 :
    ∃ (s : State), s.boot.phase = .running ∧ s.safe.testing = true ∧ s.safe.island = .lockout :=
  ⟨modSafe (fun u => { u with testing := true }) svL, by decide +kernel⟩

theorem witness_LeavingLockout_4 :
    ∃ (e : Nat) (s : State), s.safe.pwUntil = some e :=
  ⟨7, modSafe (fun u => { u with pwUntil := some 7 }) svF, by decide +kernel⟩

set_option maxRecDepth 1000000 in
theorem witness_LeavingLockout_5 :
    ∃ (r : Req) (s : State), served r s = true ∧ r.twin = false ∧ r.back = false ∧ routeOf 0x0B00 r s = .here ∧ firstFail (checksSafeConfig r s) r s = some ST_AUTH ∧ s.safe.password.isSome = true ∧ pwSuspended s = false :=
  ⟨rq [] 12 (pwb 6 4 [1]), modSafe (fun u => { u with password := some [1], pwFails := 4 }) svF, by decide +kernel⟩

theorem witness_SafetyChanges_1 :
    ∃ (s : State), s.boot.phase = .running :=
  ⟨modSafe (fun u => { u with pendingCfg := [cf0] }) sv, by decide +kernel⟩

set_option maxRecDepth 1000000 in
theorem witness_SafetyChanges_2 :
    ∃ (r : Req) (s : State) (kind : Nat) (wset : Nat) (c : CfgChange), Accepted (checksSafeConfig r s) r s ∧ readConfig s (readPw r) = some (kind, wset, c) :=
  ⟨rq [] 12 (pwb 6 4 [1]), svF, 0x0E, 0, .settings true, accepted_of (by decide +kernel), by decide +kernel⟩

theorem witness_SafetyChanges_3 :
    ∃ (r : Req) (s : State), Accepted (checksSafeArm r s) r s :=
  ⟨rq [0x10003], svF, accepted_of (by decide +kernel)⟩

set_option maxRecDepth 1000000 in
theorem witness_SafetyChanges_4 :
    ∃ (r : Req) (s : State) (d : WSet), Accepted (checksSafeTighten r s) r s ∧ bits (reqWord r 4) 0 0 = 0 ∧ readSet s r.inb.dropLast = some d :=
  ⟨rq [0, 3, 65280] 12 (chk setW), svF, (readSet svF setW).getD w0, accepted_of (by decide +kernel), by decide +kernel⟩

theorem witness_SafetyCommands_1 :
    ∃ (r : Req) (s : State), Accepted (checksSafeStatus r s) r s ∧ bits (reqWord r 4) 1 0 = 0 :=
  ⟨rq [0, 0xFFFFFFFF] 12, svF, accepted_of (by decide +kernel), by decide +kernel⟩

theorem witness_SafetyCommands_2 :
    ∃ (r : Req) (s : State), Accepted (checksSafeStatus r s) r s ∧ bits (reqWord r 4) 1 0 = 1 :=
  ⟨rq [1, 0xFFFFFFFF] 12, svF, accepted_of (by decide +kernel), by decide +kernel⟩

theorem witness_SafetyCommands_3 :
    ∃ (r : Req) (s : State), Accepted (checksSafeStatus r s) r s ∧ bits (reqWord r 4) 1 0 = 2 :=
  ⟨rq [2, 0xFFFFFFFF], svF, accepted_of (by decide +kernel), by decide +kernel⟩

theorem witness_SafetyCommands_4 :
    ∃ (r : Req) (s : State), Accepted (checksSafeAck r s) r s ∧ bits (reqWord r 4) 1 0 = 0 :=
  ⟨rq [0, 4], svT, accepted_of (by decide +kernel), by decide +kernel⟩

theorem witness_SafetyCommands_5 :
    ∃ (r : Req) (s : State), Accepted (checksSafeAck r s) r s ∧ bits (reqWord r 4) 1 0 = 1 :=
  ⟨rq [1, 0], svT, accepted_of (by decide +kernel), by decide +kernel⟩

theorem witness_SafetyCommands_6 :
    ∃ (r : Req) (s : State), Accepted (checksSafeAck r s) r s ∧ bits (reqWord r 4) 1 0 = 2 :=
  ⟨rq [2, 1], svT, accepted_of (by decide +kernel), by decide +kernel⟩

theorem witness_SafetyCommands_7 :
    ∃ (r : Req) (s : State), Accepted (checksSafeAck r s) r s ∧ bits (reqWord r 4) 1 0 = 3 :=
  ⟨rq [3, 0], modSafe (fun u => { u with ackUntil := some 5000 }) svL, accepted_of (by decide +kernel), by decide +kernel⟩

theorem witness_SafetyCommands_8 :
    ∃ (r : Req) (s : State), Accepted (checksSafeLog r s) r s ∧ bits (reqWord r 4) 0 0 = 0 :=
  ⟨rq [0, 0, 0, 10] 14, svF, accepted_of (by decide +kernel), by decide +kernel⟩

set_option maxRecDepth 1000000 in
theorem witness_SafetyCommands_9 :
    ∃ (r : Req) (s : State), Accepted (checksSafeLog r s) r s ∧ bits (reqWord r 4) 0 0 = 1 :=
  ⟨rq [1, 0, 0, 0] 14 (pwb 0 8 [0, 0]), nx (exec (.safeArm (rq [0x10003])) svF), accepted_of (by decide +kernel), by decide +kernel⟩

set_option maxRecDepth 1000000 in
theorem witness_SafetyCommands_10 :
    ∃ (r : Req) (s : State), Accepted (checksSafePasswd r s) r s :=
  ⟨rq [] 12 (chk ([8, 0x41414141, 0x41414141] ++ List.replicate 14 0 ++ [9, 0x42424242, 0x42424242, 0x42] ++ List.replicate 13 0)), svF, accepted_of (by decide +kernel)⟩

theorem witness_SafetyCommands_11 :
    ∃ (r : Req) (s : State), Accepted (checksSafeTighten r s) r s ∧ bits (reqWord r 4) 0 0 = 1 :=
  ⟨rq [1, 0, 65280], svF, accepted_of (by decide +kernel), by decide +kernel⟩

theorem witness_BlindTrip_1 :
    ∃ (chi : Nat) (num : Nat) (w : WSet) (s : State), posExists s (posOfChi chi) = true ∧ s.boot.phase = .running ∧ coverOf s (posOfChi chi) = some (num, w) ∧ exempt s (posOfChi chi) w = false ∧ unmeasuredPos s (posOfChi chi) w = false ∧ ((∃ k ∈ watched s (posOfChi chi), k.1 / 8 = chi ∧ ∃ b, blindSince s k.1 k.2 = some b ∧ b + 8 * w.tBlind ≤ s.time.spc)) :=
  ⟨mergedKey 522241, 3, w0, svBl, by decide +kernel, by decide +kernel, by decide +kernel, by decide +kernel, by decide +kernel, ⟨(countKey (mergedKey 522241) 0, 16), by decide +kernel, by decide +kernel, (blindSince svBl (countKey (mergedKey 522241) 0) 16).getD 0, by decide +kernel, by decide +kernel⟩⟩

theorem witness_EffectiveLimits_1 :
    ∃ (s : State) (num : Nat) (b : WSet), tget s.safe.sets num = some b :=
  ⟨svF, 3, w0, by decide +kernel⟩

theorem witness_KilledIsOff_1 :
    ∃ (s : State), (s.safe.island ≠ .run ∨ s.safe.kill = true) :=
  ⟨svL, by decide +kernel⟩

set_option maxRecDepth 1000000 in
theorem witness_ProgramCommands_1 :
    ∃ (r : Req) (s : State) (d : Nat), Accepted (checksChgLoad r s) r s ∧ posParam s (reqWord r 4) = some d :=
  ⟨rq [posWord 522241] 14 (chk pgW), svG, 522241, accepted_of (by decide +kernel), by decide +kernel⟩

theorem witness_ProgramCommands_2 :
    ∃ (r : Req) (s : State) (d : Nat), Accepted (checksChgStart r s) r s ∧ posParam s (reqWord r 4) = some d :=
  ⟨rq [posWord 522241, 0, 0], svG, 522241, accepted_of (by decide +kernel), by decide +kernel⟩

theorem witness_ProgramCommands_3 :
    ∃ (r : Req) (s : State) (d : Nat), Accepted (checksChgStop r s) r s ∧ posParam s (reqWord r 4) = some d ∧ (driveActive (driveRec s d) = true ∨ (driveRec s d).offAt.isSome = true) :=
  ⟨rq [posWord 522241, 1], svR, 522241, accepted_of (by decide +kernel), by decide +kernel⟩

theorem witness_ProgramCommands_4 :
    ∃ (r : Req) (s : State) (d : Nat), Accepted (checksChgStop r s) r s ∧ posParam s (reqWord r 4) = some d ∧ driveActive (driveRec s d) = false ∧ (driveRec s d).offAt = none :=
  ⟨rq [posWord 522241, 1], svG, 522241, accepted_of (by decide +kernel), by decide +kernel⟩

theorem witness_SetpointAndGroupCommands_1 :
    ∃ (r : Req) (s : State) (d : Nat), Accepted (checksChgSetpoint r s) r s ∧ posParam s (reqWord r 4) = some d :=
  ⟨rq [posWord 522241, 4, 0x10005, 5, 6], svG, 522241, accepted_of (by decide +kernel), by decide +kernel⟩

theorem witness_SetpointAndGroupCommands_2 :
    ∃ (r : Req) (s : State), Accepted (checksChgGroup r s) r s :=
  ⟨rq [0x207, 0, 0, 0, 0, 20], svG, accepted_of (by decide +kernel)⟩

theorem witness_SetpointAndGroupCommands_3 :
    ∃ (r : Req) (s : State) (d : Nat), Accepted (checksChgStatus r s) r s ∧ bits (reqWord r 4) 1 0 = 0 ∧ posParam s (reqWord r 5) = some d :=
  ⟨rq [0, posWord 522241] 12, svG, 522241, accepted_of (by decide +kernel), by decide +kernel⟩

theorem witness_SetpointAndGroupCommands_4 :
    ∃ (r : Req) (s : State) (d : Nat), Accepted (checksChgStatus r s) r s ∧ bits (reqWord r 4) 1 0 = 1 ∧ posParam s (reqWord r 5) = some d :=
  ⟨rq [1, posWord 522241] 12, svG, 522241, accepted_of (by decide +kernel), by decide +kernel⟩

theorem witness_SetpointAndGroupCommands_5 :
    ∃ (r : Req) (s : State) (x : Group), Accepted (checksChgStatus r s) r s ∧ bits (reqWord r 4) 1 0 = 2 ∧ tget s.chg.groups (reqWord r 5).toNat = some x :=
  ⟨rq [2, 7] 12, svG, (tget svG.chg.groups 7).getD { members := [], sense := 0, sag := 0, aMax := 0, aInit := 0, a := 0 }, accepted_of (by decide +kernel), by decide +kernel⟩

theorem witness_LoopTicks_1 :
    ∃ (d : Nat) (s : State), s.boot.phase = .running ∧ s.time.spc % 100 = 0 ∧ (s.chg.drives.map (·.1)).Nodup ∧ (s.chg.groups.map (·.1)).Nodup ∧ driveActive (driveRec s d) = true ∧ (driveRec s d).startAt = none ∧ (driveRec s d).setp = none ∧ (driveRec s d).prog.isSome = true ∧ driveOff s d = true :=
  ⟨522241, { svR with time := { spc := 1100 }, safe := { svR.safe with stops := [(65280, { spc := 1 })] } }, by decide +kernel⟩

theorem witness_LoopTicks_2 :
    ∃ (d : Nat) (b : Nat) (x : Drive) (s : State), s.boot.phase = .running ∧ s.time.spc % 100 = 0 ∧ s.chg.drives = [(d, x)] ∧ s.chg.groups = [] ∧ x.startAt = some b ∧ b ≤ s.time.spc :=
  ⟨522241, 1100, { prog := some pg0, startAt := some 1100 }, { svAt 1100 svG with chg := { drives := [(522241, { prog := some pg0, startAt := some 1100 })] } }, by decide +kernel⟩

theorem witness_LoopTicks_3 :
    ∃ (s : State), s.time.spc % 100 ≠ 0 :=
  ⟨svAt 1001 svR, by decide +kernel⟩

theorem witness_LoopTicks_4 :
    ∃ (d : Nat) (s : State), posExists s d = true ∧ s.boot.phase = .running ∧ ((driveRec s d).pst = .running ∨ (driveRec s d).pst = .hold) :=
  ⟨522241, svR, by decide +kernel⟩

end Sys2Proof.Tests
end

