-- ==== Sys2Proof/Tests/Witness3.lean ====
section
/-! SUPPORT. Witnesses of the statements' premises: for each clause that has premises, a state and operands that meet all of them together. -/

namespace Sys2Proof.Tests

open Sys2Proof Sys2Proof.Machine
set_option Elab.async false
set_option linter.unusedVariables false

theorem witness_ChargeRows_1 :
    ∃ (d : Nat) (w : Inrush) (s : State), posExists s d = true ∧ s.boot.phase = .running ∧ (driveRec s d).inrush = some w ∧ w.stop ≤ s.time.spc :=
  ⟨522241, dr1, modDrive 522241 (fun x => { x with inrush := some dr1 }) svG, by decide +kernel⟩

theorem witness_ChargeRows_2 :
    ∃ (d : Nat) (h : Setpoint) (s : State), posExists s d = true ∧ s.boot.phase = .running ∧ (driveRec s d).setp = some h ∧ (driveRec s d).ramp = none ∧ h.ttl ≤ s.time.spc :=
  ⟨522241, dr2, modDrive 522241 (fun x => { x with setp := some dr2 }) svG, by decide +kernel⟩

theorem witness_ChargeRows_3 :
    ∃ (k : Nat) (g : Group) (s : State), s.boot.phase = .running ∧ s.time.spc % 5000 = 0 ∧ s.chg.groups = [(k, g)] :=
  ⟨7, (tget svG.chg.groups 7).getD { members := [], sense := 0, sag := 0, aMax := 0, aInit := 0, a := 0 }, svAt 5000 svG, by decide +kernel⟩

theorem witness_ChargeRows_4 :
    ∃ (d : Nat) (e : Nat) (x : RelaxSet) (later : List RelaxSet) (s : State), posExists s d = true ∧ s.boot.phase = .running ∧ (driveRec s d).closing = x :: later ∧ x.stop = some e ∧ e + 92 ≤ s.time.spc :=
  ⟨522241, 908, dr4, [], modDrive 522241 (fun x => { x with closing := [dr4] }) svG, by decide +kernel⟩

theorem witness_ChargeRows_5 :
    ∃ (k : Nat) (g : Group) (s : State), s.chg.groups = [(k, g)] ∧ g.members.Nodup :=
  ⟨7, (tget svG.chg.groups 7).getD { members := [], sense := 0, sag := 0, aMax := 0, aInit := 0, a := 0 }, svG, by decide +kernel⟩

set_option maxRecDepth 1000000 in
theorem witness_ChainReception_1 :
    ∃ (f : ChainFrame) (s : State), isLocal f.chain = true ∧ chainExists s f.chain = true ∧ s.boot.phase = .running ∧ (chainOf s f.chain).mode = .normal ∧ (chainOf s f.chain).proc = none ∧ (chainOf s f.chain).hopFault = false ∧ (chainOf s f.chain).occ.Nodup ∧ ((∀ i ∈ (chainOf s f.chain).occ, i < 8)) :=
  ⟨fr [blk 0 5 99] false, svHp, by decide +kernel⟩

set_option maxRecDepth 1000000 in
theorem witness_ChainReception_2 :
    ∃ (f : ChainFrame) (i : Nat) (inv : Bool) (s : State), isLocal f.chain = true ∧ chainExists s f.chain = true ∧ s.boot.phase = .running ∧ (chainOf s f.chain).mode = .normal ∧ (chainOf s f.chain).proc = none ∧ (chainOf s f.chain).hopFault = false ∧ (chainOf s f.chain).occ = [i] ∧ i < 8 ∧ (chainOf s f.chain).tx.rsndA = [] ∧ syncFound f = some inv ∧ framePick s false (readFrame inv f) = some s.time.spc ∧ 1 ≤ s.time.spc ∧ 2 ≤ s.loom.depth ∧ let p := f.chain * 8 + i; let b := (readFrame inv f).blocks.getD i 0; crc16Ok b = true ∧ fieldOf b 1 3 = 0 ∧ (posOf s p).state = .released ∧ (posOf s p).known = true ∧ (posOf s p).incLo = fieldOf b 8 8 :=
  ⟨frOk [blk 0 5 99], 0, false, svHp, by decide +kernel⟩

set_option maxRecDepth 1000000 in
theorem witness_ChainReception_3 :
    ∃ (pos : Nat) (pick : Nat) (notHeld : Bool) (s : State), posExists s pos = true ∧ s.boot.phase = .running ∧ (notHeld = true ∨ pick + 34 ≤ s.time.spc) ∧ (entryOr s pos pick).bstate = .pending ∧ inBolt s pick = true :=
  ⟨522248, 999, false, svAt 1033 (nx (exec (.chainFrameRx (fr [blk 0 5 99] false)) svHp)), by decide +kernel⟩

theorem witness_RingState_1 :
    ∃ (c : Nat) (outOfLock : Bool) (s : State), isLocal c = true ∧ chainExists s c = true ∧ s.boot.phase = .running ∧ (chainOf s c).mode = .normal ∧ (chainOf s c).proc = none ∧ (outOfLock = true ∨ 2 ≤ (chainOf s c).syncMiss ∨ (chainOf s c).lockLost = true) :=
  ⟨65281, false, svHc (fun x => { x with syncMiss := 2 }), by decide +kernel⟩

theorem witness_RingState_2 :
    ∃ (f : ChainFrame) (a : Nat) (s : State), isLocal f.chain = true ∧ chainExists s f.chain = true ∧ s.boot.phase = .running ∧ (chainOf s f.chain).mode = .wrap ∧ (chainOf s f.chain).proc = none ∧ (chainOf s f.chain).brk = none ∧ f.portB = true ∧ (chainOf s f.chain).countA = some a ∧ (syncFound f).isSome = true :=
  ⟨{ fr [] true with portB := true }, 0, svHc (fun x => { x with mode := .wrap, countA := some 0 }), by decide +kernel⟩

theorem witness_RingState_3 :
    ∃ (c : Nat) (u : Nat) (ref : CmdRef) (s : State), chainExists s c = true ∧ s.boot.phase = .running ∧ (chainOf s c).unwrapAt = some (u, ref) ∧ u ≤ s.time.spc :=
  ⟨65281, 900, ref9, svHc (fun x => { x with mode := .wrap, unwrapAt := some (900, ref9) }), by decide +kernel⟩

theorem witness_RingState_4 :
    ∃ (c : Nat) (s : State), isLocal c = true ∧ chainExists s c = true ∧ s.boot.phase = .running ∧ (chainOf s c).mode = .normal ∧ (chainOf s c).hopFault = false ∧ (chainOf s c).proc = none ∧ 2 ≤ (chainOf s c).hopMiss ∧ (chainOf s c).occ.Nodup :=
  ⟨65281, svHc (fun x => { x with hopMiss := 2 }), by decide +kernel⟩

theorem witness_RingState_5 :
    ∃ (p : Nat) (s : State), posExists s p = true ∧ s.boot.phase = .running ∧ 64 ≤ (posOf s p).noLive ∧ ((posOf s p).state = .released ∨ (posOf s p).state = .bringingUp) :=
  ⟨522248, modPos 522248 (fun x => { x with noLive := 64 }) svHp, by decide +kernel⟩

theorem witness_RingState_6 :
    ∃ (x : PortTrip) (s : State), x.port < 32 ∧ s.boot.phase = .running ∧ let c := chainKey 0xFF (x.port / 2); let hop := if x.port % 2 = 1 then (chainOf s c).tags else 0; powered (chainOf s c) = true ∧ (if x.port % 2 = 1 then (chainOf s c).carrierB else (chainOf s c).carrierA) = true :=
  ⟨{ port := 2 }, svHc (fun x => { x with carrierA := true }), by decide +kernel⟩

theorem witness_RingState_7 :
    ∃ (c : Nat) (x : ChainProc) (s : State), isLocal c = true ∧ chainExists s c = true ∧ s.boot.phase = .running ∧ (chainOf s c).mode = .normal ∧ (chainOf s c).proc = some x ∧ x.counted = none ∧ x.enumEnd ≤ s.time.spc ∧ (chainOf s c).offB = false :=
  ⟨65281, { op := 0x201, p0 := 5, enumEnd := 900 }, svHc (fun x => { x with proc := some { op := 0x201, p0 := 5, enumEnd := 900 } }), by decide +kernel⟩

theorem witness_RingState_8 :
    ∃ (c : Nat) (hops : List (Option Nat)) (x : ChainProc) (s : State), isLocal c = true ∧ chainExists s c = true ∧ s.boot.phase = .running ∧ (chainOf s c).mode = .normal ∧ (chainOf s c).proc = some x ∧ x.counted = none ∧ x.enumEnd ≤ s.time.spc ∧ ((∀ n, hops ≠ [some n, some n, some n, some n])) :=
  ⟨65281, [], { op := 0x201, p0 := 5, enumEnd := 900 }, svHc (fun x => { x with proc := some { op := 0x201, p0 := 5, enumEnd := 900 } }), by decide +kernel, by decide +kernel, by decide +kernel, by decide +kernel, by decide +kernel, by decide +kernel, by decide +kernel, by intro n h; cases h⟩

theorem witness_RingState_9 :
    ∃ (c : Nat) (x : ChainProc) (s : State), isLocal c = true ∧ chainExists s c = true ∧ s.boot.phase = .running ∧ (chainOf s c).mode = .normal ∧ (chainOf s c).proc = some x ∧ x.counted = none ∧ x.openAt = none ∧ x.p0 + 200 ≤ s.time.spc :=
  ⟨65281, { op := 0x201, p0 := 5, enumEnd := 900 }, svHc (fun x => { x with proc := some { op := 0x201, p0 := 5, enumEnd := 900 } }), by decide +kernel⟩

theorem witness_RingState_10 :
    ∃ (c : Nat) (a : Nat) (b : Nat) (x : ChainProc) (s : State), isLocal c = true ∧ chainExists s c = true ∧ s.boot.phase = .running ∧ (chainOf s c).mode = .wrap ∧ (chainOf s c).proc = some x ∧ x.counted = none ∧ x.enumEnd ≤ s.time.spc ∧ a + b ≤ 8 :=
  ⟨65281, 1, 0, { op := 0x201, p0 := 5, enumEnd := 900 }, svHc (fun x => { x with mode := .wrap, proc := some { op := 0x201, p0 := 5, enumEnd := 900 } }), by decide +kernel⟩

theorem witness_RingState_11 :
    ∃ (c : Nat) (b : Nat) (ref : CmdRef) (s : State), chainExists s c = true ∧ s.boot.phase = .running ∧ (chainOf s c).parkAt = some (b, ref) ∧ b ≤ s.time.spc ∧ (chainOf s c).occ.Nodup :=
  ⟨65280, 900, ref9, modChain 65280 (fun x => { x with parkAt := some (900, ref9) }) sv, by decide +kernel⟩

theorem witness_RingState_12 :
    ∃ (s : State), s.boot.phase ≠ .running ∧ s.time.powered = true ∧ s.boot.nvmLoaded = false :=
  ⟨State.reset, by decide +kernel⟩

theorem witness_RingState_13 :
    ∃ (s : State), s.boot.phase = .running ∧ s.time.powered = true ∧ s.boot.nvmLoaded = true ∧ s.boot.fnReady.getLsbD 5 = true ∧ s.boot.fnReady.getLsbD 6 = true ∧ (s.line.chains.map (·.1)).Nodup :=
  ⟨svPark, by decide +kernel⟩

set_option maxRecDepth 1000000 in
theorem witness_TagMessages_1 :
    ∃ (p : Nat) (msg : BitVec 512) (s : State), posExists s p = true ∧ s.boot.phase = .running ∧ upIs (posOf s p) msg = true ∧ msgOk msg 1 = true ∧ kindOf (fieldOf msg 80 8) ≠ .none ∧ powered (chainOf s (chainOfPos p)) = true ∧ (posOf s p).kind = .none ∧ (posOf s p).state ≠ .lost :=
  ⟨522248, mgId, svMs mgId (fun _ => {}), by decide +kernel⟩

set_option maxRecDepth 1000000 in
theorem witness_TagMessages_2 :
    ∃ (p : Nat) (msg : BitVec 512) (s : State), posExists s p = true ∧ s.boot.phase = .running ∧ upIs (posOf s p) msg = true ∧ msgOk msg 1 = true ∧ kindOf (fieldOf msg 80 8) ≠ .none ∧ powered (chainOf s (chainOfPos p)) = true ∧ (posOf s p).state = .lost ∧ (posOf s p).kind = kindOf (fieldOf msg 80 8) ∧ (posOf s p).serial = fieldOf msg 16 64 ∧ (posOf s p).incarnation = fieldOf msg 96 32 :=
  ⟨522248, mgId, svMs mgId (fun _ => { kind := .ct12, serial := 77, incarnation := 9, state := .lost }), by decide +kernel⟩

set_option maxRecDepth 1000000 in
theorem witness_TagMessages_3 :
    ∃ (p : Nat) (msg : BitVec 512) (s : State), posExists s p = true ∧ s.boot.phase = .running ∧ upIs (posOf s p) msg = true ∧ msgOk msg 2 = true ∧ (posOf s p).known = true ∧ (posOf s p).coefOk = false ∧ fieldOf msg 16 8 < (posOf s p).coefParts ∧ ((∃ i, i < (posOf s p).coefParts ∧ i ≠ fieldOf msg 16 8 ∧ thas (posOf s p).parts i = false)) :=
  ⟨522248, mg 2 0, svMs (mg 2 0) (fun x => { x with coefOk := false, coefParts := 2 }), by decide +kernel, by decide +kernel, by decide +kernel, by decide +kernel, by decide +kernel, by decide +kernel, by decide +kernel, ⟨1, by decide +kernel⟩⟩

set_option maxRecDepth 1000000 in
theorem witness_TagMessages_4 :
    ∃ (p : Nat) (q : Nat) (msg : BitVec 512) (u : UpMsg) (f : CfgFlight) (l : List CfgFlight) (s : State), posExists s p = true ∧ s.boot.phase = .running ∧ upMessage (posOf s p) = some u ∧ u.bits = msg ∧ msgOk msg 3 = true ∧ (posOf s p).known = true ∧ (posOf s p).cfg = f :: l ∧ f.seq = some q ∧ f.sentAt + 512 ≤ 512 * u.period ∧ fieldOf msg 112 8 = q ∧ fieldOf msg 120 8 = 0 ∧ f.cfgId ≠ 1 :=
  ⟨522248, 3, mg 3 (3 * 2 ^ 376), { period := 1, bits := mg 3 (3 * 2 ^ 376), have_ := BitVec.allOnes 512 }, cfg3, [], svMs (mg 3 (3 * 2 ^ 376)) (fun x => { x with cfg := [cfg3] }), by decide +kernel⟩

theorem witness_TagMessages_5 :
    ∃ (s : State), s.boot.phase = .running ∧ (s.line.chains.map (·.1)).Nodup :=
  ⟨sv, by decide +kernel⟩

theorem witness_TagMessages_6 :
    ∃ (p : Nat) (u : UpMsg) (s : State), posExists s p = true ∧ s.boot.phase = .running ∧ powered (chainOf s (chainOfPos p)) = true ∧ upFailed s.time.spc (posOf s p) = some u :=
  ⟨522248, { period := 1, bits := 1, have_ := BitVec.allOnes 512 }, svMs 1 id, by decide +kernel⟩

theorem witness_TagMessages_7 :
    ∃ (p : Nat) (s : State), posExists s p = true ∧ s.boot.phase = .running ∧ (posOf s p).known = true ∧ (posOf s p).coefOk = true ∧ (posOf s p).state = .bringingUp ∧ ((∀ f ∈ (posOf s p).cfg, f.again = false)) ∧ powered (chainOf s (chainOfPos p)) = true :=
  ⟨522248, modPos 522248 (fun x => { x with state := .bringingUp }) svHp, by decide +kernel⟩

theorem witness_LaneReception_1 :
    ∃ (f : UpFrame) (s : State), laneExists s f.lane = true ∧ isTwin f.lane = false ∧ s.boot.phase = .running ∧ (laneOf s f.lane).lstate = .run :=
  ⟨{ lane := 0, header := 0, subs := [] }, sv, by decide +kernel⟩

theorem witness_LaneReception_2 :
    ∃ (tl : Nat) (f : UpFrame) (s : State), tl < 8 ∧ laneExists s f.lane = true ∧ s.boot.phase = .running ∧ (laneOf s (0x100 + tl)).lstate = .run ∧ tget s.lane.forwarded f.lane = some tl :=
  ⟨0, { lane := 0, header := 0, subs := [] }, svTw, by decide +kernel⟩

set_option maxRecDepth 1000000 in
theorem witness_LaneReception_3 :
    ∃ (tl : Nat) (fp : Nat) (i : Nat) (f : UpFrame) (b : SubBlock) (x : BitVec 520) (s : State), tl < 8 ∧ laneExists s f.lane = true ∧ s.boot.phase = .running ∧ (laneOf s (0x100 + tl)).lstate = .run ∧ headerOk f.header 4 = true ∧ extend (fieldOf f.header 32 32) s.time.spc = some fp ∧ f.subs = [b] ∧ subOk b = true ∧ fieldOf b.header 8 3 ≠ 7 ∧ b.blocks[i]? = some x ∧ fieldOf x 1 2 = 0 ∧ let c := chainKey (placeLane s f.lane) b.place; let p := c * 8 + i; (chainOf s c).occ = [i] ∧ (entryOr s p (fp - 1)).bstate = .pending ∧ s.time.spc < fp - 1 + 64 ∧ inBolt s (fp - 1) = true :=
  ⟨0, 1000, 0, upF (laneHeader 4 1000) [sub0], sub0, 0, svTw, by decide +kernel⟩

theorem witness_LaneReception_4 :
    ∃ (pick : Nat) (s : State), s.boot.phase = .running ∧ pick + 64 ≤ s.time.spc :=
  ⟨0, sv, by decide +kernel⟩

theorem witness_LaneReception_5 :
    ∃ (l : Nat) (e : LaneFault) (s : State), laneExists s l = true ∧ s.boot.phase = .running ∧ (laneOf s l).lstate = .run ∧ (e.lockLost = true ∨ (laneOf s l).marker = false ∨ 2 ≤ (laneOf s l).badFrames) :=
  ⟨0, { lockLost := true }, sv, by decide +kernel⟩

theorem witness_LaneReception_6 :
    ∃ (r : LaneReading) (s : State), laneExists s r.lane = true ∧ s.boot.phase = .running ∧ (laneOf s r.lane).lstate = .run :=
  ⟨{ lane := 0 }, svLane { lstate := .run, uncs := [(900, 2)] }, by decide +kernel⟩

set_option maxRecDepth 1000000 in
theorem witness_LaneReception_7 :
    ∃ (f : UpFrame) (s : State), laneExists s f.lane = true ∧ s.boot.phase = .running ∧ (laneOf s f.lane).lstate = .adapt ∧ headerOk f.header 6 = true :=
  ⟨upF (laneHeader 6 1000) [], svLane { lstate := .adapt }, by decide +kernel⟩

theorem witness_LaneReception_8 :
    ∃ (l : Nat) (m : LaneMeasure) (s : State), laneExists s l = true ∧ s.boot.phase = .running ∧ (laneOf s l).lstate = .lock ∧ m.locked = true :=
  ⟨0, { locked := true }, svLane { lstate := .lock }, by decide +kernel⟩

theorem witness_LaneReception_9 :
    ∃ (l : Nat) (m : LaneMeasure) (s : State), laneExists s l = true ∧ s.boot.phase = .running ∧ (laneOf s l).lstate = .adapt ∧ m.locked = true ∧ eyeMinima m = true ∧ (laneOf s l).train.done = true ∧ (laneOf s l).train.peerDone = true :=
  ⟨0, { locked := true, figures := figs0 }, svLane { lstate := .adapt, train := { done := true, peerDone := true } }, by decide +kernel⟩

theorem witness_LaneReception_10 :
    ∃ (l : Nat) (m : LaneMeasure) (s : State), laneExists s l = true ∧ s.boot.phase = .running ∧ (laneOf s l).lstate = .identify ∧ m.locked = true ∧ m.peerModeOk = true ∧ reachOk s l m = true :=
  ⟨0, { echoes := List.replicate 64 (0, 0) }, svLane { lstate := .identify }, by decide +kernel⟩

theorem witness_LaneReception_11 :
    ∃ (l : Nat) (m : LaneMeasure) (s : State), laneExists s l = true ∧ s.boot.phase = .running ∧ ((laneOf s l).lstate = .lock ∨ (laneOf s l).lstate = .adapt ∨ (laneOf s l).lstate = .identify) ∧ m.locked = false :=
  ⟨0, { locked := false }, svLane { lstate := .lock }, by decide +kernel⟩

set_option maxRecDepth 1000000 in
theorem witness_LaneReception_12 :
    ∃ (tl : Nat) (f : DownFrame) (s : State), tl < 8 ∧ laneExists s f.lane = true ∧ s.boot.phase = .running ∧ (laneOf s f.lane).lstate = .run ∧ tget s.lane.uses (tl * 4 + 2) = some (.relay f.lane) ∧ headerOk f.header 2 = true :=
  ⟨0, { lane := 0, header := laneHeader 2 1000 }, svTw, by decide +kernel⟩

theorem witness_LaneReception_13 :
    ∃ (w : BitVec 64) (s : State), s.boot.phase = .running ∧ flagOf w 0 = true :=
  ⟨0x8000000000000000, sv, by decide +kernel⟩

theorem witness_OffWordFirst_1 :
    ∃ (p : Nat) (s : State), safetyOff s p = true ∧ (posOf s p).kind ≠ .none ∧ let frame := inForce s (chainOfPos p) - 1; let off := heldState (posOf s p) (wordOf (posOf s p) (switchState s p (frame + 1) true) true); (posOf s p).posted.wordPick ≠ frame ∧ (chainOf s (chainOfPos p)).proc.all (fun q => q.counted.isSome) = true :=
  ⟨522241, svL, by decide +kernel⟩

theorem witness_SamplePaths_1 :
    ∃ (p : Nat) (m : Nat) (s : State), posExists s p = true ∧ s.up = true ∧ tileServes s p = true ∧ (posOf s p).kind ≠ .none ∧ ((posOf s p).state = .released ∨ (posOf s p).state = .bringingUp) ∧ 8 * m + 20 + liveDelay s p ≤ s.spc ∧ ((∀ y, tget s.loom.live (p * 16) = some y → y.m < m)) :=
  ⟨522240, 370, svJ, by decide +kernel, by decide +kernel, by decide +kernel, by decide +kernel, by decide +kernel, by decide +kernel, vac (by decide +kernel)⟩

theorem witness_SamplePaths_2 :
    ∃ (p : Nat) (m : Nat) (s : State), posExists s p = true ∧ s.up = true ∧ (posOf s p).kind ≠ .none ∧ 8 * m + 92 ≤ s.spc ∧ ((∀ y, (settledOf s (p * 16)).head? = some y → y.m < m)) :=
  ⟨522240, 360, svJ, by decide +kernel, by decide +kernel, by decide +kernel, by decide +kernel, vac (by decide +kernel)⟩

theorem witness_SamplePaths_3 :
    ∃ (chi : Nat) (k : Nat) (s : State), posExists s (posOfChi chi) = true ∧ s.up = true ∧ multiplexed (posOf s (posOfChi chi)).kind (chanOf chi) = true ∧ 200 * k + 272 ≤ s.spc ∧ ((∀ y, tget s.loom.dwell (entryKey chi (muxPos s (posOfChi chi) (chanOf chi) (200 * k))) = some y → y.m < k)) :=
  ⟨522240 * 16 + 13, 12, svJ, by decide +kernel, by decide +kernel, by decide +kernel, by decide +kernel, vac (by decide +kernel)⟩

theorem witness_SamplePaths_4 :
    ∃ (chi : Nat) (k : Nat) (s : State), posExists s (posOfChi chi) = true ∧ s.up = true ∧ hasPrimary (posOf s (posOfChi chi)).kind (chanOf chi) = true ∧ 200 * k + 1600 ≤ s.spc ∧ ((∀ y, tget s.loom.primary chi = some y → y.m < k)) :=
  ⟨522240 * 16 + 3, 6, svJ, by decide +kernel, by decide +kernel, by decide +kernel, by decide +kernel, vac (by decide +kernel)⟩

theorem witness_ReplayAndTiles_1 :
    ∃ (tile : Nat) (s : State), tileExists s.otp.variant tile = true ∧ s.up = true ∧ rebuilding s tile = false :=
  ⟨64, svJ, by decide +kernel⟩

theorem witness_ReplayAndTiles_2 :
    ∃ (chi : Nat) (s : State), posExists s (posOfChi chi) = true ∧ s.up = true :=
  ⟨522240 * 16, svJ, by decide +kernel⟩

theorem witness_ReplayAndTiles_3 :
    ∃ (d : Nat) (s : State), s.up = true ∧ s.spc < 8 * ((d + 12) / 8) + 92 :=
  ⟨2990, svJ, by decide +kernel⟩

theorem witness_ReplayAndTiles_4 :
    ∃ (s : State), s.up = true :=
  ⟨svJ, by decide +kernel⟩

theorem witness_ReplayAndTiles_5 :
    ∃ (phys : Nat) (tile : Nat) (u : Nat) (s : State), unitExists s.otp.variant 1 phys = true ∧ s.up = true ∧ ustate s 1 phys = .ready ∧ logicalOf s phys = some tile ∧ freeSpare s = some u :=
  ⟨64, 64, 65, svJ, by decide +kernel⟩

theorem witness_ReplayAndTiles_6 :
    ∃ (phys : Nat) (tile : Nat) (s : State), unitExists s.otp.variant 1 phys = true ∧ s.up = true ∧ ustate s 1 phys = .ready ∧ logicalOf s phys = some tile ∧ freeSpare s = none :=
  ⟨64, 64, setUnit 1 65 (fun _ => rdy) (setUnit 1 66 (fun _ => rdy) svJ), by decide +kernel⟩

theorem witness_ReplayAndTiles_7 :
    ∃ (phys : Nat) (s : State), unitExists s.otp.variant 1 phys = true ∧ s.up = true ∧ fencedUnit s 1 phys = false ∧ logicalOf s phys = none :=
  ⟨67, svJ, by decide +kernel⟩

theorem witness_ReplayAndTiles_8 :
    ∃ (tile : Nat) (s : State), tileExists s.otp.variant tile = true ∧ s.up = true ∧ s.time.refclkOk = true :=
  ⟨64, svJ, by decide +kernel⟩

theorem witness_ReplayAndTiles_9 :
    ∃ (s : State), s.up = true :=
  ⟨svJ, by decide +kernel⟩

theorem witness_ReplayAndTiles_10 :
    ∃ (fn : Nat) (trip : Nat) (s : State) (a : Reanalysis), s.up = true ∧ s.loom.reanalyses.find? (fun a => a.fn == fn && a.trip == trip && a.running) = some a :=
  ⟨256, 3, { svJ with loom := { svJ.loom with reanalyses := [ra0] } }, ra0, by decide +kernel⟩

theorem witness_HousekeepingValues_1 :
    ∃ (h : Nat) (k : Nat) (s : State), h < 24 ∧ hkRuns s = true ∧ hkRoundOf s h = some k ∧ s.boot.releasedAt ≤ 10000 * k + 400 * h ∧ ((∀ v, tget s.therm.values h = some v → v.round < k)) :=
  ⟨23, (hkRoundOf svK 23).getD 0, svK, by decide +kernel, by decide +kernel, by decide +kernel, by decide +kernel, by intro v hv; rw [show tget svK.therm.values 23 = some { round := 5, value := 0 } by decide +kernel] at hv; cases hv; decide +kernel⟩

theorem witness_HousekeepingValues_2 :
    ∃ (v : HkValue) (w : HkValue) (s : State), s.boot.phase = .running ∧ tget s.therm.values 0 = some v ∧ tget s.therm.values 23 = some w ∧ w.round + 1 = v.round ∧ ((∀ i, i < 24 → thas s.therm.values i = true)) ∧ 10000 * v.round + 420 ≤ s.spc ∧ s.therm.decided ≠ some v.round :=
  ⟨{ round := 6, value := 106000 }, { round := 5, value := 0 }, svK, by decide +kernel⟩

theorem witness_ThermalDecision_1 :
    ∃ (v : HkValue) (x : Int) (s : State), s.boot.phase = .running ∧ tget s.therm.values 0 = some v ∧ 10000 * v.round + 420 ≤ s.spc ∧ s.therm.decided ≠ some v.round ∧ (dieReading (closeRound v.round s)).1 = some x ∧ x < 118000 :=
  ⟨{ round := 6, value := 106000 }, 106000, svK, by decide +kernel⟩

theorem witness_ThermalShutdown_1 :
    ∃ (v : HkValue) (s : State), s.boot.phase = .running ∧ tget s.therm.values 0 = some v ∧ 10000 * v.round + 420 ≤ s.spc ∧ s.therm.decided ≠ some v.round ∧ (((∃ x, (dieReading (closeRound v.round s)).1 = some x ∧ 118000 ≤ x) ∨ (dieReading (closeRound v.round s)).1 = none ∧ 30 ≤ s.therm.unk + 1)) :=
  ⟨{ round := 6, value := 120000 }, svK2, by decide +kernel, by decide +kernel, by decide +kernel, by decide +kernel, .inl ⟨120000, by decide +kernel, by decide⟩⟩

theorem witness_ThermalShutdown_2 :
    ∃ (v : HkValue) (s : State), s.boot.phase = .running ∧ tget s.therm.values 0 = some v ∧ 10000 * v.round + 420 ≤ s.spc ∧ s.therm.decided ≠ some v.round ∧ (dieReading (closeRound v.round s)).1 = none ∧ s.therm.unk + 1 < 30 :=
  ⟨{ round := 6, value := 5, ovr := true }, svKu, by decide +kernel⟩

theorem witness_ThermalShutdown_3 :
    ∃ (v : HkValue) (s : State), s.boot.phase = .shutdown ∧ tget s.therm.values 0 = some v ∧ 10000 * v.round + 420 ≤ s.spc ∧ s.therm.decided ≠ some v.round :=
  ⟨{ round := 6, value := 120000 }, modBoot (fun b => { b with phase := .shutdown }) svK2, by decide +kernel⟩

theorem witness_ThermalShutdown_4 :
    ∃ (d : Nat) (cause : Nat) (s : State), s.boot.phase = .shutdown ∧ s.therm.shutAt = some (d, cause) ∧ d < s.spc :=
  ⟨999, 2, { modBoot (fun b => { b with phase := .shutdown }) sv with therm := { shutAt := some (999, 2) } }, by decide +kernel⟩

theorem witness_WearAndTrace_1 :
    ∃ (l : List WearSample) (s : State), s.up = true ∧ s.spc % 8640000000 = 0 ∧ s.therm.sampledAt ≠ some s.spc ∧ (l.map (·.wind)).Nodup :=
  ⟨[{ wind := 3, value := 200 }, { wind := 1, value := 5 }], svD, by decide +kernel⟩

theorem witness_WearAndTrace_2 :
    ∃ (s : State), s.up = true ∧ s.spc % 2160000000 = 0 ∧ s.boot.nvmLoaded = true :=
  ⟨svD, by decide +kernel⟩

theorem witness_WearAndTrace_3 :
    ∃ (r : Req) (s : State), Accepted (checksHkThermal r s) r s :=
  ⟨rq [], svK, accepted_of (by decide +kernel)⟩

theorem witness_WearAndTrace_4 :
    ∃ (r : Req) (s : State), Accepted (checksHkWear r s) r s :=
  ⟨rq [] 12, svK, accepted_of (by decide +kernel)⟩

theorem witness_WearAndTrace_5 :
    ∃ (r : Req) (s : State), Accepted (checksHkRecords r s) r s :=
  ⟨rq [1] 12, svK, accepted_of (by decide +kernel)⟩

theorem witness_WearAndTrace_6 :
    ∃ (r : Req) (s : State), Accepted (checksHkTrace r s) r s ∧ bits (reqWord r 4) 1 0 = 0 :=
  ⟨rq [0, 100, 0xF0], svK, accepted_of (by decide +kernel), by decide +kernel⟩

theorem witness_WearAndTrace_7 :
    ∃ (r : Req) (s : State), Accepted (checksHkTrace r s) r s ∧ bits (reqWord r 4) 1 0 = 2 :=
  ⟨rq [2], svK, accepted_of (by decide +kernel), by decide +kernel⟩

theorem witness_WearAndTrace_8 :
    ∃ (r : Req) (s : State), Accepted (checksHkTrace r s) r s ∧ bits (reqWord r 4) 1 0 = 1 :=
  ⟨rq [1] 12, svK, accepted_of (by decide +kernel), by decide +kernel⟩

set_option maxRecDepth 1000000 in
theorem witness_FirmwareAndTests_1 :
    ∃ (r : Req) (s : State), Accepted (checksHkFw r s) r s ∧ (reqWord r 4).toNat = 0 ∧ ((((reqWord r 5).toNat == 1) ≠ s.boot.slotB ∨ s.boot.romOnly = true)) :=
  ⟨rq [0, 1, 8] 6 (chk [5, 6]), sv, accepted_of (by decide +kernel), by decide +kernel⟩

set_option maxRecDepth 1000000 in
theorem witness_FirmwareAndTests_2 :
    ∃ (r : Req) (s : State), Accepted (checksHkFw r s) r s ∧ (reqWord r 4).toNat = 0 ∧ ((reqWord r 5).toNat == 1) = s.boot.slotB ∧ s.boot.romOnly = false :=
  ⟨rq [0, 0, 8] 6 (chk [5, 6]), sv, accepted_of (by decide +kernel), by decide +kernel⟩

theorem witness_FirmwareAndTests_3 :
    ∃ (r : Req) (s : State) (img : FwImage), Accepted (checksHkFw r s) r s ∧ (reqWord r 4).toNat = 1 ∧ slotImage s ((reqWord r 5).toNat == 1) = some img ∧ img.safetyVersion = s.boot.safetyVersion :=
  ⟨rq [1, 0], svW, {}, accepted_of (by decide +kernel), by decide +kernel⟩

theorem witness_FirmwareAndTests_4 :
    ∃ (r : Req) (s : State) (img : FwImage), Accepted (checksHkFw r s) r s ∧ (reqWord r 4).toNat = 1 ∧ slotImage s ((reqWord r 5).toNat == 1) = some img ∧ img.safetyVersion ≠ s.boot.safetyVersion ∧ s.safe.island = .run :=
  ⟨rq [1, 1], svW, { safetyVersion := 7 }, accepted_of (by decide +kernel), by decide +kernel⟩

theorem witness_FirmwareAndTests_5 :
    ∃ (r : Req) (s : State), Accepted (checksHkFw r s) r s ∧ (reqWord r 4).toNat = 2 :=
  ⟨rq [2, 0], svW, accepted_of (by decide +kernel), by decide +kernel⟩

theorem witness_FirmwareAndTests_6 :
    ∃ (r : Req) (s : State), Accepted (checksHkFw r s) r s ∧ (reqWord r 4).toNat = 3 :=
  ⟨rq [3, 0], svW, accepted_of (by decide +kernel), by decide +kernel⟩

theorem witness_FirmwareAndTests_7 :
    ∃ (b : Bool) (ref : CmdRef) (s : State), s.up = true ∧ s.boot.staging = some (b, ref) :=
  ⟨true, ref9, svStg, by decide +kernel⟩

theorem witness_FirmwareAndTests_8 :
    ∃ (b : Bool) (ref : CmdRef) (i : FwImage) (s : State), s.up = true ∧ s.boot.staging = none ∧ s.boot.activating = some (b, ref) ∧ slotImage s b = some i :=
  ⟨false, ref9, {}, modBoot (fun b => { b with activating := some (false, ref9) }) svW, by decide +kernel⟩

theorem witness_FirmwareAndTests_9 :
    ∃ (r : Req) (s : State), Accepted (checksHkBist r s) r s ∧ (reqWord r 4).toNat = 1 :=
  ⟨rq [1, 260], svBi, accepted_of (by decide +kernel), by decide +kernel⟩

theorem witness_FirmwareAndTests_10 :
    ∃ (r : Req) (s : State), Accepted (checksHkBist r s) r s ∧ (reqWord r 4).toNat = 0 :=
  ⟨rq [0] 14, svBi, accepted_of (by decide +kernel), by decide +kernel⟩

theorem witness_FirmwareAndTests_11 :
    ∃ (result : Nat) (cls : Nat) (u : Nat) (spare : Bool) (ref : CmdRef) (runs : List (Nat × Nat × Bool × CmdRef)) (s : State), s.up = true ∧ result < 256 ∧ s.boot.bistRuns = (cls, u, spare, ref) :: runs ∧ unitExists s.otp.variant cls u = true :=
  ⟨255, 4, 1, false, ref9, [], modBoot (fun b => { b with bistRuns := [(4, 1, false, ref9)] }) svBi, by decide +kernel⟩

theorem witness_FirmwareAndTests_12 :
    ∃ (s : State), (s.up = true ∨ s.boot.phase = .shutdown) ∧ s.boot.nvrState = 1 :=
  ⟨modBoot (fun b => { b with nvrState := 1 }) sv, by decide +kernel⟩

theorem witness_FirmwareAndTests_13 :
    ∃ (s : State), s.up = true ∧ s.boot.nvrState ≠ 1 ∧ s.boot.fnReady.getLsbD 1 = true :=
  ⟨sv, by decide +kernel⟩

theorem witness_FirmwareAndTests_14 :
    ∃ (s : State), s.boot.nvrState ≠ 1 ∧ (s.up = true ∧ s.boot.fnReady.getLsbD 1 = false ∨ s.boot.phase = .shutdown) :=
  ⟨modBoot (fun b => { b with fnReady := 0 }) sv, by decide +kernel⟩

theorem witness_FirmwareAndTests_15 :
    ∃ (s : State), s.up = true ∧ s.boot.nvrState = 1 :=
  ⟨modBoot (fun b => { b with nvrState := 1 }) sv, by decide +kernel⟩

theorem witness_TenantCommands_1 :
    ∃ (r : Req) (s : State), Accepted (checksTenCreate r s) r s :=
  ⟨rq [3], svTn, accepted_of (by decide +kernel)⟩

theorem witness_TenantCommands_2 :
    ∃ (r : Req) (s : State), Accepted (checksTenDestroy r s) r s :=
  ⟨rq [5], svTn, accepted_of (by decide +kernel)⟩

theorem witness_TenantCommands_3 :
    ∃ (r : Req) (s : State), Accepted (checksTenGrant r s) r s ∧ (reqWord r 5).toNat = 0 :=
  ⟨rq [5, 0, 0xFF00], svTn, accepted_of (by decide +kernel), by decide +kernel⟩

theorem witness_TenantCommands_4 :
    ∃ (r : Req) (s : State), Accepted (checksTenGrant r s) r s ∧ (reqWord r 5).toNat = 1 :=
  ⟨rq [5, 1, 2, 3, 4, 5], svTn, accepted_of (by decide +kernel), by decide +kernel⟩

theorem witness_TenantCommands_5 :
    ∃ (r : Req) (s : State), Accepted (checksTenRevoke r s) r s :=
  ⟨rq [0], svTn, accepted_of (by decide +kernel)⟩

theorem witness_TenantCommands_6 :
    ∃ (r : Req) (s : State), Accepted (checksTenQos r s) r s :=
  ⟨rq [5, 0x10001, 0x20002], svTn, accepted_of (by decide +kernel)⟩

theorem witness_TenantCommands_7 :
    ∃ (r : Req) (s : State), Accepted (checksTenReset r s) r s ∧ ((tget s.ten.tenants (reqWord r 4).toNat).bind (·.reset)).isSome = true :=
  ⟨rq [5], modTenant 5 (fun x => { x with reset := some { r := 3, cause := 1 } }) svTn, accepted_of (by decide +kernel), by decide +kernel⟩

theorem witness_TenantCommands_8 :
    ∃ (r : Req) (s : State), Accepted (checksTenReset r s) r s ∧ (tget s.ten.tenants (reqWord r 4).toNat).bind (·.reset) = none :=
  ⟨rq [5], svTn, accepted_of (by decide +kernel), by decide +kernel⟩

theorem witness_TenantCommands_9 :
    ∃ (r : Req) (s : State), Accepted (checksTenStatus r s) r s :=
  ⟨rq [5], svTn, accepted_of (by decide +kernel)⟩

end Sys2Proof.Tests
end

