-- ==== Sys2Proof/Tests/Witness4.lean ====
section
/-! SUPPORT. Witnesses of the statements' premises: for each clause that has premises, a state and operands that meet all of them together. -/

namespace Sys2Proof.Tests

open Sys2Proof Sys2Proof.Machine
set_option Elab.async false
set_option linter.unusedVariables false

theorem witness_TenantResets_1 :
    ∃ (vf : Nat) (x : Tenant) (s : State), s.up = true ∧ 1 ≤ vf ∧ vf ≤ 256 ∧ vfOn s (vf - 1) = true ∧ tget s.ten.tenants (vf - 1) = some x :=
  ⟨6, { pools := { windows := 3 } }, svTn, by decide +kernel⟩

theorem witness_TenantResets_2 :
    ∃ (s : State), s.up = true :=
  ⟨svTn, by decide +kernel⟩

theorem witness_TenantResets_3 :
    ∃ (s : State), s.up = true :=
  ⟨svTn, by decide +kernel⟩

theorem witness_TenantResets_4 :
    ∃ (k : Nat) (y : Tenant) (x : TenReset) (s : State), s.up = true ∧ k < 256 ∧ tget s.ten.tenants k = some y ∧ y.reset = some x ∧ x.done = false ∧ x.r ≤ s.spc :=
  ⟨5, { pools := { windows := 3 }, reset := some { r := 1000, cause := 1 } }, { r := 1000, cause := 1 }, svAt 1000 (modTenant 5 (fun x => { x with reset := some { r := 1000, cause := 1 } }) svTn), by decide +kernel⟩

theorem witness_TenantResets_5 :
    ∃ (k : Nat) (y : Tenant) (x : TenReset) (s : State), s.up = true ∧ k < 256 ∧ tget s.ten.tenants k = some y ∧ y.reset = some x ∧ x.done = true ∧ x.r + 500 ≤ s.spc ∧ x.cause ≠ 3 :=
  ⟨5, { pools := { windows := 3 }, reset := some { r := 1000, cause := 1, done := true } }, { r := 1000, cause := 1, done := true }, svAt 1500 (modTenant 5 (fun x => { x with reset := some { r := 1000, cause := 1, done := true } }) svTn), by decide +kernel⟩

theorem witness_TenantResets_6 :
    ∃ (k : Nat) (y : Tenant) (x : TenReset) (s : State), s.up = true ∧ k < 256 ∧ tget s.ten.tenants k = some y ∧ y.reset = some x ∧ x.done = true ∧ x.r + 500 ≤ s.spc ∧ x.cause = 3 :=
  ⟨5, { pools := { windows := 3 }, reset := some { r := 1000, cause := 3, done := true } }, { r := 1000, cause := 3, done := true }, svAt 1500 (modTenant 5 (fun x => { x with reset := some { r := 1000, cause := 3, done := true } }) svTn), by decide +kernel⟩

theorem witness_TenantResets_7 :
    ∃ (c : Nat) (g : Grant) (s : State), chainExists s c = true ∧ s.up = true ∧ tget s.ten.grants c = some g ∧ g.g ≤ s.spc ∧ (g.owner = mgmt ∨ thas s.ten.tenants g.owner = true) :=
  ⟨0, { owner := 5, g := 1000 }, { svTn with ten := { svTn.ten with grants := [(0, { owner := 5, g := 1000 })] } }, by decide +kernel⟩

theorem witness_TenantResets_8 :
    ∃ (c : Nat) (g : Grant) (s : State), chainExists s c = true ∧ s.up = true ∧ tget s.ten.grants c = some g ∧ g.g ≤ s.spc ∧ g.owner ≠ mgmt ∧ thas s.ten.tenants g.owner = false :=
  ⟨0, { owner := 6, g := 1000 }, { svTn with ten := { svTn.ten with grants := [(0, { owner := 6, g := 1000 })] } }, by decide +kernel⟩

theorem witness_RoundsAndInterrupts_1 :
    ∃ (s : State), s.up = true ∧ s.spc % 100 = 0 :=
  ⟨svTn, by decide +kernel⟩

theorem witness_RoundsAndInterrupts_2 :
    ∃ (fn : Nat) (v : Nat) (x : Vec) (s : State), s.up = true ∧ tget s.ten.vecs (fn * 256 + v) = some x ∧ x.want = true ∧ x.quietUntil ≤ s.spc ∧ x.masked = false :=
  ⟨5, 0, { masked := false, want := true, addr := 7, data := 9, mdr := 3 }, svTn, by decide +kernel⟩

theorem witness_RoundsAndInterrupts_3 :
    ∃ (fn : Nat) (v : Nat) (x : Vec) (s : State), s.up = true ∧ tget s.ten.vecs (fn * 256 + v) = some x ∧ x.want = true ∧ x.quietUntil ≤ s.spc ∧ x.masked = true :=
  ⟨5, 0, { masked := true, want := true, addr := 7, data := 9, mdr := 3 }, { svTn with ten := { svTn.ten with vecs := [(1280, { masked := true, want := true, addr := 7, data := 9, mdr := 3 })] } }, by decide +kernel⟩

theorem witness_RoundsAndInterrupts_4 :
    ∃ (s : State), s.up = true :=
  ⟨sv, by decide +kernel⟩

theorem witness_RoundsAndInterrupts_5 :
    ∃ (fn : Nat) (q : Nat) (cost : Nat) (x : Tenant) (w : Waiting) (l : List Waiting) (s : State), s.spc % 100 = 0 ∧ barLive s = true ∧ s.ten.tenants = [(fn, x)] ∧ fn < 256 ∧ x.state = .active ∧ 100 * cmdCores s ≤ cost ∧ ((∀ i, i < 16 → (ringAt s mgmt i).waiting = [])) ∧ tgetD s.ten.nextRing fn 0 = q ∧ q < 16 ∧ startable s fn q = some (w, l) :=
  ⟨5, 0, 100000, { pools := { windows := 3 } }, { index := 0, packet := { op := 0x0103, req := { fn := 5, ring := 0, cmdId := 3, w := [] } } }, [], { svTn with cmd := { rings := [(80, { enable := true, waiting := [{ index := 0, packet := { op := 0x0103, req := { fn := 5, ring := 0, cmdId := 3, w := [] } } }] })] } }, by decide +kernel⟩

theorem witness_PairMessages_1 :
    ∃ (m : PairMsg) (s : State), ¬ Heard m s :=
  ⟨ms [], sv, fun h => absurd h.paired (by decide +kernel)⟩

theorem witness_PairMessages_2 :
    ∃ (m : PairMsg) (d : Tbl Drive) (s : State), Heard m s ∧ s.pair.role = .companion ∧ (d.map (·.1)).Nodup :=
  ⟨ms [], [(5, {})], svM, heard_of (by decide +kernel), by decide +kernel⟩

theorem witness_PairMessages_3 :
    ∃ (m : PairMsg) (x : Trip) (s : State), Heard m s ∧ isLocal (chainOfChi x.chi) = false ∧ ((∀ y ∈ s.safe.trips, ¬ (y.cause = x.cause ∧ y.chi = x.chi ∧ y.mux = x.mux ∧ y.wset = x.wset))) :=
  ⟨ms [], { tr0 with chi := 5 }, svM, heard_of (by decide +kernel), by decide +kernel, fun y hy => by cases hy⟩

theorem witness_PairMessages_4 :
    ∃ (m : PairMsg) (s : State), Heard m s :=
  ⟨ms [4, 0, 5], svM, heard_of (by decide +kernel)⟩

theorem witness_PairMessages_5 :
    ∃ (m : PairMsg) (s : State), Heard m s :=
  ⟨ms [], svM, heard_of (by decide +kernel)⟩

theorem witness_PairMessages_6 :
    ∃ (m : PairMsg) (s : State), Heard m s :=
  ⟨ms [], svM, heard_of (by decide +kernel)⟩

theorem witness_PairMessages_7 :
    ∃ (s : State), s.up = true ∧ ((∃ u ∈ s.pair.unacked, u.sent + 4 ≤ s.spc)) :=
  ⟨{ svM with pair := { svM.pair with unacked := [ua0] } }, by decide +kernel⟩

theorem witness_PairMessages_8 :
    ∃ (m : PairMsg) (k : List (Nat × Bool)) (s : State), Heard m s ∧ (k.map (·.1)).Nodup :=
  ⟨ms [], [], svM, heard_of (by decide +kernel), by decide +kernel⟩

theorem witness_PairMessages_9 :
    ∃ (m : PairMsg) (s : State), Heard m s ∧ s.pair.role = .companion ∧ s.pair.resync = true :=
  ⟨ms [], { svM with pair := { svM.pair with resync := true } }, heard_of (by decide +kernel), by decide +kernel⟩

theorem witness_PairMessages_10 :
    ∃ (s : State), s.up = true ∧ s.pair.role = .companion ∧ s.pair.resync = true ∧ ((∀ i, i < 14 → i ∈ s.pair.taken)) ∧ s.safe.island = .run :=
  ⟨{ svM with pair := { svM.pair with resync := true, taken := List.range 14 } }, by decide +kernel⟩

theorem witness_PairMessages_11 :
    ∃ (m : PairMsg) (s : State), Heard m s ∧ s.pair.role = .companion :=
  ⟨ms [], svM, heard_of (by decide +kernel), by decide +kernel⟩

theorem witness_PairMessages_12 :
    ∃ (m : PairMsg) (s : State), Heard m s ∧ s.pair.role = .primary :=
  ⟨ms [], svMp, heard_of (by decide +kernel), by decide +kernel⟩

theorem witness_PairMessages_13 :
    ∃ (m : PairMsg) (d : Deferred) (s : State), Heard m s ∧ s.cmd.deferred.filter (acked (m.body.getD 0 0).toNat) = [d] ∧ d.ref.twin = false :=
  ⟨ms [4, 9], de0, { svMp with cmd := { svMp.cmd with deferred := [de0] } }, heard_of (by decide +kernel), by decide +kernel⟩

theorem witness_HeartbeatsAndFormation_1 :
    ∃ (h : PairMsg) (s : State), beatValid h s = false :=
  ⟨{ hbt with authentic := false }, svM, by decide +kernel⟩

theorem witness_HeartbeatsAndFormation_2 :
    ∃ (h : PairMsg) (peer : Option PeerView) (s : State), beatValid h s = true ∧ (s.pair.forming = none ∨ peer = none) ∧ s.pair.held = [] :=
  ⟨hbt, none, svM, by decide +kernel⟩

theorem witness_HeartbeatsAndFormation_3 :
    ∃ (h : PairMsg) (v : PeerView) (f : Forming) (s : State), beatValid h s = true ∧ s.pair.forming = some f ∧ s.pair.role = .single ∧ s.pair.link = false ∧ formationFails f v (takeBeat h s) = false :=
  ⟨hbt, pv, { join := true, pid := 4, laneMap := [(0, 0)], deadline := 5, cmd := { fn := 256, ring := 0, cmdId := 5 } }, svF1, by decide +kernel⟩

theorem witness_HeartbeatsAndFormation_4 :
    ∃ (h : PairMsg) (v : PeerView) (f : Forming) (s : State), beatValid h s = true ∧ s.pair.forming = some f ∧ s.pair.role = .single ∧ s.pair.link = false ∧ formationFails f v (takeBeat h s) = true :=
  ⟨hbt, { pv with variant := 2 }, { join := true, pid := 4, laneMap := [(0, 0)], deadline := 5, cmd := { fn := 256, ring := 0, cmdId := 5 } }, svF1, by decide +kernel⟩

theorem witness_HeartbeatsAndFormation_5 :
    ∃ (f : Forming) (s : State), s.up = true ∧ s.pair.forming = some f ∧ f.deadline ≤ s.spc :=
  ⟨{ join := true, pid := 4, laneMap := [(0, 0)], deadline := 5, cmd := { fn := 256, ring := 0, cmdId := 5 } }, svF1, by decide +kernel⟩

theorem witness_LinkAndMerge_1 :
    ∃ (s : State), s.up = true ∧ s.pair.link = true ∧ (s.pair.lastBeat + 2 ≤ s.spc ∨ twinMask s = 0) ∧ s.pair.held = [] ∧ s.pair.updating = none :=
  ⟨{ svMp with pair := { svMp.pair with lastBeat := 998 } }, by decide +kernel⟩

theorem witness_LinkAndMerge_2 :
    ∃ (s : State), s.up = true ∧ s.pair.link = false ∧ 8 ≤ s.pair.beats ∧ (s.pair.role ≠ .single ∨ s.pair.pid ≠ 0) ∧ s.pair.key = true ∧ s.pair.offsetOut = false :=
  ⟨{ svMp with pair := { svMp.pair with link := false } }, by decide +kernel⟩

theorem witness_LinkAndMerge_3 :
    ∃ (s : State), s.up = true ∧ s.pair.role ≠ .single ∧ mirrors s = false ∧ s.spc % 200 = 0 ∧ ((∀ l ∈ bridgeLanes s, noLease s l = false → flagOf (laneOf s l).lease 101 = true ∧ flagOf (laneOf s l).lease 102 = true)) ∧ (heldLanes s).length < ((bridgeLanes s).filter (otherHolds s)).length :=
  ⟨svLs, by decide +kernel⟩

theorem witness_LinkAndMerge_4 :
    ∃ (s : State), s.up = true ∧ s.pair.role ≠ .single ∧ mirrors s = false ∧ s.spc % 200 = 0 ∧ ((bridgeLanes s).filter (otherHolds s)).length < (heldLanes s).length :=
  ⟨{ svLs with otp := { svLs.otp with dieUid := 8 } }, by decide +kernel⟩

theorem witness_LinkAndMerge_5 :
    ∃ (x : Int) (s : State), s.up = true ∧ 200 < x.natAbs ∧ s.pair.role ≠ .single ∧ s.pair.offsetOut = false :=
  ⟨201, svMp, by decide +kernel⟩

theorem witness_LinkAndMerge_6 :
    ∃ (x : Int) (s : State), s.up = true ∧ x.natAbs ≤ 200 :=
  ⟨200, svMp, by decide +kernel⟩

theorem witness_LinkAndMerge_7 :
    ∃ (b : Nat) (s : State), s.up = true ∧ s.pair.stale = some b ∧ b ≤ s.spc ∧ s.pair.role = .primary :=
  ⟨1000, { svMp with pair := { svMp.pair with stale := some 1000 } }, by decide +kernel⟩

theorem witness_PairCommands_1 :
    ∃ (r : Req) (s : State), Accepted (checksPairConfig r s) r s ∧ bits (reqWord r 4) 1 0 ≠ 2 :=
  ⟨rq [0, 3, 0], sv, accepted_of (by decide +kernel), by decide +kernel⟩

theorem witness_PairCommands_2 :
    ∃ (r : Req) (s : State), Accepted (checksPairConfig r s) r s ∧ bits (reqWord r 4) 1 0 = 2 :=
  ⟨rq [2, 0, 0], svM, accepted_of (by decide +kernel), by decide +kernel⟩

theorem witness_PairCommands_3 :
    ∃ (r : Req) (s : State), Accepted (checksPairHandover r s) r s :=
  ⟨rq [], svMp, accepted_of (by decide +kernel)⟩

theorem witness_PairCommands_4 :
    ∃ (h : Handing) (s : State), s.up = true ∧ s.pair.handing = some h ∧ h.x ≤ s.spc :=
  ⟨{ x := 900, epoch := 4, take := true }, { svMp with pair := { svMp.pair with handing := some { x := 900, epoch := 4, take := true } } }, by decide +kernel⟩

theorem witness_PairCommands_5 :
    ∃ (m : PairMsg) (s : State), Heard m s ∧ s.pair.role = .companion ∧ s.pair.updating = none :=
  ⟨ms [1, 0, 0], svM, heard_of (by decide +kernel), by decide +kernel⟩

theorem witness_PairCommands_6 :
    ∃ (r : Req) (s : State), Accepted (checksPairStatus r s) r s :=
  ⟨rq [] 10, svM, accepted_of (by decide +kernel)⟩

theorem witness_PairCommands_7 :
    ∃ (r : Req) (s : State), Accepted (checksPairLease r s) r s :=
  ⟨rq [] 12, svM, accepted_of (by decide +kernel)⟩

set_option maxRecDepth 1000000 in
theorem witness_PairUpdate_1 :
    ∃ (r : Req) (s : State), Accepted (checksPairUpdate r s) r s :=
  ⟨rq [4] 6 (chk [9]), svMp, accepted_of (by decide +kernel)⟩

theorem witness_PairUpdate_2 :
    ∃ (k : ImageChecks) (parts : ImageParts) (s : State), s.up = true ∧ s.pair.updating.isSome = true ∧ s.pair.step = 1 ∧ s.safe.island = .run ∧ (imageSound s.otp.keyHash k s.pair.imageHead = false ∨ k.twin ≠ 0 ∨ imageFits s (imageOf s.pair.imageHead parts) = false) :=
  ⟨{}, {}, svU 1, by decide +kernel⟩

theorem witness_PairUpdate_3 :
    ∃ (k : ImageChecks) (parts : ImageParts) (s : State), s.up = true ∧ s.pair.updating.isSome = true ∧ s.pair.step = 1 ∧ imageSound s.otp.keyHash k s.pair.imageHead = true ∧ k.twin = 0 ∧ imageFits s (imageOf s.pair.imageHead parts) = true :=
  ⟨{}, {}, { svU 1 with pair := { (svU 1).pair with imageHead := head0 } }, by decide +kernel⟩

theorem witness_PairUpdate_4 :
    ∃ (s : State), s.up = true ∧ s.pair.updating.isSome = true ∧ s.pair.step = 3 ∧ s.pair.resync = false ∧ s.pair.twin.sub ≠ 1 ∧ mirrors s = true ∧ s.pair.role = .primary :=
  ⟨svU 3, by decide +kernel⟩

theorem witness_PairUpdate_5 :
    ∃ (s : State), s.up = true ∧ s.pair.updating.isSome = true ∧ (s.pair.step = 2 ∨ s.pair.step = 5) ∧ (s.boot.fallback = true ∨ s.nvm.trialFailed = true) ∧ s.safe.island = .run :=
  ⟨{ svU 5 with nvm := { (svU 5).nvm with trialFailed := true } }, by decide +kernel⟩

theorem witness_PairUpdate_6 :
    ∃ (s : State), s.up = true ∧ s.pair.updating.isSome = true ∧ s.pair.step = 2 ∧ s.boot.fallback = false ∧ s.nvm.trialFailed = false ∧ s.boot.warmReq = none ∧ s.pair.link = true :=
  ⟨svU 2, by decide +kernel⟩

theorem witness_PairUpdate_7 :
    ∃ (s : State), s.up = true ∧ s.pair.updating.isSome = true ∧ s.pair.step = 4 ∧ s.pair.handing = none :=
  ⟨svU 4, by decide +kernel⟩

theorem witness_PairUpdate_8 :
    ∃ (s : State), s.up = true ∧ s.pair.updating.isSome = true ∧ s.pair.step = 5 ∧ s.boot.fallback = false ∧ s.nvm.trialFailed = false ∧ s.boot.warmReq = none ∧ s.pair.link = true ∧ s.pair.resync = false ∧ s.pair.twin.sub ≠ 1 ∧ s.safe.island = .run :=
  ⟨svU 5, by decide +kernel⟩

theorem witness_DoorbellsAndRings_1 :
    ∃ (fn : Nat) (q : Nat) (tail : Nat) (ps : List Packet) (s : State), fn < mgmt ∧ q < 16 ∧ doorbellActs s fn = true ∧ (ringAt s fn q).enable = true ∧ let g := ringAt s fn q; let m := 2 ^ (g.log2 + 1); ringDist g (oldestOpen g) (tail % m) ≤ 2 ^ g.log2 ∧ ringDist g (oldestOpen g) g.tail + ps.length = ringDist g (oldestOpen g) (tail % m) ∧ ps ≠ [] :=
  ⟨5, 0, 16, (List.range 16).map pk, svN, by decide +kernel⟩

theorem witness_DoorbellsAndRings_2 :
    ∃ (fn : Nat) (q : Nat) (tail : Nat) (s : State), fn ≤ mgmt ∧ q < 16 ∧ doorbellActs s fn = true ∧ (ringAt s fn q).enable = true ∧ let g := ringAt s fn q; 2 ^ g.log2 < ringDist g (oldestOpen g) (tail % 2 ^ (g.log2 + 1)) :=
  ⟨5, 0, 17, svN, by decide +kernel⟩

theorem witness_DoorbellsAndRings_3 :
    ∃ (fn : Nat) (q : Nat) (head : Nat) (s : State), fn ≤ mgmt ∧ q < 16 ∧ doorbellActs s fn = true ∧ (ringAt s fn q).enable = true ∧ let g := ringAt s fn q; ringDist g g.head g.prod < ringDist g g.head (head % 2 ^ (g.log2 + 1)) :=
  ⟨5, 0, 1, svN, by decide +kernel⟩

theorem witness_DoorbellsAndRings_4 :
    ∃ (fn : Nat) (q : Nat) (head : Nat) (s : State), fn ≤ mgmt ∧ q < 16 ∧ doorbellActs s fn = true ∧ (ringAt s fn q).enable = true ∧ (fn ≠ mgmt ∨ (ringAt s fn q).waiting = []) ∧ let g := ringAt s fn q; ringDist g g.head (head % 2 ^ (g.log2 + 1)) ≤ ringDist g g.head g.prod :=
  ⟨5, 0, 0, svN, by decide +kernel⟩

theorem witness_DoorbellsAndRings_5 :
    ∃ (fn : Nat) (q : Nat) (s : State), fn ≤ mgmt ∧ q < 16 ∧ doorbellActs s fn = true ∧ (ringAt s fn q).enable = false :=
  ⟨256, 1, svN, by decide +kernel⟩

set_option maxRecDepth 1000000 in
theorem witness_DoorbellsAndRings_6 :
    ∃ (q : Nat) (tail : Nat) (p : Packet) (w : Waiting) (s : State), q < 16 ∧ doorbellActs s mgmt = true ∧ (ringAt s mgmt q).waiting = [] ∧ startable (modRing mgmt q (writeTail mgmt q tail [p]) s) mgmt q = some (w, []) :=
  ⟨0, 1, pk 0, ((startable (modRing mgmt 0 (writeTail mgmt 0 1 [pk 0]) svN) mgmt 0).getD ({ index := 0, packet := pk 0 }, [])).1, svN, by decide +kernel⟩

theorem witness_DoorbellsAndRings_7 :
    ∃ (fn : Nat) (q : Nat) (s : State), fn ≤ mgmt ∧ q < 16 ∧ writesAct s fn = true ∧ (ringAt s fn q).enable = false :=
  ⟨256, 1, svN, by decide +kernel⟩

theorem witness_DoorbellsAndRings_8 :
    ∃ (fn : Nat) (q : Nat) (s : State), fn ≤ mgmt ∧ q < 16 ∧ writesAct s fn = true ∧ (ringAt s fn q).enable = true :=
  ⟨5, 0, svN, by decide +kernel⟩

theorem witness_DoorbellsAndRings_9 :
    ∃ (fn : Nat) (s : State), fn ≤ mgmt ∧ writesAct s fn = true ∧ (tgetD s.ten.queues fn {}).enable = false :=
  ⟨5, svN, by decide +kernel⟩

theorem witness_DoorbellsAndRings_10 :
    ∃ (fn : Nat) (s : State), fn ≤ mgmt ∧ writesAct s fn = true :=
  ⟨5, svTn, by decide +kernel⟩

theorem witness_DoorbellsAndRings_11 :
    ∃ (fn : Nat) (s : State), fn ≤ mgmt ∧ writesAct s fn = true :=
  ⟨5, svTn, by decide +kernel⟩

theorem witness_RegistersAndMailboxes_1 :
    ∃ (v : Word) (s : State), barLive s = true ∧ bits v 31 16 = 0x5A17 ∧ bits v 0 0 = 1 ∧ s.boot.warmReq = none ∧ s.boot.nvmLoaded = true ∧ (s.wear.written = 0 ∨ s.spc < s.wear.written ∨ s.wear.written + 5000 < s.spc) :=
  ⟨0x5A170001, svN, by decide +kernel⟩

theorem witness_RegistersAndMailboxes_2 :
    ∃ (v : Word) (s : State), barLive s = true ∧ bits v 31 16 = 0x5A17 ∧ bits v 0 0 = 1 ∧ s.boot.warmReq = none ∧ s.wear.written ≠ 0 ∧ s.wear.written ≤ s.spc ∧ s.spc ≤ s.wear.written + 5000 :=
  ⟨0x5A170001, { svN with wear := { svN.wear with written := 900 } }, by decide +kernel⟩

theorem witness_RegistersAndMailboxes_3 :
    ∃ (v : Word) (s : State), (bits v 31 16 ≠ 0x5A17 ∨ bits v 0 0 = 0 ∨ barLive s = false ∨ s.boot.warmReq.isSome = true) :=
  ⟨0x5A170000, svN, by decide +kernel⟩

theorem witness_RegistersAndMailboxes_4 :
    ∃ (s : State), s.boot.phase ≠ .off :=
  ⟨svN, by decide +kernel⟩

theorem witness_RegistersAndMailboxes_5 :
    ∃ (fn : Nat) (off : Nat), fn ≤ mgmt ∧ isPairLow fn off = true ∧ ¬ (fn = mgmt ∧ off = 0x18) :=
  ⟨256, 0x10, by decide +kernel⟩

theorem witness_RegistersAndMailboxes_6 :
    ∃ (s : State), barLive s = true :=
  ⟨svN, by decide +kernel⟩

theorem witness_RegistersAndMailboxes_7 :
    ∃ (s : State), s.boot.phase ≠ .off ∧ 1000 ≤ s.spc :=
  ⟨svN, by decide +kernel⟩

theorem witness_RegistersAndMailboxes_8 :
    ∃ (off : Nat) (s : State), s.boot.phase ≠ .off ∧ 1000 ≤ s.spc ∧ off ≠ 0x400 :=
  ⟨8, svN, by decide +kernel⟩

theorem witness_RegistersAndMailboxes_9 :
    ∃ (s : State), writesAct s mgmt = true :=
  ⟨svN, by decide +kernel⟩

theorem witness_RegistersAndMailboxes_10 :
    ∃ (fn : Nat) (q : Nat) (s : State), fn < mgmt ∧ q < 16 ∧ writesAct s fn = true :=
  ⟨5, 0, svN, by decide +kernel⟩

theorem witness_RegistersAndMailboxes_11 :
    ∃ (fn : Nat) (off : Nat) (s : State), fn ≤ mgmt ∧ (writesAct s fn = false ∨ off % 4 ≠ 0 ∨ fn = mgmt ∧ 0x101020 ≤ off) :=
  ⟨256, 0x101020, svN, by decide +kernel⟩

theorem witness_RegistersAndMailboxes_12 :
    ∃ (n : Nat) (k : Nat) (s : State), n < 256 ∧ k < 4 ∧ barLive s = true ∧ (tget s.ten.tenants n).map Tenant.state = some .active ∧ (tgetD s.ten.mbx (n * 8 + k) {}).busy = false ∧ (tgetD s.ten.queues n {}).store.length < 1024 ∧ bits (tgetD s.ten.clsTab (n * 16) 1) 0 0 = 1 :=
  ⟨5, 3, svN, by decide +kernel⟩

theorem witness_RegistersAndMailboxes_13 :
    ∃ (n : Nat) (k : Nat) (s : State), n < 256 ∧ k < 4 ∧ barLive s = true ∧ ((tget s.ten.tenants n).map Tenant.state = some .resetting ∨ tget s.ten.tenants n = none) :=
  ⟨6, 0, svN, by decide +kernel⟩

theorem witness_RegistersAndMailboxes_14 :
    ∃ (n : Nat) (k : Nat) (s : State), n < 256 ∧ k < 4 ∧ barLive s = true ∧ (tget s.ten.tenants n).map Tenant.state = some .active ∧ (tgetD s.ten.mbx (n * 8 + k) {}).busy = true :=
  ⟨5, 2, { svN with ten := { svN.ten with mbx := [(42, { busy := true })] } }, by decide +kernel⟩

theorem witness_RegistersAndMailboxes_15 :
    ∃ (n : Nat) (k : Nat) (s : State), n < 256 ∧ 4 ≤ k ∧ k < 8 ∧ writesAct s n = true ∧ (tgetD s.ten.mbx (n * 8 + k) {}).busy = false ∧ (tgetD s.ten.queues mgmt {}).store.length < 1024 ∧ bits (tgetD s.ten.srcTab (0x800 + 8 * n + k) 1) 0 0 = 1 :=
  ⟨5, 4, svN, by decide +kernel⟩

theorem witness_RegistersAndMailboxes_16 :
    ∃ (n : Nat) (k : Nat) (s : State), n < 256 ∧ 4 ≤ k ∧ k < 8 ∧ writesAct s n = true ∧ (tgetD s.ten.mbx (n * 8 + k) {}).busy = true :=
  ⟨5, 7, { svN with ten := { svN.ten with mbx := [(47, { busy := true })] } }, by decide +kernel⟩

theorem witness_Refusals_1 :
    ∃ (k : Checks) (r : Req) (s : State) (e : Nat), served r s = true ∧ r.twin = false ∧ r.back = false ∧ routeOf k.op r s = .here ∧ firstFail k r s = some e :=
  ⟨checksDevInfo (rq [] 3) sv, rq [] 3, sv, ST_BAD_LENGTH, by decide +kernel⟩

theorem witness_Refusals_2 :
    ∃ (r : Req) (s : State), served r s = false :=
  ⟨{ rq [] with fn := 6 }, sv, by decide +kernel⟩

theorem witness_Refusals_3 :
    ∃ (op : Nat) (r : Req) (s : State), opMeaning op = none ∧ served r s = true ∧ r.twin = false :=
  ⟨0x1234, rq [], sv, by decide +kernel⟩

end Sys2Proof.Tests
end

section
namespace Sys2Proof.Machine

/-- Settles O5: the reset value asserts the kill line, which meets every clause of the invariant. -/
theorem resetSafe : Obligations.ResetSafe := by
  unfold Obligations.ResetSafe
  exact ⟨held_kill rfl, rfl, rfl, rfl, rfl, rfl, rfl⟩

end Sys2Proof.Machine
end

section
namespace Sys2Proof.Machine

/-! ### The word of a tag that is demanded off (R10, R48, R76) -/

@[simp] theorem posOf_modPos_same (p : Nat) (f : Posn → Posn) (s : State) : posOf (modPos p f s) p = f (posOf s p) :=
  tgetD_tmod_same ..

@[simp] theorem diagOf_modDiag_same (p : Nat) (f : TagDiag → TagDiag) (s : State) : diagOf (modDiag p f s) p = f (diagOf s p) :=
  tgetD_tmod_same ..

@[simp] theorem posOf_noteSwitch (p q : Nat) (d : Disturb) (s : State) : posOf (noteSwitch p d s) q = posOf s q := rfl

@[simp] theorem posOf_dropInjection (p q r : Nat) (s : State) : posOf (dropInjection p q s) r = posOf s r := by
  unfold dropInjection
  split <;> rfl

/-- Within its window an injection that an off word drops goes on as a dropped one; nothing else of the window's use changes. -/
theorem quietAt_dropInjection (p q : Nat) (s : State) :
    quietAt (dropInjection p q s) p q = (quietAt s p q).map fun e => (e.1, if e.2 = .injection then .dropped else e.2) := by
  unfold dropInjection
  split
  · next h => rw [h]; simpa [quietAt] using h
  · next i h =>
    rw [h]
    unfold quietAt at h ⊢
    rw [diagOf_modDiag_same]
    cases hq : (diagOf s p).quiet with
    | none => simp [hq] at h
    | some e => simp only [hq] at h; simp only [Option.map_some]; split at h <;> simp_all
  · next h1 h2 =>
    cases h : quietAt s p q with
    | none => rfl
    | some e =>
      obtain ⟨i, u⟩ := e
      have : u ≠ .injection := fun hu => h2 i (by rw [h, hu])
      simp [this]

/-- The multiplexer positions of a window stay when its injection is dropped (R48). -/
theorem hkAt_dropInjection (p q : Nat) (s : State) : hkAt (dropInjection p q s) p q = hkAt s p q := by
  unfold hkAt
  rw [quietAt_dropInjection, posOf_dropInjection]
  rcases quietAt s p q with _ | ⟨i, u⟩
  · rfl
  · cases u <;> rfl

theorem thmAt_dropInjection (p q : Nat) (s : State) : thmAt (dropInjection p q s) p q = thmAt s p q := by
  unfold dropInjection
  split <;> rfl

/-- What an off word puts in force does not depend on what it interrupts. -/
theorem switchState_off_dropInjection (p q : Nat) (s : State) :
    switchState (dropInjection p q s) p q true = switchState s p q true := by
  simp [switchState, muxOf, muxAt, hkAt_dropInjection, thmAt_dropInjection]

/-- The off word of a tag for the frame before pick `q`. -/
def offWord (s : State) (p q : Nat) : Word := wordOf (posOf s p) (switchState s p q true) true

theorem offWord_dropInjection (p q : Nat) (s : State) : offWord (dropInjection p q s) p q = offWord s p q := by
  simp [offWord, switchState_off_dropInjection]

theorem holdsOff_iff (s : State) (p q : Nat) :
    holdsOff s p q = true ↔ heldState (posOf s p) (posOf s p).posted.normal = heldState (posOf s p) (offWord s p q) := by
  simp [holdsOff, offWord]

/-- An off word is a word of its tag whatever setpoint and dither are posted. -/
theorem wordOf_off (x : Posn) (y : Posted) (d : Disturb) : wordOf { x with posted := y } d true = wordOf x d true := by
  simp [wordOf]

/-- The word sent for an off word, and the normal word noted of it. -/
theorem posted_putNormal_off (p frame : Nat) (s : State) :
    let y := (posOf (putNormal p frame true s) p).posted
    y.normal = offWord s p (frame + 1) ∧ y.word = offWord s p (frame + 1) ∧ y.wordPick = frame := by
  simp [putNormal, putWord, offWord, wordOf_off]

theorem posted_putWord (p frame : Nat) (w : Word) (f : Posted → Posted) (s : State) :
    (posOf (putWord p frame w f s) p).posted = f { (posOf s p).posted with word := w, wordPick := frame } := by
  unfold putWord
  rw [posOf_modPos_same]

/-- A waiting word that goes is a reset or a power-configuration word, and leaves the normal word. -/
theorem posted_putSpecial {p frame : Nat} {s t : State} (h : putSpecial p frame s = some t) :
    let y := (posOf t p).posted
    y.normal = (posOf s p).posted.normal ∧ y.wordPick = frame ∧ (y.word = resetWord ∨ ∃ cfg, y.word = powerWord cfg) := by
  unfold putSpecial at h
  dsimp only at h
  split at h
  · cases h
    rw [posted_putWord]
    exact ⟨rfl, rfl, .inl rfl⟩
  · split at h
    · next cfg _ =>
      cases h
      rw [posOf_modPos_same, posted_putWord]
      exact ⟨rfl, rfl, .inr ⟨cfg, rfl⟩⟩
    · cases h

/-- Under a demand, outside enumeration and with no word in the frame yet, a tag is sent the off word, or a waiting word once it holds the off
state (R10, R76). -/
theorem assemble_demanded {p : Nat} {s : State} (hoff : safetyOff s p = true) (hk : (posOf s p).kind ≠ .none)
    (hw : (posOf s p).posted.wordPick ≠ inForce s (chainOfPos p) - 1)
    (hp : (chainOf s (chainOfPos p)).proc.all (fun q => q.counted.isSome) = true) :
    let frame := inForce s (chainOfPos p) - 1
    let u := dropInjection p (frame + 1) s
    assemble p s = putNormal p frame true u
      ∨ holdsOff u p (frame + 1) = true ∧ putSpecial p frame u = some (assemble p s) := by
  intro frame u
  have henum : ((chainOf s (chainOfPos p)).proc.map (fun q => q.counted.isNone)).getD false = false := by
    cases hq : (chainOf s (chainOfPos p)).proc with
    | none => rfl
    | some q => simpa [hq, Option.isNone_eq_false_iff] using hp
  have hsp : ((posOf s p).posted.wordPick == inForce s (chainOfPos p) - 1) = false := by simpa using hw
  have htyped : ((posOf s p).kind != .none) = true := by simpa using hk
  unfold assemble
  simp only [hoff, htyped, henum, hsp, Bool.false_and, Bool.true_and, Bool.and_self, Bool.false_eq_true, if_false, Bool.not_true, if_true]
  split
  · exact .inl rfl
  · split
    · exact .inl rfl
    · next hh =>
      change (putSpecial p frame u).getD (putNormal p frame true u) = _ ∨ _ ∧ _ =
        some ((putSpecial p frame u).getD (putNormal p frame true u))
      cases putSpecial p frame u with
      | none => exact .inl rfl
      | some t => exact .inr ⟨by simpa using hh, rfl⟩

/-- Settles O42: whatever is posted, the word is the off word, or a waiting word sent to a tag that holds the off state already. -/
theorem offWordFirst : Obligations.OffWordFirst := by
  unfold Obligations.OffWordFirst
  intro p s hoff hk frame off hw hp x
  have hoffw : off = heldState (posOf s p) (offWord s p (frame + 1)) := rfl
  rcases assemble_demanded hoff hk hw hp with h | ⟨hh, h⟩
  · obtain ⟨hn, hword, hpick⟩ := posted_putNormal_off p frame (dropInjection p (frame + 1) s)
    rw [offWord_dropInjection] at hn hword
    rw [← h] at hn hword hpick
    exact ⟨by rw [hoffw, ← hn], hpick, .inl (hword.trans hn.symm), fun hne => absurd (hword.trans hn.symm) hne⟩
  · obtain ⟨hn, hpick, hword⟩ := posted_putSpecial h
    rw [holdsOff_iff, offWord_dropInjection, posOf_dropInjection, ← hoffw] at hh
    rw [posOf_dropInjection] at hn
    exact ⟨by rw [← hh, ← hn], hpick, .inr hword, fun _ => hh⟩

end Sys2Proof.Machine
end

section
/-! Commands without an inbound buffer, and the outbound buffers of R164 and R399. -/

namespace Sys2Proof.Machine

/-! ### What an accepted packet has passed (R397) -/

theorem earlyFail_of_accepted {k : Checks} {r : Req} {s : State} (h : Accepted k r s) : earlyFail k r = none := by
  have hp := h.pass
  unfold firstFail at hp
  cases he : earlyFail k r with
  | none => rfl
  | some e => simp [he] at hp

/-- The checks of the command's form that an early failure names, when none fails. -/
theorem earlyFail_none {k : Checks} {r : Req} (h : earlyFail k r = none) : sizeOk k.buf r = true ∧ k.params = true := by
  unfold earlyFail at h
  split at h
  · cases h
  · split at h
    · cases h
    · split at h
      · cases h
      · next hsize =>
        split at h
        · cases h
        · next hparams =>
          rw [Bool.not_eq_true, Bool.not_eq_false'] at hsize hparams
          exact ⟨hsize, ((Bool.and_eq_true ..).mp hparams).2⟩

theorem params_of_accepted {k : Checks} {r : Req} {s : State} (h : Accepted k r s) : k.params = true :=
  (earlyFail_none (earlyFail_of_accepted h)).2

theorem sizeOk_of_accepted {k : Checks} {r : Req} {s : State} (h : Accepted k r s) : sizeOk k.buf r = true :=
  (earlyFail_none (earlyFail_of_accepted h)).1

/-! ### Serving a command -/

/-- A packet that brings no buffer leaves the counts of checks alone. -/
theorem noteInbound_of_no_inb {k : Checks} (hb : ∀ cls n, k.buf ≠ .inb cls n) (r : Req) (s : State) : noteInbound k r s = s := by
  unfold noteInbound
  split
  · next cls n h => exact absurd h (hb cls n)
  · rfl

/-- An accepted packet that brings no buffer acts on the state but for its trace record, and answers with its reply. -/
theorem command_accepted_traced {k : Checks} {r : Req} {s : State} (h : Accepted k r s) (hb : ∀ cls n, k.buf ≠ .inb cls n) :
    ∃ s2, Traced s s2 ∧ ∀ act, command k r s act = replied r k.op s.spc (act s2) := by
  have ht : Traced s (traceCommand 0x200 (reqRef r) 0 s) := traced_traceCommand ..
  have hsp : (traceCommand 0x200 (reqRef r) 0 s).spc = s.spc := congrArg View.spc (view_traceCommand 0x200 (reqRef r) 0 s)
  have hroute : (Route.here == Route.both) = false := rfl
  refine ⟨_, ht, fun act => ?_⟩
  unfold command
  simp only [hroute, h.served, h.own, h.first, (routeOf_traced ht ..).trans h.here, (firstFail_traced ht ..).trans h.pass,
    noteInbound_of_no_inb hb, Bool.not_true, Bool.false_eq_true, if_false, Bool.or_self, if_true, beq_self_eq_true, Bool.true_or,
    reduceCtorEq, decide_true, hsp]
  cases act (traceCommand 0x200 (reqRef r) 0 s) <;> rfl

/-- A reply that completes at once: the completion, what is left apart, and the buffers and checks of the effect. -/
theorem replied_now {r : Req} {s e u : State} {st op accept : Nat} {res : List Word} (hown : r.twin = false)
    (hst : st = ST_OK ∨ st = ST_ACCEPTED ∨ st = ST_INTERNAL) (ho : Only e u) (hs : u.spc = s.spc)
    (hc : u.out.completions = s.out.completions) :
    let t := replied r op accept (.now st res u)
    Completes r st res s t ∧ Only e t ∧ t.out.buffers = u.out.buffers ∧ t.cmd.chk = u.cmd.chk := by
  have hw : replied r op accept (.now st res u) = writeCompletion (reqRef r) st res u.spc u := by
    simp only [replied, completeAt, show (reqRef r).twin = false from hown, Bool.false_eq_true, if_false]
  obtain ⟨c, tr, fr, vs, ms, rs, hwc, hfn, hring, hid, hstat, hspc, hres⟩ := writeCompletion_writes (reqRef r) st res u.spc u
  intro t
  have ht : t = _ := hw.trans hwc
  refine ⟨⟨c, ?_, hfn, hring, hid, hstat, hspc.trans hs, hres.trans (if_pos hst)⟩, ?_, ?_, ?_⟩
  · rw [ht, ← hc]
  · rw [show t = _ from hw]
    exact only_writeCompletion _ _ _ _ ho
  · rw [ht]
  · rw [ht]

theorem answers_replied_now {r : Req} {s e u : State} {st op accept : Nat} {res : List Word} (hown : r.twin = false)
    (hst : st = ST_OK ∨ st = ST_ACCEPTED ∨ st = ST_INTERNAL) (ho : Only e u) (hs : u.spc = s.spc)
    (hc : u.out.completions = s.out.completions) : Answers (.next (replied r op accept (.now st res u))) r st res s e := by
  obtain ⟨hcomp, honly, -, -⟩ := replied_now (op := op) (accept := accept) (res := res) hown hst ho hs hc
  exact ⟨_, rfl, hcomp, honly⟩

/-- A command that brings no buffer and completes at once with ST_OK, changing nothing. -/
theorem answers_unchanged {k : Checks} {r : Req} {s : State} {act : State → Reply} {res : List Word} (h : Accepted k r s)
    (hb : ∀ cls n, k.buf ≠ .inb cls n) (ha : ∀ s2, Traced s s2 → act s2 = .now ST_OK res s2) :
    Answers (.next (command k r s act)) r ST_OK res s s := by
  obtain ⟨s2, ht, hc⟩ := command_accepted_traced h hb
  rw [hc, ha s2 ht]
  obtain ⟨tr, fr, rfl⟩ := ht
  exact answers_replied_now h.own (.inl rfl) rfl rfl rfl

/-! ### Outbound buffers (R164, R399) -/

theorem fitRecords_fits (room : Nat) (l : List (List Word)) : (fitRecords room l).flatten.length * 4 ≤ room := by
  induction l generalizing room with
  | nil => simp [fitRecords]
  | cons x l ih =>
    unfold fitRecords
    split
    · next h =>
      have := ih (room - x.length * 4)
      simp only [List.flatten_cons, List.length_append]
      omega
    · simp

/-- A section's header is eight words. -/
theorem length_sectionWords (x : Section) (recs : List (List Word)) : (sectionWords x recs).length = 8 + recs.flatten.length := by
  simp only [sectionWords, wd64, List.length_append, List.length_cons, List.length_nil]

theorem fitSections_fits (room : Nat) (l : List Section) : (fitSections room l).words.length * 4 ≤ room := by
  induction l generalizing room with
  | nil => simp [fitSections]
  | cons x l ih =>
    have hrec := fitRecords_fits (room - 32) x.records
    unfold fitSections
    dsimp only
    split
    · simp
    · have hws := length_sectionWords x (fitRecords (room - 32) x.records)
      split
      · dsimp only; omega
      · have := ih (room - (sectionWords x (fitRecords (room - 32) x.records)).length * 4)
        simp only [List.length_append]
        omega

/-- What R164 and R395 ask of the words of a buffer of a class: magic and class first, within `SIZE`, and closed by the check word. -/
structure BufferWords (magic cls kind : Nat) (r : Req) (ws : List Word) : Prop where
  head : ws.take 2 = [wd magic, wd (0x01000000 + cls * 2 ^ 16 + r.fn)]
  fits : ws.length * 4 ≤ 2 ^ r.size
  check : ws.getLast? = some (checkWord kind ws.dropLast)

theorem buildBuffer_words (h : BufHead) (r : Req) (secs : List Section) (s : State) (htail : h.tail.length = 5) (hsize : 68 ≤ 2 ^ r.size) :
    BufferWords h.magic h.cls (chkOf s r.fn h.chkClass).kind r (buildBuffer h r secs s).1 where
  head := by simp [buildBuffer]
  fits := by
    have := fitSections_fits (2 ^ r.size - 68) secs
    simp only [buildBuffer, wd64, List.length_append, List.length_cons, List.length_nil, htail]
    omega
  check := by simp only [buildBuffer, List.getLast?_concat, List.dropLast_concat]

/-- A buffer written for the host changes, beside the buffers, only what `Only` sets apart. -/
theorem emitBuffer_writes (h : BufHead) {r : Req} (secs : List Section) (s : State) (hown : r.twin = false) :
    let ws := (buildBuffer h r secs s).1
    let o := emitBuffer h r secs s
    o.2.1.headD 0 = wd (ws.length * 4) ∧ o.2.2.spc = s.spc ∧ o.2.2.out.completions = s.out.completions
      ∧ o.2.2.out.buffers = { fn := r.fn, cmdId := r.cmdId, addr := r.buf, words := ws } :: s.out.buffers
      ∧ ∀ e, Only e s → Only e o.2.2 := by
  simp only [emitBuffer, hown, Bool.false_eq_true, if_false]
  exact ⟨rfl, rfl, rfl, rfl, fun e h => h⟩

/-- A buffer whose sections are not consumed is one of the sections that its continuation leaves. -/
theorem harvestOut_writes (h : BufHead) {r : Req} (sel : List Nat) (secs : List (Nat × Section)) (s : State) (hown : r.twin = false) :
    let ws := (buildBuffer h r ((harvestLeft h r sel secs s).map (·.2)) s).1
    let o := harvestOut h r sel secs s
    o.2.1.headD 0 = wd (ws.length * 4) ∧ o.2.2.spc = s.spc ∧ o.2.2.out.completions = s.out.completions
      ∧ o.2.2.out.buffers = { fn := r.fn, cmdId := r.cmdId, addr := r.buf, words := ws } :: s.out.buffers
      ∧ ∀ e, Only e s → Only e o.2.2 := by
  have hb := emitBuffer_writes h ((harvestLeft h r sel secs s).map (·.2)) s hown
  unfold harvestOut
  dsimp only at hb ⊢
  generalize emitBuffer h r ((harvestLeft h r sel secs s).map (·.2)) s = o at hb ⊢
  exact hb

/-- A status command of R399 writes a buffer of sections and answers its length. -/
theorem emitStatus_writes (op : Nat) {r : Req} (recs : List (List (List Word))) (s : State) (hown : r.twin = false) (hsize : 68 ≤ 2 ^ r.size) :
    ∃ ws, (emitStatus op r recs s).2.1.headD 0 = wd (ws.length * 4) ∧ (emitStatus op r recs s).2.2.spc = s.spc
      ∧ (emitStatus op r recs s).2.2.out.completions = s.out.completions
      ∧ (emitStatus op r recs s).2.2.out.buffers = { fn := r.fn, cmdId := r.cmdId, addr := r.buf, words := ws } :: s.out.buffers
      ∧ (∀ e, Only e s → Only e (emitStatus op r recs s).2.2) ∧ BufferWords 0x4B545354 (op / 256) (chkOf s r.fn 0).kind r ws := by
  obtain ⟨hres, hspc, hcomp, hbuf, honly⟩ := harvestOut_writes { magic := 0x4B545354, cls := op / 256 } (op :: r.w.map (·.toNat))
    (recs.zipIdx.map fun rs => (rs.2, { stype := op % 256, start := s.spc, stop := s.spc, records := rs.1 })) s hown
  exact ⟨_, hres, hspc, hcomp, hbuf, honly, buildBuffer_words { magic := 0x4B545354, cls := op / 256 } r _ s rfl hsize⟩

end Sys2Proof.Machine
end

section
/-! The commands of classes DEV and CHK, and the PTM response (R22, R395, R400, R414). -/

namespace Sys2Proof.Machine

/-- `DEV.CAPS` writes one buffer, for which the check of `SIZE` left room, and answers its length. -/
theorem reports_devCaps {r : Req} {s : State} (h : Accepted (checksDevCaps r s) r s) :
    Reports (execDevCaps r s) r 0x4B545354 1 0 (fun res ws => res = [wd (ws.length * 4)]) s s := by
  obtain ⟨s2, ht, hc⟩ := command_accepted_traced h nofun
  have hsize : 68 ≤ 2 ^ r.size := by
    have hz := sizeOk_of_accepted h
    simp only [checksDevCaps, sizeOk, outMin, Bool.and_eq_true] at hz
    exact Nat.le_trans (by decide : 68 ≤ 64 + 32 + 256 + 4) (of_decide_eq_true hz.2)
  obtain ⟨ws, hres, hspc, hcomp, hbuf, honly, hw⟩ := emitStatus_writes 0x0102 [[capRecord s2 r.fn]] s2 h.own hsize
  have hact : actDevCaps r s s2 = .now ST_OK [(emitStatus 0x0102 r [[capRecord s2 r.fn]] s2).2.1.headD 0]
      (emitStatus 0x0102 r [[capRecord s2 r.fn]] s2).2.2 := rfl
  unfold execDevCaps
  rw [hc, hact, hres]
  generalize (emitStatus 0x0102 r [[capRecord s2 r.fn]] s2).2.2 = u at *
  obtain ⟨tr, fr, rfl⟩ := ht
  obtain ⟨hc1, ho1, hb1, -⟩ := replied_now (r := r) (s := s) (op := (checksDevCaps r s).op) (accept := s.spc) (st := ST_OK)
    (res := [wd (ws.length * 4)]) h.own (.inl rfl) (honly s rfl) hspc hcomp
  exact ⟨_, _, _, rfl, hc1, rfl, ho1, hb1.trans hbuf, rfl, rfl, rfl, hw.head, hw.fits, hw.check⟩

/-- `DEV.TIME` latches a fraction and answers the exchange of the last PTM response, or none, against it. -/
theorem answers_devTime {r : Req} {s : State} {ptm : Option Ptm} (h : Accepted (checksDevTime r s) r s) (hp : s.time.ptm = ptm) :
    ∃ f : BitVec 10, Answers (execDevTime r s) r ST_OK
      (ptm.elim [wd f.toNat, wd (sat32 s.time.spc), 0, 0] fun p =>
        [wd (2 ^ 31 + p.frac.toNat * 2 ^ 16 + f.toNat), wd (sat32 (s.time.spc - p.spc))] ++ wd64 p.host.toNat) s
      { s with time := { s.time with frac := f } } := by
  obtain ⟨s2, ⟨tr, fr, rfl⟩, hc⟩ := command_accepted_traced h nofun
  refine ⟨Config.subPick fr, ?_⟩
  unfold execDevTime
  rw [hc]
  unfold actDevTime State.takeFrac
  dsimp only
  rw [hp]
  cases ptm with
  | none => exact answers_replied_now h.own (.inl rfl) rfl rfl rfl
  | some p => exact answers_replied_now h.own (.inl rfl) rfl rfl rfl

/-- Transfer classes of functions have keys of their own. -/
theorem chkKey_inj {fn c fn' c' : Nat} (hc : c < 8) (hc' : c' < 8) (h : (fn, c) ≠ (fn', c')) : fn * 8 + c ≠ fn' * 8 + c' := by
  intro he
  exact h (Prod.ext (by simp only; omega) (by simp only; omega))

/-- `CHK.BIND` writes the record of its transfer class. -/
theorem actChkBind_now (r : Req) {s s2 : State} (ht : Traced s s2) :
    ∃ u, actChkBind r s s2 = .now ST_OK [] u ∧ Only s u ∧ u.spc = s.spc ∧ u.out.completions = s.out.completions
      ∧ u.cmd.chk = tmod s.cmd.chk (r.fn * 8 + (reqWord r 4).toNat) {} fun x =>
          { x with
            bound := bits (reqWord r 5) 8 8 == 0, kind := if bits (reqWord r 5) 8 8 == 0 then bits (reqWord r 5) 1 0 else 0 } := by
  obtain ⟨tr, fr, rfl⟩ := ht
  exact ⟨_, rfl, rfl, rfl, rfl, rfl⟩

/-- `CHK.BIND` binds its transfer class and no other. -/
theorem completes_chkBind {r : Req} {s : State} (h : Accepted (checksChkBind r s) r s) :
    ∃ t, execChkBind r s = .next t ∧ Completes r ST_OK [] s t ∧ Only s t
      ∧ (chkOf t r.fn (reqWord r 4).toNat).kind = (if bits (reqWord r 5) 8 8 = 0 then bits (reqWord r 5) 1 0 else 0)
      ∧ (chkOf t r.fn (reqWord r 4).toNat).bound = (bits (reqWord r 5) 8 8 == 0)
      ∧ ∀ fn c, c < 8 → (fn, c) ≠ (r.fn, (reqWord r 4).toNat) → chkOf t fn c = chkOf s fn c := by
  obtain ⟨s2, ht, hc⟩ := command_accepted_traced h nofun
  have hcls : (reqWord r 4).toNat < 8 := by
    have hp := params_of_accepted h
    simp only [checksChkBind, Bool.and_eq_true, decide_eq_true_eq] at hp
    exact hp.1.1.2
  obtain ⟨u, hact, honly, hspc, hcomp, hchk⟩ := actChkBind_now r ht
  unfold execChkBind
  rw [hc, hact]
  obtain ⟨hc1, ho1, -, hk1⟩ := replied_now (op := (checksChkBind r s).op) (accept := s.spc) (res := []) h.own (.inl rfl) honly hspc hcomp
  have hk := hk1.trans hchk
  refine ⟨_, rfl, hc1, ho1, ?_, ?_, fun fn c hlt hne => ?_⟩
  · simp [chkOf, hk, tgetD_tmod_same]
  · simp [chkOf, hk, tgetD_tmod_same]
  · simp only [chkOf, hk, tgetD_tmod_other _ _ _ _ _ _ (chkKey_inj hlt hcls hne)]

/-- A PTM response latches the host time with the SPC and a fraction. -/
theorem ptmResponse_latches (host : BitVec 64) {s : State} (hup : s.boot.phase = .running) (hlink : s.boot.linkUp = true) :
    execPtmResponse host s = .next { s with
      fresh := s.fresh + 1
      time := { s.time with
        frac := Config.subPick s.fresh, ptm := some { host := host, spc := s.time.spc, frac := Config.subPick s.fresh } } } := by
  simp [execPtmResponse, State.up, State.takeFrac, State.spc, hup, hlink]

/-- Settles O10: each command has no inbound buffer, so it acts on the state but for its trace record. -/
theorem devAndCheckCommands : Obligations.DevAndCheckCommands := by
  unfold Obligations.DevAndCheckCommands
  refine ⟨⟨fun r s h => ?info, fun r s h => ?ready, fun r s h => ?nop, fun r s p h hp => ?time, fun r s h hp => ?noTime,
    fun r s h => ?caps⟩, fun r s h => ?bind, fun r s h => ?status, fun host s hup hlink => ?ptm⟩
  case info => exact answers_unchanged h nofun (by rintro _ ⟨tr, fr, rfl⟩; rfl)
  case ready => exact answers_unchanged h nofun (by rintro _ ⟨tr, fr, rfl⟩; rfl)
  case nop => exact answers_unchanged h nofun (by rintro _ ⟨tr, fr, rfl⟩; rfl)
  case time => exact answers_devTime h hp
  case noTime => exact answers_devTime h hp
  case caps => exact reports_devCaps h
  case bind => exact completes_chkBind h
  case status => exact answers_unchanged h nofun (by rintro _ ⟨tr, fr, rfl⟩; rfl)
  case ptm => exact ⟨_, ptmResponse_latches host hup hlink⟩

end Sys2Proof.Machine
end

section
/-! What lockout, the change log and a demand at an input write (R339, R344, R345, R350). -/

namespace Sys2Proof.Machine

/-! ### Events, the change log and yielding -/

theorem raiseNow_writes (src kind arg : Nat) (s : State) :
    ∃ tr fr qs, raiseNow src kind arg s = { s with trace := tr, fresh := fr, ten := { s.ten with queues := qs } } :=
  raise_writes src kind arg s.spc s

@[simp] theorem raiseNow_safe (src kind arg : Nat) (s : State) : (raiseNow src kind arg s).safe = s.safe := by
  obtain ⟨tr, fr, qs, h⟩ := raiseNow_writes src kind arg s
  rw [h]

@[simp] theorem raiseNow_line (src kind arg : Nat) (s : State) : (raiseNow src kind arg s).line = s.line := by
  obtain ⟨tr, fr, qs, h⟩ := raiseNow_writes src kind arg s
  rw [h]

/-- A log entry, or a count of entries lost, writes the log, event queues and the trace. -/
theorem logChange_writes (kind fn wset : Nat) (detail : List Word) (s : State) :
    ∃ lg sq lost w tr fr qs, logChange kind fn wset detail s = { s with
      safe := { s.safe with log := lg, logSeq := sq, logLost := lost, logWarned := w }
      trace := tr, fresh := fr, ten := { s.ten with queues := qs } } := by
  unfold logChange
  split
  · exact ⟨_, _, _, _, _, _, _, rfl⟩
  · extract_lets prev n body e s1
    split
    · obtain ⟨tr, fr, qs, h⟩ := raiseNow_writes 0x204 0xA5 0 (modSafe (fun x => { x with logWarned := true }) s1)
      exact ⟨_, _, _, _, _, _, _, h⟩
    · exact ⟨_, _, _, _, _, _, _, rfl⟩

/-- Yielding sends a message and notes what is released. -/
theorem yieldPair_writes (cause : Nat) (s : State) :
    ∃ p ms, yieldPair cause s = { s with pair := p, out := { s.out with pair := ms } } := by
  unfold yieldPair
  split
  · exact ⟨_, _, rfl⟩
  · exact ⟨_, _, rfl⟩

/-! ### Lockout -/

/-- What an entry into lockout writes: the island's state and log, the alert, events and the pair. -/
theorem lockNow_writes {s : State} (cause : Nat) (h : s.safe.island ≠ .lockout) :
    ∃ lg sq lost w a1 a2 a3 tr fr qs p ms, lockNow cause s = { s with
      safe := { s.safe with
        island := .lockout, kill := true, causes := [cause], ackUntil := none, testing := false
        log := lg, logSeq := sq, logLost := lost, logWarned := w }
      boot := { s.boot with alertStat := a1, alertNew := a2, alertAt := a3 }
      trace := tr, fresh := fr, ten := { s.ten with queues := qs }, pair := p, out := { s.out with pair := ms } } := by
  unfold lockNow
  rw [if_neg h]
  extract_lets s1
  obtain ⟨tr, fr, qs, h1⟩ := raiseNow_writes 0x200 0xA2 cause (setAlert 2 s1)
  obtain ⟨lg, sq, lost, w, tr', fr', qs', h2⟩ := logChange_writes 0x0A mgmt 0 [wd cause] (raiseNow 0x200 0xA2 cause (setAlert 2 s1))
  obtain ⟨p, ms, h3⟩ := yieldPair_writes 1 (logChange 0x0A mgmt 0 [wd cause] (raiseNow 0x200 0xA2 cause (setAlert 2 s1)))
  rw [h3, h2, h1]
  exact ⟨lg, sq, lost, w, _, _, _, tr', fr', qs', p, ms, rfl⟩

/-- A cause that is added to a list of causes unless it stands there already. -/
theorem mem_noted (l : List Nat) (c : Nat) : c ∈ (if l.contains c then l else l ++ [c]) ∧ l <+: (if l.contains c then l else l ++ [c]) := by
  split
  · next h => exact ⟨by simpa using h, List.prefix_refl l⟩
  · exact ⟨by simp, List.prefix_append l [c]⟩

/-- A lockout cause is taken up in each state of the island as that state asks for. -/
theorem locksOut_enterLockout (cause : Nat) (s : State) : LocksOut cause s (enterLockout cause s) := by
  unfold enterLockout
  cases hi : s.safe.island with
  | start =>
    rw [if_pos rfl]
    exact ⟨fun h => absurd (hi.symm.trans h) (by decide), fun h => absurd (hi.symm.trans h) (by decide),
      fun h => ⟨h, (mem_noted ..).1, rfl⟩, ⟨rfl, rfl, rfl, rfl⟩, ⟨rfl, rfl, rfl, rfl, rfl, rfl⟩, ⟨rfl, rfl, rfl, rfl⟩⟩
  | lockout =>
    rw [if_neg (by decide)]
    unfold lockNow
    rw [if_pos hi]
    exact ⟨fun h => absurd (hi.symm.trans h) (by decide), fun h => ⟨h, mem_noted ..⟩, fun h => absurd (hi.symm.trans h) (by decide),
      ⟨rfl, rfl, rfl, rfl⟩, ⟨rfl, rfl, rfl, rfl, rfl, rfl⟩, ⟨rfl, rfl, rfl, rfl⟩⟩
  | run =>
    rw [if_neg (by decide)]
    obtain ⟨lg, sq, lost, w, a1, a2, a3, tr, fr, qs, p, ms, h⟩ := lockNow_writes (s := s) cause (by rw [hi]; decide)
    rw [h]
    exact ⟨fun _ => ⟨rfl, rfl, rfl, rfl⟩, fun h => absurd (hi.symm.trans h) (by decide), fun h => absurd (hi.symm.trans h) (by decide),
      ⟨rfl, rfl, rfl, rfl⟩, ⟨rfl, rfl, rfl, rfl, rfl, rfl⟩, ⟨rfl, rfl, rfl, rfl⟩⟩

/-- What lockout leaves of the records found bad and of the lines read back. -/
theorem enterLockout_records (cause : Nat) (s : State) :
    (enterLockout cause s).safe.bad = s.safe.bad ∧ (enterLockout cause s).safe.readback = s.safe.readback := by
  unfold enterLockout
  split
  · exact ⟨rfl, rfl⟩
  · by_cases h : s.safe.island = .lockout
    · unfold lockNow
      rw [if_pos h]
      exact ⟨rfl, rfl⟩
    · obtain ⟨lg, sq, lost, w, a1, a2, a3, tr, fr, qs, p, ms, he⟩ := lockNow_writes cause h
      rw [he]
      exact ⟨rfl, rfl⟩

theorem outputsOff_of_not_run {s : State} (h : s.safe.island ≠ .run) : OutputsOff s := by
  intro k
  simp [outOn, h]

theorem run_of_outOn {s : State} {k : Nat} (h : outOn s k = true) : s.safe.island = .run := by
  refine Decidable.byContradiction fun hne => ?_
  exact absurd ((outputsOff_of_not_run hne k).symm.trans h) Bool.false_ne_true

/-! ### Inputs -/

theorem testBit_setBit (x k j : Nat) (v : Bool) : (setBit x k v).testBit j = if j = k then v else x.testBit j := by
  unfold setBit
  split
  · next h => split <;> simp_all
  · next h =>
    rw [Nat.testBit_xor, Nat.testBit_two_pow]
    split
    · next hj => subst hj; cases hx : x.testBit j <;> cases v <;> simp_all
    · next hj => simp [Ne.symm hj]

/-- An input that demands SPO demands it of every chain of its scope. -/
theorem inputOff_of_demand {s : State} {k c : Nat} (hk : k < 4) (hd : inputDemand s k = true)
    (hs : (s.safe.inputs.getD k {}).scope = 1 ∨ (s.safe.inputs.getD k {}).scope = 2 ∧ c ∈ (s.safe.inputs.getD k {}).chains) :
    inputOff s c = true := by
  refine List.any_eq_true.mpr ⟨k, List.mem_range.mpr hk, ?_⟩
  rcases hs with h | ⟨h, hc⟩ <;> simp_all

/-- An input that demands SPO drops the outputs of its mask. -/
theorem outOn_of_demand {s : State} {k o : Nat} (hk : k < 4) (hd : inputDemand s k = true)
    (hm : (s.safe.inputs.getD k {}).mask.testBit o = true) : outOn s o = false := by
  have h : (List.range 4).any (fun i => inputDemand s i && (s.safe.inputs.getD i {}).mask.testBit o) = true :=
    List.any_eq_true.mpr ⟨k, List.mem_range.mpr hk, by rw [hd, hm]; rfl⟩
  simp only [outOn, h, Bool.not_true, Bool.and_false]

end Sys2Proof.Machine
end

section
/-! Internal faults, input demands and output test pulses (R15, R338, R339, R342, R345). -/

namespace Sys2Proof.Machine

theorem onObject_true (s : State) : onObject true s = .next s := rfl

/-- A running device is up. -/
theorem up_of_running {s : State} (h : s.boot.phase = .running) : s.up = true := by simp [State.up, h]

/-- A cause taken up after a change of the island's noted records is taken up of the state before it. -/
theorem locksOut_noted {cause : Nat} {s : State} (bad : List Nat) (rb : Tbl Bool) :
    LocksOut cause s (enterLockout cause (modSafe (fun u => { u with bad := bad, readback := rb }) s)) := by
  have h := locksOut_enterLockout cause (modSafe (fun u => { u with bad := bad, readback := rb }) s)
  exact ⟨h.run, h.lockout, h.start, h.trips, h.config, h.rest⟩

theorem safetyRecordCheckFail_locksOut {record : Nat} {s : State} (hup : s.boot.phase = .running) (hr : recordHeld s record = true) :
    ∃ t, execSafetyRecordCheckFail record s = .next t ∧ LocksOut LC_CFG s t ∧ record ∈ t.safe.bad := by
  refine ⟨_, by rw [execSafetyRecordCheckFail, up_of_running hup, hr]; rfl, locksOut_noted _ s.safe.readback, ?_⟩
  rw [(enterLockout_records ..).1]
  by_cases h : s.safe.bad.contains record = true <;> simp_all [modSafe]

theorem outFb_locksOut {k : Nat} {lineB readback : Bool} {s : State} (hk : k < 8) (hup : s.boot.phase = .running) (hr : readback ≠ outOn s k) :
    ∃ t, execOutFb k lineB readback s = .next t ∧ LocksOut LC_OUT_FB s t ∧ tget t.safe.readback (2 * k + b2n lineB) = some readback := by
  have hne : (readback != outOn s k) = true := by simpa using hr
  refine ⟨_, by rw [execOutFb, up_of_running hup, hne, decide_eq_true hk]; rfl, locksOut_noted s.safe.bad _, ?_⟩
  rw [(enterLockout_records ..).2]
  exact tget_tset_same ..

/-- A line that stays high through its test pulse locks out, and lockout switches every output off. -/
theorem safeOutTestPulse_high {k : Nat} (lineB : Bool) {s : State} (hk : k < 8) (hup : s.boot.phase = .running) (hon : outOn s k = true) :
    ∃ t, execSafeOutTestPulse k lineB true s = .next t ∧ t.safe.island = .lockout ∧ t.safe.causes = [LC_OUT_FB] ∧ OutputsOff t := by
  simp only [execSafeOutTestPulse, up_of_running hup, hon, decide_eq_true hk, onObject_true, Bool.and_self, if_true]
  have hrun : s.safe.island = .run := run_of_outOn hon
  obtain ⟨hl, -, hc, -⟩ := (locksOut_enterLockout LC_OUT_FB (modSafe
    (fun u => { u with readback := tset u.readback (2 * k + b2n lineB) true })
    { s with out := { s.out with pins := (2 * k + b2n lineB, true) :: (2 * k + b2n lineB, false) :: s.out.pins } })).run hrun
  exact ⟨_, rfl, hl, hc, outputsOff_of_not_run (by rw [hl]; decide)⟩

theorem safeOutTestPulse_low {k : Nat} (lineB : Bool) {s : State} (hk : k < 8) (hup : s.boot.phase = .running) (hon : outOn s k = true) :
    execSafeOutTestPulse k lineB false s = .next { s with
      out := { s.out with pins := (2 * k + b2n lineB, true) :: (2 * k + b2n lineB, false) :: s.out.pins }
      safe := { s.safe with readback := tdel s.safe.readback (2 * k + b2n lineB) } } := by
  rw [execSafeOutTestPulse, up_of_running hup, hon, decide_eq_true hk]
  rfl

/-- The island with the lines of input `k` as read, and its demand recognised and latched where the input is used and latches. -/
def demanded (k : Nat) (a b : Bool) (u : SafeUnit) : SafeUnit :=
  let used : Bool := (u.inputs.getD k {}).scope != 0
  { u with
    inA := setBit u.inA k a, inB := setBit u.inB k b
    demand := if used then setBit u.demand k true else u.demand
    latched := if used && (u.inputs.getD k {}).latch then setBit u.latched k true else u.latched }

/-- A line that goes low is seen at once, and changes the island and no chain. -/
theorem safeInDemand_next {k : Nat} {a b : Bool} {s : State} (hk : k < 4) (hup : s.boot.phase = .running) (hab : (a && b) = false) :
    ∃ t, execSafeInDemand k a b s = .next t ∧ t.safe = demanded k a b s.safe ∧ t.line = s.line := by
  simp only [execSafeInDemand, up_of_running hup, hab, decide_eq_true hk, onObject_true, Bool.not_false, Bool.and_self, if_true]
  refine ⟨_, rfl, ?_⟩
  by_cases hs : (s.safe.inputs.getD k {}).scope = 0
  · have hu : ((s.safe.inputs.getD k {}).scope != 0) = false := by rw [hs]; rfl
    simp only [if_pos hs, demanded, hu, Bool.false_and, Bool.false_eq_true, if_false]
    exact ⟨rfl, rfl⟩
  · have hu : ((s.safe.inputs.getD k {}).scope != 0) = true := by simpa using hs
    simp only [if_neg hs, recogniseIn, raiseNow_safe, raiseNow_line, demanded, hu, Bool.true_and, if_true]
    exact ⟨rfl, rfl⟩

theorem demanded_unused {k : Nat} (a b : Bool) {u : SafeUnit} (h : (u.inputs.getD k {}).scope = 0) :
    (demanded k a b u).demand = u.demand ∧ (demanded k a b u).latched = u.latched := by
  have hu : ((u.inputs.getD k {}).scope != 0) = false := by rw [h]; rfl
  simp only [demanded, hu, Bool.false_and, Bool.false_eq_true, if_false, and_self]

theorem demanded_used {k : Nat} (a b : Bool) {u : SafeUnit} (h : (u.inputs.getD k {}).scope ≠ 0) :
    (demanded k a b u).demand.testBit k = true
      ∧ ((u.inputs.getD k {}).latch = true → (demanded k a b u).latched.testBit k = true) := by
  have hu : ((u.inputs.getD k {}).scope != 0) = true := by simpa using h
  refine ⟨?_, fun hl => ?_⟩
  · simp only [demanded, hu, if_true, testBit_setBit]
  · simp only [demanded, hu, hl, Bool.and_self, if_true, testBit_setBit]

theorem demanded_other {k j : Nat} (a b : Bool) (u : SafeUnit) (hj : j ≠ k) :
    (demanded k a b u).demand.testBit j = u.demand.testBit j ∧ (demanded k a b u).latched.testBit j = u.latched.testBit j
      ∧ (demanded k a b u).inA.testBit j = u.inA.testBit j ∧ (demanded k a b u).inB.testBit j = u.inB.testBit j := by
  simp only [demanded, apply_ite (Nat.testBit · j), testBit_setBit, if_neg hj, ite_self, and_self]

/-- An input in use demands SPO from its demand on. -/
theorem inputDemand_demanded {k : Nat} {a b : Bool} {s t : State} (ht : t.safe = demanded k a b s.safe)
    (hs : (s.safe.inputs.getD k {}).scope ≠ 0) : inputDemand t k = true := by
  have hin : t.safe.inputs = s.safe.inputs := by rw [ht]; rfl
  have hd : t.safe.demand.testBit k = true := by rw [ht]; exact (demanded_used a b hs).1
  have hu : ((s.safe.inputs.getD k {}).scope != 0) = true := by simpa using hs
  rw [inputDemand, hd, hin, hu, Bool.true_or, Bool.and_self]

/-- Settles O27: an internal fault enters lockout for its cause; a demand writes the lines and the demand of its input alone. -/
theorem lockoutCauses : Obligations.LockoutCauses := by
  unfold Obligations.LockoutCauses
  refine ⟨⟨fun s hup => ?faults, fun record s hup hr => safetyRecordCheckFail_locksOut hup hr, fun k s hk hup hs => ?discrepancy,
    fun k lineB rb s hk hup hr => outFb_locksOut hk hup hr, fun k lineB s hk hup hon => safeOutTestPulse_high lineB hk hup hon⟩,
    fun k a b s hk hup hab => ?demand, fun k s hk hup => ?release, fun k lineB s hk hup hon => safeOutTestPulse_low lineB hk hup hon⟩
  case faults =>
    have hu := up_of_running hup
    exact ⟨⟨_, by rw [exec, execClockMonitorFault, hu]; rfl, locksOut_enterLockout ..⟩,
      ⟨_, by rw [exec, execSafetyCoreFault, hu]; rfl, locksOut_enterLockout ..⟩,
      ⟨_, by rw [exec, execIslandWatchdogExpiry, hu]; rfl, locksOut_enterLockout ..⟩,
      ⟨_, by rw [exec, execIslandSupplyFault, hu]; rfl, locksOut_enterLockout ..⟩⟩
  case discrepancy =>
    have hu : ((s.safe.inputs.getD k {}).scope != 0) = true := by simpa using hs
    exact ⟨_, by rw [exec, execSafeInDiscrepancy, up_of_running hup, hu, decide_eq_true hk]; rfl, locksOut_enterLockout ..⟩
  case demand =>
    intro x
    obtain ⟨t, he, ht, hl⟩ := safeInDemand_next hk hup hab
    have hin : t.safe.inputs = s.safe.inputs := by rw [ht]; rfl
    have hbits : t.safe.inA.testBit k = a ∧ t.safe.inB.testBit k = b := by simp only [ht, demanded, testBit_setBit, if_true, and_self]
    refine ⟨t, he, hbits.1, hbits.2, fun h0 => by rw [ht]; exact demanded_unused a b h0, fun hs => ?_,
      fun j hj => by rw [ht]; exact demanded_other a b _ hj, by rw [ht]; rfl, by rw [ht]; rfl, hl⟩
    have hd := inputDemand_demanded ht hs
    obtain ⟨hdem, hlat⟩ := demanded_used a b hs
    rw [← ht] at hdem hlat
    exact ⟨hdem, hlat, fun h1 c => inputOff_of_demand hk hd (by rw [hin]; exact .inl h1),
      fun h2 c hc => inputOff_of_demand hk hd (by rw [hin]; exact .inr ⟨h2, hc⟩), fun o ho => outOn_of_demand hk hd (by rw [hin]; exact ho)⟩
  case release =>
    refine ⟨_, by rw [exec, execSafeInRelease, up_of_running hup, decide_eq_true hk]; rfl, ?_⟩
    simp +contextual [modSafe, testBit_setBit]

end Sys2Proof.Machine
end

section
/-! What the operations that move the island leave of the rest of the view: start-up, the SPC, power and the run counts. -/

namespace Sys2Proof.Machine

/-- The view of a state without the island: its state, the kill line and the password are blanked. -/
def offIsland (s : State) : View := { view s with island := .start, kill := true, password := none }

theorem offIsland_of {a b : State} (h : view a = view b) : offIsland a = offIsland b := by rw [offIsland, offIsland, h]

theorem offIsland_modSafe (f : SafeUnit → SafeUnit) (s : State) : offIsland (modSafe f s) = offIsland s := rfl

theorem offIsland_forEach {α : Type} (l : List α) (s : State) (f : α → State → State) (h : ∀ a t, offIsland (f a t) = offIsland t) :
    offIsland (forEach l s f) = offIsland s :=
  forEach_keeps (offIsland · = offIsland s) l s f (fun a t ht => (h a t).trans ht) rfl

theorem offIsland_lockNow (cause : Nat) (s : State) : offIsland (lockNow cause s) = offIsland s := by
  by_cases h : s.safe.island = .lockout
  · unfold lockNow
    rw [if_pos h]
    rfl
  · obtain ⟨lg, sq, lost, w, a1, a2, a3, tr, fr, qs, p, ms, he⟩ := lockNow_writes cause h
    rw [he]
    rfl

theorem offIsland_enterLockout (cause : Nat) (s : State) : offIsland (enterLockout cause s) = offIsland s := by
  unfold enterLockout
  split
  · rfl
  · exact offIsland_lockNow ..

theorem offIsland_leaveStart (s : State) : offIsland (leaveStart s) = offIsland s := by
  unfold leaveStart
  split
  · extract_lets upd causes
    split
    · exact offIsland_forEach _ _ _ offIsland_lockNow
    · split <;> rfl
  · rfl

theorem offIsland_settleReady (s : State) : offIsland (settleReady s) = offIsland s :=
  (offIsland_leaveStart _).trans (offIsland_of ((view_actOnWake _).trans (view_refreshReady s)))

/-- The kill line stays asserted through a lockout cause. -/
theorem kill_enterLockout (cause : Nat) {s : State} (h : s.safe.kill = true) : (enterLockout cause s).safe.kill = true := by
  unfold enterLockout
  split
  · exact h
  · by_cases hl : s.safe.island = .lockout
    · unfold lockNow
      rw [if_pos hl]
      exact h
    · obtain ⟨lg, sq, lost, w, a1, a2, a3, tr, fr, qs, p, ms, he⟩ := lockNow_writes cause hl
      rw [he]

end Sys2Proof.Machine
end

section
/-! REFCLK, VLINE, scan and zeroisation (R16, R445, R467, R529). -/

namespace Sys2Proof.Machine

/-- A device that is not without VDD_AON takes the row. -/
theorem phase_ne_off {s : State} (h : s.boot.phase ≠ .off) : (s.boot.phase == .off) = false := by simpa using h

/-- What a running device does on losing its reference, once the loss is noted: chains and lanes are cut, and lockout is taken up. -/
theorem cutAndLock_keeps (l : List Nat) (s : State) :
    let t := refreshReady (enterLockout LC_REFCLK (cutLanes (cutChains l s)))
    bringView t = bringView s ∧ offIsland t = offIsland s
      ∧ (s.safe.island = .run → t.safe.island = .lockout ∧ t.safe.kill = true) := by
  have hv : view (cutLanes (cutChains l s)) = view s := (view_cutLanes _).trans (view_cutChains ..)
  refine ⟨(bring_refreshReady _).trans ((bring_enterLockout ..).trans ((bring_cutLanes _).trans (bring_cutChains ..))),
    (offIsland_of (view_refreshReady _)).trans ((offIsland_enterLockout ..).trans (offIsland_of hv)), fun hrun => ?_⟩
  obtain ⟨hl, hk, -, -⟩ := (locksOut_enterLockout LC_REFCLK _).run ((congrArg View.island hv).trans hrun)
  exact ⟨(congrArg View.island (view_refreshReady _)).trans hl, (congrArg View.kill (view_refreshReady _)).trans hk⟩

theorem refclkLoss_holds {s : State} (hoff : s.boot.phase ≠ .off) (hok : s.time.refclkOk = true) :
    ∃ t, execRefclkLoss s = .next t ∧ t.time.refclkOk = false ∧ t.time.holdover = true ∧ t.time.holdoverFrom = s.time.spc
      ∧ t.time.spc = s.time.spc ∧ (s.boot.phase = .running → s.safe.island = .run → t.safe.island = .lockout ∧ t.safe.kill = true) := by
  simp only [execRefclkLoss, phase_ne_off hoff, hok, Bool.not_true, Bool.or_self, Bool.false_eq_true, if_false]
  refine ⟨_, rfl, ?_⟩
  by_cases hup : s.boot.phase = .running
  · rw [if_pos (up_of_running hup)]
    obtain ⟨hb, ho, hl⟩ := cutAndLock_keeps
      (poweredChains { s with time := { s.time with refclkOk := false, holdover := true, holdoverFrom := s.spc } })
      { s with time := { s.time with refclkOk := false, holdover := true, holdoverFrom := s.spc } }
    exact ⟨congrArg BringView.refclkOk hb, congrArg View.holdover ho, congrArg BringView.holdoverFrom hb, congrArg View.spc ho, fun _ => hl⟩
  · rw [if_neg (by simpa [State.up] using hup)]
    exact ⟨rfl, rfl, rfl, rfl, fun h => absurd h hup⟩

theorem refclkRelock_ends {step : Nat} {s : State} (hstep : step < 1024) (hoff : s.boot.phase ≠ .off) (hok : s.time.refclkOk = false) :
    ∃ t, execRefclkRelock step s = .next t ∧ t.time.refclkOk = true ∧ t.time.holdover = false ∧ t.time.relockStep = step
      ∧ t.time.spc = s.time.spc ∧ t.safe = s.safe := by
  unfold execRefclkRelock
  rw [decide_eq_true hstep, onObject_true, phase_ne_off hoff, hok, Bool.or_self, if_neg Bool.false_ne_true]
  exact ⟨_, rfl, rfl, rfl, rfl, rfl, rfl⟩

theorem vlineOutOfRange_noted {s : State} (hoff : s.boot.phase ≠ .off) :
    ∃ t, execVlineOutOfRange s = .next t ∧ t.boot.vlineOk = false ∧ t.time.spc = s.time.spc := by
  unfold execVlineOutOfRange
  rw [phase_ne_off hoff, if_neg Bool.false_ne_true]
  refine ⟨_, rfl, ?_⟩
  split
  · exact ⟨congrArg BringView.vlineOk (bring_dropPorts _), congrArg View.spc (view_dropPorts _)⟩
  · exact ⟨rfl, rfl⟩

/-- What a running device does in a scan once the kill line is asserted: chains are cut, lockout is taken up, a staging is given up. -/
theorem cutForScan_keeps (l : List Nat) {s : State} (hk : s.safe.kill = true) :
    let t := dropStaging (enterLockout LC_SCAN (cutChains l s))
    offIsland t = offIsland s ∧ t.safe.kill = true ∧ (s.safe.island = .run → t.safe.island = .lockout) := by
  have hv : view (cutChains l s) = view s := view_cutChains ..
  have hd := view_dropStaging (enterLockout LC_SCAN (cutChains l s))
  exact ⟨(offIsland_of hd).trans ((offIsland_enterLockout ..).trans (offIsland_of hv)),
    (congrArg View.kill hd).trans (kill_enterLockout _ ((congrArg View.kill hv).trans hk)),
    fun hrun => (congrArg View.island hd).trans ((locksOut_enterLockout LC_SCAN _).run ((congrArg View.island hv).trans hrun)).1⟩

theorem scanInstruction_kills (op : Nat) {s : State} (hoff : s.boot.phase ≠ .off) :
    ∃ t, execScanInstruction op s = .next t ∧ t.boot.scan = true ∧ t.safe.kill = true ∧ t.time.spc = s.time.spc
      ∧ (s.boot.phase = .running → s.safe.island = .run → t.safe.island = .lockout) := by
  unfold execScanInstruction
  rw [phase_ne_off hoff, if_neg Bool.false_ne_true]
  refine ⟨_, rfl, ?_⟩
  by_cases hup : s.boot.phase = .running
  · rw [if_pos (up_of_running hup)]
    obtain ⟨ho, hk, hl⟩ := cutForScan_keeps _ (s := modSafe (fun u => { u with kill := true }) (modBoot (fun x =>
      { x with scan := true, zeroising := if x.zeroised then x.zeroising else some (x.zeroising.getD op) }) s)) rfl
    exact ⟨congrArg View.scan ho, hk, congrArg View.spc ho, fun _ => hl⟩
  · rw [if_neg (by simpa [State.up] using hup)]
    exact ⟨rfl, rfl, rfl, fun h => absurd h hup⟩

/-- The zeroisation removes the secrets from the device and from NVM; its log entry touches none of them. -/
theorem zeroisationDone_removes {op : Nat} {s : State} (hoff : s.boot.phase ≠ .off) (hz : s.boot.zeroising = some op) :
    ∃ t, execZeroisationDone s = .next t ∧ t.safe.password = none ∧ t.nvm.safety.password = none ∧ t.pair.key = false
      ∧ t.nvm.pairKey = false ∧ t.boot.zeroised = true ∧ t.boot.zeroising = none ∧ t.boot.sessionKeys = false
      ∧ t.nvm.zero.length = s.nvm.zero.length + 1 := by
  unfold execZeroisationDone
  simp only [hz, phase_ne_off hoff, Bool.false_eq_true, if_false]
  refine ⟨_, rfl, ?_⟩
  split
  · obtain ⟨lg, sq, lost, w, tr, fr, qs, h⟩ := logChange_writes 0x0C mgmt 0 [wd op] _
    rw [h]
    exact ⟨rfl, rfl, rfl, rfl, rfl, rfl, rfl, List.length_append⟩
  · exact ⟨rfl, rfl, rfl, rfl, rfl, rfl, rfl, List.length_append⟩

/-- Settles O9: what is cut and locked out with the loss or the scan keeps the SPC, start-up and the holdover. -/
theorem referenceAndScan : Obligations.ReferenceAndScan := by
  unfold Obligations.ReferenceAndScan
  exact ⟨⟨fun s hoff hok => refclkLoss_holds hoff hok, fun step s hstep hoff hok => refclkRelock_ends hstep hoff hok,
      fun s hoff => vlineOutOfRange_noted hoff, fun s hoff => by rw [exec, execVlineBackInRange, phase_ne_off hoff]; rfl⟩,
    fun op s hoff => scanInstruction_kills op hoff, fun op s hoff hz => zeroisationDone_removes hoff hz, fun s => rfl⟩

end Sys2Proof.Machine
end

section
/-! A release that waited is no longer waiting: bring-up's other steps leave `releaseWaits` alone (R448, R470). -/

namespace Sys2Proof.Machine

/-- What each step of a loop leaves alone the loop leaves alone. -/
theorem forEach_same {α β : Type} (g : State → β) (l : List α) (s : State) (f : α → State → State) (h : ∀ a t, g (f a t) = g t) :
    g (forEach l s f) = g s :=
  forEach_keeps (g · = g s) l s f (fun a t ht => (h a t).trans ht) rfl

/-! ### Operations on lines, drives and events leave bring-up alone -/

@[simp] theorem raiseNow_boot (src kind arg : Nat) (s : State) : (raiseNow src kind arg s).boot = s.boot := by
  obtain ⟨tr, fr, qs, h⟩ := raiseNow_writes src kind arg s
  rw [h]

@[simp] theorem chgEvent_boot (d kind detail : Nat) (s : State) : (chgEvent d kind detail s).boot = s.boot := raiseNow_boot ..

@[simp] theorem postNext_boot (d : Nat) (i : Int) (on : Bool) (s : State) : (postNext d i on s).boot = s.boot := rfl

@[simp] theorem programEnded_boot (d : Nat) (st : PrgState) (cause off : Nat) (s : State) : (programEnded d st cause off s).boot = s.boot := by
  simp only [programEnded, groupChanged, endRest, modDrive_boot, chgEvent_boot]

@[simp] theorem endNow_boot (d cause : Nat) (s : State) : (endNow d cause s).boot = s.boot := by
  unfold endNow
  split
  · rw [programEnded_boot, postNext_boot]
  · rfl

@[simp] theorem endUsing_boot (p cause : Nat) (s : State) : (endUsing p cause s).boot = s.boot :=
  forEach_same State.boot _ _ _ (fun d t => endNow_boot d cause t)

@[simp] theorem offUsing_boot (p cause : Nat) (s : State) : (offUsing p cause s).boot = s.boot := by
  unfold offUsing
  dsimp only
  split
  · simp only [dropSetpoint, modDrive_boot, postNext_boot, endUsing_boot]
  · rw [endUsing_boot]

@[simp] theorem unitEvent_boot (src kind : Nat) (chains : List Nat) (s : State) : (unitEvent src kind chains s).boot = s.boot := by
  refine (forEach_same State.boot _ _ _ (fun t s => ?_)).trans (raiseNow_boot ..)
  split
  · rfl
  · exact raiseNow_boot ..

@[simp] theorem fenceTile_boot (t : Nat) (s : State) : (fenceTile t s).boot = s.boot := by
  unfold fenceTile
  split
  · rfl
  · exact (forEach_same State.boot _ _ _ (fun _ _ => by rw [modPos_boot, offUsing_boot])).trans (unitEvent_boot ..)

@[simp] theorem powerUp_boot (c op : Nat) (cmd : Option CmdRef) (s : State) : (powerUp c op cmd s).boot = s.boot :=
  forEach_same State.boot _ _ _ (fun _ _ => modPos_boot ..)

@[simp] theorem traceMarker_boot (code uclass unit : Nat) (words : List Word) (s : State) : (traceMarker code uclass unit words s).boot = s.boot := rfl

@[simp] theorem wantGate_boot (cls u : Nat) (on : Bool) (s : State) : (wantGate cls u on s).boot = s.boot := rfl

/-! ### Operations of bring-up leave a waiting release alone -/

@[simp] theorem setUnit_releaseWaits (cls u : Nat) (f : UnitRec → UnitRec) (s : State) :
    (setUnit cls u f s).boot.releaseWaits = s.boot.releaseWaits := by
  unfold setUnit
  dsimp only
  rw [raiseNow_boot]
  split <;> rfl

@[simp] theorem useSpare_releaseWaits (t u : Nat) (s : State) : (useSpare t u s).boot.releaseWaits = s.boot.releaseWaits := by
  unfold useSpare
  dsimp only
  rw [setUnit_releaseWaits]

theorem fenceRecorded_releaseWaits (s : State) : (fenceRecorded s).boot.releaseWaits = s.boot.releaseWaits :=
  forEach_same (·.boot.releaseWaits) _ _ _ (fun _ _ => setUnit_releaseWaits ..)

theorem fencePorts_releaseWaits (src : Nat) (s : State) : (fencePorts src s).boot.releaseWaits = s.boot.releaseWaits := by
  unfold fencePorts
  split
  · exact forEach_same (·.boot.releaseWaits) _ _ _ (fun _ _ => setUnit_releaseWaits ..)
  · rfl

theorem fenceHomes_releaseWaits (s : State) : (fenceHomes s).boot.releaseWaits = s.boot.releaseWaits :=
  forEach_same (·.boot.releaseWaits) _ _ _ (fun _ _ => by rw [fenceTile_boot])

theorem assignTiles_releaseWaits (s : State) : (assignTiles s).boot.releaseWaits = s.boot.releaseWaits := by
  unfold assignTiles
  split
  · rfl
  · refine forEach_same (·.boot.releaseWaits) _ _ _ (fun t u => ?_)
    split
    · rfl
    · split
      · rw [useSpare_releaseWaits]
      · rw [fenceTile_boot]

theorem refreshReady_releaseWaits (s : State) : (refreshReady s).boot.releaseWaits = s.boot.releaseWaits := by
  unfold refreshReady reportShutdowns
  split
  · rfl
  · dsimp only
    split
    · rfl
    · split
      · rw [forEach_same State.boot _ _ _ (fun _ _ => raiseNow_boot ..), raiseNow_boot]
        split <;> rfl
      · rw [raiseNow_boot]
        split <;> rfl

theorem wakeParked_releaseWaits (local_ : Bool) (s : State) : (wakeParked local_ s).boot.releaseWaits = s.boot.releaseWaits :=
  (forEach_same (·.boot.releaseWaits) _ _ _ (fun _ _ => by rw [powerUp_boot])).trans rfl

theorem actOnWake_releaseWaits (s : State) : (actOnWake s).boot.releaseWaits = s.boot.releaseWaits := by
  have h0 (t : State) (c : Bool) (l : Bool) : (if c then wakeParked l t else t).boot.releaseWaits = t.boot.releaseWaits := by
    split
    · exact wakeParked_releaseWaits ..
    · rfl
  unfold actOnWake
  dsimp only
  rw [h0, h0]
  split <;> rfl

theorem lockNow_releaseWaits (cause : Nat) (s : State) : (lockNow cause s).boot.releaseWaits = s.boot.releaseWaits := by
  by_cases h : s.safe.island = .lockout
  · unfold lockNow
    rw [if_pos h]
    rfl
  · obtain ⟨lg, sq, lost, w, a1, a2, a3, tr, fr, qs, p, ms, he⟩ := lockNow_writes cause h
    rw [he]

theorem leaveStart_releaseWaits (s : State) : (leaveStart s).boot.releaseWaits = s.boot.releaseWaits := by
  unfold leaveStart
  split
  · extract_lets upd causes
    split
    · exact forEach_same (·.boot.releaseWaits) _ _ _ lockNow_releaseWaits
    · split <;> rfl
  · rfl

theorem settleReady_releaseWaits (s : State) : (settleReady s).boot.releaseWaits = s.boot.releaseWaits :=
  (leaveStart_releaseWaits _).trans ((actOnWake_releaseWaits _).trans (refreshReady_releaseWaits s))

/-! ### Release of cold reset -/

/-- What follows the release once the run counts are written: units fenced by records, tiles assigned, readiness brought up to date. -/
def startUnits (s : State) : State := settleReady (assignTiles (fenceHomes (fencePorts 3 (fenceRecorded s))))

theorem startUnits_keeps (s : State) :
    bringView (startUnits s) = bringView s ∧ offIsland (startUnits s) = offIsland s
      ∧ (startUnits s).boot.releaseWaits = s.boot.releaseWaits := by
  refine ⟨?_, ?_, ?_⟩
  · exact (bring_settleReady _).trans ((bring_assignTiles _).trans ((bring_fenceHomes _).trans ((bring_fencePorts ..).trans (bring_fenceRecorded s))))
  · exact (offIsland_settleReady _).trans (offIsland_of
      ((view_assignTiles _).trans ((view_fenceHomes _).trans ((view_fencePorts ..).trans (view_fenceRecorded s)))))
  · rw [startUnits, settleReady_releaseWaits, assignTiles_releaseWaits, fenceHomes_releaseWaits, fencePorts_releaseWaits,
      fenceRecorded_releaseWaits]

/-- The device runs, both run counts are written, and no release waits any more. -/
theorem releaseCold_starts (s : State) :
    (releaseCold s).boot.phase = .running ∧ (releaseCold s).time.spc = s.time.spc ∧ (releaseCold s).nvm.coldRun = s.nvm.coldRun + 1
      ∧ (releaseCold s).nvm.aonRun = s.nvm.aonRun + (if s.boot.aonCounted then 0 else 1) ∧ (releaseCold s).boot.aonCounted = true
      ∧ (releaseCold s).boot.releasedAt = s.time.spc ∧ (releaseCold s).boot.releaseWaits = false := by
  obtain ⟨u, hu, hp, hs, hc, ha, hn, hr, hw⟩ : ∃ u, releaseCold s = startUnits u ∧ u.boot.phase = .running ∧ u.time.spc = s.time.spc
      ∧ u.nvm.coldRun = s.nvm.coldRun + 1 ∧ u.nvm.aonRun = s.nvm.aonRun + b2n (!s.boot.aonCounted) ∧ u.boot.aonCounted = true
      ∧ u.boot.releasedAt = s.time.spc ∧ u.boot.releaseWaits = false := ⟨_, rfl, rfl, rfl, rfl, rfl, rfl, rfl, rfl⟩
  obtain ⟨hb, ho, hk⟩ := startUnits_keeps u
  rw [hu]
  refine ⟨(congrArg View.phase ho).trans hp, (congrArg View.spc ho).trans hs, (congrArg View.coldRun ho).trans hc, ?_,
    (congrArg BringView.aonCounted hb).trans hn, (congrArg BringView.releasedAt hb).trans hr, hk.trans hw⟩
  refine ((congrArg View.aonRun ho).trans ha).trans ?_
  cases s.boot.aonCounted <;> rfl

end Sys2Proof.Machine
end

section
/-! Power-on, removal, release of cold reset and the resets of the PCIe link (R20, R442, R444, R448, R450, R470, R493). -/

namespace Sys2Proof.Machine

/-- What is kept of NVM at a reset keeps the run counts, the zeroisation records and the fence map, and only NVM is written. -/
theorem keepNvm_writes (s : State) :
    ∃ n, keepNvm s = { s with nvm := n } ∧ n.aonRun = s.nvm.aonRun ∧ n.coldRun = s.nvm.coldRun ∧ n.zero = s.nvm.zero
      ∧ n.fences = s.nvm.fences := by
  unfold keepNvm
  split
  · exact ⟨_, rfl, rfl, rfl, rfl, rfl⟩
  · exact ⟨_, rfl, rfl, rfl, rfl, rfl⟩

theorem vddAonApplied_resets (s : State) :
    ∃ t, execVddAonApplied s = .next t
      ∧ t = { State.reset with otp := s.otp, nvm := t.nvm, out := s.out, pending := s.pending, fresh := s.fresh }
      ∧ t.nvm.aonRun = s.nvm.aonRun ∧ t.nvm.coldRun = s.nvm.coldRun ∧ t.nvm.zero = s.nvm.zero ∧ t.nvm.fences = s.nvm.fences := by
  obtain ⟨n, hk, h⟩ := keepNvm_writes s
  unfold execVddAonApplied
  rw [hk]
  exact ⟨_, rfl, rfl, h⟩

theorem vddAonRemoved_ends (s : State) :
    ∃ t, execVddAonRemoved s = .next t
      ∧ t = { State.reset with
          time := { powered := false }, otp := s.otp, nvm := t.nvm, boot := { phase := .off }, out := s.out, pending := s.pending
          fresh := s.fresh }
      ∧ t.nvm.aonRun = s.nvm.aonRun ∧ t.nvm.coldRun = s.nvm.coldRun ∧ t.nvm.zero = s.nvm.zero ∧ t.nvm.fences = s.nvm.fences := by
  obtain ⟨n, hk, h⟩ := keepNvm_writes s
  unfold execVddAonRemoved
  rw [hk]
  exact ⟨_, rfl, rfl, h⟩

theorem coldRstRelease_starts {s : State} (hp : s.boot.phase = .coldHeld) (hok : s.time.refclkOk = true) :
    execColdRstRelease s = .next (releaseCold s) := by
  unfold execColdRstRelease
  rw [hp, hok]
  rfl

theorem coldRstRelease_waits {s : State} (hp : s.boot.phase = .coldHeld) (hok : s.time.refclkOk = false) :
    execColdRstRelease s = .next { s with boot := { s.boot with releaseWaits := true } } := by
  unfold execColdRstRelease
  rw [hp, hok]
  rfl

/-- A waiting release takes effect at a boundary with REFCLK back and no holdover that ended lately. -/
theorem pickBoundary_releases {s : State} (hpow : s.time.powered = true) (hp : s.boot.phase = .coldHeld) (hw : s.boot.releaseWaits = true)
    (hok : s.time.refclkOk = true) (hh : s.time.heldOver = []) :
    execPickBoundary s = .next (releaseCold { s with time := { s.time with spc := s.time.spc + 1, frac := 0 } }) := by
  simp only [execPickBoundary, hpow, if_true, hp, releaseWaiting, hw, hok, hh, List.head?_nil, Option.elim_none, beq_self_eq_true, Bool.and_self]

/-- The last steps of a PCIe reset, on the state with the link down: they clear queues and leave start-up, the SPC and SR-IOV. -/
theorem clearPcie_keeps (s : State) :
    let t := refreshReady (clearQueue mgmt (clearTransport mgmt (resetDisabled s)))
    bringView t = bringView s ∧ view t = view s :=
  ⟨(bring_refreshReady _).trans ((bring_clearQueue ..).trans ((bring_clearTransport ..).trans (bring_resetDisabled s))),
    (view_refreshReady _).trans ((view_clearQueue ..).trans ((view_clearTransport ..).trans (view_resetDisabled s)))⟩

theorem pcieReset_clears (kind : PcieResetKind) {s : State} (hoff : s.boot.phase ≠ .off) :
    ∃ t, execPcieReset kind s = .next t ∧ t.boot.linkUp = false ∧ t.time.ptm = none ∧ t.boot.phase = s.boot.phase
      ∧ t.time.spc = s.time.spc ∧ t.ten.vfEnable = false ∧ t.ten.numVfs = 0 := by
  have h1 (c : Bool) : (if c then setAlert 8 s else s).boot.phase = s.boot.phase ∧ (if c then setAlert 8 s else s).time.spc = s.time.spc := by
    cases c <;> exact ⟨rfl, rfl⟩
  obtain ⟨hphase, hspc⟩ := h1 (s.boot.fnReady.getLsbD 0)
  unfold execPcieReset
  dsimp only
  rw [phase_ne_off hoff, if_neg Bool.false_ne_true]
  generalize (if s.boot.fnReady.getLsbD 0 = true then setAlert 8 s else s) = s1 at hphase hspc ⊢
  refine ⟨_, rfl, ?_⟩
  obtain ⟨hb, hv⟩ := clearPcie_keeps (modTen (fun u => { u with vfEnable := false, numVfs := 0 })
    (modBoot (fun b => { b with linkUp := false, rstCause := withCause (match kind with | .perst => 6 | _ => 7) b.rstCause })
      { s1 with time := { s1.time with ptm := none } }))
  exact ⟨congrArg BringView.linkUp hb, congrArg BringView.ptm hb, (congrArg View.phase hv).trans hphase, (congrArg View.spc hv).trans hspc,
    congrArg BringView.vfEnable hb, congrArg BringView.numVfs hb⟩

theorem perstNRelease_trains {s : State} (hoff : s.boot.phase ≠ .off) (hsh : s.boot.phase ≠ .shutdown) :
    ∃ t, execPerstNRelease s = .next t ∧ t.boot.linkUp = true ∧ t.boot.phase = s.boot.phase ∧ t.time.spc = s.time.spc := by
  have hs : (s.boot.phase == .shutdown) = false := by simpa using hsh
  unfold execPerstNRelease
  rw [phase_ne_off hoff, hs, Bool.or_self, if_neg Bool.false_ne_true]
  have hb := bring_settleReady (modBoot (fun b => { b with linkUp := true }) s)
  have ho := offIsland_settleReady (modBoot (fun b => { b with linkUp := true }) s)
  exact ⟨_, rfl, congrArg BringView.linkUp hb, congrArg View.phase ho, congrArg View.spc ho⟩

/-- Settles O6: NVM keeps its run counts through power, a release writes them once, and the PCIe link's resets leave start-up alone. -/
theorem powerAndLink : Obligations.PowerAndLink := by
  unfold Obligations.PowerAndLink
  refine ⟨fun s => ⟨vddAonApplied_resets s, vddAonRemoved_ends s⟩, fun s hp hok => ?release, fun s hp hok => coldRstRelease_waits hp hok,
    fun s hpow hp hw hok hh => ?boundary, fun kind s hoff => pcieReset_clears kind hoff, fun s hoff hsh => perstNRelease_trains hoff hsh⟩
  case release =>
    obtain ⟨h1, h2, h3, h4, h5, h6, -⟩ := releaseCold_starts s
    exact ⟨_, coldRstRelease_starts hp hok, h1, h2, h3, h4, h5, h6⟩
  case boundary =>
    obtain ⟨h1, h2, h3, -, -, h6, h7⟩ := releaseCold_starts { s with time := { s.time with spc := s.time.spc + 1, frac := 0 } }
    exact ⟨_, pickBoundary_releases hpow hp hw hok hh, h1, h2, h3, h7, h6⟩

end Sys2Proof.Machine
end

section
/-! VDD_AON: no operation but its application and removal changes whether it is applied (R20). Each lemma is about an operation that moves
another part of the view. -/

namespace Sys2Proof.Machine

theorem powered_of {a b : State} (h : view a = view b) : a.time.powered = b.time.powered := congrArg View.powered h

theorem powered_of_off {a b : State} (h : offIsland a = offIsland b) : a.time.powered = b.time.powered := congrArg View.powered h

theorem powered_forEach {α : Type} (l : List α) (s : State) (f : α → State → State) (h : ∀ a t, (f a t).time.powered = t.time.powered) :
    (forEach l s f).time.powered = s.time.powered := forEach_same (fun t => t.time.powered) l s f h

/-- A next state is powered as the state before. -/
def KeepsPower (o : Host.Outcome State Fault Refusal) (s : State) : Prop := ∀ t, o = .next t → t.time.powered = s.time.powered

theorem Keeps.power {o : Host.Outcome State Fault Refusal} {s : State} (h : Keeps o s) : KeepsPower o s := fun t ht => powered_of (h t ht)

theorem keepsPower_next {s t : State} (h : t.time.powered = s.time.powered) : KeepsPower (.next t) s := by
  rintro _ ⟨⟩
  exact h

theorem keepsPower_onObject {b : Bool} {s t : State} (h : t.time.powered = s.time.powered) : KeepsPower (onObject b t) s := by
  cases b
  · rintro _ ⟨⟩
  · exact keepsPower_next h

/-! ### The island -/

@[simp] theorem powered_enterLockout (cause : Nat) (s : State) : (enterLockout cause s).time.powered = s.time.powered :=
  powered_of_off (offIsland_enterLockout ..)

@[simp] theorem powered_leaveStart (s : State) : (leaveStart s).time.powered = s.time.powered := powered_of_off (offIsland_leaveStart s)

@[simp] theorem powered_settleReady (s : State) : (settleReady s).time.powered = s.time.powered := powered_of_off (offIsland_settleReady s)

theorem powered_execSafeStartTestDone (pass : Bool) (s : State) : KeepsPower (execSafeStartTestDone pass s) s := by
  refine keepsPower_next ?_
  split
  · dsimp only
    split
    · exact (powered_of ((view_completeDeferred ..).trans ((view_logChange ..).trans (view_raiseNow ..)))).trans rfl
    · exact (powered_of (view_completeDeferred ..)).trans rfl
  · rfl

theorem powered_lockIfUp (cause : Nat) (s : State) : KeepsPower (.next (if s.up then enterLockout cause s else s)) s := by
  refine keepsPower_next ?_
  split <;> simp

theorem powered_execSafetyRecordCheckFail (record : Nat) (s : State) : KeepsPower (execSafetyRecordCheckFail record s) s := by
  refine keepsPower_next ?_
  split <;> simp

theorem powered_execSafeInDiscrepancy (k : Nat) (s : State) : KeepsPower (execSafeInDiscrepancy k s) s := by
  refine keepsPower_onObject ?_
  split <;> simp

theorem powered_execSafeOutTestPulse (k : Nat) (lineB readback : Bool) (s : State) : KeepsPower (execSafeOutTestPulse k lineB readback s) s := by
  refine keepsPower_onObject ?_
  split
  · dsimp only
    split <;> simp
  · rfl

theorem powered_execOutFb (k : Nat) (lineB readback : Bool) (s : State) : KeepsPower (execOutFb k lineB readback s) s := by
  refine keepsPower_onObject ?_
  split <;> simp

/-! ### Thermal shutdown -/

@[simp] theorem powered_decideShutdown (cause : Nat) (s : State) : (decideShutdown cause s).time.powered = s.time.powered := by
  unfold decideShutdown
  dsimp only
  simp [powered_of (view_clearReady _), powered_of (view_setAlert ..), powered_forEach _ _ _ (fun d t => powered_of (view_offUsing d CC_SHUTDOWN t)),
    powered_of (view_yieldPair ..)]

@[simp] theorem powered_decideRound (k : Nat) (s : State) : (decideRound k s).time.powered = s.time.powered := by
  unfold decideRound
  extract_lets d r u unk peak s1 s2 n st force s3 s4
  have h2 : s2.time.powered = s.time.powered := by
    simp only [s2]
    split
    · rfl
    · exact powered_of (view_raiseNow ..)
  have h4 : s4.time.powered = s.time.powered := by
    simp only [s4]
    split
    · exact h2
    · refine (powered_of (view_raiseNow ..)).trans ?_
      split
      · exact (powered_of (view_setAlert ..)).trans h2
      · exact h2
  split
  · exact h2
  · split
    · rw [powered_decideShutdown, h2]
    · split
      · rw [powered_decideShutdown, h2]
      · cases r
        · exact h4
        · exact (powered_of (view_setBand ..)).trans h4

theorem powered_execHkRoundDecision (s : State) : KeepsPower (execHkRoundDecision s) s := by
  refine keepsPower_next ?_
  split
  · split
    · rw [powered_decideRound, powered_of (view_closeRound ..)]
    · rfl
  · rfl

theorem powered_execShutdownPowerGate (s : State) : KeepsPower (execShutdownPowerGate s) s := by
  refine keepsPower_next ?_
  split
  · split <;> rfl
  · rfl

/-! ### Commands -/

/-- Serving a command keeps what its effect keeps. -/
theorem powered_command (k : Checks) (r : Req) (s : State) (act : State → Reply) (h : ∀ t, (act t).state.time.powered = t.time.powered) :
    (command k r s act).time.powered = s.time.powered :=
  command_keeps (fun t => t.time.powered = s.time.powered) (fun _ _ e h => (powered_of e).trans h) k r s act (fun t ht => (h t).trans ht) rfl

theorem powered_execSafePasswd (r : Req) (s : State) : KeepsPower (execSafePasswd r s) s :=
  keepsPower_next (pwCommand_keeps (fun t => t.time.powered = s.time.powered) (fun _ _ e h => (powered_of e).trans h) _ r s _
    (fun _ ht => (powered_of (view_logChange ..)).trans ht) rfl)

theorem powered_actHkFw (r : Req) (s t : State) : (actHkFw r s t).state.time.powered = t.time.powered := by
  unfold actHkFw
  dsimp only
  split
  · split
    · rfl
    · exact (powered_of (view_putSlot ..)).trans rfl
  · split
    · rfl
    · exact (powered_enterLockout ..).trans ((powered_of (view_logChange ..)).trans rfl)
  · rfl
  · rfl

theorem powered_execHkFw (r : Req) (s : State) : KeepsPower (execHkFw r s) s :=
  keepsPower_next (powered_command _ _ _ _ (powered_actHkFw r s))

/-- Every command but the two that set the password and the images keeps the whole view. -/
theorem powered_opMeaning {op : Nat} {f : Req → State → Host.Outcome State Fault Refusal} (h : opMeaning op = some f) (r : Req) (s : State) :
    KeepsPower (f r s) s := by
  have hall : Keeps (f r s) s ∨ f = execSafePasswd ∨ f = execHkFw := by
    have hop : opLow op = some f ∨ opMid op = some f ∨ opHigh op = some f := by
      unfold opMeaning at h
      cases hl : opLow op with
      | some g => exact .inl (by simpa [hl] using h)
      | none => cases hm : opMid op with
        | some g => exact .inr (.inl (by simpa [hl, hm] using h))
        | none => exact .inr (.inr (by simpa [hl, hm] using h))
    rcases hop with h | h | h
    · unfold opLow at h
      split at h <;> cases h <;> left
      all_goals simp only [view_execDevInfo, view_execDevReady, view_execDevCaps, view_execDevTime, view_execDevNop, view_execChainPower, view_execChainEnum,
        view_execChainStatus, view_execChainPark, view_execChainWake, view_execChainSelvRead, view_execChainSelvWrite, view_execChainReset,
        view_execLaneUp, view_execLaneStatus, view_execLanePair, view_execLaneEye, view_execLaneDown, view_execBridgeStatus, view_execMapBind,
        view_execMapCommit, view_execMapRead, view_execMapRange, view_execAccOpen, view_execAccClose, view_execAccHarvest, view_execAccApsisReset,
        view_execAccStatus]
    · unfold opMid at h
      split at h <;> cases h <;> left
      all_goals simp only [view_execSpecConfig, view_execSpecFocus, view_execSpecHarvest, view_execSpecDither, view_execSpecStop, view_execCalRun, view_execCalStatus,
        view_execCalApply, view_execCalRevert, view_execCalRead, view_execCalLimits, view_execBalSet, view_execBalStatus, view_execDiagOpenwire,
        view_execDiagTag, view_execDiagReport, view_execEstConfig, view_execEstRead, view_execEstSave, view_execEstRestore, view_execEstLearn,
        view_execEstReset, view_execEstHibernate, view_execChgLoad, view_execChgStart, view_execChgStop, view_execChgStatus, view_execChgGroup,
        view_execChgSetpoint]
    · unfold opHigh at h
      split at h <;> cases h
      all_goals simp only [view_execSafeConfig, view_execSafeArm, view_execSafeStatus, view_execSafeAck, view_execSafeLog, view_execSafeTighten, view_execTenCreate,
        view_execTenDestroy, view_execTenGrant, view_execTenRevoke, view_execTenQos, view_execTenReset, view_execTenStatus, view_execPairConfig,
        view_execPairStatus, view_execPairHandover, view_execPairUpdate, view_execPairLease, view_execHkThermal, view_execHkWear, view_execHkTrace,
        view_execHkRecords, view_execHkBist, view_execChkBind, view_execChkStatus, true_or, or_true]
  rcases hall with hk | rfl | rfl
  · exact hk.power
  · exact powered_execSafePasswd r s
  · exact powered_execHkFw r s

end Sys2Proof.Machine
end

section
/-! VDD_AON through resets, start-up and the pair (R20). -/

namespace Sys2Proof.Machine

/-! ### Resets and start-up -/

theorem powered_coldReset (bit : Nat) (s : State) : (coldReset bit s).time.powered = s.time.powered := by
  have h : (keepNvm (yieldPair 3 s)).time.powered = s.time.powered := powered_of ((view_keepNvm _).trans (view_yieldPair 3 s))
  exact h

theorem powered_raiseCold (bit : Nat) (s : State) : (raiseCold bit s).time.powered = s.time.powered := by
  unfold raiseCold
  split
  · exact powered_coldReset ..
  · split
    · exact powered_coldReset ..
    · rfl
  · rfl
  · rfl

theorem powered_warmReset (bit : Nat) (s : State) : (warmReset bit s).time.powered = s.time.powered := by
  have h : (keepNvm s).time.powered = s.time.powered := powered_of (view_keepNvm s)
  exact (powered_of (view_traceMarker ..)).trans h

theorem powered_releaseCold (s : State) : (releaseCold s).time.powered = s.time.powered :=
  (powered_of_off (startUnits_keeps _).2.1).trans rfl

theorem powered_execColdReset (s : State) : KeepsPower (execColdReset s) s := keepsPower_next (powered_raiseCold ..)

theorem powered_execSupplyMonitorTrip (rail : Nat) (s : State) : KeepsPower (execSupplyMonitorTrip rail s) s :=
  keepsPower_onObject (powered_raiseCold ..)

theorem powered_execHeldColdResetProceeds (s : State) : KeepsPower (execHeldColdResetProceeds s) s := by
  refine keepsPower_next ?_
  split
  · exact powered_coldReset ..
  · rfl

theorem powered_execColdRstRelease (s : State) : KeepsPower (execColdRstRelease s) s := by
  refine keepsPower_next ?_
  split
  · rfl
  · split
    · exact powered_releaseCold s
    · rfl

theorem powered_execWarmResetRecognised (s : State) : KeepsPower (execWarmResetRecognised s) s := by
  refine keepsPower_next ?_
  split
  · split
    · exact powered_warmReset ..
    · rfl
  · rfl

theorem powered_execPerstNRelease (s : State) : KeepsPower (execPerstNRelease s) s := by
  refine keepsPower_next ?_
  split
  · rfl
  · exact powered_settleReady _

theorem powered_execBistUnitDone (cls unit result : Nat) (s : State) : KeepsPower (execBistUnitDone cls unit result s) s := by
  refine keepsPower_onObject ?_
  split
  · rw [powered_settleReady, powered_of (view_assignTiles _)]
    split
    · exact powered_of (view_passUnit ..)
    · exact powered_of (view_failUnit ..)
  · rfl

theorem powered_execNvmPartitionsLoaded (bad : List Nat) (s : State) : KeepsPower (execNvmPartitionsLoaded bad s) s := by
  refine keepsPower_next ?_
  split
  · extract_lets k s1 s2 s3 w s4 s5
    have h1 : s1.time.powered = s.time.powered := rfl
    have h2 : s2.time.powered = s1.time.powered :=
      powered_forEach _ _ _ (fun b t => powered_of ((view_raiseNow ..).trans (view_setAlert 7 t)))
    have h3 : s3.time.powered = s2.time.powered := by
      simp only [s3]
      split
      · exact powered_of (view_raiseNow ..)
      · rfl
    have h4 : s4.time.powered = s3.time.powered := rfl
    have h5 : s5.time.powered = s4.time.powered := powered_of ((view_reportZero _).trans (view_modPair ..))
    exact (powered_settleReady _).trans (h5.trans (h4.trans (h3.trans (h2.trans h1))))
  · rfl

theorem powered_execBootImageVerified (validA validB : Bool) (s : State) : KeepsPower (execBootImageVerified validA validB s) s := by
  refine keepsPower_next ?_
  split
  · split
    · exact (powered_settleReady _).trans (powered_of (view_runImage ..))
    · exact (powered_settleReady _).trans ((powered_of (view_setAlert ..)).trans rfl)
  · rfl

theorem powered_execTrialBootPassed (s : State) : KeepsPower (execTrialBootPassed s) s := by
  have hmin (t : State) : (raiseMinimum t).time.powered = t.time.powered := by
    unfold raiseMinimum
    split
    · dsimp only
      split
      · exact (powered_of ((view_imageEvent ..).trans (view_traceMarker ..))).trans rfl
      · rfl
    · rfl
  refine keepsPower_next ?_
  split
  · split
    · exact (hmin _).trans ((powered_of (view_trialEvent ..)).trans rfl)
    · rfl
  · rfl

theorem powered_execRefclkLoss (s : State) : KeepsPower (execRefclkLoss s) s := by
  refine keepsPower_next ?_
  split
  · rfl
  · split
    · exact (powered_of_off (cutAndLock_keeps ..).2.1).trans rfl
    · rfl

theorem powered_execRefclkRelock (step : Nat) (s : State) : KeepsPower (execRefclkRelock step s) s := by
  refine keepsPower_onObject ?_
  split
  · rfl
  · exact (powered_of (view_traceMarker ..)).trans rfl

theorem powered_execScanInstruction (opcode : Nat) (s : State) : KeepsPower (execScanInstruction opcode s) s := by
  refine keepsPower_next ?_
  split
  · rfl
  · dsimp only
    split
    · rw [powered_of (view_dropStaging _), powered_enterLockout, powered_of (view_cutChains ..)]
      rfl
    · rfl

theorem powered_execZeroisationDone (s : State) : KeepsPower (execZeroisationDone s) s := by
  refine keepsPower_next ?_
  split
  · split
    · rfl
    · dsimp only
      split
      · exact (powered_of (view_logChange ..)).trans rfl
      · rfl
  · rfl

/-! ### The pair -/

/-- What a message brings keeps power where its effect does. -/
theorem powered_onMsg (m : PairMsg) (s : State) (f : State → State) (h : ∀ u, (f u).time.powered = u.time.powered) :
    KeepsPower (.next (onMsg m s f)) s := by
  refine keepsPower_next ?_
  unfold onMsg acceptMsg
  split
  · exact (h _).trans rfl
  · rfl

theorem powered_applyBlock (b : ResyncBlock) (s : State) : (applyBlock b s).time.powered = s.time.powered := by
  cases b <;> rfl

theorem powered_execResync (m : PairMsg) (b : ResyncBlock) (s : State) : KeepsPower (execResync m b s) s := by
  refine powered_onMsg _ _ _ (fun u => ?_)
  split
  · rfl
  · exact powered_applyBlock b u

theorem powered_execResyncComplete (s : State) : KeepsPower (execResyncComplete s) s := by
  refine keepsPower_next ?_
  split
  · rw [powered_leaveStart, powered_of (view_raiseNow ..), powered_of (view_setEpoch ..)]
    rfl
  · rfl

theorem powered_endUpdate (n status : Nat) (s : State) : (endUpdate n status s).time.powered = s.time.powered := by
  unfold endUpdate
  extract_lets s1
  have h1 : s1.time.powered = s.time.powered := by rw [powered_leaveStart, powered_of (view_updateStep ..)]; rfl
  split
  · exact (powered_of (view_finishOn ..)).trans h1
  · exact h1

theorem powered_execYield (m : PairMsg) (s : State) : KeepsPower (execYield m s) s := by
  refine powered_onMsg _ _ _ (fun u => ?_)
  split
  · rfl
  · extract_lets s0 s1
    have h0 : s0.time.powered = u.time.powered := powered_of (view_startClaims ..)
    have h1 : s1.time.powered = u.time.powered := by
      simp only [s1]
      split
      · rw [powered_endUpdate, h0]
      · exact h0
    split <;> exact h1

theorem powered_execPairUpdateStepDone (checks : ImageChecks) (parts : ImageParts) (s : State) :
    KeepsPower (execPairUpdateStepDone checks parts s) s := by
  have hrestart (t : State) (c : Prop) [Decidable c] (h : t.time.powered = s.time.powered) :
      (if c then restartUpdate t else t).time.powered = s.time.powered := by split <;> exact h
  have hstep (n : Nat) : (updateStep n s).time.powered = s.time.powered := powered_of (view_updateStep ..)
  refine keepsPower_next ?_
  split
  · rfl
  · split
    · split
      · exact powered_endUpdate ..
      · split
        · exact powered_endUpdate ..
        · dsimp only
          split
          · exact powered_endUpdate ..
          · exact hrestart _ _ (powered_of ((view_updateStep ..).trans (view_putSlot ..)))
    · split
      · exact powered_endUpdate ..
      · split
        · rfl
        · exact hstep 3
    · split
      · rfl
      · dsimp only
        split
        · exact hstep 4
        · exact (powered_of ((view_modPair ..).trans (view_sendPair ..))).trans (hstep 4)
    · split
      · rfl
      · exact hrestart _ _ (hstep 5)
    · split
      · exact powered_endUpdate ..
      · split
        · rfl
        · exact powered_endUpdate ..
    · rfl

/-! ### Packets that run later or elsewhere -/

theorem powered_runPacket (op : Nat) (r : Req) (s : State) : (runPacket op r s).time.powered = s.time.powered := by
  unfold runPacket
  split
  · next f hf =>
    have hk := powered_opMeaning hf r s
    cases h : f r s with
    | next t => exact hk t h
    | fault => rfl
    | refused => rfl
  · exact powered_of (view_unknownOp ..)

theorem powered_runAt (accept op : Nat) (r : Req) (s : State) : (runAt accept op r s).time.powered = s.time.powered :=
  powered_runPacket op r { s with time := { s.time with spc := accept } }

theorem powered_startNext (fn q : Nat) (s : State) : (startNext fn q s).time.powered = s.time.powered := by
  unfold startNext
  split
  · exact (powered_runPacket ..).trans rfl
  · rfl

theorem powered_startMgmt (q : Nat) (s : State) : (startMgmt q s).time.powered = s.time.powered := by
  unfold startMgmt
  generalize (ringAt s mgmt q).waiting.length = n
  induction n generalizing s with
  | zero => rfl
  | succ n ih => exact (ih _).trans (powered_startNext ..)

theorem powered_startTenant (t : Nat) (s : State) : (startTenant t s).time.powered = s.time.powered := by
  unfold startTenant
  dsimp only
  split
  · exact (powered_startNext ..).trans rfl
  · rfl

theorem powered_execSqTailDoorbell (fn q tail : Nat) (packets : List Packet) (s : State) :
    KeepsPower (execSqTailDoorbell fn q tail packets s) s := by
  refine keepsPower_onObject ?_
  split
  · dsimp only
    split
    · exact (powered_startMgmt ..).trans rfl
    · rfl
  · rfl

theorem powered_execCqHeadDoorbell (fn q head : Nat) (s : State) : KeepsPower (execCqHeadDoorbell fn q head s) s := by
  refine keepsPower_onObject ?_
  split
  · dsimp only
    split
    · exact (powered_startMgmt ..).trans rfl
    · rfl
  · rfl

theorem powered_roundRobin (n : Nat) (left : Int) (costs ts : List Nat) (s : State) :
    (roundRobin n left costs ts s).time.powered = s.time.powered := by
  fun_induction roundRobin n left costs ts s with
  | case1 => rfl
  | case2 => rfl
  | case3 => rfl
  | case4 _ _ _ _ _ _ _ _ ih => exact ih
  | case5 _ _ _ _ _ _ _ _ _ _ _ _ ih => exact ih.trans (powered_startTenant ..)
  | case6 _ _ _ _ _ _ _ _ _ _ _ ih => exact ih

theorem powered_execCommandDispatchRound (costs : List Nat) (s : State) : KeepsPower (execCommandDispatchRound costs s) s := by
  refine keepsPower_next ?_
  split
  · extract_lets s1 ts first s2
    have h1 : s1.time.powered = s.time.powered := by
      simp only [s1]
      split
      · exact powered_forEach _ _ _ powered_startMgmt
      · rfl
    have h2 : s2.time.powered = s1.time.powered := powered_forEach _ _ _ powered_startTenant
    exact (powered_roundRobin ..).trans (h2.trans h1)
  · rfl

theorem powered_runAsked (op : Nat) (r : Req) (s : State) : (runAsked op r s).time.powered = s.time.powered := by
  unfold runAsked
  extract_lets none_ s1
  have h1 : s1.time.powered = s.time.powered := powered_runPacket ..
  split
  · exact h1
  · exact (powered_of (view_sendAck ..)).trans h1

theorem powered_applyMirror (accept op : Nat) (r : Req) (s : State) : (applyMirror accept op r s).time.powered = s.time.powered := by
  unfold applyMirror
  split <;> exact (powered_of (view_sendAck ..)).trans (powered_runAt ..)

theorem powered_execMirror (m : PairMsg) (accept op : Nat) (r : Req) (s : State) : KeepsPower (execMirror m accept op r s) s := by
  refine powered_onMsg _ _ _ (fun u => ?_)
  dsimp only
  split
  · exact powered_applyMirror ..
  · exact powered_runAsked ..

theorem powered_releaseHeld (s : State) : (releaseHeld s).time.powered = s.time.powered := by
  unfold releaseHeld
  split
  · rfl
  · refine (powered_forEach _ _ _ (fun p t => ?_)).trans rfl
    split
    · exact powered_runAsked ..
    · exact powered_runPacket ..

theorem powered_execTwinLinkLost (s : State) : KeepsPower (execTwinLinkLost s) s := by
  refine keepsPower_next ?_
  split
  · extract_lets s1 s2
    have h1 : s1.time.powered = s.time.powered := powered_of ((view_raiseNow ..).trans (view_modPair ..))
    have h2 : s2.time.powered = s.time.powered :=
      (powered_releaseHeld _).trans ((powered_of ((view_freshChannel _).trans (view_stopMirroring _))).trans h1)
    split
    · exact (powered_endUpdate ..).trans h2
    · exact h2
  · rfl

/-- The meeting of a pair may adopt the pair's SPC, but not its power. -/
theorem powered_meetTwin (f : Forming) (v : PeerView) (s : State) : (meetTwin f v s).time.powered = s.time.powered := by
  unfold meetTwin
  split
  · exact powered_of (view_endForming ..)
  · extract_lets spc u0 s0 s1 u1 u2 u3 u4 u5 s2 s3 s4
    have h1 : s1.time.powered = s.time.powered := by
      simp only [s1]
      split
      · rfl
      · exact (powered_of (view_traceMarker ..)).trans rfl
    have h3 : s3.time.powered = s.time.powered := (powered_of ((view_setRole ..).trans (view_freshChannel _))).trans h1
    have h4 : s4.time.powered = s.time.powered := by
      simp only [s4]
      split
      · exact (powered_of ((view_setEpoch ..).trans (view_startResync _))).trans h3
      · exact h3
    exact (powered_of ((view_refreshReady _).trans (view_endForming ..))).trans h4

theorem powered_execHeartbeat (h : PairMsg) (peer : Option PeerView) (s : State) : KeepsPower (execHeartbeat h peer s) s := by
  refine keepsPower_next ?_
  split
  · extract_lets s1 t s2
    have h1 : s1.time.powered = s.time.powered := powered_of (view_takeBeat ..)
    have h2 : s2.time.powered = s.time.powered := by
      simp only [s2]
      split
      · exact (powered_of (view_findStale ..)).trans h1
      · exact h1
    split
    · exact (powered_meetTwin ..).trans h2
    · exact (powered_releaseHeld _).trans ((powered_of (view_sendResync _)).trans h2)
  · rfl

end Sys2Proof.Machine
end

section
/-! O3: the SPC (R20, R21). -/

namespace Sys2Proof.Machine

/-- A next state has the power, the SPC and the queue of the state before. -/
def KeepsTime (o : Host.Outcome State Fault Refusal) (s : State) : Prop := KeepsPower o s ∧ KeepsClock o s

theorem Keeps.time {o : Host.Outcome State Fault Refusal} {s : State} (h : Keeps o s) : KeepsTime o s := ⟨h.power, h.clock⟩

/-- Every row keeps the time but a pick boundary, the application and removal of VDD_AON, and a heartbeat. The rows named here move another
part of the view; all others keep the whole view. -/
theorem keepsTime_exec (c : Instr) (s : State) (hpick : c ≠ .pickBoundary) (hon : c ≠ .vddAonApplied) (hoff : c ≠ .vddAonRemoved)
    (hbeat : ∀ h peer, c ≠ .heartbeat h peer) : KeepsTime (exec c s) s := by
  cases c with
  | pickBoundary => exact absurd rfl hpick
  | vddAonApplied => exact absurd rfl hon
  | vddAonRemoved => exact absurd rfl hoff
  | heartbeat h peer => exact absurd rfl (hbeat h peer)
  | coldReset => exact ⟨powered_execColdReset s, clock_execColdReset s⟩
  | supplyMonitorTrip rail => exact ⟨powered_execSupplyMonitorTrip rail s, clock_execSupplyMonitorTrip rail s⟩
  | coldRstRelease => exact ⟨powered_execColdRstRelease s, clock_execColdRstRelease s⟩
  | bistUnitDone cls unit result => exact ⟨powered_execBistUnitDone cls unit result s, clock_execBistUnitDone cls unit result s⟩
  | trialBootPassed => exact ⟨powered_execTrialBootPassed s, clock_execTrialBootPassed s⟩
  | warmResetRecognised => exact ⟨powered_execWarmResetRecognised s, clock_execWarmResetRecognised s⟩
  | safeInDiscrepancy k => exact ⟨powered_execSafeInDiscrepancy k s, clock_execSafeInDiscrepancy k s⟩
  | safeOutTestPulse k lineB readback => exact ⟨powered_execSafeOutTestPulse k lineB readback s, clock_execSafeOutTestPulse k lineB readback s⟩
  | outFb k lineB readback => exact ⟨powered_execOutFb k lineB readback s, clock_execOutFb k lineB readback s⟩
  | refclkLoss => exact ⟨powered_execRefclkLoss s, clock_execRefclkLoss s⟩
  | refclkRelock step => exact ⟨powered_execRefclkRelock step s, clock_execRefclkRelock step s⟩
  | clockMonitorFault => exact ⟨powered_lockIfUp _ s, clock_execClockMonitorFault s⟩
  | safetyCoreFault => exact ⟨powered_lockIfUp _ s, clock_execSafetyCoreFault s⟩
  | islandWatchdogExpiry => exact ⟨powered_lockIfUp _ s, clock_execIslandWatchdogExpiry s⟩
  | islandSupplyFault => exact ⟨powered_lockIfUp _ s, clock_execIslandSupplyFault s⟩
  | scanInstruction opcode => exact ⟨powered_execScanInstruction opcode s, clock_execScanInstruction opcode s⟩
  | zeroisationDone => exact ⟨powered_execZeroisationDone s, clock_execZeroisationDone s⟩
  | mirror m accept op r => exact ⟨powered_execMirror m accept op r s, clock_execMirror m accept op r s⟩
  | yield m => exact ⟨powered_execYield m s, clock_execYield m s⟩
  | resync m b => exact ⟨powered_execResync m b s, clock_execResync m b s⟩
  | twinLinkLost => exact ⟨powered_execTwinLinkLost s, clock_execTwinLinkLost s⟩
  | resyncComplete => exact ⟨powered_execResyncComplete s, clock_execResyncComplete s⟩
  | pairUpdateStepDone checks parts => exact ⟨powered_execPairUpdateStepDone checks parts s, clock_execPairUpdateStepDone checks parts s⟩
  | hkRoundDecision => exact ⟨powered_execHkRoundDecision s, clock_execHkRoundDecision s⟩
  | shutdownPowerGate => exact ⟨powered_execShutdownPowerGate s, clock_execShutdownPowerGate s⟩
  | heldColdResetProceeds => exact ⟨powered_execHeldColdResetProceeds s, clock_execHeldColdResetProceeds s⟩
  | safeStartTestDone pass => exact ⟨powered_execSafeStartTestDone pass s, clock_execSafeStartTestDone pass s⟩
  | commandDispatchRound costs => exact ⟨powered_execCommandDispatchRound costs s, clock_execCommandDispatchRound costs s⟩
  | safePasswd r => exact ⟨powered_execSafePasswd r s, clock_execSafePasswd r s⟩
  | hkFw r => exact ⟨powered_execHkFw r s, clock_execHkFw r s⟩
  | sqTailDoorbell fn q tail packets => exact ⟨powered_execSqTailDoorbell fn q tail packets s, clock_execSqTailDoorbell fn q tail packets s⟩
  | cqHeadDoorbell fn q head => exact ⟨powered_execCqHeadDoorbell fn q head s, clock_execCqHeadDoorbell fn q head s⟩
  | safetyRecordCheckFail record => exact ⟨powered_execSafetyRecordCheckFail record s, clock_execSafetyRecordCheckFail record s⟩
  | perstNRelease => exact ⟨powered_execPerstNRelease s, clock_execPerstNRelease s⟩
  | nvmPartitionsLoaded bad => exact ⟨powered_execNvmPartitionsLoaded bad s, clock_execNvmPartitionsLoaded bad s⟩
  | bootImageVerified validA validB => exact ⟨powered_execBootImageVerified validA validB s, clock_execBootImageVerified validA validB s⟩
  | _ =>
    refine Keeps.time ?_
    simp only [exec, view_execTrialBootDeadline, view_execMgmtCoreWatchdog, view_execPcieReset, view_execFunctionLevelReset,
      view_execVfEnableCleared, view_execWakeNFall, view_execSafeRstNPulse, view_execAckWindowExpiry, view_execSafeInDemand,
      view_execSafeInRelease, view_execTestLogicReset, view_execVlineOutOfRange, view_execPortOvercurrent, view_execChainFrameRx,
      view_execResendAgeExpiry, view_execRingBreakDeclared, view_execHopFault, view_execPositionLost, view_execIdentityRx, view_execCoefRx,
      view_execTagStatusRx, view_execSelvedgeDownPeriod, view_execChainEnumPicks, view_execOpenRingDetected, view_execPositionReleased,
      view_execParkCarrierOff, view_execUnwrapBoundary, view_execUpLaneFrameRx, view_execPickFinalGap, view_execLaneFailed,
      view_execLaneDegraded, view_execLanePhaseComplete, view_execLaneAdaptStep, view_execTwinForwardFrameRx, view_execTwinBackfillFrameRx,
      view_execRelayDownFrameRx, view_execForwardingControlWord, view_execMirrorAck, view_execSeqState, view_execSafeState, view_execDemand,
      view_execHandover, view_execImage, view_execLocalFault, view_execPairMessageResend, view_execTwinLinkRestored, view_execLeaseAssessment,
      view_execDemotionBoundary, view_execHandoverPick, view_execRefclkOffsetOut, view_execRefclkOffsetBack, view_execPairFormationTimeout,
      view_execLiveSampleIssue, view_execBlindTimeout, view_execSettledSampleRelease, view_execDeltaReplay, view_execDwellValueFinal,
      view_execPrimarySampleFinal, view_execSramEccError, view_execHbmEccError, view_execTileFault, view_execSpareRebuildDone,
      view_execTripReanalysisStart, view_execTripReanalysisDone, view_execStandardIntervalCommit, view_execUserIntervalCommit,
      view_execHkSlotValueFinal, view_execWearDailySample, view_execWearCounterWrite, view_execEstimatorStep, view_execSynthAnchorDue,
      view_execHibernateEntry, view_execAnchorPass, view_execSpectralRound, view_execLoopTick, view_execInrushWindowEnd,
      view_execSetpointTtlExpiry, view_execGroupSearch, view_execRelaxationSetComplete, view_execBalanceFrameBoundary, view_execBalanceTtlExpiry,
      view_execOpenWireResult, view_execPassiveClassification, view_execCalRunFinish, view_execCalFlip, view_execCalSlewStep,
      view_execCalCandidateExpiry, view_execCalLaneRunFinish, view_execMapBuildComplete, view_execMapFlip, view_execSafetyConfigFlip,
      view_execPasswordSuspensionEnd, view_execOwnerChange, view_execTenantResetEffect, view_execTenantResetComplete, view_execEventWriterRound,
      view_execModerationExpiry, view_execLongCommandFinish, view_execFwStagingDone, view_execBistRunDone, view_execNvrReadDone,
      view_execDevInfo, view_execDevReady, view_execDevCaps, view_execDevTime, view_execDevNop, view_execChainPower, view_execChainEnum,
      view_execChainStatus, view_execChainPark, view_execChainWake, view_execChainSelvRead, view_execChainSelvWrite, view_execChainReset,
      view_execLaneUp, view_execLaneStatus, view_execLanePair, view_execLaneEye, view_execLaneDown, view_execBridgeStatus, view_execMapBind,
      view_execMapCommit, view_execMapRead, view_execMapRange, view_execAccOpen, view_execAccClose, view_execAccHarvest, view_execAccApsisReset,
      view_execAccStatus, view_execSpecConfig, view_execSpecFocus, view_execSpecHarvest, view_execSpecDither, view_execSpecStop, view_execCalRun,
      view_execCalStatus, view_execCalApply, view_execCalRevert, view_execCalRead, view_execCalLimits, view_execBalSet, view_execBalStatus,
      view_execDiagOpenwire, view_execDiagTag, view_execDiagReport, view_execEstConfig, view_execEstRead, view_execEstSave, view_execEstRestore,
      view_execEstLearn, view_execEstReset, view_execEstHibernate, view_execChgLoad, view_execChgStart, view_execChgStop, view_execChgStatus,
      view_execChgGroup, view_execChgSetpoint, view_execSafeConfig, view_execSafeArm, view_execSafeStatus, view_execSafeAck, view_execSafeLog,
      view_execSafeTighten, view_execTenCreate, view_execTenDestroy, view_execTenGrant, view_execTenRevoke, view_execTenQos, view_execTenReset,
      view_execTenStatus, view_execPairConfig, view_execPairStatus, view_execPairHandover, view_execPairUpdate, view_execPairLease,
      view_execHkThermal, view_execHkWear, view_execHkTrace, view_execHkRecords, view_execHkBist, view_execChkBind, view_execChkStatus,
      view_execRingEnable, view_execRingDisable, view_execEqEnable, view_execEqDisable, view_execEqConsWrite, view_execWarmReqWrite,
      view_execMgmtMailboxWrite, view_execTenantMailboxWrite, view_execAlertStatClear, view_execNvrReqWrite, view_execRegPairLowRead,
      view_execRegisterWrite, view_execPtmResponse, view_execVlineBackInRange, view_execSelvedgeMessageScrcFail,
      view_execChargeSequencerSramError]

theorem powered_releaseWaiting (s : State) : (releaseWaiting s).time.powered = s.time.powered := by
  unfold releaseWaiting
  split
  · exact powered_releaseCold s
  · rfl

theorem keepsTime_next {s t : State} (hp : t.time.powered = s.time.powered) (hc : clock t = clock s) : KeepsTime (.next t) s :=
  ⟨keepsPower_next hp, keepsClock_next hc⟩

/-- Where there is power a boundary counts, and what it does then, in every phase, keeps the time. -/
theorem keepsTime_execPickBoundary {s : State} (h : s.time.powered = true) :
    KeepsTime (execPickBoundary s) { s with time := { s.time with spc := s.time.spc + 1, frac := 0 } } := by
  unfold execPickBoundary
  rw [if_pos h]
  dsimp only
  split
  · exact keepsTime_next (powered_of (view_serviceBoundary _)) (clock_of (view_serviceBoundary _))
  · exact keepsTime_next (powered_of (view_shutdownBoundary _)) (clock_of (view_shutdownBoundary _))
  · exact keepsTime_next (powered_releaseWaiting _) (clock_releaseWaiting _)
  · exact keepsTime_next rfl rfl

theorem execPickBoundary_counts {s : State} (h : s.time.powered = true) :
    ∃ t, execPickBoundary s = .next t ∧ t.time.spc = s.time.spc + 1 ∧ t.time.powered = true ∧ t.pending = s.pending := by
  obtain ⟨t, ht⟩ : ∃ t, execPickBoundary s = .next t := ⟨_, rfl⟩
  obtain ⟨hpower, hclock⟩ := keepsTime_execPickBoundary h
  have hc := hclock t ht
  exact ⟨t, ht, congrArg Prod.snd hc, (hpower t ht).trans h, congrArg Prod.fst hc⟩

theorem execPickBoundary_unpowered {s : State} (h : s.time.powered = false) : execPickBoundary s = .next s := by
  unfold execPickBoundary
  rw [if_neg (by simp [h])]

theorem execVddAonApplied_starts (s : State) : ∃ t, execVddAonApplied s = .next t ∧ t.time.spc = 0 ∧ t.time.powered = true := by
  obtain ⟨t, ht, heq, -⟩ := vddAonApplied_resets s
  exact ⟨t, ht, heq ▸ rfl, heq ▸ rfl⟩

theorem execVddAonRemoved_unpowered (s : State) : ∃ t, execVddAonRemoved s = .next t ∧ t.time.powered = false := by
  obtain ⟨t, ht, heq, -⟩ := vddAonRemoved_ends s
  exact ⟨t, ht, heq ▸ rfl⟩

/-- Settles O3: a row keeps power and the SPC (`keepsTime_exec`) but the boundary that counts and VDD_AON; a heartbeat keeps power. -/
theorem spcCounts : Obligations.SpcCounts := by
  refine ⟨execVddAonApplied_starts, fun _ => execPickBoundary_counts, fun s => ⟨execVddAonRemoved_unpowered s, execPickBoundary_unpowered⟩, ?_⟩
  intro c s t ht hpick hon hoff
  by_cases hbeat : ∃ h peer, c = .heartbeat h peer
  · obtain ⟨h, peer, rfl⟩ := hbeat
    exact ⟨powered_execHeartbeat h peer s t ht, fun hne => absurd rfl (hne h peer)⟩
  · obtain ⟨hpower, hclock⟩ := keepsTime_exec c s hpick hon hoff (fun h peer e => hbeat ⟨h, peer, e⟩)
    exact ⟨hpower t ht, fun _ => congrArg Prod.snd (hclock t ht)⟩

end Sys2Proof.Machine
end

section
/-! O17: what an accumulator holds of the samples it admitsSample, and the widths of its records (R152, R154, R156, R157). -/

namespace Sys2Proof.Machine

/-- A sample that an accumulator with an exclusion mask admits (R152). -/
def admitsSample (mask : Nat) (x : Sample) : Bool := !x.flags.gap && !maskHit mask x.flags

/-! ### One sample, by what R152 makes of it -/

theorem add_of_gap {x : Sample} (h : x.flags.gap = true) (a : Acc) (gen mask : Nat) :
    a.add x gen mask = { a with flags := a.flags ||| flagBits x.flags, nGap := a.nGap + 1 } := by
  simp [Acc.add, h]

theorem add_of_masked {x : Sample} {mask : Nat} (h : x.flags.gap = false) (hm : maskHit mask x.flags = true) (a : Acc) (gen : Nat) :
    a.add x gen mask = { a with flags := a.flags ||| flagBits x.flags, nExcl := a.nExcl + 1 } := by
  simp [Acc.add, h, hm]

theorem add_of_admitted {x : Sample} {mask : Nat} (h : x.flags.gap = false) (hm : maskHit mask x.flags = false) (a : Acc) (gen : Nat) :
    ∃ fl, a.add x gen mask = { a with
      flags := fl, count := a.count + 1, sum := a.sum + x.value, sumsq := a.sumsq + x.value.natAbs ^ 2
      gen := some gen, genFirst := some (a.genFirst.getD gen) } :=
  ⟨_, by simp only [Acc.add, h, hm, Bool.false_eq_true, if_false]; rfl⟩

/-! ### A list of samples -/

/-- `b` holds of the samples `xs` what `a` lacks: those admitted, and the counts of the others. -/
structure Took (mask : Nat) (xs : List Sample) (a b : Acc) : Prop where
  count : b.count = a.count + (xs.filter (admitsSample mask)).length
  sum : b.sum = a.sum + ((xs.filter (admitsSample mask)).map (·.value)).sum
  sumsq : b.sumsq = a.sumsq + ((xs.filter (admitsSample mask)).map (fun x => x.value.natAbs ^ 2)).sum
  nGap : b.nGap = a.nGap + xs.countP (fun x => x.flags.gap)
  nExcl : b.nExcl = a.nExcl + xs.countP (fun x => !x.flags.gap && maskHit mask x.flags)

/-- Taking one more sample first: by what R152 makes of it. -/
theorem Took.cons {mask gen : Nat} {x : Sample} {xs : List Sample} {a b : Acc} (h : Took mask xs (a.add x gen mask) b) :
    Took mask (x :: xs) a b := by
  obtain ⟨hcount, hsum, hsumsq, hgap, hexcl⟩ := h
  cases hg : x.flags.gap with
  | true =>
    have hout : (x :: xs).filter (admitsSample mask) = xs.filter (admitsSample mask) := List.filter_cons_of_neg (by simp [admitsSample, hg])
    rw [add_of_gap hg] at hcount hsum hsumsq hgap hexcl
    rw [← hout] at hcount hsum hsumsq
    refine ⟨hcount, hsum, hsumsq, ?_, ?_⟩
    · rw [List.countP_cons_of_pos (p := fun x : Sample => x.flags.gap) hg, hgap, Nat.add_right_comm, Nat.add_assoc]
    · rw [List.countP_cons_of_neg (by simp [hg]), hexcl]
  | false =>
    cases hm : maskHit mask x.flags with
    | true =>
      have hout : (x :: xs).filter (admitsSample mask) = xs.filter (admitsSample mask) :=
        List.filter_cons_of_neg (by simp [admitsSample, hm])
      rw [add_of_masked hg hm] at hcount hsum hsumsq hgap hexcl
      rw [← hout] at hcount hsum hsumsq
      refine ⟨hcount, hsum, hsumsq, ?_, ?_⟩
      · rw [List.countP_cons_of_neg (by simp [hg]), hgap]
      · rw [List.countP_cons_of_pos (by simp [hg, hm]), hexcl, Nat.add_right_comm, Nat.add_assoc]
    | false =>
      have hin : (x :: xs).filter (admitsSample mask) = x :: xs.filter (admitsSample mask) :=
        List.filter_cons_of_pos (by simp [admitsSample, hg, hm])
      obtain ⟨fl, hadd⟩ := add_of_admitted hg hm a gen
      rw [hadd] at hcount hsum hsumsq hgap hexcl
      refine ⟨?_, ?_, ?_, ?_, ?_⟩
      · rw [hin, List.length_cons, hcount, Nat.add_right_comm, Nat.add_assoc]
      · rw [hin, List.map_cons, List.sum_cons, hsum, Int.add_assoc]
      · rw [hin, List.map_cons, List.sum_cons, hsumsq, Nat.add_assoc]
      · rw [List.countP_cons_of_neg (by simp [hg]), hgap]
      · rw [List.countP_cons_of_neg (by simp [hm]), hexcl]

theorem took_foldl (xs : List Sample) (gen mask : Nat) (a : Acc) : Took mask xs a (xs.foldl (fun a x => a.add x gen mask) a) := by
  induction xs generalizing a with
  | nil => exact ⟨rfl, (Int.add_zero _).symm, rfl, rfl, rfl⟩
  | cons x xs ih => exact (ih (a.add x gen mask)).cons

/-! ### Widths -/

/-- A value that 32 bits hold. -/
def Fits32 (v : Int) : Prop := -2 ^ 31 ≤ v ∧ v < 2 ^ 31

/-- The sum of n 32-bit values is within n times their bounds. -/
theorem sum_values_bounds {xs : List Sample} (h : ∀ x ∈ xs, Fits32 x.value) :
    -2 ^ 31 * (xs.length : Int) ≤ (xs.map (·.value)).sum ∧ (xs.map (·.value)).sum ≤ 2 ^ 31 * (xs.length : Int) := by
  induction xs with
  | nil => decide
  | cons x xs ih =>
    obtain ⟨hx, hxs⟩ := List.forall_mem_cons.mp h
    obtain ⟨hlo, hhi⟩ := ih hxs
    obtain ⟨hmin, hmax⟩ := hx
    rw [List.map_cons, List.sum_cons, List.length_cons]
    omega

/-- The square of a 32-bit value is at most 2^62. -/
theorem square_bound {v : Int} (h : Fits32 v) : v.natAbs ^ 2 ≤ 2 ^ 62 := by
  obtain ⟨hmin, hmax⟩ := h
  exact Nat.pow_le_pow_left (show v.natAbs ≤ 2 ^ 31 by omega) 2

theorem sum_squares_bound {xs : List Sample} (h : ∀ x ∈ xs, Fits32 x.value) :
    (xs.map (fun x => x.value.natAbs ^ 2)).sum ≤ 2 ^ 62 * xs.length := by
  induction xs with
  | nil => decide
  | cons x xs ih =>
    obtain ⟨hx, hxs⟩ := List.forall_mem_cons.mp h
    have hsq := square_bound hx
    have hrest := ih hxs
    rw [List.map_cons, List.sum_cons, List.length_cons]
    generalize x.value.natAbs ^ 2 = q at hsq ⊢
    omega

/-- Settles O17: the fold keeps `Took`, and n admitted values bound the sums by n times the bounds of one. -/
theorem exactSums : Obligations.ExactSums := by
  unfold Obligations.ExactSums
  intro xs gen mask a ok
  obtain ⟨hcount, hsum, hsumsq, hgap, hexcl⟩ : Took mask xs {} a := took_foldl xs gen mask {}
  replace hcount := hcount.trans (Nat.zero_add _)
  replace hsum := hsum.trans (Int.zero_add _)
  replace hsumsq := hsumsq.trans (Nat.zero_add _)
  replace hgap := hgap.trans (Nat.zero_add _)
  replace hexcl := hexcl.trans (Nat.zero_add _)
  refine ⟨hcount, hsum, hsumsq, hgap, hexcl, fun hvals => ?_⟩
  obtain ⟨hlo, hhi⟩ := sum_values_bounds hvals
  have hsq := sum_squares_bound hvals
  have hok : ok.length ≤ xs.length := List.length_filter_le ..
  have hgaps : xs.countP (fun x => x.flags.gap) ≤ xs.length := List.countP_le_length
  change a.count = ok.length at hcount
  change a.sum = (ok.map (·.value)).sum at hsum
  change a.sumsq = (ok.map fun x => x.value.natAbs ^ 2).sum at hsumsq
  rw [← hsum, ← hcount] at hlo hhi
  rw [← hsumsq, ← hcount] at hsq
  rw [← hcount] at hok
  rw [← hgap] at hgaps
  clear_value a ok
  constructor
  · intro hlen
    omega
  · intro hfits
    omega

end Sys2Proof.Machine
end

section
/-! What the rows of user windows share: finish events, and the table of windows (R147 to R151, R391). -/

namespace Sys2Proof.Machine

/-- Finishing a command takes it from the store of R391; beside it event queues and the trace change. -/
theorem finish_writes (ref : CmdRef) (status : Nat) (s : State) :
    ∃ tr fr qs, finish ref status s = { s with
      trace := tr, fresh := fr, ten := { s.ten with queues := qs }
      cmd := { s.cmd with unfinished := s.cmd.unfinished.filter (fun u => u.ref != ref) } } := by
  unfold finish finishOn
  dsimp only
  split
  · exact ⟨s.trace, s.fresh, s.ten.queues, rfl⟩
  · exact raise_writes ..

/-- `t` is `s` but for event queues, the trace and the store of R391, from which commands may have gone. -/
def Finished (s t : State) : Prop :=
  ∃ tr fr qs un, t = { s with trace := tr, fresh := fr, ten := { s.ten with queues := qs }, cmd := { s.cmd with unfinished := un } }

theorem finished_refl (s : State) : Finished s s := ⟨s.trace, s.fresh, s.ten.queues, s.cmd.unfinished, rfl⟩

theorem finished_raise {s t : State} (h : Finished s t) (src kind arg spc : Nat) : Finished s (raise src kind arg spc t) := by
  obtain ⟨_, _, _, un, rfl⟩ := h
  obtain ⟨tr, fr, qs, hr⟩ := raise_writes src kind arg spc _
  exact ⟨tr, fr, qs, un, hr⟩

theorem finished_finish {s t : State} (h : Finished s t) (ref : CmdRef) (status : Nat) : Finished s (finish ref status t) := by
  obtain ⟨_, _, _, un, rfl⟩ := h
  obtain ⟨tr, fr, qs, hr⟩ := finish_writes ref status _
  exact ⟨tr, fr, qs, _, hr⟩

/-- Finishing the command that a window holds, if any. -/
theorem finished_finishOf {s t : State} (h : Finished s t) (c : Option CmdRef) (status : Nat) :
    Finished s (match c with
      | some ref => finish ref status t
      | none => t) := by
  cases c with
  | none => exact h
  | some ref => exact finished_finish h ref status

theorem finished_ite {s a b : State} (c : Prop) [Decidable c] (ha : Finished s a) (hb : Finished s b) : Finished s (if c then a else b) := by
  split <;> assumption

theorem tget_modWin_same {k : Nat} {w : Window} {s : State} (h : tget s.acc.windows k = some w) (f : Window → Window) :
    tget (modWin k f s).acc.windows k = some (f w) := by
  simp only [modWin, tupd, h, tget_tset_same]

theorem tget_modWin_other {k j : Nat} (h : j ≠ k) (f : Window → Window) (s : State) :
    tget (modWin k f s).acc.windows j = tget s.acc.windows j :=
  tget_tupd_other _ _ _ _ h

end Sys2Proof.Machine
end

section
/-! O14: opening and closing a window (R147, R149 to R151). -/

namespace Sys2Proof.Machine

/-! ### The identifier of a new window (R151) -/

/-- Of the identifiers below n, searched downwards, the first that is free has no free one above it. -/
theorem find?_range_reverse {n i : Nat} {p : Nat → Bool} (hi : i < n) (hp : p i = true) (hup : ∀ j, j < n → i < j → p j = false) :
    (List.range n).reverse.find? p = some i := by
  induction n with
  | zero => omega
  | succ n ih =>
    rw [List.range_succ, List.reverse_append, List.reverse_singleton, List.singleton_append]
    by_cases hn : i = n
    · rw [← hn, List.find?_cons_of_pos hp]
    · have hnp : ¬ p n = true := by rw [hup n (by omega) (by omega)]; decide
      rw [List.find?_cons_of_neg hnp]
      exact ih (by omega) fun j hj => hup j (by omega)

/-- The identifier chosen is the free one that no free one stands before, from below or, here alone, from above. -/
theorem freeId_eq_some {here : Bool} {n i : Nat} {free : Nat → Bool} (hi : i < n) (hp : free i = true)
    (hfirst : ∀ j, j < n → (if here then i < j else j < i) → free j = false) : freeId here n free = some i := by
  unfold freeId
  cases here with
  | true => exact find?_range_reverse hi hp hfirst
  | false => exact List.find?_range_eq_some.mpr ⟨hp, List.mem_range.mpr hi, fun j hj => by simp [hfirst j (by omega) hj]⟩

theorem freeWin_eq_some {r : Req} {s : State} {i : Nat} (hi : i < 65536) (hfree : thas s.acc.windows (r.fn * 65536 + i) = false)
    (hfirst : ∀ j, j < 65536 → (if localNamed 0x0500 r s then i < j else j < i) → thas s.acc.windows (r.fn * 65536 + j) = true) :
    freeWin s r = some i :=
  freeId_eq_some hi (by simp [hfree]) fun j hj hb => by simp [hfirst j hj hb]

theorem freeWin_noted {s s2 : State} (h : Noted s s2) (r : Req) : freeWin s2 r = freeWin s r := by
  obtain ⟨_, _, _, rfl⟩ := h
  rfl

/-- All entries of a packet of the device's own host concern it. -/
theorem openEntries_own {r : Req} (h : r.twin = false) : openEntries r = r.inb.dropLast.map entryOf := by
  simp [openEntries, concerns, h]

/-- The window that `ACC.OPEN` opens in a pick (R147). -/
def openedWindow (r : Req) (spc : Nat) : Window :=
  { start := if of64 (reqWord r 4) (reqWord r 5) = 0 then nextMult 200 (spc + 1) else of64 (reqWord r 4) (reqWord r 5)
    length := (reqWord r 6).toNat, repeats := bits (reqWord r 7) 0 0 == 1, apsis := bits (reqWord r 7) 1 1 == 1
    event := bits (reqWord r 7) 2 2 == 1, mask := bits (reqWord r 7) 12 8, entries := r.inb.dropLast.map entryOf }

theorem actAccOpen_now {r : Req} {s2 : State} {i : Nat} (hown : r.twin = false) (h : freeWin s2 r = some i) (s : State) :
    actAccOpen r s s2 = .now ST_OK [wd i]
      { s2 with acc := { s2.acc with windows := tset s2.acc.windows (r.fn * 65536 + i) (openedWindow r s2.time.spc) } } := by
  unfold actAccOpen
  rw [openEntries_own hown]
  dsimp only
  rw [h]
  rfl

theorem answers_accOpen {r : Req} {s : State} {i : Nat} (h : Accepted (checksAccOpen r s) r s) (hi : freeWin s r = some i) :
    Answers (execAccOpen r s) r ST_OK [wd i] s
      { s with acc := { s.acc with windows := tset s.acc.windows (r.fn * 65536 + i) (openedWindow r s.time.spc) } } := by
  refine answers_now h (.inl rfl) fun s2 hn => ⟨_, actAccOpen_now h.own ((freeWin_noted hn r).trans hi) s, ?_⟩
  obtain ⟨tr, fr, ck, rfl⟩ := hn
  exact ⟨rfl, rfl, rfl⟩

/-! ### Closing (R149) -/

/-- A check that answers a status when it fails has passed where the answer is none. -/
theorem none_of_ite {α : Type} {c : Prop} [Decidable c] {a b : Option α} (ha : c → a.isSome = true) (h : (if c then a else b) = none) :
    b = none := by
  split at h
  · next hc => exact absurd (ha hc) (by simp [h])
  · exact h

/-- The last check, of step 12, has passed when no late check fails. -/
theorem pre_of_lateFail {k : Checks} {r : Req} {s : State} (h : lateFail k r s = none) : k.pre = none := by
  unfold lateFail at h
  have hrole := none_of_ite (fun _ => rfl) <| none_of_ite (fun _ => rfl) <| none_of_ite (fun _ => rfl) h
  have hinb := none_of_ite id <| none_of_ite id hrole
  have hquota := none_of_ite (fun _ => rfl) <| none_of_ite (fun _ => rfl) <| none_of_ite (fun _ => rfl) <| none_of_ite (fun _ => rfl) hinb
  exact none_of_ite id hquota
theorem pre_of_accepted {k : Checks} {r : Req} {s : State} (h : Accepted k r s) : k.pre = none := by
  have hp := h.pass
  unfold firstFail at hp
  rw [earlyFail_of_accepted h] at hp
  exact pre_of_lateFail hp

/-- An accepted `ACC.CLOSE` names a window that its function holds. -/
theorem window_of_accClose {r : Req} {s : State} (h : Accepted (checksAccClose r s) r s) :
    ∃ w, tget s.acc.windows (r.fn * 65536 + (reqWord r 4).toNat) = some w := by
  have hp := pre_of_accepted h
  cases hw : tget s.acc.windows (r.fn * 65536 + (reqWord r 4).toNat) with
  | some w => exact ⟨w, rfl⟩
  | none => simp [checksAccClose, hw] at hp

/-- A close without discard gives the window its end and its command. -/
theorem actAccClose_long {r : Req} {s : State} {w : Window} (hw : tget s.acc.windows (r.fn * 65536 + (reqWord r 4).toNat) = some w)
    (hd : bits (reqWord r 7) 0 0 = 0) (s2 : State) :
    actAccClose r s s2 = .long (r.fn * 65536 + (reqWord r 4).toNat) []
      (modWin (r.fn * 65536 + (reqWord r 4).toNat) (fun w => { w with
        close := some (if of64 (reqWord r 5) (reqWord r 6) = 0 then nextMult 200 (s2.spc + 1) else of64 (reqWord r 5) (reqWord r 6))
        cmd := some (reqRef r) }) s2) := by
  unfold actAccClose
  simp [hw, hd]

/-- A close with discard removes the window, finishes the command that it held, and finishes in the same pick. -/
theorem actAccClose_longNow {r : Req} {s : State} {w : Window} (hw : tget s.acc.windows (r.fn * 65536 + (reqWord r 4).toNat) = some w)
    (hd : bits (reqWord r 7) 0 0 = 1) (s2 : State) :
    ∃ u, actAccClose r s s2 = .longNow ST_OK [] u ∧ Finished (dropWin (r.fn * 65536 + (reqWord r 4).toNat) s2) u := by
  refine ⟨_, by unfold actAccClose; simp only [hw, hd, beq_self_eq_true, if_true]; rfl, ?_⟩
  exact finished_finishOf (finished_raise (finished_refl _) ..) _ _

/-- A reply that completes with ST_ACCEPTED and finishes in the same pick: its completion, and no unfinished command of the packet. -/
theorem replied_longNow {r : Req} {s u : State} {op accept st : Nat} {res : List Word} (hown : r.twin = false) (hs : u.spc = s.spc)
    (hc : u.out.completions = s.out.completions) :
    let t := replied r op accept (.longNow st res u)
    Completes r ST_ACCEPTED res s t ∧ t.acc = u.acc ∧ t.line = u.line ∧ t.loom = u.loom ∧ t.est = u.est
      ∧ ∀ v ∈ t.cmd.unfinished, v.ref ≠ reqRef r := by
  intro t
  obtain ⟨c, tr, fr, vs, ms, rs, hwc, hfn, hring, hid, hstat, hspc, hres⟩ :=
    writeCompletion_writes (reqRef r) ST_ACCEPTED res u.spc (holdUnfinished (reqRef r) op 0 u)
  obtain ⟨tr', fr', qs, hf⟩ := finish_writes (reqRef r) st (writeCompletion (reqRef r) ST_ACCEPTED res u.spc (holdUnfinished (reqRef r) op 0 u))
  have ht : t = finish (reqRef r) st (writeCompletion (reqRef r) ST_ACCEPTED res u.spc (holdUnfinished (reqRef r) op 0 u)) := by
    simp only [t, replied, completeAt, show (reqRef r).twin = false from hown, Bool.false_eq_true, if_false]
  rw [hf, hwc] at ht
  rw [ht]
  refine ⟨⟨c, by simp only [holdUnfinished, hc], hfn, hring, hid, hstat, hspc.trans hs, hres.trans (if_pos (.inr (.inl rfl)))⟩,
    rfl, rfl, rfl, rfl, fun v hv => ?_⟩
  simpa using (List.mem_filter.mp hv).2

theorem begins_accClose {r : Req} {s : State} (h : Accepted (checksAccClose r s) r s) (hd : bits (reqWord r 7) 0 0 = 0) :
    Begins (execAccClose r s) r 0x0501 (r.fn * 65536 + (reqWord r 4).toNat) [] s
      (modWin (r.fn * 65536 + (reqWord r 4).toNat) (fun w => { w with
        close := some (if of64 (reqWord r 5) (reqWord r 6) = 0 then nextMult 200 (s.time.spc + 1) else of64 (reqWord r 5) (reqWord r 6))
        cmd := some (reqRef r) }) s) := by
  obtain ⟨w, hw⟩ := window_of_accClose h
  refine answers_long h fun s2 hn => ⟨_, actAccClose_long hw hd s2, ?_⟩
  obtain ⟨tr, fr, ck, rfl⟩ := hn
  exact ⟨rfl, rfl, rfl⟩

theorem discards_accClose {r : Req} {s : State} (h : Accepted (checksAccClose r s) r s) (hd : bits (reqWord r 7) 0 0 = 1) :
    ∃ t, execAccClose r s = .next t ∧ Completes r ST_ACCEPTED [] s t
      ∧ t.acc = { s.acc with windows := tdel s.acc.windows (r.fn * 65536 + (reqWord r 4).toNat) }
      ∧ t.line = s.line ∧ t.loom = s.loom ∧ t.est = s.est ∧ (∀ u ∈ t.cmd.unfinished, u.ref ≠ reqRef r) := by
  obtain ⟨w, hw⟩ := window_of_accClose h
  obtain ⟨s2, hn, hc⟩ := command_accepted h (actAccClose r s)
  obtain ⟨u, hact, hu⟩ := actAccClose_longNow hw hd s2
  unfold execAccClose
  rw [hc, hact]
  obtain ⟨tr, fr, ck, rfl⟩ := hn
  obtain ⟨tr', fr', qs, un, rfl⟩ := hu
  exact ⟨_, rfl, replied_longNow h.own rfl rfl⟩

/-- Settles O14: the identifier is the first free one of `freeId`; each command acts on the state as it stands but for what is noted of it. -/
theorem windowOpenClose : Obligations.WindowOpenClose := by
  unfold Obligations.WindowOpenClose
  refine ⟨fun r s i h hi hfree hfirst => ?opens, fun r s h hd => ?closes, fun r s h hd => ?discards⟩
  case opens => exact answers_accOpen h (freeWin_eq_some hi hfree hfirst)
  case closes => exact begins_accClose h hd
  case discards => exact discards_accClose h hd

end Sys2Proof.Machine
end

section
/-! The records of standard intervals: putting a record in place, gaps, and commits (R143 to R146). -/

namespace Sys2Proof.Machine

/-! ### A list of records -/

theorem mem_putRec {x y : StdRec} {l : List StdRec} (h : y ∈ putRec x l) : y = x ∨ y ∈ l := by
  unfold putRec at h
  simp only [List.append_assoc, List.mem_append, List.mem_singleton] at h
  rcases h with h | h | h
  · exact .inr ((List.takeWhile_sublist _).subset h)
  · exact .inl h
  · exact .inr ((List.dropWhile_sublist _).subset (List.mem_filter.mp h).1)

/-- The record put in place is the one found under its number. -/
theorem find?_putRec (x : StdRec) (l : List StdRec) : (putRec x l).find? (fun y => y.j == x.j) = some x := by
  have hbefore : (l.takeWhile (fun y => decide (x.j < y.j))).find? (fun y => y.j == x.j) = none := by
    rw [List.find?_eq_none]
    intro y hy
    have hlt := of_decide_eq_true (List.all_eq_true.mp List.all_takeWhile y hy)
    simp only [beq_iff_eq]
    omega
  simp [putRec, hbefore]

/-- A record committed with the highest number is the newest of those committed. -/
theorem filter_committed_putRec {x : StdRec} {l : List StdRec} (hx : x.committed = true) (hl : ∀ y ∈ l, y.committed = true → y.j < x.j) :
    ∃ older, (putRec x l).filter (·.committed) = x :: older ∧ ∀ y ∈ older, y.j ≠ x.j := by
  have hnone : (l.takeWhile (fun y => decide (x.j < y.j))).filter (·.committed) = [] := by
    rw [List.filter_eq_nil_iff]
    intro y hy hc
    have hlt := of_decide_eq_true (List.all_eq_true.mp List.all_takeWhile y hy)
    have := hl y ((List.takeWhile_sublist _).subset hy) hc
    omega
  refine ⟨((l.dropWhile fun y => decide (x.j < y.j)).filter (fun y => y.j != x.j)).filter (·.committed), ?_, fun y hy => ?_⟩
  · simp [putRec, hnone, hx]
  · simpa using (List.mem_filter.mp (List.mem_filter.mp hy).1).2

/-- Of what a filter keeps, the first that another test finds is the first of all that it finds, where that one is kept. -/
theorem find?_filter_of_find? {α : Type} {p q : α → Bool} {x : α} {l : List α} (h : l.find? q = some x) (hp : p x = true) :
    (l.filter p).find? q = some x := by
  induction l with
  | nil => cases h
  | cons y l ih =>
    cases hq : q y with
    | true =>
      rw [List.find?_cons_of_pos hq] at h
      cases h
      rw [List.filter_cons_of_pos hp, List.find?_cons_of_pos hq]
    | false =>
      rw [List.find?_cons_of_neg (by simp [hq])] at h
      rw [List.filter_cons]
      split
      · rw [List.find?_cons_of_neg (by simp [hq]), ih h]
      · exact ih h

/-! ### The record of an interval -/

/-- The record of interval j of an entry, an empty one where there is none. -/
def stdRec (s : State) (sixty : Bool) (j key : Nat) : StdRec := ((tgetD (stdTab s sixty) key []).find? (fun y => y.j == j)).getD { j := j }

theorem stdRec_j (s : State) (sixty : Bool) (j key : Nat) : (stdRec s sixty j key).j = j := by
  unfold stdRec
  cases h : (tgetD (stdTab s sixty) key []).find? (fun y => y.j == j) with
  | none => rfl
  | some y => simpa using List.find?_some h

/-- Every committed record of an entry is of an interval before j. -/
def Uncommitted (sixty : Bool) (j key : Nat) (s : State) : Prop := ∀ y ∈ tgetD (stdTab s sixty) key [], y.committed = true → y.j < j

/-- Interval j of an entry stands committed. -/
def Committed (sixty : Bool) (j key : Nat) (s : State) : Prop := (stdRec s sixty j key).committed = true

theorem Uncommitted.stdRec_committed {sixty : Bool} {j key : Nat} {s : State} (h : Uncommitted sixty j key s) :
    (stdRec s sixty j key).committed = false := by
  have hj := stdRec_j s sixty j key
  unfold stdRec at hj ⊢
  cases hf : (tgetD (stdTab s sixty) key []).find? (fun y => y.j == j) with
  | none => rfl
  | some y =>
    rw [hf] at hj
    cases hc : y.committed with
    | false => exact hc
    | true => exact absurd hj (Nat.ne_of_lt (h y (List.mem_of_find?_eq_some hf) hc))

theorem Committed.mem {sixty : Bool} {j key : Nat} {s : State} (h : Committed sixty j key s) :
    ∃ y ∈ tgetD (stdTab s sixty) key [], y.j = j ∧ y.committed = true := by
  have hj := stdRec_j s sixty j key
  unfold Committed at h
  unfold stdRec at h hj
  cases hf : (tgetD (stdTab s sixty) key []).find? (fun y => y.j == j) with
  | none => simp [hf] at h
  | some y =>
    rw [hf] at h hj
    exact ⟨y, List.mem_of_find?_eq_some hf, hj, h⟩

theorem stdTab_putStdTab_same (sixty : Bool) (t : Tbl (List StdRec)) (s : State) : stdTab (putStdTab sixty t s) sixty = t := by
  cases sixty <;> rfl

theorem stdTab_putStdTab_other {sixty b : Bool} (h : b ≠ sixty) (t : Tbl (List StdRec)) (s : State) :
    stdTab (putStdTab b t s) sixty = stdTab s sixty := by
  obtain rfl := Bool.eq_not_of_ne h
  cases sixty <;> rfl

/-! ### What commits leave alone -/

/-- `t` is `s` but for standard records of one entry. -/
structure RecordsOf (key : Nat) (s t : State) : Prop where
  rest : ∃ one sixty, t = { s with acc := { s.acc with one := one, sixty := sixty } }
  other : ∀ sixty k, k ≠ key → tget (stdTab t sixty) k = tget (stdTab s sixty) k

theorem recordsOf_refl (key : Nat) (s : State) : RecordsOf key s s := ⟨⟨s.acc.one, s.acc.sixty, rfl⟩, fun _ _ _ => rfl⟩

theorem RecordsOf.trans {key : Nat} {a b c : State} (h : RecordsOf key a b) (g : RecordsOf key b c) : RecordsOf key a c := by
  refine ⟨?_, fun sixty k hk => (g.other sixty k hk).trans (h.other sixty k hk)⟩
  obtain ⟨_, _, rfl⟩ := h.rest
  obtain ⟨one, sixty, rfl⟩ := g.rest
  exact ⟨one, sixty, rfl⟩

theorem recordsOf_put (sixty : Bool) (key : Nat) (l : List StdRec) (s : State) :
    RecordsOf key s (putStdTab sixty (tset (stdTab s sixty) key l) s) := by
  refine ⟨by cases sixty <;> exact ⟨_, _, rfl⟩, fun b k hk => ?_⟩
  by_cases hb : sixty = b
  · rw [← hb, stdTab_putStdTab_same, tget_tset_other _ _ _ _ hk]
  · rw [stdTab_putStdTab_other hb]

/-! ### Gaps -/

theorem stdGaps_eq (sixty : Bool) (j key n : Nat) (s : State) :
    stdGaps sixty j key n s = if n = 0 || (stdRec s sixty j key).committed then s
      else putStdTab sixty (tset (stdTab s sixty) key (putRec
        { stdRec s sixty j key with acc := { (stdRec s sixty j key).acc with
            nGap := (stdRec s sixty j key).acc.nGap + n, flags := (stdRec s sixty j key).acc.flags ||| RF_GAP } }
        (tgetD (stdTab s sixty) key []))) s := rfl

theorem recordsOf_stdGaps (sixty : Bool) (j key n : Nat) (s : State) : RecordsOf key s (stdGaps sixty j key n s) := by
  rw [stdGaps_eq]
  split
  · exact recordsOf_refl key s
  · exact recordsOf_put ..

/-- Gaps commit nothing. -/
theorem uncommitted_stdGaps {sixty : Bool} {j key : Nat} {s : State} (h : Uncommitted sixty j key s) (b : Bool) (i n : Nat) :
    Uncommitted sixty j key (stdGaps b i key n s) := by
  rw [stdGaps_eq]
  split
  · exact h
  · next hopen =>
    by_cases hb : b = sixty
    · subst hb
      unfold Uncommitted
      rw [stdTab_putStdTab_same, tgetD_tset_same]
      intro y hy hc
      rcases mem_putRec hy with rfl | hy
      · simp_all
      · exact h y hy hc
    · unfold Uncommitted
      rw [stdTab_putStdTab_other hb]
      exact h

/-- Gaps leave a committed interval as it is. -/
theorem stdGaps_of_committed {sixty : Bool} {j key : Nat} {s : State} (h : Committed sixty j key s) (n : Nat) :
    stdGaps sixty j key n s = s := by
  rw [stdGaps_eq, if_pos (by simp [show (stdRec s sixty j key).committed = true from h])]

theorem stdTab_stdGaps_other {sixty b : Bool} (hb : b ≠ sixty) (i key n : Nat) (s : State) :
    stdTab (stdGaps b i key n s) sixty = stdTab s sixty := by
  rw [stdGaps_eq]
  split
  · rfl
  · exact stdTab_putStdTab_other hb ..

/-! ### The commit of a record -/

/-- What is retained of an entry's records: of those committed the newest 4 or 8 (R144). -/
def retained (sixty : Bool) (l : List StdRec) : List StdRec :=
  l.filter fun y => !(((l.filter (·.committed)).drop (if sixty then 4 else 8)).map (·.j)).contains y.j

/-- A record committed with the highest number is retained. -/
theorem find?_retained_putRec {x : StdRec} {l : List StdRec} (hx : x.committed = true) (hl : ∀ y ∈ l, y.committed = true → y.j < x.j)
    (sixty : Bool) : (retained sixty (putRec x l)).find? (fun y => y.j == x.j) = some x := by
  obtain ⟨older, hfilter, holder⟩ := filter_committed_putRec hx hl
  refine find?_filter_of_find? (find?_putRec x l) ?_
  have hdrop : (x :: older).drop (if sixty then 4 else 8) = older.drop (if sixty then 3 else 7) := by cases sixty <;> rfl
  rw [hfilter, hdrop]
  simp only [Bool.not_eq_true', List.contains_eq_mem, decide_eq_false_iff_not, List.mem_map, not_exists, not_and]
  exact fun y hy => holder y (List.mem_of_mem_drop hy)

/-- A commit puts the interval's record in place as committed, unless it is. -/
theorem commitRec_eq (sixty : Bool) (j key : Nat) (s : State) : ∃ x : StdRec, x.j = j ∧ x.committed = true ∧
    commitRec sixty j key s = if (stdRec s sixty j key).committed then s
      else putStdTab sixty (tset (stdTab s sixty) key (retained sixty (putRec x (tgetD (stdTab s sixty) key [])))) s := by
  refine ⟨_, ?_, ?_, rfl⟩
  · exact stdRec_j ..
  · rfl

theorem recordsOf_commitRec (sixty : Bool) (j key : Nat) (s : State) : RecordsOf key s (commitRec sixty j key s) := by
  obtain ⟨x, -, -, he⟩ := commitRec_eq sixty j key s
  rw [he]
  split
  · exact recordsOf_refl key s
  · exact recordsOf_put ..

theorem stdTab_commitRec_other {sixty b : Bool} (hb : b ≠ sixty) (i key : Nat) (s : State) :
    stdTab (commitRec b i key s) sixty = stdTab s sixty := by
  obtain ⟨x, -, -, he⟩ := commitRec_eq b i key s
  rw [he]
  split
  · rfl
  · exact stdTab_putStdTab_other hb ..

theorem commitRec_of_committed {sixty : Bool} {j key : Nat} {s : State} (h : Committed sixty j key s) : commitRec sixty j key s = s := by
  obtain ⟨x, -, -, he⟩ := commitRec_eq sixty j key s
  exact he.trans (if_pos h)

theorem committed_commitRec {sixty : Bool} {j key : Nat} {s : State} (h : Uncommitted sixty j key s) :
    Committed sixty j key (commitRec sixty j key s) := by
  obtain ⟨x, hj, hx, he⟩ := commitRec_eq sixty j key s
  rw [he, if_neg (by simp [h.stdRec_committed])]
  unfold Committed stdRec
  rw [stdTab_putStdTab_same, tgetD_tset_same, ← hj, find?_retained_putRec hx fun y hy hc => hj ▸ h y hy hc]
  exact hx

/-! ### The commit of an entry -/

theorem commitSecond_eq (j key : Nat) (s : State) :
    commitSecond j key s = if (stdRec s false j key).committed || decide (j + 8 < s.acc.doneOne) then s
      else commitRec false j key (stdGaps true (j / 60) key (neverCame s key (stdRec s false j key))
        (stdGaps false j key (neverCame s key (stdRec s false j key)) s)) := rfl

theorem recordsOf_commitSecond (j key : Nat) (s : State) : RecordsOf key s (commitSecond j key s) := by
  rw [commitSecond_eq]
  split
  · exact recordsOf_refl key s
  · exact ((recordsOf_stdGaps ..).trans (recordsOf_stdGaps ..)).trans (recordsOf_commitRec ..)

theorem recordsOf_commitEntry (sixty : Bool) (j key : Nat) (s : State) : RecordsOf key s (commitEntry sixty j key s) := by
  cases sixty with
  | false => exact recordsOf_commitSecond ..
  | true => exact (recordsOf_commitSecond ..).trans (recordsOf_commitRec ..)

theorem commitSecond_of_committed {j key : Nat} {s : State} (h : Committed false j key s) : commitSecond j key s = s := by
  rw [commitSecond_eq, if_pos (by simp [show (stdRec s false j key).committed = true from h])]

/-- One of the last 8 intervals of 1 s is committed where no later one is (R144). -/
theorem committed_commitSecond {j key : Nat} {s : State} (h : Uncommitted false j key s) (hlast : s.acc.doneOne ≤ j + 8) :
    Committed false j key (commitSecond j key s) := by
  rw [commitSecond_eq, if_neg (by simp [h.stdRec_committed, hlast])]
  exact committed_commitRec (uncommitted_stdGaps (uncommitted_stdGaps h _ _ _) _ _ _)

/-- The commit of the last second of a 60 s interval commits no 60 s interval. -/
theorem uncommitted_commitSecond {j key : Nat} {s : State} (h : Uncommitted true j key s) (i : Nat) :
    Uncommitted true j key (commitSecond i key s) := by
  rw [commitSecond_eq]
  split
  · exact h
  · have hgaps := uncommitted_stdGaps (uncommitted_stdGaps h false i (neverCame s key (stdRec s false i key))) true (i / 60)
      (neverCame s key (stdRec s false i key))
    unfold Uncommitted at hgaps ⊢
    rw [stdTab_commitRec_other Bool.false_ne_true]
    exact hgaps

theorem committed_of_stdTab {sixty : Bool} {j key : Nat} {s t : State} (h : stdTab t sixty = stdTab s sixty) (hc : Committed sixty j key s) :
    Committed sixty j key t := by
  unfold Committed stdRec at hc ⊢
  rw [h]
  exact hc

/-- Nor does it touch the 60 s interval where that stands committed. -/
theorem committed_sixty_commitSecond {j key : Nat} {s : State} (h : Committed true j key s) :
    Committed true j key (commitSecond (60 * j + 59) key s) := by
  rw [commitSecond_eq]
  split
  · exact h
  · have hgaps := committed_of_stdTab (stdTab_stdGaps_other Bool.false_ne_true (60 * j + 59) key
      (neverCame s key (stdRec s false (60 * j + 59) key)) s) h
    rw [show (60 * j + 59) / 60 = j by omega, stdGaps_of_committed hgaps]
    exact committed_of_stdTab (stdTab_commitRec_other Bool.false_ne_true ..) hgaps

theorem committed_commitEntry {sixty : Bool} {j key : Nat} {s : State} (h : Uncommitted sixty j key s)
    (hlast : sixty = false → s.acc.doneOne ≤ j + 8) : Committed sixty j key (commitEntry sixty j key s) := by
  cases sixty with
  | false => exact committed_commitSecond h (hlast rfl)
  | true => exact committed_commitRec (uncommitted_commitSecond h _)

/-- Interval j of an entry stays committed when j is committed of any entry, of that one again too. -/
theorem committed_commitEntry_again {sixty : Bool} {j key : Nat} {s : State} (h : Committed sixty j key s) (a : Nat) :
    Committed sixty j key (commitEntry sixty j a s) := by
  by_cases ha : a = key
  · subst ha
    cases sixty with
    | false =>
      rw [show commitEntry false j a s = s from commitSecond_of_committed h]
      exact h
    | true =>
      have hsecond := committed_sixty_commitSecond h
      rw [show commitEntry true j a s = commitSecond (60 * j + 59) a s from commitRec_of_committed hsecond]
      exact hsecond
  · unfold Committed stdRec tgetD at h ⊢
    rw [(recordsOf_commitEntry sixty j a s).other sixty key (Ne.symm ha)]
    exact h

/-- An interval that waits for its commit waits on when others are committed. -/
theorem uncommitted_commitEntry_other {sixty : Bool} {j key a : Nat} {s : State} (h : Uncommitted sixty j key s) (ha : a ≠ key) :
    Uncommitted sixty j key (commitEntry sixty j a s) := by
  unfold Uncommitted tgetD at h ⊢
  rw [(recordsOf_commitEntry sixty j a s).other sixty key (Ne.symm ha)]
  exact h

end Sys2Proof.Machine
end

section
/-! O16: the commits of standard intervals and of user windows (R143, R148, R149, R167). -/

namespace Sys2Proof.Machine

/-! ### The row of a standard interval -/

/-- A loop that meets `a` reaches what the round of `a` brings about, where the other rounds keep its premise and all keep its effect. -/
theorem forEach_reaches {α : Type} {P Q : State → Prop} {f : α → State → State} {a : α}
    (hother : ∀ b t, b ≠ a → P t → P (f b t)) (hhit : ∀ t, P t → Q (f a t)) (hkeep : ∀ b t, Q t → Q (f b t))
    {l : List α} (ha : a ∈ l) {s : State} (hs : P s) : Q (forEach l s f) := by
  induction l generalizing s with
  | nil => cases ha
  | cons b l ih =>
    rw [forEach_cons]
    by_cases hb : b = a
    · exact hb ▸ forEach_keeps Q l _ f hkeep (hhit s hs)
    · exact ih ((List.mem_cons.mp ha).resolve_left (Ne.symm hb)) (hother b s hb hs)

/-- `t` is `s` but for standard records and the estimator. -/
def CommitsStd (s t : State) : Prop := ∃ one sixty est, t = { s with acc := { s.acc with one := one, sixty := sixty }, est := est }

theorem commitsStd_commitEntry {s t : State} (h : CommitsStd s t) (sixty : Bool) (j key : Nat) : CommitsStd s (commitEntry sixty j key t) := by
  obtain ⟨_, _, est, rfl⟩ := h
  obtain ⟨one, sx, he⟩ := (recordsOf_commitEntry sixty j key _).rest
  exact ⟨one, sx, est, he⟩

/-- The rest of a string is the estimator's. -/
theorem noteRest_writes (j d : Nat) (s : State) : ∃ est, noteRest j d s = { s with est := est } := by
  unfold noteRest
  dsimp only
  split
  · exact ⟨_, rfl⟩
  · split
    · exact ⟨_, rfl⟩
    · exact ⟨s.est, rfl⟩

/-- What the commit of an interval loops over: the entries and, of 1 s intervals, the strings. -/
def commitStd (sixty : Bool) (j : Nat) (s : State) : State :=
  let s0 := forEach (stdEntries s sixty j) s (commitEntry sixty j)
  if sixty then s0 else forEach (tkeys s0.line.posns (fun _ x => x.kind == .dt1 && x.state == .released)) s0 (noteRest j)

theorem commitStd_writes (sixty : Bool) (j : Nat) (s : State) : CommitsStd s (commitStd sixty j s) := by
  have hentries : CommitsStd s (forEach (stdEntries s sixty j) s (commitEntry sixty j)) :=
    forEach_keeps (CommitsStd s) _ s _ (fun key t h => commitsStd_commitEntry h sixty j key) ⟨s.acc.one, s.acc.sixty, s.est, rfl⟩
  unfold commitStd
  dsimp only
  split
  · exact hentries
  · refine forEach_keeps (CommitsStd s) _ _ _ (fun d t h => ?_) hentries
    obtain ⟨one, sx, _, rfl⟩ := h
    obtain ⟨est, he⟩ := noteRest_writes j d _
    exact ⟨one, sx, est, he⟩

theorem committed_noteRest {sixty : Bool} {j key : Nat} {s : State} (h : Committed sixty j key s) (i d : Nat) :
    Committed sixty j key (noteRest i d s) := by
  obtain ⟨est, he⟩ := noteRest_writes i d s
  rw [he]
  exact h

/-- Every entry of the interval is committed that has no later one committed and, of 1 s, is among the last 8. -/
theorem committed_commitStd {sixty : Bool} {j key : Nat} {s : State} (hkey : key ∈ stdEntries s sixty j) (h : Uncommitted sixty j key s)
    (hlast : sixty = false → s.acc.doneOne ≤ j + 8) : Committed sixty j key (commitStd sixty j s) := by
  have hentries : Committed sixty j key (forEach (stdEntries s sixty j) s (commitEntry sixty j)) := by
    refine forEach_reaches (P := fun t => Uncommitted sixty j key t ∧ t.acc.doneOne = s.acc.doneOne) ?_ ?_ ?_ hkey ⟨h, rfl⟩
    · rintro a t ha ⟨hu, hd⟩
      obtain ⟨one, sx, he⟩ := (recordsOf_commitEntry sixty j a t).rest
      exact ⟨uncommitted_commitEntry_other hu ha, by rw [he]; exact hd⟩
    · rintro t ⟨hu, hd⟩
      exact committed_commitEntry hu fun hs => hd ▸ hlast hs
    · exact fun a t hc => committed_commitEntry_again hc a
  unfold commitStd
  dsimp only
  split
  · exact hentries
  · exact forEach_keeps _ _ _ _ (fun d t ht => committed_noteRest ht j d) hentries

theorem execStandardIntervalCommit_eq {sixty : Bool} {j : Nat} {s : State} (hup : s.boot.phase = .running)
    (hdue : stdLen sixty * (j + 1) + 1600 ≤ s.time.spc) :
    execStandardIntervalCommit sixty j s = .next { commitStd sixty j s with
      acc := if sixty then { (commitStd sixty j s).acc with doneSixty := max (commitStd sixty j s).acc.doneSixty (j + 1) }
        else { (commitStd sixty j s).acc with doneOne := max (commitStd sixty j s).acc.doneOne (j + 1) } } := by
  unfold execStandardIntervalCommit
  rw [if_pos (by simp [State.up, State.spc, hup, hdue])]
  rfl

theorem standardIntervalCommit_commits {sixty : Bool} {j key : Nat} {s : State} (hup : s.boot.phase = .running)
    (hdue : stdLen sixty * (j + 1) + 1600 ≤ s.time.spc) (hkey : key ∈ stdEntries s sixty j) (h : Uncommitted sixty j key s)
    (hlast : sixty = false → s.acc.doneOne ≤ j + 8) :
    ∃ t, execStandardIntervalCommit sixty j s = .next t
      ∧ (∃ y ∈ tgetD (stdTab t sixty) key [], y.j = j ∧ y.committed = true)
      ∧ (if sixty then t.acc.doneSixty else t.acc.doneOne) = max (if sixty then s.acc.doneSixty else s.acc.doneOne) (j + 1)
      ∧ t.acc.windows = s.acc.windows ∧ t.acc.apsis = s.acc.apsis ∧ t.line = s.line ∧ t.safe = s.safe ∧ t.time = s.time := by
  refine ⟨_, execStandardIntervalCommit_eq hup hdue, ?_⟩
  have hmem := (committed_commitStd hkey h hlast).mem
  obtain ⟨one, sx, est, he⟩ := commitStd_writes sixty j s
  rw [he] at hmem ⊢
  cases sixty with
  | false => exact ⟨hmem, rfl, rfl, rfl, rfl, rfl, rfl⟩
  | true => exact ⟨hmem, rfl, rfl, rfl, rfl, rfl, rfl⟩

/-! ### The row of a user window -/

theorem queueInterval_of_room {w : Window} (h : w.queue.length < 4) (q : Nat → WinQueued) :
    queueInterval w q = { w with queue := w.queue ++ [q w.dropped], dropped := 0 } := if_pos h

theorem queueInterval_of_full {w : Window} (h : 4 ≤ w.queue.length) (q : Nat → WinQueued) :
    queueInterval w q = { w with dropped := min 0xFFFF (w.dropped + 1) } := if_neg (by omega)

/-- Putting an interval into a queue leaves the rest of the window alone, and the queue holds one then. -/
theorem queueInterval_keeps (w : Window) (q : Nat → WinQueued) :
    (queueInterval w q).next = w.next ∧ (queueInterval w q).entries = w.entries ∧ (queueInterval w q).queue ≠ [] := by
  by_cases h : w.queue.length < 4
  · rw [queueInterval_of_room h]
    exact ⟨rfl, rfl, by simp⟩
  · rw [queueInterval_of_full (by omega)]
    refine ⟨rfl, rfl, fun hnil => h ?_⟩
    rw [show w.queue = [] from hnil]
    decide

/-- A window's queue and count after an interval: stored with a property `P` and the count so far, or counted (R148). -/
structure Queues (w : Window) (P : WinQueued → Prop) (w1 : Window) : Prop where
  stored : w.queue.length < 4 → ∃ q, w1.queue = w.queue ++ [q] ∧ P q ∧ q.dropped = w.dropped ∧ w1.dropped = 0
  counted : 4 ≤ w.queue.length → w1.queue = w.queue ∧ w1.dropped = min 0xFFFF (w.dropped + 1)

theorem queues_of_queueInterval {w w1 : Window} {P : WinQueued → Prop} {q : Nat → WinQueued} (hq : ∀ d, P (q d) ∧ (q d).dropped = d)
    (hqueue : w1.queue = (queueInterval w q).queue) (hdropped : w1.dropped = (queueInterval w q).dropped) : Queues w P w1 where
  stored h := by
    rw [queueInterval_of_room h] at hqueue hdropped
    exact ⟨_, hqueue, (hq w.dropped).1, (hq w.dropped).2, hdropped⟩
  counted h := by
    rw [queueInterval_of_full h] at hqueue hdropped
    exact ⟨hqueue, hdropped⟩

/-- What the row leaves of a state in which it puts `w1` in a window's place. -/
theorem replaced_of_finished {k : Nat} {w w1 : Window} {s t : State} (hw : tget s.acc.windows k = some w)
    (h : Finished (modWin k (fun _ => w1) s) t) :
    tget t.acc.windows k = some w1 ∧ (∀ j, j ≠ k → tget t.acc.windows j = tget s.acc.windows j) ∧ t.line = s.line ∧ t.safe = s.safe := by
  obtain ⟨_, _, _, _, rfl⟩ := h
  exact ⟨tget_modWin_same hw _, fun j hj => tget_modWin_other hj _ s, rfl, rfl⟩

/-- The commit of the interval in which a chain left puts the window with that interval queued or counted in its place (R167). -/
theorem finished_commitLeft (k c : Nat) (w : Window) (s : State) :
    ∃ w1, Finished (modWin k (fun _ => w1) s) (commitLeft k c w s)
      ∧ w1.leftDone = c :: w.leftDone ∧ w1.next = w.next ∧ w1.entries = w.entries
      ∧ Queues w (fun q => q.start = (intervalAt w (tgetD w.left c 0)).2.1 ∧ q.stop = tgetD w.left c 0) w1 := by
  obtain ⟨q, hq, hfin⟩ : ∃ q : Nat → WinQueued,
      (∀ d, ((q d).start = (intervalAt w (tgetD w.left c 0)).2.1 ∧ (q d).stop = tgetD w.left c 0) ∧ (q d).dropped = d)
      ∧ Finished (modWin k (fun _ => { queueInterval w q with leftDone := c :: w.leftDone }) s) (commitLeft k c w s) :=
    ⟨_, fun _ => ⟨⟨rfl, rfl⟩, rfl⟩, finished_ite _ (finished_raise (finished_refl _) ..) (finished_refl _)⟩
  obtain ⟨hnext, hentries, -⟩ := queueInterval_keeps w q
  exact ⟨_, hfin, rfl, hnext, hentries, queues_of_queueInterval hq rfl rfl⟩

theorem winEnd_eq_some {w : Window} {n b : Nat} (h : winEnd w n = some b) : w.length ≠ 0 := by
  intro h0
  simp [winEnd, h0] at h

/-- A commit of a window's next interval puts the window with that interval queued or counted in its place: of a window not closing, one that
drains where it does not repeat (R148). Its queue is not empty then, so the window stays in the table. -/
theorem finished_commitWin (k b : Nat) {w : Window} (s : State) (hclose : w.close = none) (hlen : w.length ≠ 0) :
    ∃ w1, Finished (modWin k (fun _ => w1) s) (commitWin k w b false s)
      ∧ w1.next = w.next + 1 ∧ w1.draining = !w.repeats ∧ w1.entries = w.entries
      ∧ Queues w (fun q => q.n = w.next ∧ q.start = w.start + 200 * w.length * w.next ∧ q.stop = b) w1 := by
  obtain ⟨t, ht⟩ : ∃ t, t = commitWin k w b false s := ⟨_, rfl⟩
  rw [← ht]
  unfold commitWin at ht
  extract_lets n a i recs gen q last queued w1 fn s1 s2 s3 s4 at ht
  have hlast : last = !w.repeats := by simp [last, hclose]
  obtain ⟨-, hentries, hqueue⟩ := queueInterval_keeps w q
  have hstays : w1.queue.isEmpty = false := by simpa [w1] using hqueue
  have hs2 : Finished s1 s2 := finished_ite _ (finished_raise (finished_refl _) ..) (finished_refl _)
  have hs4 : Finished s1 s4 := finished_finishOf (finished_raise hs2 ..) _ _
  refine ⟨w1, ?_, rfl, hlast, hentries, queues_of_queueInterval (fun d => ⟨⟨rfl, if_neg hlen, rfl⟩, rfl⟩) rfl rfl⟩
  rw [ht, hstays]
  exact finished_ite _ hs4 hs2

/-- A window closed at or before its start leaves the table; of accumulators nothing else changes (R149). -/
theorem endBefore_drops (k : Nat) (w : Window) (s : State) :
    (endBefore k w s).acc = { s.acc with windows := tdel s.acc.windows k } := by
  have hfin : Finished (dropWin k s) (endBefore k w s) := finished_finishOf (finished_raise (finished_refl _) ..) _ _
  obtain ⟨_, _, _, _, he⟩ := hfin
  rw [he]
  rfl

/-! ### Which of its branches the row takes -/

section
variable {fn win : Nat} {w : Window} {s : State} (hup : s.boot.phase = .running)
  (hw : tget s.acc.windows (fn * 65536 + win) = some w) (hdrain : w.draining = false)
include hup hw hdrain

theorem execUserIntervalCommit_left {c : Nat} {l : List Nat} (hleft : leftDue s w = c :: l) :
    execUserIntervalCommit fn win s = .next (commitLeft (fn * 65536 + win) c w s) := by
  simp [execUserIntervalCommit, State.up, hup, hw, hdrain, hleft]

theorem execUserIntervalCommit_due {b : Nat} (hleft : leftDue s w = []) (hclose : w.close = none) (hend : winEnd w w.next = some b)
    (hdue : b + 1600 ≤ s.time.spc) : execUserIntervalCommit fn win s = .next (commitWin (fn * 65536 + win) w b false s) := by
  simp [execUserIntervalCommit, State.up, State.spc, hup, hw, hdrain, hleft, hclose, hend, hdue]

theorem execUserIntervalCommit_ended {e : Nat} (hleft : leftDue s w = []) (hclose : w.close = some e) (hbefore : e ≤ w.start)
    (hdue : e ≤ s.time.spc) : execUserIntervalCommit fn win s = .next (endBefore (fn * 65536 + win) w s) := by
  simp [execUserIntervalCommit, State.up, State.spc, hup, hw, hdrain, hleft, hclose, hbefore, hdue]

end

/-- Settles O16: the loop over the entries commits each (`committed_commitStd`), and the row of a window takes the branch that its premises name. -/
theorem intervalCommits : Obligations.IntervalCommits := by
  unfold Obligations.IntervalCommits
  refine ⟨fun sixty j key s hup hdue hkey hbefore hlast => ?standard, fun fn win b w s hup hw hdrain hleft hclose hend hdue => ?next,
    fun fn win c l w s hup hw hdrain hleft => ?left, fun fn win e w s hup hw hdrain hleft hclose hbefore hdue => ?ended⟩
  case standard => exact standardIntervalCommit_commits hup hdue hkey hbefore hlast
  case next =>
    obtain ⟨w1, hfin, hnext, hdrains, hentries, hqueues⟩ := finished_commitWin (fn * 65536 + win) b s hclose (winEnd_eq_some hend)
    obtain ⟨hget, hother, hline, hsafe⟩ := replaced_of_finished hw hfin
    refine ⟨_, w1, execUserIntervalCommit_due hup hw hdrain hleft hclose hend hdue, hget, hnext, hdrains, hentries, fun hroom => ?_,
      hqueues.counted, hother, hline, hsafe⟩
    obtain ⟨q, hqueue, ⟨hn, hstart, hstop⟩, hdropped, hzero⟩ := hqueues.stored hroom
    exact ⟨q, hqueue, hn, hstart, hstop, hdropped, hzero⟩
  case left =>
    obtain ⟨w1, hfin, hdone, hnext, hentries, hqueues⟩ := finished_commitLeft (fn * 65536 + win) c w s
    obtain ⟨hget, hother, hline, hsafe⟩ := replaced_of_finished hw hfin
    refine ⟨_, w1, execUserIntervalCommit_left hup hw hdrain hleft, hget, hdone, hnext, hentries, fun hroom => ?_,
      hqueues.counted, hother, hline, hsafe⟩
    obtain ⟨q, hqueue, hbounds, -, -⟩ := hqueues.stored hroom
    exact ⟨q, hqueue, hbounds⟩
  case ended => exact ⟨_, execUserIntervalCommit_ended hup hw hdrain hleft hclose hbefore hdue, endBefore_drops ..⟩

end Sys2Proof.Machine
end

section
/-! O19: what `SPEC.HARVEST` writes and resets (R164, R165, R181, R185). -/

namespace Sys2Proof.Machine

/-! ### Effects on the spectral unit alone -/

theorem spec_of_only {u t : State} (h : Only u t) : t.spec = u.spec := (congrArg State.spec h :)
theorem line_of_only {u t : State} (h : Only u t) : t.line = u.line := (congrArg State.line h :)
theorem safe_of_only {u t : State} (h : Only u t) : t.safe = u.safe := (congrArg State.safe h :)

/-- An effect on the spectral unit joins what stands apart. -/
theorem only_setSpec {u t : State} (h : Only u t) (x : SpecUnit) : Only { u with spec := x } { t with spec := x } :=
  (congrArg (fun v : State => { v with spec := x }) h :)

/-- An accepted packet that writes one harvest of class `cls` and, of the state, changes the spectral unit alone, as `Q` says. -/
theorem reports_of_harvestOut {k : Checks} {r : Req} {s : State} {act : State → Reply} {magic cls : Nat} {Q : SpecUnit → SpecUnit → Prop}
    (h : Accepted k r s) (hb : ∀ c n, k.buf ≠ .inb c n) (hsize : 68 ≤ 2 ^ r.size)
    (hact : ∀ s2, ∃ sel secs x, let o := harvestOut { magic := magic, cls := cls } r sel secs s2
      act s2 = .now ST_OK o.2.1 { o.2.2 with spec := x } ∧ Q o.2.2.spec x) :
    ∃ x, Q s.spec x ∧ Reports (.next (command k r s act)) r magic cls 0 (fun res ws => res.head? = some (wd (ws.length * 4))) s
      { s with spec := x } := by
  obtain ⟨s2, ht, hc⟩ := command_accepted_traced h hb
  obtain ⟨sel, secs, x, ha, hq⟩ := hact s2
  obtain ⟨hres, hspc, hcomp, hbuf, honly⟩ := harvestOut_writes { magic := magic, cls := cls } sel secs s2 h.own
  have hw := buildBuffer_words { magic := magic, cls := cls } r ((harvestLeft { magic := magic, cls := cls } r sel secs s2).map (·.2)) s2 rfl hsize
  have hhead : (harvestOut { magic := magic, cls := cls } r sel secs s2).2.1.head? = some _ := congrArg some hres
  rw [hc, ha]
  generalize harvestOut { magic := magic, cls := cls } r sel secs s2 = o at *
  obtain ⟨tr, fr, rfl⟩ := ht
  have hs : Only s o.2.2 := honly s rfl
  obtain ⟨hdone, hrest, hbufs, -⟩ := replied_now (r := r) (s := s) (op := k.op) (accept := s.spc) (st := ST_OK) (res := o.2.1) h.own (.inl rfl)
    (only_setSpec hs x) hspc hcomp
  exact ⟨x, spec_of_only hs ▸ hq, _, _, _, rfl, hdone, hhead, hrest, hbufs.trans hbuf, rfl, rfl, rfl, hw.head, hw.fits, hw.check⟩

/-! ### The checks -/

/-- The class of an accepted harvest is that of contexts or that of focus sessions. -/
theorem class_of_specHarvest {r : Req} {s : State} (h : Accepted (checksSpecHarvest r s) r s) :
    (reqWord r 4).toNat = 0x11 ∨ (reqWord r 4).toNat = 0x12 := by
  by_cases hcls : (reqWord r 4).toNat = 0x11
  · exact .inl hcls
  · have hp := params_of_accepted h
    simp only [checksSpecHarvest, if_neg hcls, Bool.and_eq_true, beq_iff_eq] at hp
    exact .inr hp.1.1

/-- `SIZE` has room for the header, one record and the check word. -/
theorem size_of_specHarvest {r : Req} {s : State} (h : Accepted (checksSpecHarvest r s) r s) : 68 ≤ 2 ^ r.size := by
  have hz := sizeOk_of_accepted h
  simp only [checksSpecHarvest, sizeOk, Bool.and_eq_true, decide_eq_true_eq] at hz
  exact Nat.le_trans (by unfold outMin; omega) hz.2

/-! ### Counts that start again -/

/-- A harvest of class 0x11 changes contexts alone. -/
theorem actSpecHarvest_contexts {r : Req} (hcls : (reqWord r 4).toNat = 0x11) (s0 s : State) :
    ∃ sel secs x, let o := harvestOut { magic := 0x4B545350, cls := 0x11 } r sel secs s
      actSpecHarvest r s0 s = .now ST_OK o.2.1 { o.2.2 with spec := x } ∧ ∃ xs, x = { o.2.2.spec with ctxs := xs } := by
  have hloop (l : List (List Word)) (t : State) : ∃ xs, forEach l t (fun w s => modCtx (bits (w.headD 0) 31 9) SpecCtx.harvested s)
      = { t with spec := { t.spec with ctxs := xs } } := by
    refine forEach_keeps (fun u => ∃ xs, u = { t with spec := { t.spec with ctxs := xs } }) l t _ ?_ ⟨t.spec.ctxs, rfl⟩
    rintro w _ ⟨xs, rfl⟩
    exact ⟨_, rfl⟩
  unfold actSpecHarvest
  simp only [hcls, if_true]
  obtain ⟨xs, hxs⟩ := hloop _ _
  exact ⟨_, _, _, congrArg _ hxs, xs, rfl⟩

/-- The sections that a harvest has to write keep their numbers. -/
theorem number_of_harvestLeft {h : BufHead} {r : Req} {sel : List Nat} {secs : List (Nat × Section)} {s : State} {P : Nat → Prop}
    (hp : ∀ y ∈ secs, P y.1) : ∀ y ∈ harvestLeft h r sel secs s, P y.1 := by
  unfold harvestLeft
  split
  · next c _ =>
    intro y hy
    obtain ⟨z, hz, rfl⟩ := List.mem_map.mp hy
    have hz1 : P z.1 := hp z (List.mem_filter.mp hz).1
    split <;> exact hz1
  · exact hp

/-- The section of a focus session has the session's identifier for its number. -/
theorem number_of_focusSections (s : State) (r : Req) (id : Nat) : ∀ y ∈ focusSections s r id, y.1 < 65536 := by
  intro y hy
  obtain ⟨f, -, rfl⟩ := List.mem_map.mp hy
  exact Nat.mod_lt _ (by decide)

/-- The function that holds a session is read off its key. -/
theorem focusKey_div {fn id : Nat} (h : id < 65536) : focusKey fn id / 65536 = fn := by
  unfold focusKey
  omega

/-- `t` is `s` but for focus sessions of `fn`. -/
def FocusOf (fn : Nat) (s t : State) : Prop :=
  ∃ fs, t = { s with spec := { s.spec with focus := fs } } ∧ ∀ k, k / 65536 ≠ fn → tget fs k = tget s.spec.focus k

theorem focusOf_refl (fn : Nat) (s : State) : FocusOf fn s s := ⟨s.spec.focus, rfl, fun _ _ => rfl⟩

/-- What a section written does to its session: a complete one leaves the table, the counts of another start again (R185). -/
def sessionHarvested (fn : Nat) (x : (Nat × Section) × Nat) (s : State) : State :=
  let k := focusKey fn x.1.1
  { s with spec := { s.spec with
    focus := if (tget s.spec.focus k).elim false (·.complete) then tdel s.spec.focus k
      else tupd s.spec.focus k (fun f => { f with ctx := f.ctx.harvested }) } }

theorem focusOf_sessionHarvested {fn : Nat} {x : (Nat × Section) × Nat} {s t : State} (h : FocusOf fn s t) (hx : x.1.1 < 65536) :
    FocusOf fn s (sessionHarvested fn x t) := by
  obtain ⟨fs, rfl, hrest⟩ := h
  refine ⟨_, rfl, fun j hj => ?_⟩
  have hjk : j ≠ focusKey fn x.1.1 := fun e => hj (e ▸ focusKey_div hx)
  dsimp only
  split
  · exact (tget_tdel_other _ _ _ hjk).trans (hrest j hj)
  · exact (tget_tupd_other _ _ _ _ hjk).trans (hrest j hj)

/-- A harvest of class 0x12 changes focus sessions of its function alone. -/
theorem actSpecHarvest_focus {r : Req} (hcls : (reqWord r 4).toNat = 0x12) (s0 s : State) :
    ∃ sel secs x, let o := harvestOut { magic := 0x4B545350, cls := 0x12 } r sel secs s
      actSpecHarvest r s0 s = .now ST_OK o.2.1 { o.2.2 with spec := x }
        ∧ ∃ fs, x = { o.2.2.spec with focus := fs } ∧ ∀ k, k / 65536 ≠ r.fn → tget fs k = tget o.2.2.spec.focus k := by
  unfold actSpecHarvest
  simp -zeta only [hcls, show ¬ (0x12 : Nat) = 0x11 by decide, if_false]
  extract_lets secs h sel mine o s1
  have hmine : ∀ y ∈ mine, y.1 < 65536 := number_of_harvestLeft (P := (· < 65536)) (number_of_focusSections s r _)
  have hloop : FocusOf r.fn s1 (forEach ((mine.zip o.1.written).filter (fun x => 0 < x.2)) s1 (sessionHarvested r.fn)) :=
    List.foldlRecOn _ _ (focusOf_refl r.fn s1) fun t ht x hx =>
      focusOf_sessionHarvested ht (hmine x.1 (List.of_mem_zip (List.mem_filter.mp hx).1).1)
  obtain ⟨fs, hfs, hrest⟩ := hloop
  exact ⟨sel, secs, _, congrArg _ hfs, fs, rfl, hrest⟩

/-! ### The reports -/

theorem reports_specHarvest_contexts {r : Req} {s : State} (h : Accepted (checksSpecHarvest r s) r s) (hcls : (reqWord r 4).toNat = 0x11) :
    ∃ xs : Tbl SpecCtx, Reports (execSpecHarvest r s) r 0x4B545350 0x11 0 (fun res ws => res.head? = some (wd (ws.length * 4))) s
      { s with spec := { s.spec with ctxs := xs } } := by
  obtain ⟨_, ⟨xs, rfl⟩, hrep⟩ := reports_of_harvestOut (Q := fun u x => ∃ xs, x = { u with ctxs := xs }) h nofun (size_of_specHarvest h)
    (actSpecHarvest_contexts hcls s)
  exact ⟨xs, hrep⟩

theorem reports_specHarvest_focus {r : Req} {s : State} (h : Accepted (checksSpecHarvest r s) r s) (hcls : (reqWord r 4).toNat = 0x12) :
    ∃ fs : Tbl Focus, Reports (execSpecHarvest r s) r 0x4B545350 0x12 0 (fun res ws => res.head? = some (wd (ws.length * 4))) s
        { s with spec := { s.spec with focus := fs } }
      ∧ ∀ k, k / 65536 ≠ r.fn → tget fs k = tget s.spec.focus k := by
  obtain ⟨_, ⟨fs, rfl, hrest⟩, hrep⟩ := reports_of_harvestOut
    (Q := fun u x => ∃ fs, x = { u with focus := fs } ∧ ∀ k, k / 65536 ≠ r.fn → tget fs k = tget u.focus k) h nofun (size_of_specHarvest h)
    (actSpecHarvest_focus hcls s)
  exact ⟨fs, hrep, hrest⟩

/-- Of either class, an accepted harvest completes and writes one buffer, and leaves settings, cascades and dither. -/
theorem completes_specHarvest {r : Req} {s : State} (h : Accepted (checksSpecHarvest r s) r s) :
    ∃ t b c, execSpecHarvest r s = .next t ∧ t.out.buffers = b :: s.out.buffers ∧ b.addr = r.buf ∧ b.cmdId = r.cmdId
      ∧ b.words.take 2 = [wd 0x4B545350, wd (0x01000000 + (reqWord r 4).toNat * 2 ^ 16 + r.fn)]
      ∧ t.out.completions = c :: s.out.completions ∧ c.cmdId = r.cmdId ∧ c.status = ST_OK
      ∧ t.spec.chains = s.spec.chains ∧ t.spec.casc = s.spec.casc ∧ t.spec.dither = s.spec.dither ∧ t.line = s.line ∧ t.safe = s.safe := by
  have hrep : ∃ x, x.chains = s.spec.chains ∧ x.casc = s.spec.casc ∧ x.dither = s.spec.dither
      ∧ Reports (execSpecHarvest r s) r 0x4B545350 (reqWord r 4).toNat 0 (fun res ws => res.head? = some (wd (ws.length * 4))) s
        { s with spec := x } := by
    rcases class_of_specHarvest h with hcls | hcls
    · obtain ⟨xs, hrep⟩ := reports_specHarvest_contexts h hcls
      exact ⟨{ s.spec with ctxs := xs }, rfl, rfl, rfl, hcls ▸ hrep⟩
    · obtain ⟨fs, hrep, -⟩ := reports_specHarvest_focus h hcls
      exact ⟨{ s.spec with focus := fs }, rfl, rfl, rfl, hcls ▸ hrep⟩
  obtain ⟨x, hchains, hcasc, hdither, t, res, b, ht, ⟨c, hcomp, -, -, hid, hst, -, -⟩, -, honly, hbuf, -, hbid, haddr, hhead, -, -⟩ := hrep
  have hspec : t.spec = x := spec_of_only honly
  exact ⟨t, b, c, ht, hbuf, haddr, hbid, hhead, hcomp, hid, hst, hspec ▸ hchains, hspec ▸ hcasc, hspec ▸ hdither, (line_of_only honly :),
    (safe_of_only honly :)⟩

end Sys2Proof.Machine
end

section
/-! O19: the work of a spectral round, and its segments in the results (R177, R179, R190). -/

namespace Sys2Proof.Machine

/-! ### What a round may change -/

/-- `t` is `s` but for contexts, focus sessions and the work of the spectral unit, event queues and the trace. -/
def Rounded (s t : State) : Prop :=
  ∃ xs fs wk tr fr qs, t = { s with
    spec := { s.spec with ctxs := xs, focus := fs, work := wk }, trace := tr, fresh := fr, ten := { s.ten with queues := qs } }

theorem rounded_refl (s : State) : Rounded s s := ⟨_, _, _, _, _, _, rfl⟩

theorem rounded_trans {a b c : State} (h : Rounded a b) (g : Rounded b c) : Rounded a c := by
  obtain ⟨_, _, _, _, _, _, rfl⟩ := h
  obtain ⟨_, _, _, _, _, _, rfl⟩ := g
  exact ⟨_, _, _, _, _, _, rfl⟩

theorem rounded_modCtx (chi : Nat) (f : SpecCtx → SpecCtx) (s : State) : Rounded s (modCtx chi f s) := ⟨_, _, _, _, _, _, rfl⟩
theorem rounded_modFocus (k : Nat) (f : Focus → Focus) (s : State) : Rounded s (modFocus k f s) := ⟨_, _, _, _, _, _, rfl⟩

theorem rounded_raiseNow (src kind arg : Nat) (s : State) : Rounded s (raiseNow src kind arg s) := by
  obtain ⟨tr, fr, qs, h⟩ := raiseNow_writes src kind arg s
  rw [h]
  exact ⟨_, _, _, tr, fr, qs, rfl⟩

theorem rounded_finishSegment (w : InWork) (s : State) : Rounded s (finishSegment w s) := by
  unfold finishSegment
  dsimp only
  split
  · split
    · exact rounded_refl s
    · split
      · exact rounded_modCtx ..
      · exact rounded_modCtx ..
  · split
    · exact rounded_refl s
    · split
      · exact rounded_refl s
      · split
        · split
          · exact rounded_trans (rounded_modFocus ..) (rounded_raiseNow ..)
          · exact rounded_modFocus ..
        · exact rounded_modFocus ..

theorem rounded_finishRound (s : State) : Rounded s (finishRound s) :=
  forEach_keeps (Rounded s) _ _ _ (fun w _ h => rounded_trans h (rounded_finishSegment w _)) ⟨_, _, _, _, _, _, rfl⟩

/-! ### Contexts and their results -/

theorem ctxOf_modCtx_same (chi : Nat) (f : SpecCtx → SpecCtx) (s : State) : ctxOf (modCtx chi f s) chi = f (ctxOf s chi) :=
  tgetD_tmod_same ..

theorem ctxOf_modCtx_other {c chi : Nat} (h : c ≠ chi) (f : SpecCtx → SpecCtx) (s : State) : ctxOf (modCtx chi f s) c = ctxOf s c :=
  tgetD_tmod_other _ _ _ _ _ _ h

/-- What the contexts show of the segments judged: the bins of each, and its count of rejected ones. -/
def resultsOf (s : State) (chi : Nat) : Tbl SpecBin × Nat := ((ctxOf s chi).bins, (ctxOf s chi).rejected)

/-- A change of a context that keeps its bins and its count of rejected segments keeps the results. -/
theorem resultsOf_modCtx {f : SpecCtx → SpecCtx} (hf : ∀ x, (f x).bins = x.bins ∧ (f x).rejected = x.rejected) (chi : Nat) (s : State) :
    resultsOf (modCtx chi f s) = resultsOf s := by
  funext c
  by_cases h : c = chi
  · subst h
    rw [resultsOf, ctxOf_modCtx_same, (hf _).1, (hf _).2]
    rfl
  · rw [resultsOf, ctxOf_modCtx_other h]
    rfl

/-! ### Work that begins (R190) -/

/-- From `s` a round has moved on to `t` with the results as they were: segments have begun or were skipped. -/
structure Planned (s t : State) : Prop where
  rounded : Rounded s t
  results : resultsOf t = resultsOf s

theorem planned_refl (s : State) : Planned s s := ⟨rounded_refl s, rfl⟩
theorem planned_trans {a b c : State} (h : Planned a b) (g : Planned b c) : Planned a c :=
  ⟨rounded_trans h.rounded g.rounded, g.results.trans h.results⟩

/-- A change of focus sessions or of the work in progress is none of the contexts. -/
theorem planned_setFocus (fs : Tbl Focus) (s : State) : Planned s { s with spec := { s.spec with focus := fs } } :=
  ⟨⟨_, _, _, _, _, _, rfl⟩, rfl⟩
theorem planned_setWork (wk : List InWork) (s : State) : Planned s { s with spec := { s.spec with work := wk } } :=
  ⟨⟨_, _, _, _, _, _, rfl⟩, rfl⟩

theorem planned_modCtx {f : SpecCtx → SpecCtx} (hf : ∀ x, (f x).bins = x.bins ∧ (f x).rejected = x.rejected) (chi : Nat) (s : State) :
    Planned s (modCtx chi f s) := ⟨rounded_modCtx .., resultsOf_modCtx hf chi s⟩

theorem planned_skipWork (w : SegmentWork) (s : State) : Planned s (skipWork w s) := by
  unfold skipWork
  split
  · exact planned_refl s
  · split
    · exact planned_setFocus _ s
    · exact planned_modCtx (by exact fun _ => ⟨rfl, rfl⟩) ..

theorem planned_startWork (tile : Nat) (w : SegmentWork) (s : State) : Planned s (startWork tile w s) := by
  unfold startWork
  dsimp only
  split
  · exact planned_refl s
  · split
    · split
      · split
        · exact planned_skipWork w s
        · exact planned_setWork _ s
      · exact planned_refl s
    · split
      · exact planned_skipWork w s
      · exact planned_setWork _ s

theorem planned_workShare (l : List SegmentWork) (done room : Rat) (s : State) : Planned s (workShare done room l s) := by
  induction l generalizing done room s with
  | nil => exact planned_refl s
  | cons w l ih =>
    unfold workShare
    split
    · exact planned_trans (planned_startWork ..) (ih ..)
    · exact planned_trans (planned_skipWork ..) (ih ..)

theorem planned_advance (s : State) : Planned s (advance s) :=
  have hctxs : Planned s (forEach (allVolts s) s _) :=
    forEach_keeps (Planned s) _ _ _ (fun _ _ h => planned_trans h (planned_modCtx (by exact fun _ => ⟨rfl, rfl⟩) ..)) (planned_refl s)
  planned_trans hctxs (planned_setFocus ..)

/-- A round judges what was in work, and then begins what is due. -/
theorem planned_runRound (s : State) : Planned (finishRound s) (runRound s) :=
  forEach_keeps (Planned (finishRound s)) _ _ _ (fun _ _ h => planned_trans h (planned_workShare ..)) (planned_advance _)

/-! ### The row (R190) -/

theorem execSpectralRound_due {round : Nat} {s : State} (hup : s.boot.phase = .running) (hspc : s.time.spc = 200 * round)
    (hround : s.spec.round ≤ round) :
    execSpectralRound round s = .next { runRound s with spec := { (runRound s).spec with round := round + 1 } } := by
  simp [execSpectralRound, up_of_running hup, State.spc, hspc, hround]

theorem execSpectralRound_idle {round : Nat} {s : State} (h : s.time.spc ≠ 200 * round ∨ round < s.spec.round) :
    execSpectralRound round s = .next s := by
  unfold execSpectralRound
  rw [if_neg]
  simp only [Bool.and_eq_true, decide_eq_true_eq]
  rintro ⟨⟨-, hspc⟩, hround⟩
  exact h.elim (· hspc) (Nat.not_lt.mpr hround)

/-- The results after a due round are those of the segments that were in work. -/
theorem results_execSpectralRound {round : Nat} {s : State} (hup : s.boot.phase = .running) (hspc : s.time.spc = 200 * round)
    (hround : s.spec.round ≤ round) : ∃ t, execSpectralRound round s = .next t ∧ resultsOf t = resultsOf (finishRound s) :=
  ⟨_, execSpectralRound_due hup hspc hround, (planned_runRound s).results⟩

/-! ### One segment (R177, R179) -/

/-- One segment of a context is in work and its bin has not restarted since it began. -/
structure InRound (w : InWork) (s : State) : Prop where
  work : s.spec.work = [w]
  baseline : w.work.focus = false
  begun : (tgetD (ctxOf s w.work.id).bins w.work.bin {}).since ≤ w.at_

theorem finishRound_single {w : InWork} {s : State} (h : s.spec.work = [w]) :
    finishRound s = finishSegment w { s with spec := { s.spec with work := [] } } := by
  rw [finishRound, h, forEach_cons, forEach_nil]

/-- An admitted segment of a context, begun since its bin restarted, enters the context. -/
theorem finishSegment_admitted {w : InWork} {s : State} (hbase : w.work.focus = false)
    (hfresh : (tgetD (ctxOf s w.work.id).bins w.work.bin {}).since ≤ w.at_) (hgood : w.good = true) :
    ∃ m gen flip, finishSegment w s = modCtx w.work.id (fun x => x.enter w.work.bin m gen flip w) s := by
  simp only [finishSegment, hbase, if_neg (Nat.not_lt.mpr hfresh), hgood, Bool.not_false, if_true]
  exact ⟨_, _, _, rfl⟩

/-- A rejected one is counted in it. -/
theorem finishSegment_rejected {w : InWork} {s : State} (hbase : w.work.focus = false)
    (hfresh : (tgetD (ctxOf s w.work.id).bins w.work.bin {}).since ≤ w.at_) (hgood : w.good = false) :
    finishSegment w s = modCtx w.work.id SpecCtx.reject s := by
  simp only [finishSegment, hbase, if_neg (Nat.not_lt.mpr hfresh), hgood, Bool.not_false, if_true, Bool.false_eq_true, if_false]

theorem finishRound_admitted {w : InWork} {s : State} (h : InRound w s) (hgood : w.good = true) :
    ∃ m gen flip, resultsOf (finishRound s) = resultsOf (modCtx w.work.id (fun x => x.enter w.work.bin m gen flip w) s) := by
  rw [finishRound_single h.work]
  obtain ⟨m, gen, flip, hin⟩ := finishSegment_admitted (s := { s with spec := { s.spec with work := [] } }) h.baseline h.begun hgood
  exact ⟨m, gen, flip, (congrArg resultsOf hin).trans rfl⟩

theorem finishRound_rejected {w : InWork} {s : State} (h : InRound w s) (hgood : w.good = false) :
    resultsOf (finishRound s) = resultsOf (modCtx w.work.id SpecCtx.reject s) := by
  rw [finishRound_single h.work, finishSegment_rejected (s := { s with spec := { s.spec with work := [] } }) h.baseline h.begun hgood]
  rfl

/-- A segment of one bin is taken into that bin and no other. -/
theorem bins_enter {w : InWork} (hv : w.v.length = 1) (hi : w.i.length = 1) (b : Nat) (m : Nat → Nat) (gen flip : Nat) (x : SpecCtx) :
    ∃ v i, (x.enter b m gen flip w).bins = tmod x.bins b {} (fun z => z.add (m b) v i flip w.lastSpc w.uncal w.interp) := by
  obtain ⟨v, hv⟩ := List.length_eq_one_iff.mp hv
  obtain ⟨i, hi⟩ := List.length_eq_one_iff.mp hi
  refine ⟨v, i, ?_⟩
  unfold SpecCtx.enter
  rw [hv, hi]
  rfl

/-- The results of a context are its bins and its count. -/
theorem bins_of_results {s t : State} {c : Nat} (h : resultsOf t c = resultsOf s c) : (ctxOf t c).bins = (ctxOf s c).bins := congrArg Prod.fst h
theorem rejected_of_results {s t : State} {c : Nat} (h : resultsOf t c = resultsOf s c) : (ctxOf t c).rejected = (ctxOf s c).rejected :=
  congrArg Prod.snd h

theorem spectralRound_admits {round : Nat} {w : InWork} {s : State} (hup : s.boot.phase = .running) (hspc : s.time.spc = 200 * round)
    (hround : s.spec.round ≤ round) (hw : InRound w s) (hgood : w.good = true) (hv : w.v.length = 1) (hi : w.i.length = 1) :
    ∃ t, execSpectralRound round s = .next t
      ∧ (tgetD (ctxOf t w.work.id).bins w.work.bin {}).n = (tgetD (ctxOf s w.work.id).bins w.work.bin {}).n + 1
      ∧ (∀ b, b ≠ w.work.bin → tget (ctxOf t w.work.id).bins b = tget (ctxOf s w.work.id).bins b)
      ∧ (ctxOf t w.work.id).rejected = (ctxOf s w.work.id).rejected
      ∧ ∀ c, c ≠ w.work.id → (ctxOf t c).bins = (ctxOf s c).bins := by
  obtain ⟨t, ht, hres⟩ := results_execSpectralRound hup hspc hround
  obtain ⟨m, gen, flip, hin⟩ := finishRound_admitted hw hgood
  have hshow (c : Nat) := congrFun (hres.trans hin) c
  obtain ⟨v, i, hadd⟩ := bins_enter hv hi w.work.bin m gen flip (ctxOf s w.work.id)
  have hbins := bins_of_results (hshow w.work.id)
  rw [ctxOf_modCtx_same, hadd] at hbins
  refine ⟨t, ht, ?_, fun b hb => ?_, ?_, fun c hc => ?_⟩
  · rw [hbins, tgetD_tmod_same]
    rfl
  · rw [hbins, tget_tmod_other _ _ _ _ _ hb]
  · rw [rejected_of_results (hshow w.work.id), ctxOf_modCtx_same]
    rfl
  · rw [bins_of_results (hshow c), ctxOf_modCtx_other hc]

theorem spectralRound_rejects {round : Nat} {w : InWork} {s : State} (hup : s.boot.phase = .running) (hspc : s.time.spc = 200 * round)
    (hround : s.spec.round ≤ round) (hw : InRound w s) (hgood : w.good = false) :
    ∃ t, execSpectralRound round s = .next t ∧ (ctxOf t w.work.id).rejected = sat32 ((ctxOf s w.work.id).rejected + 1)
      ∧ ∀ c, (ctxOf t c).bins = (ctxOf s c).bins := by
  obtain ⟨t, ht, hres⟩ := results_execSpectralRound hup hspc hround
  have hshow (c : Nat) := congrFun (hres.trans (finishRound_rejected hw hgood)) c
  refine ⟨t, ht, ?_, fun c => ?_⟩
  · rw [rejected_of_results (hshow w.work.id), ctxOf_modCtx_same]
    rfl
  · rw [bins_of_results (hshow c)]
    by_cases hc : c = w.work.id
    · subst hc
      rw [ctxOf_modCtx_same]
      rfl
    · rw [ctxOf_modCtx_other hc]

/-- Settles O19: a harvest's loops write contexts, or sessions of its function, alone; a round judges the segments in work (`finishRound`), and
what it then begins keeps the results (`planned_runRound`). -/
theorem spectralWork : Obligations.SpectralWork := by
  unfold Obligations.SpectralWork
  refine ⟨fun r s h => ?harvest, fun r s h hcls => ?contexts, fun r s h hcls => ?focus, fun round s hup hspc hround => ?round,
    fun round s h => ?idle, fun round w s hup hspc hround hwork hbase hfresh hgood hv hi => ?admitted,
    fun round w s hup hspc hround hwork hbase hfresh hgood => ?rejected⟩
  case harvest => exact completes_specHarvest h
  case contexts => exact reports_specHarvest_contexts h hcls
  case focus => exact reports_specHarvest_focus h hcls
  case round =>
    obtain ⟨xs, fs, wk, tr, fr, qs, ht⟩ := rounded_trans (rounded_finishRound s) (planned_runRound s).rounded
    refine ⟨_, execSpectralRound_due hup hspc hround, rfl, ?_⟩
    rw [ht]
    exact ⟨rfl, rfl, rfl, rfl, rfl, rfl, rfl, rfl, rfl, rfl⟩
  case idle => exact execSpectralRound_idle h
  case admitted => exact spectralRound_admits hup hspc hround ⟨hwork, hbase, hfresh⟩ hgood hv hi
  case rejected => exact spectralRound_rejects hup hspc hround ⟨hwork, hbase, hfresh⟩ hgood

end Sys2Proof.Machine
end

section
/-! What the commands of the map and of the calibration share: buffers of R399 whose results are not their length, and checks of the form. -/

namespace Sys2Proof.Machine

/-- `SIZE` of an accepted packet has room for the header, one record and the check word (R388). -/
theorem size_of_outb {k : Checks} {r : Req} {s : State} {n : Nat} (h : Accepted k r s) (hb : k.buf = .outb n) : 68 ≤ 2 ^ r.size := by
  have hz := sizeOk_of_accepted h
  simp only [hb, sizeOk, Bool.and_eq_true, decide_eq_true_eq] at hz
  exact Nat.le_trans (by unfold outMin; omega) hz.2

/-- An accepted packet that writes one buffer of R399, answers results of its own and changes nothing else. -/
theorem reports_of_emitStatus {k : Checks} {r : Req} {s : State} {act : State → Reply} {n op : Nat} {P : List Word → Prop}
    (h : Accepted k r s) (hb : k.buf = .outb n)
    (hact : ∀ s2, Traced s s2 → ∃ recs res, act s2 = .now ST_OK res (emitStatus op r recs s2).2.2 ∧ P res) :
    Reports (.next (command k r s act)) r 0x4B545354 (op / 256) 0 (fun res _ => P res) s s := by
  obtain ⟨s2, ht, hc⟩ := command_accepted_traced h (by simp [hb])
  obtain ⟨recs, res, ha, hres⟩ := hact s2 ht
  obtain ⟨ws, -, hspc, hcomp, hbuf, honly, hw⟩ := emitStatus_writes op recs s2 h.own (size_of_outb h hb)
  rw [hc, ha]
  generalize (emitStatus op r recs s2).2.2 = u at *
  obtain ⟨tr, fr, rfl⟩ := ht
  obtain ⟨hdone, hrest, hbufs, -⟩ := replied_now (r := r) (s := s) (op := k.op) (accept := s.spc) (st := ST_OK) (res := res) h.own (.inl rfl)
    (honly s rfl) hspc hcomp
  exact ⟨_, _, _, rfl, hdone, hres, hrest, hbufs.trans hbuf, rfl, rfl, rfl, hw.head, hw.fits, hw.check⟩

end Sys2Proof.Machine
end

section
/-! O11: the commands of the map (R219, R364, R403). -/

namespace Sys2Proof.Machine

/-! ### A packet of the device's own host concerns every record (R416) -/

theorem filter_recordHere_own {r : Req} (h : r.twin = false) (l : List Staged) : l.filter (recordHere r) = l := by
  simp [recordHere, concerns, h]

theorem filter_not_recordHere_own {r : Req} (h : r.twin = false) (l : List Staged) : l.filter (fun x => !recordHere r x) = [] := by
  simp [recordHere, concerns, h]

/-! ### Staging -/

/-- An accepted `MAP.BIND` brings no more than 4,096 records. -/
theorem count_of_mapBind {r : Req} {s : State} (h : Accepted (checksMapBind r s) r s) : (reqWord r 4).toNat ≤ 4096 := by
  have hp := params_of_accepted h
  simp only [checksMapBind, Bool.and_eq_true, decide_eq_true_eq] at hp
  exact hp.2

theorem actMapBind_own {r : Req} (hown : r.twin = false) (hn : (reqWord r 4).toNat ≤ 4096) (s0 s : State) :
    actMapBind r s0 s = .now ST_OK [reqWord r 4] { s with
      map := { s.map with staged := s.map.staged ++ (records16 (reqWord r 4).toNat r.inb.dropLast).map (stagedOf r.fn) } } := by
  simp only [actMapBind, Nat.min_eq_left hn, filter_recordHere_own hown, wd, BitVec.ofNat_toNat, BitVec.setWidth_eq]

theorem answers_mapBind {r : Req} {s : State} (h : Accepted (checksMapBind r s) r s) :
    Answers (execMapBind r s) r ST_OK [reqWord r 4] s { s with
      map := { s.map with staged := s.map.staged ++ (records16 (reqWord r 4).toNat r.inb.dropLast).map (stagedOf r.fn) } } := by
  refine answers_now h (.inl rfl) fun s2 hn => ⟨_, actMapBind_own h.own (count_of_mapBind h) s s2, ?_⟩
  obtain ⟨tr, fr, ck, rfl⟩ := hn
  exact ⟨rfl, rfl, rfl⟩

/-! ### Builds -/

/-- All that is staged goes into a build with a depth, or with none (R219). -/
def beginBuild (r : Req) (depth : Option Nat) (s : State) : State :=
  { s with map := { s.map with staged := [], build := some { cmd := reqRef r, staged := s.map.staged, depth := depth } } }

/-- The bolt keeps no more than a depth of `d` picks (R125). -/
def shrinkBolt (d : Nat) (s : State) : State :=
  { s with loom := { s.loom with depth := d, bolt := tmap s.loom.bolt fun _ l => l.filter (fun e => decide (s.time.spc < e.pick + d)) } }

theorem actMapCommit_bindings {r : Req} (hown : r.twin = false) (hset : bits (reqWord r 4) 0 0 = 0) (s0 s : State) :
    actMapCommit r s0 s = .long 0 [] (beginBuild r none s) := by
  simp [actMapCommit, beginBuild, hset, filter_recordHere_own hown, filter_not_recordHere_own hown]

theorem actMapCommit_depth {r : Req} (hown : r.twin = false) (hset : bits (reqWord r 4) 0 0 = 1) (s0 s : State) :
    actMapCommit r s0 s = .long 0 [] (beginBuild r (some (reqWord r 5).toNat)
      (if (reqWord r 5).toNat < s.loom.depth then shrinkBolt (reqWord r 5).toNat s else s)) := by
  unfold actMapCommit
  simp only [hset, filter_recordHere_own hown, filter_not_recordHere_own hown, beq_self_eq_true, Bool.true_and, decide_eq_true_eq, if_true]
  rfl

theorem begins_mapCommit_bindings {r : Req} {s : State} (h : Accepted (checksMapCommit r s) r s) (hset : bits (reqWord r 4) 0 0 = 0) :
    Begins (execMapCommit r s) r 0x0401 0 [] s (beginBuild r none s) := by
  refine answers_long h fun s2 hn => ⟨_, actMapCommit_bindings h.own hset s s2, ?_⟩
  obtain ⟨tr, fr, ck, rfl⟩ := hn
  exact ⟨rfl, rfl, rfl⟩

/-- A depth given stands in the build; a smaller one also takes effect at once. -/
theorem begins_mapCommit_depth {r : Req} {s : State} (h : Accepted (checksMapCommit r s) r s) (hset : bits (reqWord r 4) 0 0 = 1) :
    Begins (execMapCommit r s) r 0x0401 0 [] s (beginBuild r (some (reqWord r 5).toNat)
      (if (reqWord r 5).toNat < s.loom.depth then shrinkBolt (reqWord r 5).toNat s else s)) := by
  refine answers_long h fun s2 hn => ⟨_, actMapCommit_depth h.own hset s s2, ?_⟩
  obtain ⟨tr, fr, ck, rfl⟩ := hn
  dsimp only
  split <;> exact ⟨rfl, rfl, rfl⟩

/-! ### Reports -/

theorem reports_mapRead {r : Req} {s : State} (h : Accepted (checksMapRead r s) r s) :
    Reports (execMapRead r s) r 0x4B545354 4 0
      (fun res _ => res = [wd (inForceRecords s (bits (reqWord r 4) 31 13)).length, wd (stagedRecords s (bits (reqWord r 4) 31 13)).length])
      s s := by
  refine reports_of_emitStatus (op := 0x0402) h rfl ?_
  rintro _ ⟨tr, fr, rfl⟩
  exact ⟨_, _, rfl, rfl⟩

theorem reports_mapRange {r : Req} {s : State} (h : Accepted (checksMapRange r s) r s) :
    Reports (execMapRange r s) r 0x4B545354 4 0 (fun res _ => ∃ n, res = [wd n]) s s :=
  reports_of_emitStatus (op := 0x0403) h rfl fun _ _ => ⟨_, _, rfl, _, rfl⟩

/-- Settles O11: a packet of the device's own host concerns every record, so it stages, or builds, all of them; a depth is compared with the one in
force; the two reports write one buffer. -/
theorem mapCommands : Obligations.MapCommands := by
  unfold Obligations.MapCommands
  refine ⟨fun r s h => ?bind, fun r s h hset => ?bindings, fun r s h hset hle => ?larger, fun r s h hset hlt => ?smaller, fun r s h => ?read,
    fun r s h => ?range⟩
  case bind => exact answers_mapBind h
  case bindings => exact begins_mapCommit_bindings h hset
  case larger =>
    have hb := begins_mapCommit_depth h hset
    rwa [if_neg (Nat.not_lt.mpr hle)] at hb
  case smaller =>
    have hb := begins_mapCommit_depth h hset
    rwa [if_pos hlt] at hb
  case read => exact reports_mapRead h
  case range => exact reports_mapRange h

end Sys2Proof.Machine
end

section
/-! O20: the commands of class CAL that run, limit and report (R200, R205, R212, R214, R226, R406). -/

namespace Sys2Proof.Machine

/-! ### Runs (R200, R205, R226) -/

/-- The positions that `CAL.RUN` names. -/
def runPosns (r : Req) : List Nat := maskPosns (reqWord r 5).toNat (bits (reqWord r 6) 7 0)

/-- The run that `CAL.RUN` starts on tags of a chain in the pick of `s`, whose held candidates on these tags are discarded. -/
def startedRun (r : Req) (s : State) : CalRun :=
  { proc := (reqWord r 4).toNat, chain := (reqWord r 5).toNat, posns := runPosns r, hold := bits (reqWord r 6) 8 8 == 1
    window := if (reqWord r 7).toNat = 0 then (procWindow (reqWord r 4).toNat).2.2.1 else (reqWord r 7).toNat
    deadline := if (reqWord r 8).toNat = 0 then (procWindow (reqWord r 4).toNat).2.2.2 else (reqWord r 8).toNat
    start := s.time.spc, cmd := some (reqRef r)
    failed := failedAtStart (dropHeld r.fn (runPosns r) s) (reqWord r 4).toNat (runPosns r) }

theorem slotFor_noted {s s2 : State} (h : Noted s s2) (fn : Nat) (ps : List Nat) : slotFor s2 fn ps = slotFor s fn ps := by
  obtain ⟨_, _, _, rfl⟩ := h
  rfl

theorem actCalRun_tags {r : Req} {s : State} {n : Nat} (hproc : (reqWord r 4).toNat ≠ 0x10) (hn : slotFor s r.fn (runPosns r) = some n)
    (s0 : State) :
    actCalRun r s0 s = .long (reqWord r 5).toNat [wd n] (putRun (runKey r.fn n) (startedRun r s) (dropHeld r.fn (runPosns r) s)) := by
  unfold runPosns at hn
  simp only [actCalRun, beq_eq_false_iff_ne.mpr hproc, Bool.false_eq_true, if_false, hn, Option.getD_some]
  rfl

theorem begins_calRun_tags {r : Req} {s : State} {n : Nat} (h : Accepted (checksCalRun r s) r s) (hproc : (reqWord r 4).toNat ≠ 0x10)
    (hn : slotFor s r.fn (runPosns r) = some n) :
    Begins (execCalRun r s) r 0x0700 (reqWord r 5).toNat [wd n] s
      (putRun (runKey r.fn n) (startedRun r s) (dropHeld r.fn (runPosns r) s)) := by
  refine answers_long h fun s2 hs2 => ⟨_, actCalRun_tags hproc ((slotFor_noted hs2 ..).trans hn) s, ?_⟩
  obtain ⟨tr, fr, ck, rfl⟩ := hs2
  exact ⟨rfl, rfl, rfl⟩

/-- The run that `CAL.RUN` starts on a lane keeps what the lane shows before it. -/
def startedLaneRun (r : Req) (x : Lane) : LaneRun :=
  { cmd := some (reqRef r), eyeW := x.eyeW, eyeH := x.eyeH, ber := x.ber, berBits := x.berBits, set := x.set }

theorem actCalRun_lane {r : Req} {s0 : State} {l : Nat} (hproc : (reqWord r 4).toNat = 0x10) (hl : laneParam s0 (reqWord r 5) = some l)
    (s : State) : actCalRun r s0 s = .long l [0xFF] (putLaneRun l (startedLaneRun r (laneOf s l)) s) := by
  simp only [actCalRun, hproc, hl, beq_self_eq_true, if_true, Option.getD_some]
  rfl

theorem begins_calRun_lane {r : Req} {s : State} {l : Nat} (h : Accepted (checksCalRun r s) r s) (hproc : (reqWord r 4).toNat = 0x10)
    (hl : laneParam s (reqWord r 5) = some l) :
    Begins (execCalRun r s) r 0x0700 l [0xFF] s (putLaneRun l (startedLaneRun r (laneOf s l)) s) := by
  refine answers_long h fun s2 hs2 => ⟨_, actCalRun_lane hproc hl s2, ?_⟩
  obtain ⟨tr, fr, ck, rfl⟩ := hs2
  exact ⟨rfl, rfl, rfl⟩

/-! ### Limits (R212) -/

/-- A limit given as 0 stays as it is. -/
def limitGiven (w : Word) (old : Nat) : Nat := if w.toNat = 0 then old else w.toNat

theorem chainCal_modChainCal_same (c : Nat) (f : ChainCal → ChainCal) (s : State) : chainCal (modChainCal c f s) c = f (chainCal s c) :=
  tgetD_tmod_same ..

/-- A change of a chain's calibration is what it makes of the present one. -/
theorem modChainCal_congr {c : Nat} {f g : ChainCal → ChainCal} {s : State} (h : f (chainCal s c) = g (chainCal s c)) :
    modChainCal c f s = modChainCal c g s := by
  unfold chainCal at h
  simp only [modChainCal, tmod, h]

theorem actCalLimits_now (r : Req) (s0 s : State) :
    let c := (reqWord r 4).toNat
    let g := limitGiven (reqWord r 5) (chainCal s c).gainLim
    let o := limitGiven (reqWord r 6) (chainCal s c).offLim
    actCalLimits r s0 s = .now ST_OK [wd g, wd o] (modChainCal c (fun x => { x with gainLim := g, offLim := o }) s) := by
  intro c g o
  unfold actCalLimits
  simp only [chainCal_modChainCal_same]
  exact congrArg _ (modChainCal_congr rfl)

theorem answers_calLimits {r : Req} {s : State} (h : Accepted (checksCalLimits r s) r s) :
    let c := (reqWord r 4).toNat
    let g := limitGiven (reqWord r 5) (chainCal s c).gainLim
    let o := limitGiven (reqWord r 6) (chainCal s c).offLim
    Answers (execCalLimits r s) r ST_OK [wd g, wd o] s (modChainCal c (fun x => { x with gainLim := g, offLim := o }) s) := by
  refine answers_now h (.inl rfl) ?_
  rintro _ ⟨tr, fr, ck, rfl⟩
  exact ⟨_, actCalLimits_now r s _, rfl, rfl, rfl⟩

/-! ### Reports (R214, R406) -/

theorem reports_calStatus_run {r : Req} {s : State} {x : CalRun} (h : Accepted (checksCalStatus r s) r s) (hform : bits (reqWord r 4) 8 8 = 0)
    (hx : runOf s r.fn (bits (reqWord r 4) 7 0) = some x) :
    Reports (execCalStatus r s) r 0x4B545354 7 0
      (fun res _ => res = [wd (x.outcome + b2n x.finished.isSome * 2 ^ 16), wd x.generation] ++ wd64 x.flip) s s := by
  refine reports_of_emitStatus (op := 0x0701) h rfl fun s2 ht => ⟨[x.tags.map calTagRecord], _, ?_, rfl⟩
  have hx2 : runOf s2 r.fn (bits (reqWord r 4) 7 0) = some x := by
    obtain ⟨tr, fr, rfl⟩ := ht
    exact hx
  simp only [actCalStatus, hform, hx2]
  rfl

theorem reports_calStatus_lane {r : Req} {s : State} (h : Accepted (checksCalStatus r s) r s) (hform : bits (reqWord r 4) 8 8 = 1) :
    let x := tgetD s.cal.laneRuns (bits (reqWord r 4) 7 0) {}
    Reports (execCalStatus r s) r 0x4B545354 7 0 (fun res _ => res = [wd (x.outcome + b2n x.finished * 2 ^ 16), 0, 0, 0]) s s := by
  refine reports_of_emitStatus (op := 0x0701) h rfl ?_
  rintro _ ⟨tr, fr, rfl⟩
  simp only [actCalStatus, hform, beq_self_eq_true, if_true]
  exact ⟨_, _, rfl, rfl⟩

theorem reports_calRead {r : Req} {s : State} {g : GenRec} (h : Accepted (checksCalRead r s) r s)
    (hg : findGen s r.fn (reqWord r 4).toNat (bits (reqWord r 5) 15 0) = .inr g) :
    Reports (execCalRead r s) r 0x4B545354 7 0 (fun res _ => ∃ n, res = [wd n, wd g.commit] ++ wd64 g.flip) s s := by
  refine reports_of_emitStatus (op := 0x0704) h rfl fun s2 ht => ?_
  have hg2 : findGen s2 r.fn (reqWord r 4).toNat (bits (reqWord r 5) 15 0) = .inr g := by
    obtain ⟨tr, fr, rfl⟩ := ht
    exact hg
  simp only [actCalRead, hg2]
  exact ⟨_, _, rfl, _, rfl⟩

/-- Settles O20: a run starts on the state as it stands but for what is noted of the packet, so in the slot that `slotFor` gives; a limit is set
from the one in force; the reports write one buffer. -/
theorem calibrationCommands : Obligations.CalibrationCommands := by
  unfold Obligations.CalibrationCommands
  refine ⟨fun r s n h hproc hn => ?tags, fun r s l h hproc hl => ?lane, fun r s h => ?limits, fun r s x h hform hx => ?run,
    fun r s h hform => ?laneRun, fun r s g h hg => ?read⟩
  case tags => exact begins_calRun_tags h hproc hn
  case lane => exact begins_calRun_lane h hproc hl
  case limits => exact answers_calLimits h
  case run => exact reports_calStatus_run h hform hx
  case laneRun => exact reports_calStatus_lane h hform
  case read => exact reports_calRead h hg

end Sys2Proof.Machine
end

section
/-! Loops over distinct elements, and cells by position and number: what the commands and the frames of balancing share. -/

namespace Sys2Proof.Machine

/-- What the round of every element of a loop keeps, the loop keeps. -/
theorem forEach_keeps_mem {α σ : Type} {P : σ → Prop} {f : α → σ → σ} {l : List α} (h : ∀ a ∈ l, ∀ t, P t → P (f a t)) {s : σ}
    (hs : P s) : P (forEach l s f) := by
  induction l generalizing s with
  | nil => exact hs
  | cons a l ih => exact ih (fun b hb => h b (List.mem_cons_of_mem _ hb)) (h a List.mem_cons_self s hs)

/-- A loop over distinct elements reaches what the round of `a` brings about, where the rounds of the others keep its premise and its effect. -/
theorem forEach_reaches_once {α σ : Type} {P Q : σ → Prop} {f : α → σ → σ} {a : α} {l : List α} (hl : l.Nodup) (ha : a ∈ l)
    (hP : ∀ b ∈ l, b ≠ a → ∀ t, P t → P (f b t)) (hhit : ∀ t, P t → Q (f a t)) (hQ : ∀ b ∈ l, b ≠ a → ∀ t, Q t → Q (f b t)) {s : σ}
    (hs : P s) : Q (forEach l s f) := by
  obtain ⟨l1, l2, rfl⟩ := List.append_of_mem ha
  obtain ⟨-, hl2, hdis⟩ := List.nodup_append.mp hl
  have hbefore : P (forEach l1 s f) :=
    forEach_keeps_mem (fun b hb t ht => hP b (List.mem_append_left _ hb) (hdis b hb a List.mem_cons_self) t ht) hs
  have hafter : Q (forEach l2 (f a (forEach l1 s f)) f) :=
    forEach_keeps_mem (fun b hb t ht => hQ b (List.mem_append_right _ (List.mem_cons_of_mem _ hb))
      (fun e => (List.nodup_cons.mp hl2).1 (e ▸ hb)) t ht) (hhit _ hbefore)
  simpa only [forEach, List.foldl_append, List.foldl_cons] using hafter

/-- A key of a cell names its position and its number. -/
theorem cellKey_inj {p q i j : Nat} (hi : i < 12) (hj : j < 12) : cellKey p i = cellKey q j ↔ p = q ∧ i = j := by
  unfold cellKey
  omega

end Sys2Proof.Machine
end

section
/-! O22: the commands of classes BAL and DIAG (R234 to R236, R240, R254, R407). -/

namespace Sys2Proof.Machine

/-! ### BAL.SET (R234, R235, R407) -/

/-- A chain's parameters of balancing, replaced. -/
def putBalChain (c : Nat) (x : BalChain) (s : State) : State := { s with bal := { s.bal with chains := tset s.bal.chains c x } }

/-- The parameters that `BAL.SET` gives a chain. -/
def balChainAsSet (r : Req) (s : State) : BalChain :=
  { balChain s (reqWord r 5).toNat with vFloor := (reqWord r 6).toNat, db := (reqWord r 7).toNat, th := (reqWord r 8).toNat }

theorem actBalSet_chain {r : Req} (hform : bits (reqWord r 4) 0 0 = 1) (s0 s : State) :
    actBalSet r s0 s = .now ST_OK [] (putBalChain (reqWord r 5).toNat (balChainAsSet r s) s) := by
  simp only [actBalSet, hform, beq_self_eq_true, if_true]
  rfl

theorem answers_balSet_chain {r : Req} {s : State} (h : Accepted (checksBalSet r s) r s) (hform : bits (reqWord r 4) 0 0 = 1) :
    Answers (execBalSet r s) r ST_OK [] s (putBalChain (reqWord r 5).toNat (balChainAsSet r s) s) := by
  refine answers_now h (.inl rfl) ?_
  rintro _ ⟨tr, fr, ck, rfl⟩
  exact ⟨_, actBalSet_chain hform s _, rfl, rfl, rfl⟩

/-- The cells that `BAL.SET` names in its mask. -/
def maskCells (r : Req) : List Nat := (List.range 12).filter fun j => bits (reqWord r 6) j j == 1

theorem mem_maskCells {r : Req} {j : Nat} : j ∈ maskCells r ↔ j < 12 ∧ bits (reqWord r 6) j j = 1 := by
  simp [maskCells]

theorem nodup_maskCells (r : Req) : (maskCells r).Nodup := List.nodup_range.filter _

/-- A cell in the mode that `BAL.SET` sets at an SPC, with the duty and the time to live given for `MANUAL`. -/
def cellAsSet (r : Req) (spc : Nat) (c : BalCell) : BalCell :=
  if bits (reqWord r 7) 1 0 = 0 then { c with mode := .off, host := 0 }
  else if bits (reqWord r 7) 1 0 = 1 then
    { c with
      mode := .manual, host := bits (reqWord r 7) 8 4
      ttlEnd := spc + 100000 * if bits (reqWord r 7) 25 16 = 0 then 10 else bits (reqWord r 7) 25 16 }
  else { c with mode := .auto_, host := 0 }

/-- The cells of a table after `BAL.SET` on position `p`. -/
def cellsAsSet (r : Req) (p spc : Nat) (t : Tbl BalCell) : Tbl BalCell :=
  forEach (maskCells r) t fun j t => tmod t (cellKey p j) {} (cellAsSet r spc)

/-- Changing cells one after the other changes the table of cells alone. -/
theorem forEach_modCell (p : Nat) (f : Nat → BalCell → BalCell) (l : List Nat) (s : State) :
    forEach l s (fun j s => modCell (cellKey p j) (f s.spc) s)
      = { s with bal := { s.bal with cells := forEach l s.bal.cells fun j t => tmod t (cellKey p j) {} (f s.spc) } } := by
  induction l generalizing s with
  | nil => rfl
  | cons j l ih => exact ih (modCell (cellKey p j) (f s.spc) s)

theorem actBalSet_cells {r : Req} {s0 : State} {p : Nat} (hform : bits (reqWord r 4) 0 0 = 0) (hp : posParam s0 (reqWord r 5) = some p)
    (s : State) :
    actBalSet r s0 s = .now ST_OK [] { s with bal := { s.bal with cells := cellsAsSet r p s.spc s.bal.cells } } := by
  simp only [actBalSet, hform, hp, cellsAsSet, ← forEach_modCell p (cellAsSet r)]
  refine congrArg (Reply.now ST_OK []) (congrArg (forEach (maskCells r) s) (funext fun j => funext fun t => ?_))
  refine congrArg (modCell (cellKey p j) · t) (funext fun x => ?_)
  unfold cellAsSet
  split
  case h_1 h0 => exact (if_pos h0).symm
  case h_2 h1 => rw [h1, if_neg Nat.one_ne_zero, if_pos rfl]
  case h_3 h0 h1 => rw [if_neg h0, if_neg h1]

theorem tget_cellsAsSet_named {r : Req} {j : Nat} (hj : j < 12) (hmask : bits (reqWord r 6) j j = 1) (p spc : Nat) (t : Tbl BalCell) :
    tget (cellsAsSet r p spc t) (cellKey p j) = some (cellAsSet r spc (tgetD t (cellKey p j) {})) := by
  have hne : ∀ i ∈ maskCells r, i ≠ j → cellKey p j ≠ cellKey p i := fun i hi h e =>
    h ((cellKey_inj hj (mem_maskCells.mp hi).1).mp e).2.symm
  refine forEach_reaches_once (P := fun u => tgetD u (cellKey p j) {} = tgetD t (cellKey p j) {})
    (Q := fun u => tget u (cellKey p j) = some (cellAsSet r spc (tgetD t (cellKey p j) {}))) (nodup_maskCells r) (mem_maskCells.mpr ⟨hj, hmask⟩)
    (fun i hi h u hu => ?other) (fun u hu => ?hit) (fun i hi h u hu => ?after) rfl
  case other => exact (tgetD_tmod_other _ _ _ _ _ _ (hne i hi h)).trans hu
  case hit => rw [tmod, tget_tset_same, hu]
  case after => exact (tget_tmod_other _ _ _ _ _ (hne i hi h)).trans hu

theorem tget_cellsAsSet_other {r : Req} {p k : Nat} (h : ∀ j, j < 12 → bits (reqWord r 6) j j = 1 → k ≠ cellKey p j) (spc : Nat)
    (t : Tbl BalCell) : tget (cellsAsSet r p spc t) k = tget t k :=
  forEach_keeps_mem (P := fun u => tget u k = tget t k)
    (fun j hj _ hu => (tget_tmod_other _ _ _ _ _ (h j (mem_maskCells.mp hj).1 (mem_maskCells.mp hj).2)).trans hu) rfl

theorem answers_balSet_cells {r : Req} {s : State} {p : Nat} (h : Accepted (checksBalSet r s) r s) (hform : bits (reqWord r 4) 0 0 = 0)
    (hp : posParam s (reqWord r 5) = some p) :
    Answers (execBalSet r s) r ST_OK [] s { s with bal := { s.bal with cells := cellsAsSet r p s.spc s.bal.cells } } := by
  refine answers_now h (.inl rfl) ?_
  rintro _ ⟨tr, fr, ck, rfl⟩
  exact ⟨_, actBalSet_cells hform hp _, rfl, rfl, rfl⟩

/-! ### DIAG.OPENWIRE (R240) -/

theorem actDiagOpenwire_chain {r : Req} (hform : bits (reqWord r 4) 0 0 = 1) (s0 s : State) :
    actDiagOpenwire r s0 s = .now ST_OK []
      (putBalChain (reqWord r 5).toNat { balChain s (reqWord r 5).toNat with scan := (reqWord r 6).toNat } s) := by
  simp only [actDiagOpenwire, hform, beq_self_eq_true, if_true]
  rfl

theorem answers_diagOpenwire_chain {r : Req} {s : State} (h : Accepted (checksDiagOpenwire r s) r s) (hform : bits (reqWord r 4) 0 0 = 1) :
    Answers (execDiagOpenwire r s) r ST_OK [] s
      (putBalChain (reqWord r 5).toNat { balChain s (reqWord r 5).toNat with scan := (reqWord r 6).toNat } s) := by
  refine answers_now h (.inl rfl) ?_
  rintro _ ⟨tr, fr, ck, rfl⟩
  exact ⟨_, actDiagOpenwire_chain hform s _, rfl, rfl, rfl⟩

theorem actDiagOpenwire_tag {r : Req} {s0 : State} {p : Nat} (hform : bits (reqWord r 4) 0 0 = 0) (hp : posParam s0 (reqWord r 5) = some p)
    (s : State) :
    actDiagOpenwire r s0 s = .long p [] (modDiag p (fun d => { d with asked := d.asked ++ [((reqWord r 6).toNat, reqRef r)] }) s) := by
  simp only [actDiagOpenwire, hform, hp]
  rfl

theorem begins_diagOpenwire_tag {r : Req} {s : State} {p : Nat} (h : Accepted (checksDiagOpenwire r s) r s) (hform : bits (reqWord r 4) 0 0 = 0)
    (hp : posParam s (reqWord r 5) = some p) :
    Begins (execDiagOpenwire r s) r 0x0802 p [] s
      (modDiag p (fun d => { d with asked := d.asked ++ [((reqWord r 6).toNat, reqRef r)] }) s) := by
  refine answers_long h ?_
  rintro _ ⟨tr, fr, ck, rfl⟩
  exact ⟨_, actDiagOpenwire_tag hform hp _, rfl, rfl, rfl⟩

/-! ### Reports (R236, R254) -/

theorem reports_balStatus {r : Req} {s : State} (h : Accepted (checksBalStatus r s) r s) :
    Reports (execBalStatus r s) r 0x4B545354 8 0 (fun res _ => ∃ n, res = [wd n]) s s :=
  reports_of_emitStatus (op := 0x0801) h rfl fun _ _ => ⟨_, _, rfl, _, rfl⟩

theorem reports_diagTag {r : Req} {s : State} {p : Nat} (h : Accepted (checksDiagTag r s) r s) (hp : posParam s (reqWord r 4) = some p) :
    Reports (execDiagTag r s) r 0x4B545354 8 0 (fun res _ => res = [wd (diagOf s p).faults]) s s := by
  refine reports_of_emitStatus (op := 0x0803) h rfl ?_
  rintro _ ⟨tr, fr, rfl⟩
  simp only [actDiagTag, hp, Option.getD_some]
  exact ⟨_, _, rfl, rfl⟩

theorem reports_diagReport {r : Req} {s : State} (h : Accepted (checksDiagReport r s) r s) :
    Reports (execDiagReport r s) r 0x4B545354 8 0 (fun res _ => ∃ n, res = [wd n]) s s :=
  reports_of_emitStatus (op := 0x0804) h rfl fun _ _ => ⟨_, _, rfl, _, rfl⟩

/-- Settles O22: the loop of `BAL.SET` meets each cell of its mask once, and a key names one cell, so each is set from what it was and no other
key is touched; the chain forms replace one entry of the chains; the reports write one buffer. -/
theorem balanceCommands : Obligations.BalanceCommands := by
  unfold Obligations.BalanceCommands
  refine ⟨⟨fun r s h hform => ?chain, fun r s p h hform hp => ?cells, fun r s h hform => ?scan, fun r s p h hform hp => ?test⟩,
    fun r s h => ?status, fun r s p h hp => ?tag, fun r s h => ?report⟩
  case chain => exact answers_balSet_chain h hform
  case cells =>
    exact ⟨_, answers_balSet_cells h hform hp, fun j hj hmask => tget_cellsAsSet_named hj hmask p s.spc s.bal.cells,
      fun k hk => tget_cellsAsSet_other hk s.spc s.bal.cells⟩
  case scan => exact answers_diagOpenwire_chain h hform
  case test => exact begins_diagOpenwire_tag h hform hp
  case status => exact reports_balStatus h
  case tag => exact reports_diagTag h hp
  case report => exact reports_diagReport h

end Sys2Proof.Machine
end

section
/-! O23, frames: what the decision of a balance frame leaves of each cell (R231 to R235). -/

namespace Sys2Proof.Machine

/-! ### What a safety demand is read from, and events -/

/-- `t` has the line, the safety island and the time of `s`. -/
structure SamePlant (s t : State) : Prop where
  line : t.line = s.line
  safe : t.safe = s.safe
  time : t.time = s.time

theorem samePlant_refl (s : State) : SamePlant s s := ⟨rfl, rfl, rfl⟩

theorem samePlant_trans {a b c : State} (h : SamePlant a b) (g : SamePlant b c) : SamePlant a c :=
  ⟨g.line.trans h.line, g.safe.trans h.safe, g.time.trans h.time⟩

/-- Whether the safety island turns a tag off is read from the line, the island and the time. -/
theorem safetyOff_of_samePlant {s t : State} (h : SamePlant s t) (p : Nat) : safetyOff t p = safetyOff s p := by
  obtain ⟨hline, hsafe, htime⟩ := h
  cases s
  cases t
  cases hline
  cases hsafe
  cases htime
  rfl

theorem finished_raiseChi (chi named kind detail : Nat) (s : State) : Finished s (raiseChi chi named kind detail s) :=
  finished_raise (finished_refl s) ..

theorem bal_of_finished {s t : State} (h : Finished s t) : t.bal = s.bal := by
  obtain ⟨tr, fr, qs, un, rfl⟩ := h
  rfl

theorem samePlant_of_finished {s t : State} (h : Finished s t) : SamePlant s t := by
  obtain ⟨tr, fr, qs, un, rfl⟩ := h
  exact ⟨rfl, rfl, rfl⟩

theorem balCell_of_finished {s t : State} (h : Finished s t) (k : Nat) : balCell t k = balCell s k := by
  unfold balCell
  rw [bal_of_finished h]

/-! ### One cell -/

@[simp] theorem balCell_modCell_same (k : Nat) (f : BalCell → BalCell) (s : State) : balCell (modCell k f s) k = f (balCell s k) :=
  tgetD_tmod_same ..

theorem balCell_modCell_other {k i : Nat} (h : i ≠ k) (f : BalCell → BalCell) (s : State) : balCell (modCell k f s) i = balCell s i :=
  tgetD_tmod_other _ _ _ _ _ _ h

/-- What the decision of a frame in `s` leaves of a cell of `p`: the duty decided before comes into force; the next is none where the island
turns the tag off, where the cell is off, and where its time to live has run out, which turns it off. -/
def CellDecided (s : State) (p j : Nat) (d : BalCell) : Prop :=
  let c := balCell s (cellKey p j)
  d.duty = c.next ∧ (safetyOff s p = true → d.next = 0 ∧ d.cause = 1) ∧ (c.mode = .off → d.next = 0)
    ∧ (c.mode = .manual → c.ttlEnd ≤ s.time.spc + 200 → d.next = 0 ∧ d.mode = .off)

theorem cellDecided_of_samePlant {s t : State} (h : SamePlant s t) {p j : Nat} (hc : balCell t (cellKey p j) = balCell s (cellKey p j))
    {d : BalCell} (hd : CellDecided t p j d) : CellDecided s p j d := by
  unfold CellDecided at *
  rwa [hc, safetyOff_of_samePlant h, h.time] at hd

/-- The safety island is the first of the causes that force a duty to 0 (R233). -/
theorem forcedCause_of_safetyOff {s : State} {p : Nat} (h : safetyOff s p = true) (j : Nat) : forcedCause s p j = 1 := if_pos h

/-- Deciding a cell replaces it, and may raise an event. -/
theorem decideCell_writes (p j : Nat) (ref : Int) (s : State) :
    ∃ d, CellDecided s p j d ∧ Finished (modCell (cellKey p j) (fun _ => d) s) (decideCell p j ref s) := by
  unfold decideCell
  extract_lets k c asked cause warm duty shown charge s1
  have hduty : duty ≤ asked := by
    simp only [duty]
    split
    · exact Nat.zero_le _
    · split
      · exact Nat.min_le_right ..
      · exact Nat.le_refl _
  refine ⟨_, ⟨rfl, fun hsafe => ?safe, fun hoff => ?off, fun hman httl => ?manual⟩,
    finished_ite _ (finished_raiseChi ..) (finished_refl s1)⟩
  case safe =>
    have hcause : cause = 1 := forcedCause_of_safetyOff hsafe j
    simp [duty, shown, hcause]
  case off =>
    have hasked : asked = 0 := by simp only [asked, c, k, hoff]
    exact Nat.le_zero.mp (hasked ▸ hduty)
  case manual =>
    have hasked : asked = 0 := by simp only [asked, c, k, hman]; exact if_pos httl
    exact ⟨Nat.le_zero.mp (hasked ▸ hduty), if_pos ⟨hman, httl⟩⟩

theorem samePlant_decideCell (p j : Nat) (ref : Int) (s : State) : SamePlant s (decideCell p j ref s) := by
  obtain ⟨d, -, hd⟩ := decideCell_writes p j ref s
  have hcell : SamePlant s (modCell (cellKey p j) (fun _ => d) s) := ⟨rfl, rfl, rfl⟩
  exact samePlant_trans hcell (samePlant_of_finished hd)

theorem balCell_decideCell_other {p j k : Nat} (h : k ≠ cellKey p j) (ref : Int) (s : State) :
    balCell (decideCell p j ref s) k = balCell s k := by
  obtain ⟨d, -, hd⟩ := decideCell_writes p j ref s
  exact (balCell_of_finished hd k).trans (balCell_modCell_other h ..)

theorem cellDecided_decideCell (p j : Nat) (ref : Int) (s : State) : CellDecided s p j (balCell (decideCell p j ref s) (cellKey p j)) := by
  obtain ⟨d, hdec, hd⟩ := decideCell_writes p j ref s
  rwa [balCell_of_finished hd, balCell_modCell_same]

/-- The plant is that of `s`, and the cell of key `k` is as `R` says. -/
def CellAt (s : State) (k : Nat) (R : BalCell → Prop) (t : State) : Prop := SamePlant s t ∧ R (balCell t k)

theorem cellAt_decideCell_other {s t : State} {p j k : Nat} {R : BalCell → Prop} (h : k ≠ cellKey p j) (ref : Int) (ht : CellAt s k R t) :
    CellAt s k R (decideCell p j ref t) :=
  ⟨samePlant_trans ht.1 (samePlant_decideCell ..), (balCell_decideCell_other h ref t).symm ▸ ht.2⟩

theorem cellAt_decideCell_same {s t : State} {p j : Nat} (ref : Int) (ht : CellAt s (cellKey p j) (· = balCell s (cellKey p j)) t) :
    CellAt s (cellKey p j) (CellDecided s p j) (decideCell p j ref t) :=
  ⟨samePlant_trans ht.1 (samePlant_decideCell ..), cellDecided_of_samePlant ht.1 ht.2 (cellDecided_decideCell p j ref t)⟩

/-! ### The cells of a tag and of all tags -/

/-- The cells of one CT12 decided. -/
def decideTag (p : Nat) (ref : Int) (s : State) : State := forEach (List.range 12) s fun j t => decideCell p j ref t

theorem cellAt_decideTag_other {s t : State} {p q j : Nat} {R : BalCell → Prop} (hj : j < 12) (h : q ≠ p) (ref : Int)
    (ht : CellAt s (cellKey p j) R t) : CellAt s (cellKey p j) R (decideTag q ref t) :=
  forEach_keeps_mem (fun _ hi _ hu => cellAt_decideCell_other (fun e => h ((cellKey_inj hj (List.mem_range.mp hi)).mp e).1.symm) ref hu) ht

theorem cellAt_decideTag_same {s t : State} {p j : Nat} (hj : j < 12) (ref : Int)
    (ht : CellAt s (cellKey p j) (· = balCell s (cellKey p j)) t) : CellAt s (cellKey p j) (CellDecided s p j) (decideTag p ref t) := by
  have hne : ∀ i ∈ List.range 12, i ≠ j → cellKey p j ≠ cellKey p i := fun i hi h e =>
    h ((cellKey_inj hj (List.mem_range.mp hi)).mp e).2.symm
  exact forEach_reaches_once List.nodup_range (List.mem_range.mpr hj) (fun i hi h _ hu => cellAt_decideCell_other (hne i hi h) ref hu)
    (fun _ hu => cellAt_decideCell_same ref hu) (fun i hi h _ hu => cellAt_decideCell_other (hne i hi h) ref hu) ht

/-- The CT12s of the device. -/
def cellTags (s : State) : List Nat := tkeys s.line.posns fun _ x => x.kind == .ct12

theorem nodup_cellTags {s : State} (h : (s.line.posns.map (·.1)).Nodup) : (cellTags s).Nodup :=
  h.sublist (List.filter_sublist.map _)

/-- Every cell decided, against the reference that its group has before. -/
def decideCells (s : State) : State := forEach (cellTags s) s fun p t => decideTag p (groupRef s p) t

theorem cellAt_decideCells {s : State} (hnd : (s.line.posns.map (·.1)).Nodup) {p j : Nat} (hp : p ∈ cellTags s) (hj : j < 12) :
    CellAt s (cellKey p j) (CellDecided s p j) (decideCells s) :=
  forEach_reaches_once (nodup_cellTags hnd) hp (fun _ _ h _ hu => cellAt_decideTag_other hj h _ hu)
    (fun _ hu => cellAt_decideTag_same hj _ hu) (fun _ _ h _ hu => cellAt_decideTag_other hj h _ hu)
    (s := s) (P := CellAt s (cellKey p j) (· = balCell s (cellKey p j))) ⟨samePlant_refl s, rfl⟩

theorem samePlant_decideCells (s : State) : SamePlant s (decideCells s) :=
  forEach_keeps (SamePlant s) _ s _ (fun _ t ht => forEach_keeps (SamePlant s) _ t _
    (fun _ _ hu => samePlant_trans hu (samePlant_decideCell ..)) ht) (samePlant_refl s)

/-! ### The frame -/

/-- The quiet windows of frame `f` placed. -/
def placeQuiets (f : Nat) (ps : List Nat) (s : State) : State := forEach ps s fun p s => placeQuiet p f s

/-- Placing quiet windows writes the diagnostics of tags alone. -/
theorem placeQuiets_writes (f : Nat) (ps : List Nat) (s : State) :
    ∃ tags, placeQuiets f ps s = { s with bal := { s.bal with tags := tags } } :=
  forEach_keeps (fun t => ∃ tags, t = { s with bal := { s.bal with tags := tags } }) ps s _
    (by rintro p _ ⟨tags, rfl⟩; exact ⟨_, rfl⟩) ⟨s.bal.tags, rfl⟩

theorem decideFrame_due {s : State} (h : s.bal.frame ≤ (s.time.spc + 200) / 3200) :
    ∃ tags, decideFrame s = { decideCells s with
      bal := { (decideCells s).bal with tags := tags, frame := (s.time.spc + 200) / 3200 + 1 } } := by
  obtain ⟨tags, htags⟩ := placeQuiets_writes ((s.time.spc + 200) / 3200) (cellTags s) (decideCells s)
  refine ⟨tags, (if_neg (Nat.not_lt.mpr h)).trans ?_⟩
  exact congrArg (fun t : State => { t with bal := { t.bal with frame := (s.time.spc + 200) / 3200 + 1 } }) htags

theorem balanceFrameBoundary_decides {s : State} (hup : s.boot.phase = .running) (hframe : s.bal.frame ≤ (s.time.spc + 200) / 3200)
    (hnd : (s.line.posns.map (·.1)).Nodup) :
    ∃ t, execBalanceFrameBoundary s = .next t ∧ t.bal.frame = (s.time.spc + 200) / 3200 + 1
      ∧ (∀ p ∈ cellTags s, ∀ j, j < 12 → CellDecided s p j (balCell t (cellKey p j)))
      ∧ t.line = s.line ∧ t.safe = s.safe ∧ t.time = s.time := by
  obtain ⟨tags, hdec⟩ := decideFrame_due hframe
  obtain ⟨hline, hsafe, htime⟩ := samePlant_decideCells s
  refine ⟨decideFrame s, congrArg _ (if_pos (up_of_running hup)), ?_⟩
  rw [hdec]
  exact ⟨rfl, fun p hp j hj => (cellAt_decideCells hnd hp hj).2, hline, hsafe, htime⟩

/-! ### The time to live (R234) -/

theorem balanceTtlExpiry_ended {pos cell : Nat} {s : State} (hpos : posExists s pos = true) (hcell : cell < 12) (hup : s.boot.phase = .running)
    (hmode : (balCell s (cellKey pos cell)).mode = .manual) (hend : (balCell s (cellKey pos cell)).ttlEnd ≤ s.time.spc) :
    execBalanceTtlExpiry pos cell s = .next (modCell (cellKey pos cell) (fun c => { c with mode := .off, host := 0 }) s) := by
  have hend' : decide ((balCell s (cellKey pos cell)).ttlEnd ≤ s.spc) = true := decide_eq_true hend
  simp only [execBalanceTtlExpiry, hpos, decide_eq_true hcell, up_of_running hup, hmode, hend', beq_self_eq_true, Bool.and_self, if_true,
    onObject_true]

end Sys2Proof.Machine
end

section
/-! O23, wires: what a test's result and the passive classification leave of the diagnostics of tags (R242 to R245, R249). -/

namespace Sys2Proof.Machine

/-! ### What work on one tag keeps -/

theorem diagOf_modDiag_other {p q : Nat} (h : q ≠ p) (f : TagDiag → TagDiag) (s : State) : diagOf (modDiag p f s) q = diagOf s q :=
  tgetD_tmod_other _ _ _ _ _ _ h

theorem diagOf_of_finished {s t : State} (h : Finished s t) (p : Nat) : diagOf t p = diagOf s p := by
  unfold diagOf
  rw [bal_of_finished h]

/-- Line and safety island are those of `s`, and so are the diagnostics of every tag but `p`, of which `g` is kept. -/
structure OnTag {β : Type} (p : Nat) (g : TagDiag → β) (s t : State) : Prop where
  line : t.line = s.line
  safe : t.safe = s.safe
  others : ∀ q, q ≠ p → diagOf t q = diagOf s q
  kept : g (diagOf t p) = g (diagOf s p)

section
variable {β : Type} {p : Nat} {g : TagDiag → β}

theorem onTag_refl (s : State) : OnTag p g s s := ⟨rfl, rfl, fun _ _ => rfl, rfl⟩

theorem onTag_modDiag {s t : State} (h : OnTag p g s t) {f : TagDiag → TagDiag} (hf : ∀ d, g (f d) = g d) : OnTag p g s (modDiag p f t) := by
  obtain ⟨hline, hsafe, hothers, hkept⟩ := h
  refine ⟨hline, hsafe, fun q hq => (diagOf_modDiag_other hq f t).trans (hothers q hq), ?_⟩
  rw [diagOf_modDiag_same, hf, hkept]

theorem onTag_finished {s t u : State} (h : OnTag p g s t) (hu : Finished t u) : OnTag p g s u := by
  obtain ⟨hline, hsafe, hothers, hkept⟩ := h
  have hplant := samePlant_of_finished hu
  refine ⟨hplant.line.trans hline, hplant.safe.trans hsafe, fun q hq => (diagOf_of_finished hu q).trans (hothers q hq), ?_⟩
  rw [diagOf_of_finished hu, hkept]

theorem onTag_ite {s a b : State} (c : Prop) [Decidable c] (ha : OnTag p g s a) (hb : OnTag p g s b) : OnTag p g s (if c then a else b) := by
  split <;> assumption

/-- A fault writes the tag's faults and raises an event. -/
theorem onTag_setFault {s t : State} (h : OnTag p g s t) (hg : ∀ d n, g { d with faults := n } = g d) (i : Nat) (on : Bool) :
    OnTag p g s (setFault p i on t) :=
  onTag_ite _ h (onTag_finished (onTag_modDiag h fun _ => hg ..) (finished_raiseChi ..))

/-- A check writes the counts of a fault, and perhaps the fault. -/
theorem onTag_tagCheck {s t : State} (h : OnTag p g s t)
    (hg : ∀ d n a b, g { d with faults := n, failing := a, passing := b } = g d) (i n : Nat) (bad : Bool) :
    OnTag p g s (tagCheck p i n bad t) := by
  have hfault : ∀ d n, g { d with faults := n } = g d := fun d n => hg d n d.failing d.passing
  have hcounted := onTag_modDiag h (f := fun d =>
    { d with
      failing := tset d.failing i (if bad then tgetD d.failing i 0 + 1 else 0)
      passing := tset d.passing i (if bad then 0 else tgetD d.passing i 0 + 1) }) fun d => hg d d.faults _ _
  exact onTag_ite _ (onTag_setFault hcounted hfault ..) (onTag_ite _ (onTag_setFault hcounted hfault ..) hcounted)

/-- What becomes of a test's command writes the place in the scan and the tests asked for. -/
theorem onTag_closeTest {s t : State} (h : OnTag p g s t) (hg : ∀ d o w a, g { d with owed := o, nextWire := w, asked := a } = g d)
    (target : Nat) (why : TestWhy) (again : Bool) : OnTag p g s (closeTest p target why again t) := by
  unfold closeTest
  cases why with
  | asked =>
    dsimp only
    cases (diagOf t p).asked with
    | nil => exact h
    | cons a r =>
      exact onTag_ite _ h (onTag_finished (onTag_modDiag h fun d => hg d d.owed d.nextWire r) (finished_finish (finished_refl _) ..))
  | routine => exact onTag_ite _ (onTag_modDiag h fun d => hg d true target d.asked) h
  | confirm => exact h
  | clear => exact h

end

/-! ### The result of a test (R242) -/

/-- The quiet window of a tag and its count of tests. -/
def quietAndRun (d : TagDiag) : Option (Nat × QuietUse) × Nat := (d.quiet, d.run)

theorem quietAndRun_learnWire (l : List (Nat × Int)) (d : TagDiag) : quietAndRun (l.foldl learnWire d) = quietAndRun d := by
  induction l generalizing d with
  | nil => rfl
  | cons e l ih => exact ih (learnWire d e)

section
variable {p : Nat} {s t : State}

theorem onTag_passTest (h : OnTag p quietAndRun s t) (tw target : Nat) (x : WireTest) : OnTag p quietAndRun s (passTest p tw target x t) := by
  unfold passTest
  extract_lets s1
  have h1 : OnTag p quietAndRun s s1 := onTag_modDiag h fun d => (quietAndRun_learnWire (wireEstimates tw x) d :)
  exact onTag_setFault h1 (fun _ _ => rfl) ..

theorem onTag_openTest (h : OnTag p quietAndRun s t) (tw target : Nat) (x : WireTest) : OnTag p quietAndRun s (openTest p tw target x t) := by
  unfold openTest
  extract_lets s1
  have h1 : OnTag p quietAndRun s s1 := onTag_modDiag h fun _ => rfl
  cases namedWire tw x with
  | none => exact onTag_modDiag h1 fun _ => rfl
  | some w =>
    exact onTag_ite _ (onTag_modDiag h1 fun _ => rfl) (onTag_ite _ (onTag_modDiag h1 fun _ => rfl)
      (onTag_ite _ (onTag_modDiag h1 fun _ => rfl) (onTag_modDiag h1 fun _ => rfl)))

theorem onTag_invalidTest (h : OnTag p quietAndRun s t) (target : Nat) : OnTag p quietAndRun s (invalidTest p target t) := by
  have h1 : OnTag p quietAndRun s (modDiag p (fun d =>
    { d with
      invalid := d.invalid + 1, invalidRun := d.invalidRun + 1
      suspect := tupd d.suspect target (fun _ => 0), broken := tupd d.broken target (fun _ => 0) }) t) := onTag_modDiag h fun _ => rfl
  exact onTag_ite _ (onTag_setFault h1 (fun _ _ => rfl) ..) h1

end

/-- A tag whose test has run: its quiet window is free. -/
def testRun (p : Nat) (s : State) : State := modDiag p (fun d => { d with quiet := none, run := d.run + 1 }) s

/-- Judging a test leaves the window free and counts it once, whatever the result. -/
theorem onTag_judgeTest (p tw target : Nat) (why : TestWhy) (x : WireTest) (s : State) :
    OnTag p quietAndRun (testRun p s) (judgeTest p tw target why x s) := by
  have hclose {t : State} (again : Bool) (h : OnTag p quietAndRun (testRun p s) t) :
      OnTag p quietAndRun (testRun p s) (closeTest p target why again t) :=
    onTag_closeTest h (fun _ _ _ _ => rfl) ..
  have hrun : OnTag p quietAndRun (testRun p s) (testRun p s) := onTag_refl _
  refine onTag_ite _ ?spoilt (onTag_ite _ ?opened (onTag_ite _ ?passed ?invalid))
  case spoilt => exact hclose true (onTag_modDiag hrun fun _ => rfl)
  case opened => exact hclose false (onTag_openTest hrun ..)
  case passed =>
    have hpass : OnTag p quietAndRun (testRun p s) (modDiag p
      (fun d => { d with passing := tset d.passing TF_TEST_SRC (tgetD d.passing TF_TEST_SRC 0 + 1) }) (passTest p tw target x (testRun p s))) :=
      onTag_modDiag (onTag_passTest hrun ..) fun _ => rfl
    exact hclose false (onTag_ite _ (onTag_setFault hpass (fun _ _ => rfl) ..) hpass)
  case invalid => exact hclose false (onTag_modDiag (onTag_invalidTest hrun ..) fun _ => rfl)

/-- What tests have found of a tag, with their counts. -/
def findings (d : TagDiag) : Nat × Nat × Nat × Tbl Nat × Tbl Nat := (d.invalid, d.passed, d.opened, d.suspect, d.broken)

/-- A test with more than 2 gap samples counts as invalid and finds nothing. -/
theorem findings_judgeTest_gaps {x : WireTest} (h : 2 < x.gaps) (p tw target : Nat) (why : TestWhy) (s : State) :
    findings (diagOf (judgeTest p tw target why x s) p) = findings { diagOf s p with invalid := (diagOf s p).invalid + 1 } := by
  have hjudge : judgeTest p tw target why x s
      = closeTest p target why true (modDiag p (fun d => { d with invalid := d.invalid + 1 }) (testRun p s)) := if_pos (.inl h)
  rw [hjudge, (onTag_closeTest (g := findings) (onTag_refl _) (fun _ _ _ _ => rfl) target why true).kept, diagOf_modDiag_same, testRun,
    diagOf_modDiag_same]
  rfl

theorem execOpenWireResult_final {pos w tw target : Nat} {odd : Bool} {why : TestWhy} {s : State} (hpos : posExists s pos = true)
    (hup : s.boot.phase = .running) (hquiet : (diagOf s pos).quiet = some (w, .test tw target odd why)) (hw : w + 500 ≤ s.time.spc) :
    execOpenWireResult pos w s = .next (judgeTest pos tw target why (wireTestAt s pos w odd) s) := by
  have hw' : decide (w + 500 ≤ s.spc) = true := decide_eq_true hw
  simp only [execOpenWireResult, hpos, hquiet, up_of_running hup, hw', beq_self_eq_true, Bool.and_self, if_true, onObject_true]

theorem openWireResult_counts {pos w tw target : Nat} {odd : Bool} {why : TestWhy} {s : State} (hpos : posExists s pos = true)
    (hup : s.boot.phase = .running) (hquiet : (diagOf s pos).quiet = some (w, .test tw target odd why)) (hw : w + 500 ≤ s.time.spc) :
    ∃ t, execOpenWireResult pos w s = .next t ∧ (diagOf t pos).quiet = none ∧ (diagOf t pos).run = (diagOf s pos).run + 1
      ∧ (2 < (wireTestAt s pos w odd).gaps → (diagOf t pos).invalid = (diagOf s pos).invalid + 1 ∧ (diagOf t pos).passed = (diagOf s pos).passed
          ∧ (diagOf t pos).opened = (diagOf s pos).opened ∧ (diagOf t pos).suspect = (diagOf s pos).suspect
          ∧ (diagOf t pos).broken = (diagOf s pos).broken)
      ∧ (∀ p, p ≠ pos → diagOf t p = diagOf s p) ∧ t.line = s.line ∧ t.safe = s.safe := by
  obtain ⟨hline, hsafe, hothers, hkept⟩ := onTag_judgeTest pos tw target why (wireTestAt s pos w odd) s
  rw [testRun, diagOf_modDiag_same, quietAndRun, quietAndRun, Prod.mk.injEq] at hkept
  obtain ⟨hfree, hrun⟩ := hkept
  refine ⟨_, execOpenWireResult_final hpos hup hquiet hw, hfree, hrun, fun hgaps => ?_,
    fun p hp => (hothers p hp).trans (diagOf_modDiag_other hp ..), hline, hsafe⟩
  simpa only [findings, Prod.mk.injEq] using findings_judgeTest_gaps hgaps pos tw target why s

/-! ### The passive classification (R244, R249) -/

theorem thas_tset {α : Type} (t : Tbl α) (k j : Nat) (v : α) : thas (tset t k v) j = (decide (j = k) || thas t j) := by
  by_cases h : j = k
  · subst h
    simp [thas, tget_tset_same]
  · simp [thas, tget_tset_other _ _ _ _ h, h]

/-- A wire is suspect or confirmed broken. -/
def Doubted (p w : Nat) (s : State) : Prop := thas (diagOf s p).suspect w = true ∨ thas (diagOf s p).broken w = true

theorem diagOf_suspectWire (p w n : Nat) (passive : Bool) (s : State) :
    diagOf (suspectWire p w n passive s) p = if thas (diagOf s p).broken w || thas (diagOf s p).suspect w then diagOf s p
      else { diagOf s p with
        suspect := tset (diagOf s p).suspect w n
        passive := if passive then w :: (diagOf s p).passive else (diagOf s p).passive } :=
  diagOf_modDiag_same ..

theorem doubted_suspectWire_same (p w n : Nat) (passive : Bool) (s : State) : Doubted p w (suspectWire p w n passive s) := by
  rw [Doubted, diagOf_suspectWire]
  split
  case isTrue h => exact (Bool.or_eq_true _ _).mp ((Bool.or_comm _ _).trans h)
  case isFalse => exact .inl (by rw [thas_tset, decide_eq_true rfl, Bool.true_or])

theorem doubted_suspectWire {p v : Nat} {s : State} (h : Doubted p v s) (w n : Nat) (passive : Bool) : Doubted p v (suspectWire p w n passive s) := by
  rw [Doubted, diagOf_suspectWire]
  split
  · exact h
  · exact h.imp_left fun hv => by rw [thas_tset, hv, Bool.or_true]

/-- The means of a tag's evaluation and its broken wires. -/
def evaluated (d : TagDiag) : List Rat × Tbl Nat := (d.means, d.broken)

theorem onTag_suspectWire {p : Nat} {s t : State} (h : OnTag p evaluated s t) (w n : Nat) (passive : Bool) :
    OnTag p evaluated s (suspectWire p w n passive t) :=
  onTag_modDiag h fun d => by split <;> rfl

/-- Wires of a tag made suspect by R244 alone. -/
def suspectWires (p : Nat) (ws : List Nat) (s : State) : State := forEach ws s fun w s => suspectWire p w 0 true s

theorem onTag_suspectWires {p : Nat} {s t : State} (h : OnTag p evaluated s t) (ws : List Nat) : OnTag p evaluated s (suspectWires p ws t) :=
  forEach_keeps (OnTag p evaluated s) ws t _ (fun w _ hu => onTag_suspectWire hu w 0 true) h

theorem doubted_suspectWires {p w : Nat} {ws : List Nat} (hw : w ∈ ws) (s : State) : Doubted p w (suspectWires p ws s) :=
  forEach_reaches (P := fun _ => True) (Q := Doubted p w) (f := fun w s => suspectWire p w 0 true s) (fun _ _ _ _ => trivial)
    (fun t _ => doubted_suspectWire_same p w 0 true t) (fun v _ ht => doubted_suspectWire ht v 0 true) hw trivial

/-- The means of an evaluation noted. -/
def noteMeans (p : Nat) (l : List Rat) (s : State) : State := modDiag p (fun d => { d with means := l }) s

/-- Whether an evaluation of a tag's wires is suspended: an outer wire is confirmed broken, or there is nothing to evaluate. -/
def Suspended (s : State) (p : Nat) (x : PassiveStats) : Prop := 0 ∈ brokenWires s p ∨ 12 ∈ brokenWires s p ∨ x.means = []

/-- The difference between the stack and its cells noted, and its check where it is due (R252). -/
def checkStack (p : Nat) (x : PassiveStats) (ws : List Nat) (s : State) : State :=
  let t := modDiag p (fun d => { d with stack := (nearestInt x.stackDiff :: d.stack).take 10 }) s
  let d := diagOf t p
  if d.stack.length < 10 || !ws.isEmpty || !d.suspect.isEmpty then t
  else tagCheck p TF_STACK_DIS 1 (decide (2000000 < d.stack.sum.natAbs)) t

/-- The means of a tag's evaluation, and what is known of its wires. -/
def wiresKnown (d : TagDiag) : List Rat × Tbl Nat × Tbl Nat := (d.means, d.suspect, d.broken)

theorem onTag_checkStack (p : Nat) (x : PassiveStats) (ws : List Nat) (s : State) : OnTag p wiresKnown s (checkStack p x ws s) := by
  have hstack : OnTag p wiresKnown s (modDiag p (fun d => { d with stack := (nearestInt x.stackDiff :: d.stack).take 10 }) s) :=
    onTag_modDiag (onTag_refl s) fun _ => rfl
  exact onTag_ite _ hstack (onTag_tagCheck hstack (fun _ _ _ _ => rfl) ..)

section
variable {pos k : Nat} {s : State} (hpos : posExists s pos = true) (hup : s.boot.phase = .running) (hspc : s.time.spc = 10000 * k)
  (hkind : (posOf s pos).kind = .ct12) (hreleased : (posOf s pos).state = .released)
include hpos hup hspc hkind hreleased

theorem execPassiveClassification_suspended (h : Suspended s pos (passiveStats (diagOf s pos) k)) :
    execPassiveClassification pos k s = .next (noteMeans pos (passiveStats (diagOf s pos) k).means s) := by
  have hspc' : s.spc = 10000 * k := hspc
  have hsus : ((brokenWires s pos).contains 0 || (brokenWires s pos).contains 12 || (passiveStats (diagOf s pos) k).means.isEmpty) = true := by
    simpa [Suspended, or_assoc] using h
  simp only [execPassiveClassification, hpos, up_of_running hup, hspc', hkind, hreleased, hsus, beq_self_eq_true, Bool.and_self, if_true,
    onObject_true]
  rfl

theorem execPassiveClassification_judged (h : ¬ Suspended s pos (passiveStats (diagOf s pos) k)) :
    let x := passiveStats (diagOf s pos) k
    execPassiveClassification pos k s
      = .next (checkStack pos x (passiveWires x) (suspectWires pos (passiveWires x) (noteMeans pos x.means s))) := by
  have hspc' : s.spc = 10000 * k := hspc
  have hsus : ((brokenWires s pos).contains 0 || (brokenWires s pos).contains 12 || (passiveStats (diagOf s pos) k).means.isEmpty) = false := by
    simpa [Suspended, and_assoc] using h
  simp only [execPassiveClassification, hpos, up_of_running hup, hspc', hkind, hreleased, hsus, beq_self_eq_true, Bool.and_self, if_true,
    onObject_true, Bool.false_eq_true, if_false]
  rfl

theorem passiveClassification_classifies :
    let x := passiveStats (diagOf s pos) k
    ∃ t, execPassiveClassification pos k s = .next t ∧ (diagOf t pos).means = x.means
      ∧ (¬ Suspended s pos x → ∀ w ∈ passiveWires x, Doubted pos w t) ∧ (Suspended s pos x → (diagOf t pos).suspect = (diagOf s pos).suspect)
      ∧ (diagOf t pos).broken = (diagOf s pos).broken ∧ (∀ p, p ≠ pos → diagOf t p = diagOf s p) ∧ t.line = s.line ∧ t.safe = s.safe := by
  intro x
  have hmeans : diagOf (noteMeans pos x.means s) pos = { diagOf s pos with means := x.means } := diagOf_modDiag_same ..
  have hothers : ∀ p, p ≠ pos → diagOf (noteMeans pos x.means s) p = diagOf s p := fun p hp => diagOf_modDiag_other hp ..
  by_cases hsus : Suspended s pos x
  · refine ⟨_, execPassiveClassification_suspended hpos hup hspc hkind hreleased hsus, ?_, (absurd hsus ·), fun _ => ?_, ?_, hothers, rfl, rfl⟩
    all_goals rw [hmeans]
  · have hmarked := onTag_suspectWires (p := pos) (onTag_refl (noteMeans pos x.means s)) (passiveWires x)
    have hchecked := onTag_checkStack pos x (passiveWires x) (suspectWires pos (passiveWires x) (noteMeans pos x.means s))
    have hkept := hmarked.kept
    have hknown := hchecked.kept
    simp only [evaluated, hmeans, Prod.mk.injEq] at hkept
    simp only [wiresKnown, Prod.mk.injEq] at hknown
    obtain ⟨hmeans1, hbroken1⟩ := hkept
    obtain ⟨hmeans2, hsuspect2, hbroken2⟩ := hknown
    refine ⟨_, execPassiveClassification_judged hpos hup hspc hkind hreleased hsus, hmeans2.trans hmeans1, fun _ w hw => ?_, (absurd · hsus),
      hbroken2.trans hbroken1, fun p hp => (hchecked.others p hp).trans ((hmarked.others p hp).trans (hothers p hp)),
      hchecked.line.trans hmarked.line, hchecked.safe.trans hmarked.safe⟩
    rw [Doubted, hsuspect2, hbroken2]
    exact doubted_suspectWires hw _

end

/-- Settles O23: each cell is decided once, in a round that only its own key meets, from what the frame found of it; judging a test and classifying
passively are work on one tag that keeps what it does not name. -/
theorem balanceAndWireRows : Obligations.BalanceAndWireRows := by
  unfold Obligations.BalanceAndWireRows
  refine ⟨⟨fun s hup hframe hnd => ?frame, fun pos cell s hpos hcell hup hmode hend => ?expiry⟩,
    fun pos w tw target odd why s hpos hup hquiet hw => ?test, fun pos k s hpos hup hspc hkind hreleased => ?passive⟩
  case frame => exact balanceFrameBoundary_decides hup hframe hnd
  case expiry => exact balanceTtlExpiry_ended hpos hcell hup hmode hend
  case test => exact openWireResult_counts hpos hup hquiet hw
  case passive =>
    obtain ⟨t, hnext, hmeans, hdoubted, hsuspended, hrest⟩ := passiveClassification_classifies hpos hup hspc hkind hreleased
    refine ⟨t, hnext, hmeans, fun h0 h12 hne => hdoubted ?_, hsuspended, hrest⟩
    simp only [Suspended, h0, h12, hne, or_self, not_false_eq_true]

end Sys2Proof.Machine
end
